-- ==== Sys2Proof/Word.lean ====
section
/-! DEFINITION. The word types of the UT4896 (R17) and the sparse store that holds its registers, tables and memories. -/

namespace Sys2Proof

/-- A 32-bit register (R9). -/
abbrev W32 := BitVec 32
/-- A word: 48 bits unless a width is stated (R17). -/
abbrev W48 := BitVec 48
/-- A 64-bit slot or device time (R4, R17). -/
abbrev W64 := BitVec 64
/-- Device time with its 32-bit fraction (R37). -/
abbrev W96 := BitVec 96

/-- A sparse store: what each listed key holds. Every key that is not listed holds the store's default.
In its canonical form the keys rise strictly and no entry equals the default of its key. -/
abbrev Mem (α : Type) := List (Nat × α)

end Sys2Proof
end

