-- ==== Sys2Proof/Syntax.lean ====
section
/-! DEFINITION. The commands of the UT4896: one constructor of `Instr` for each row of the opcode table, and the data they carry. -/

namespace Sys2Proof

/-- The access paths that reach the registers (R11). -/
inductive Path where
  | pcie | hsp | twt | ranger
  deriving DecidableEq, Repr, Inhabited

/-- The time qualities (R45), best first. -/
inductive Quality where
  | fine | wake | coarse | held
  deriving DecidableEq, Repr, Inhabited

/-- A value with its stamp, quality and flags (R20, R94, R220). -/
structure Sample where
  value : W48 := 0
  stamp : W64 := 0
  qual : Quality := .fine
  sat : Bool := false
  ovr : Bool := false
  filled : Bool := false
  /-- Time steps applied before the stamp was taken (R53: the pre-step flag). -/
  era : W32 := 0
  deriving DecidableEq, Repr, Inhabited

/-- A run of refused samples of one stream (R95, R361). -/
structure RefRun where
  first : W64 := 0
  last : W64 := 0
  count : Nat := 0
  reason : Nat := 0
  qual : Quality := .fine
  era : W32 := 0
  deriving DecidableEq, Repr, Inhabited

/-- What a two-wire port saw on its bus while it ran one entry (R115–R120). -/
structure BusTrace where
  /-- SDA was low when the port was about to START, and still low after the bus clear (R119). -/
  sdaLow : Bool := false
  sdaStuck : Bool := false
  /-- The write address, each command byte, and the read address were acknowledged. -/
  ackWrite : Bool := true
  ackCmd : List Bool := []
  ackRead : Bool := true
  /-- A START or STOP not made by the port appeared within a byte. -/
  busErr : Bool := false
  /-- Bytes read, the PEC byte last when one is read. -/
  bytes : List (BitVec 8) := []
  deriving DecidableEq, Repr, Inhabited

/-- What SECDED finds in the word a scrub reads (R233, R259, R265, R491). -/
inductive Ecc where
  | clean | corrected | uncorrectable
  deriving DecidableEq, Repr, Inhabited

/-- The straps sampled at reset (R470, R526): role 0 single, 1 primary, 2 secondary; position; sources. -/
structure Straps where
  role : Nat := 0
  pos : Nat := 0
  bootRing : Bool := false
  twtA : Nat := 0
  deriving DecidableEq, Repr, Inhabited

/-- A hub of the ring as its admission sees it: position, host link as ADM_STAT codes it, and configuration image (R330). -/
structure HubView where
  pos : Nat
  linkGen : Nat := 0
  linkW : Nat := 0
  image : List (BitVec 8) := []
  deriving DecidableEq, Repr, Inhabited

/-- A Bight ring frame as it leaves a port (R474): its link sequence number is its place in the replay buffer. -/
structure BFrame where
  kind : Nat := 0
  src : Nat := 0
  dst : Nat := 0
  info : W32 := 0
  payload : List W48 := []
  deriving DecidableEq, Repr, Inhabited

/-- A broadcast trigger block (R479). -/
structure BTrig where
  chan : Nat := 0
  origin : Nat := 0
  time : W48 := 0
  deriving DecidableEq, Repr, Inhabited

/-- The commands, in the order of the opcode table. Each docstring names the row and its rule. -/
inductive Instr where
  /-- POWER_UP (R529): The power-on detector releases the hub once VDD_AON rises above 0.72 V; this also clears the freeze record. -/
  | powerUp (x : Straps)
  /-- RESET_N (R528): A filtered low pulse on RESET_N resets every block except the freeze record. -/
  | resetN (ns : Nat) (x : Straps)
  /-- START_UP (R527): The internal reset ends at the crystal edge after 1,024 crystal cycles and PLL lock, and device time starts from zero. -/
  | startUp
  /-- IMAGE_LOAD (R440): Ranger reads, checks and applies the configuration image from flash in the order of the load steps. -/
  | imageLoad (received : List (BitVec 8))
  /-- ADMISSION (R320): Admission books every stream in order, chooses the deepest state and publishes the bounds and refusals. -/
  | admission (others : List HubView) (missing : List Nat) (pins : Nat)
  /-- CFG_RELOAD (R444): A CFG_CMD write with the reload key stops the sources and begins the warm restart. -/
  | cfgReload (path : Path) (v : W32)
  /-- RELOAD_RESTART (R35): Once every in-flight sample is delivered and the indices are published, the blocks restart from the image load. -/
  | reloadRestart
  /-- TRIM_RECOMPUTATION (R40): After every 4,096 crystal edges, TB_TRIM is recomputed from the fast-counter advance and clamped. -/
  | trimRecomputation (delta : Nat)
  /-- WOSC_CALIBRATION (R41): After every 4,096 crystal cycles, TB_WOSC_PER is recomputed from the WOSC count. -/
  | woscCalibration (n : Nat)
  /-- HAND_OVER (R43): After PLL lock on a wake from S2 or S3, the TDC measures the phase and the fast counter is loaded from the accumulator. -/
  | handOver (d : Nat)
  /-- PPS_EDGE (R49): A PPS_IN edge is stamped, judged valid or not, and sets the expected instant X. -/
  | ppsEdge (rising : Bool) (w : Nat)
  /-- REF_INTERVAL (R49): The end of 10,000,000 REF_IN cycles yields a frequency measurement, or a miss. -/
  | refInterval (cycles : Nat) (present : Bool)
  /-- TB_ADJ (R49): A host phase-error write provides a HOST measurement when SRC = 4, and is otherwise ignored and counted. -/
  | tbAdj (path : Path) (e : W32)
  /-- MISS (R49): No valid measurement arrives by the deadline, and a discipline miss is counted. -/
  | miss
  /-- STEP_ABS (R52): TB_CMD OP 1 schedules device time to be set to the held value at T_apply. -/
  | stepAbs (path : Path)
  /-- STEP_REL (R52): TB_CMD OP 2 schedules the held signed value to be added to device time at T_apply. -/
  | stepRel (path : Path)
  /-- STEP_APPLY (R53): At T_apply the hub closes batches, writes time-step records, increments TB_STEP_CNT and journals the step. -/
  | stepApply
  /-- EPOCH (R55): A change of device time bit 47 writes an epoch record into every ring in STATE ON. -/
  | epoch
  /-- SPLIT_LO_READ (R11): A read of a _LO register captures the whole quantity and holds the upper part for _HI on that path. -/
  | splitLoRead (path : Path) (a : Nat) (found : Ecc)
  /-- SPLIT_LO_WRITE (R12): A write to a _LO register is held for its quantity on that access path. -/
  | splitLoWrite (path : Path) (a : Nat) (v : W32)
  /-- SPLIT_HI_WRITE (R12): A write to _HI commits both halves when the path holds a _LO of the same quantity; otherwise it is ignored and counted. -/
  | splitHiWrite (path : Path) (a : Nat) (v : W32)
  /-- REGISTER_WRITE (R14): A write to a register without behaviour of its own is applied, or ignored and counted in SYS_WERR. -/
  | registerWrite (path : Path) (a : Nat) (v : W32)
  /-- PRESCALER_TICK (R64): The prescaler accumulator reaches dq and the timer ticks, advancing COUNT. -/
  | prescalerTick (n : Nat) (w : Nat)
  /-- OVERFLOW (R65): A tick at COUNT = TOP sets COUNT to 0. -/
  | overflow (n : Nat) (w : Nat)
  /-- MATCH (R68): A tick arrives at a compare value. -/
  | cmpMatch (n : Nat) (w : Nat)
  /-- CAPTURE (R72): A capture event copies COUNT into CAP_x and the short time into CAPT_x, setting CAPF or CAPOV. -/
  | capture (n : Nat) (b : Bool) (w : Nat)
  /-- START (R80): TMR_CMD START starts the named timer if it is not running. -/
  | start (path : Path) (n : Nat)
  /-- RESET (R80): TMR_CMD RESET clears COUNT and acc of the named timer. -/
  | timerReset (path : Path) (n : Nat)
  /-- RESET_START (R80): TMR_CMD RESET_START clears and starts the named timer. -/
  | resetStart (path : Path) (n : Nat)
  /-- STAGGER (R77): TMR_CMD STAGGER loads a group with spread phases and starts it, or is rejected. -/
  | stagger (path : Path) (base : Nat) (n : Nat)
  /-- CAPA (R71): TMR_CMD CAPA triggers a software capture into CAP_A when source 5 is selected. -/
  | capA (path : Path) (n : Nat)
  /-- CAPB (R71): TMR_CMD CAPB triggers a software capture into CAP_B when source 5 is selected. -/
  | capB (path : Path) (n : Nat)
  /-- CONVERTER_FRAME (R92): A received frame is checked in order and its samples are accepted, or it is discarded and counted. -/
  | converterFrame (n : Nat) (nibbles : List (BitVec 4)) (parity : Bool)
  /-- GAP_RUN_CLOSE (R95): A run of refused samples reaches half its stream's bound, and its gap record is formed. -/
  | gapRunClose (k : Nat)
  /-- PRESENCE_CONFIRMED (R100): Presence is debounced as an insertion; STATE becomes STARTING and CK starts. -/
  | presenceConfirmed (n : Nat)
  /-- INITIALISATION_LIST (R100): After the power-up wait, Ranger sends the converter initialisation commands and then SYNC_ASSIGN. -/
  | initialisationList (n : Nat)
  /-- CVP_COMMAND (R96): A command word and its CRC are sent on CVn_CMD, starting a transaction. -/
  | cvpCommand (path : Path) (n : Nat) (w : W32)
  /-- COMMAND_RESPONSE (R98): The end of a command transaction sets RES; commands are retried, or INITFAIL is set. -/
  | commandResponse (n : Nat) (bits : List Bool)
  /-- REMOVAL (R101): A high level on CVn_PRES_N discards the frame in progress and stops the port. -/
  | removal (n : Nat)
  /-- LIST_RUN (R114): A free port takes the next queued list and runs its entries in chain order. -/
  | listRun (p : Nat)
  /-- TWO_WIRE_ENTRY (R115): A two-wire poll entry runs its transaction and parses the values, or fails. -/
  | twoWireEntry (p : Nat) (bus : BusTrace)
  /-- SERIAL_ENTRY (R116): A serial poll entry runs its select, shift and release sequence and parses the values. -/
  | serialEntry (p : Nat) (bytes : List (BitVec 8))
  /-- ARBITRATION_LOST (R120): The port loses arbitration, releases SDA and retries after the STOP. -/
  | arbitrationLost (p : Nat)
  /-- STRTO (R118): A target holds SCL low beyond the stretch allowance, and the entry fails. -/
  | strto (p : Nat)
  /-- ALERT (R121): ALERT_N is seen low after ALERTMIN, and the alert list joins the queue. -/
  | alert (p : Nat)
  /-- ALERT_LIST (R121): The alert list reads the Alert Response Address, writes an event record and runs the matching entry. -/
  | alertList (p : Nat) (answer : Option (BitVec 8))
  /-- CANDIDATE (R127): An event pin edge that leaves the debounced level starts a debounce candidate. -/
  | candidate (n : Nat) (w : Nat)
  /-- EVP_CONFIRMED (R127): The candidate holds for DB crystal edges and is confirmed, queued, journalled and may wake the hub. -/
  | evpConfirmed (n : Nat) (w : Nat)
  /-- EVENT_QUEUE_DRAIN (R130): In S0 a pin or key queue passes one event per FCLK cycle to its stream. -/
  | eventQueueDrain (touch : Bool) (n : Nat)
  /-- TOUCH_MEASUREMENT (R132): A scan measures a key count and updates its baseline and run counts. -/
  | touchMeasurement (n : Nat) (c : BitVec 16)
  /-- PULSE_END (R135): The PW µs of a PULSE output expire, and the output returns inactive. -/
  | pulseEnd (n : Nat)
  /-- OPI_EVO_CLR (R135): A write clears the selected LATCH event outputs. -/
  | opiEvoClr (path : Path) (v : W32)
  /-- LOCK (R153): With detection held, the sync word is found, and the receiver locks and counts DET. -/
  | lock (n : Nat) (mq : Nat) (margin : Int) (metric : Int)
  /-- HEADER (R148): The robust header symbol is decoded and checked, and ends or continues the reception. -/
  | header (n : Nat) (h : BitVec 62) (rssi : BitVec 16) (snr : List Int)
  /-- RECEIVER_CAPTURE (R158): A stronger sync peak by CAPM or more captures the receiver from the current reception. -/
  | receiverCapture (n : Nat) (metric : Int)
  /-- PACKET_RECEIVED (R155): A packet's last symbol is decoded, and it is accepted or discarded on its CRC-24. -/
  | packetReceived (n : Nat) (data : List (BitVec 8)) (snr : List Int)
  /-- PACKET_TRANSMIT (R143): The hub sends a generation 2 packet with its reference instant on the scheduled tick. -/
  | packetTransmit (n : Nat)
  /-- NOISE_FLOOR_WINDOW (R157): An idle 256-sample window updates A_k and the noise floor. -/
  | noiseFloorWindow (n : Nat) (bins : List Rat) (gain : Nat)
  /-- G1_FRAME_RECEIVED (R161): A generation 1 frame is received, stamped and checked by CRC-16. -/
  | g1FrameReceived (n : Nat) (bytes : List (BitVec 8))
  /-- INRUSH_END (R162): The INRUSH ms expire; the short detector is armed and the step baseline is loaded. -/
  | inrushEnd (n : Nat) (code : Nat)
  /-- STEP_DETECTOR_ARM (R162): 1 ms after inrush, the current step detector is armed. -/
  | stepDetectorArm (n : Nat)
  /-- SHORT (R163): Current stays at or above SHORT_THR for SHORT_T; the feed drops and enters RETRY or SHORTLOCK. -/
  | short (n : Nat)
  /-- RETRY_RESTART (R163): RETRY_T expires and the feed restarts at step 1. -/
  | retryRestart (n : Nat)
  /-- CURRENT_STEP (R164): |x − B| ≥ STEP_THR for STEP_N cycles detects a join or leave candidate. -/
  | currentStep (n : Nat) (x : Rat)
  /-- CONTROL_SLOT (R186): At the control slot the hub sends at most one control packet, chosen by priority. -/
  | controlSlot (n : Nat)
  /-- JOIN_REQ (R177): A JOIN_REQ is received and queued for a JOIN_ACK. -/
  | joinReq (n : Nat)
  /-- DATA (R182): A DATA packet is received; its blocks are parsed into samples and the delay estimate is updated. -/
  | data (n : Nat)
  /-- NACK (R180): At a retry slot with no good primary packet, the hub sends NACK. -/
  | nack (n : Nat) (m : Nat) (g : Nat)
  /-- LEAVE (R190): A LEAVE received or sent returns the node to ABSENT. -/
  | leave (n : Nat)
  /-- NODE_TIMEOUT (R190): LOSS_N cycles or LOSS1_N polls fail, and the node leaves. -/
  | nodeTimeout (n : Nat) (m : Nat)
  /-- JOINFAIL (R178): No DATA arrives within 16 cycles after FIRST, and the node returns to ABSENT. -/
  | joinfail (n : Nat) (m : Nat)
  /-- TMFAIL (R185): No DATA under the new map arrives by ACTIVATE + 16, and the new map id is freed. -/
  | tmfail (n : Nat)
  /-- TONE_MAP_REBUILD (R184): The hub rebuilds a node's tone map from its SNR estimates. -/
  | toneMapRebuild (n : Nat) (m : Nat)
  /-- G1_POLL (R188): A generation 1 poll transaction starts at a cycle start. -/
  | g1Poll (n : Nat) (a : Nat)
  /-- NORESP (R187): No sync is found by 232 µs after the poll, and the poll fails. -/
  | noresp (n : Nat)
  /-- CHANNEL_VALUE (R198): A source value is calibrated, checked against limits and copied to streams, hooks and the chain. -/
  | channelValue (c : Nat) (raw : W48) (x : Sample)
  /-- RAINFLOW_SNAPSHOT (R231): After NSNAP inputs, the slot's matrix and residue are copied as a snapshot record. -/
  | rainflowSnapshot (slot : Nat)
  /-- GAP_NOTICE (R232): A gap notice restarts stages or holds them under GAPMODE. -/
  | gapNotice (c : Nat)
  /-- FE_SCRUB (R233): A coefficient memory word is scrubbed, and errors are corrected or handled. -/
  | feScrub (e : Nat) (w : Nat) (found : Ecc)
  /-- FLUSH_DEADLINE (R210): Device time reaches the first stamp plus FLUSH, and the open batch closes. -/
  | flushDeadline (k : Nat)
  /-- STAGER_WRITE (R340): The stager writes a ready record into its ring body in its turn. -/
  | stagerWrite
  /-- PERSIST (R342): A ring is still FULL after half its smallest bound, and a PERSIST gap record is written. -/
  | persist (r : Nat)
  /-- LEAVE_FULL (R343): Room for the deferred and gap records appears; they are written and the ring leaves FULL. -/
  | leaveFull (r : Nat)
  /-- DMA_ACKNOWLEDGE (R344): Acknowledgement of an index word's TLP advances RNGr_PROD of a MIRROR ring. -/
  | dmaAcknowledge (r : Nat)
  /-- CONSUMER_WRITE (R345): A host write to RNGr_CONS releases space, or is rejected with CONSERR. -/
  | consumerWrite (path : Path) (r : Nat) (c : W32)
  /-- DOORBELL (R350): An RNG_DB write wakes the hub. -/
  | doorbell (path : Path) (v : W32)
  /-- DOORBELL_FLUSH (R350): A doorbell with FLUSH = 1 closes the ring's open batches with DOORBELL. -/
  | doorbellFlush (path : Path) (v : W32)
  /-- DOORBELL_STATUS (R350): A doorbell with STATUS = 1 readies a status REQUEST record. -/
  | doorbellStatus (path : Path) (v : W32)
  /-- RELAY (R481): A RELAY frame fragment arrives at the primary; a whole record enters the destination ring. -/
  | relay (atD : Bool) (f : BFrame)
  /-- CREDIT (R481): A CREDIT frame grants a secondary words for a destination ring. -/
  | credit (atD : Bool) (f : BFrame)
  /-- CONFIRM (R481): A CONFIRM frame sets the RELAY ring's RNGr_PROD. -/
  | confirm (atD : Bool) (f : BFrame)
  /-- TRIGGER (R269): A trigger joins an engine's invocation queue or is refused. -/
  | trigger (e : Nat) (entry : Nat) (gap : Bool) (v0 : W48) (v1 : W48) (x : Sample)
  /-- INVOCATION_START (R270): A queued trigger at the head of an idle engine starts an invocation with four pushed words. -/
  | invocationStart (e : Nat)
  /-- NOP (R298): Does nothing. -/
  | nop (p : Nat)
  /-- DUP (R298): Duplicates the top word. -/
  | dup (p : Nat)
  /-- DROP (R298): Drops the top word. -/
  | drop (p : Nat)
  /-- SWAP (R298): Swaps the top two words. -/
  | swap (p : Nat)
  /-- OVER (R298): Copies the second word to the top. -/
  | overOp (p : Nat)
  /-- ROT (R298): Rotates the third word to the top. -/
  | rot (p : Nat)
  /-- NIP (R298): Removes the second word. -/
  | nip (p : Nat)
  /-- TUCK (R298): Copies the top word below the second. -/
  | tuck (p : Nat)
  /-- DEPTH (R298): Pushes the stack depth. -/
  | depth (p : Nat)
  /-- LIT8 (R298): Pushes a sign-extended 8-bit operand. -/
  | lit8 (p : Nat)
  /-- LITW (R291): Pushes the next IRAM word and skips to the word after it. -/
  | litw (p : Nat)
  /-- LITS (R298): Pushes a short literal from −16 to +15. -/
  | lits (p : Nat)
  /-- PICK (R298): Copies stack item k to the top. -/
  | pick (p : Nat)
  /-- ADD (R299): Wrapping addition. -/
  | add (p : Nat)
  /-- SUB (R299): Wrapping subtraction. -/
  | sub (p : Nat)
  /-- NEG (R299): Wrapping negation. -/
  | neg (p : Nat)
  /-- ABS (R299): Absolute value. -/
  | abs (p : Nat)
  /-- MUL (R299): Low 48 bits of the product. -/
  | mul (p : Nat)
  /-- MULH (R299): High 48 bits of the signed product. -/
  | mulh (p : Nat)
  /-- DIV (R299): Truncating division; DIVZ on zero. -/
  | div (p : Nat)
  /-- MOD (R299): Remainder with the sign of a; DIVZ on zero. -/
  | mod (p : Nat)
  /-- INC (R299): Adds one. -/
  | inc (p : Nat)
  /-- DEC (R299): Subtracts one. -/
  | dec (p : Nat)
  /-- MIN (R299): Minimum of two words. -/
  | min (p : Nat)
  /-- MAX (R299): Maximum of two words. -/
  | max (p : Nat)
  /-- AND (R300): Bitwise and. -/
  | andOp (p : Nat)
  /-- OR (R300): Bitwise or. -/
  | orOp (p : Nat)
  /-- XOR (R300): Bitwise exclusive or. -/
  | xorOp (p : Nat)
  /-- NOT (R300): Bitwise not. -/
  | notOp (p : Nat)
  /-- SHL (R300): Shifts left by a stack count. -/
  | shl (p : Nat)
  /-- SHR (R300): Logical right shift by a stack count. -/
  | shr (p : Nat)
  /-- SAR (R300): Arithmetic right shift by a stack count. -/
  | sar (p : Nat)
  /-- FIELD (R300): Extracts a bit field. -/
  | field (p : Nat)
  /-- POPC (R300): Counts the one bits. -/
  | popc (p : Nat)
  /-- CLZ (R300): Counts the leading zero bits. -/
  | clz (p : Nat)
  /-- SHLK (R300): Shifts left by a constant. -/
  | shlk (p : Nat)
  /-- SHRK (R300): Logical right shift by a constant. -/
  | shrk (p : Nat)
  /-- SARK (R300): Arithmetic right shift by a constant. -/
  | sark (p : Nat)
  /-- EQ (R301): Equality flag. -/
  | eqOp (p : Nat)
  /-- NE (R301): Inequality flag. -/
  | neOp (p : Nat)
  /-- LT (R301): Signed less-than flag. -/
  | ltOp (p : Nat)
  /-- LE (R301): Signed less-or-equal flag. -/
  | leOp (p : Nat)
  /-- GT (R301): Signed greater-than flag. -/
  | gtOp (p : Nat)
  /-- GE (R301): Signed greater-or-equal flag. -/
  | geOp (p : Nat)
  /-- ULT (R301): Unsigned less-than flag. -/
  | ult (p : Nat)
  /-- UGE (R301): Unsigned greater-or-equal flag. -/
  | uge (p : Nat)
  /-- ZEQ (R301): Zero flag. -/
  | zeq (p : Nat)
  /-- ZLT (R301): Negative flag. -/
  | zlt (p : Nat)
  /-- WITHIN (R301): Range flag. -/
  | within (p : Nat)
  /-- BRA (R302): Unconditional relative branch. -/
  | bra (p : Nat)
  /-- BZ (R302): Branches when the flag is zero. -/
  | bz (p : Nat)
  /-- BNZ (R302): Branches when the flag is non-zero. -/
  | bnz (p : Nat)
  /-- CALL (R302): Relative call. -/
  | call (p : Nat)
  /-- JMPI (R302): Jumps to a slot address taken from the stack. -/
  | jmpi (p : Nat)
  /-- CALLI (R302): Calls a slot address taken from the stack. -/
  | calli (p : Nat)
  /-- RET (R302): Returns, or ends the invocation when the return stack is empty. -/
  | ret (p : Nat)
  /-- END (R302): Ends the invocation. -/
  | endOp (p : Nat)
  /-- LD (R303): Loads from DRAM or a local register. -/
  | ld (p : Nat) (par : Bool)
  /-- ST (R303): Stores to DRAM or a local register, including CLAIM and COMPLETE. -/
  | st (p : Nat)
  /-- LDI (R303): Loads from an operand DRAM address. -/
  | ldi (p : Nat) (par : Bool)
  /-- STI (R303): Stores to an operand DRAM address. -/
  | sti (p : Nat)
  /-- LDP (R303): Loads and post-increments the address. -/
  | ldp (p : Nat) (par : Bool)
  /-- STP (R303): Stores and post-increments the address. -/
  | stp (p : Nat)
  /-- ADDM (R303): Adds to a DRAM word in place. -/
  | addm (p : Nat) (par : Bool)
  /-- GET (R304): Pushes a channel's latest calibrated value. -/
  | getOp (p : Nat)
  /-- GETT (R304): Pushes a channel's latest value and its stamp. -/
  | gett (p : Nat)
  /-- PUT (R304): Puts a value on an engine output. -/
  | put (p : Nat)
  /-- EMIT (R304): Emits a record of n payload words on an emit channel. -/
  | emit (p : Nat)
  /-- EVOA (R304): Asserts this engine's drive to an EVO pin. -/
  | evoa (p : Nat)
  /-- EVOD (R304): De-asserts this engine's drive to an EVO pin. -/
  | evod (p : Nat)
  /-- EVOCLR (R304): Clears a LATCH EVO output. -/
  | evoclr (p : Nat)
  /-- SWSET (R304): Sets a software ICU source. -/
  | swset (p : Nat)
  /-- SETLVL (R304): Writes a spectral set's LVL, clamped. -/
  | setlvl (p : Nat)
  /-- NOW (R305): Pushes the short time. -/
  | now (p : Nat)
  /-- NOWF (R305): Pushes the short time and device time [63:48]. -/
  | nowf (p : Nat)
  /-- TICK (R305): Gives one clock-source-14 edge to the timers that name this engine. -/
  | tick (p : Nat)
  /-- TCMPA (R305): Writes a timer's CMP_A. -/
  | tcmpa (p : Nat)
  /-- TCMPB (R305): Writes a timer's CMP_B. -/
  | tcmpb (p : Nat)
  /-- TCNT (R305): Reads a timer's COUNT. -/
  | tcnt (p : Nat)
  /-- TCAPA (R305): Reads CAP_A and CAPT_A. -/
  | tcapa (p : Nat)
  /-- TCAPB (R305): Reads CAP_B and CAPT_B. -/
  | tcapb (p : Nat)
  /-- TSTAT (R305): Reads TMRn_STAT. -/
  | tstat (p : Nat)
  /-- TCLR (R305): Clears TMRn_STAT flags as a W1C write. -/
  | tclr (p : Nat)
  /-- TCMD (R305): Acts as a write to TMR_CMD. -/
  | tcmd (p : Nat)
  /-- ADDS (R306): Saturating addition. -/
  | adds (p : Nat)
  /-- SUBS (R306): Saturating subtraction. -/
  | subs (p : Nat)
  /-- NEGS (R306): Saturating negation. -/
  | negs (p : Nat)
  /-- ABSS (R306): Saturating absolute value. -/
  | abss (p : Nat)
  /-- MULQ (R306): Q23.24 multiply. -/
  | mulq (p : Nat)
  /-- MACQ (R306): Q23.24 multiply-accumulate. -/
  | macq (p : Nat)
  /-- DIVQ (R306): Q23.24 divide; DIVZ on zero. -/
  | divq (p : Nat)
  /-- SQRTQ (R306): Q23.24 square root. -/
  | sqrtq (p : Nat)
  /-- CLAMP (R306): Clamps a word to a range. -/
  | clampOp (p : Nat)
  /-- REP (R308): Runs the follower RC times. -/
  | rep (p : Nat)
  /-- SETRC (R307): Sets RC. -/
  | setrc (p : Nat)
  /-- GETRC (R307): Pushes RC. -/
  | getrc (p : Nat)
  /-- LOOP (R307): Decrements RC and branches while it is positive. -/
  | loop (p : Nat)
  /-- REPI (R308): Runs the follower k + 1 times. -/
  | repi (p : Nat)
  /-- SPLICE (R314): Runs a loaded splice's micro-operations. -/
  | splice (p : Nat)
  /-- UNDEFINED_OPCODE (R294): Execution of an undefined opcode takes fault UNDEF. -/
  | undefinedOpcode (p : Nat)
  /-- IDLE (R453): Ranger waits for its ICU view or the mailbox. -/
  | idle
  /-- RD32 (R453): Ranger reads a 32-bit device register. -/
  | rd32
  /-- WR32 (R453): Ranger writes a 32-bit device register. -/
  | wr32
  /-- RD48 (R453): Ranger reads a whole 48-bit word. -/
  | rd48
  /-- WR48 (R453): Ranger writes a whole 48-bit word in one cycle. -/
  | wr48
  /-- JNL (R453): Ranger queues a journal entry. -/
  | jnl
  /-- WDOG (R453): Ranger restarts its watchdog. -/
  | wdog
  /-- OTPRD (R453): Ranger reads an OTP word. -/
  | otprd
  /-- ROLLUP (R453): Ranger blows rollback fuses up to n. -/
  | rollup
  /-- CLEAR (R277): Ranger returns a FAULTED engine to IDLE through INIT. -/
  | clear (path : Path) (e : Nat)
  /-- HALT (R278): Ranger halts an engine after the instruction in progress. -/
  | halt (path : Path) (e : Nat)
  /-- RESUME (R278): Ranger resumes a halted invocation. -/
  | resume (path : Path) (e : Nat)
  /-- STEP (R278): Ranger executes one instruction of a halted engine. -/
  | stepEngine (path : Path) (e : Nat)
  /-- RELOADCNT (R277): Ranger sets RESTLEFT to RESTARTS. -/
  | reloadcnt (path : Path) (e : Nat)
  /-- SOURCE_ASSERT (R279): An ICU source asserts its level or latch. -/
  | sourceAssert (n : Nat)
  /-- PRESENTATION (R280): A pending source appears in its target's PEND view, or wakes the target. -/
  | presentation (p : Nat)
  /-- CLAIM (R281): A claim makes a pending source active, or is counted as bad. -/
  | claim (p : Nat) (n : Nat)
  /-- COMPLETE (R281): A complete releases an active source, or is counted as bad. -/
  | complete (p : Nat) (n : Nat)
  /-- RETARGET (R282): Ranger writes an ICU source's TARGET. -/
  | retarget (path : Path) (n : Nat) (v : W32)
  /-- ICU_SWSET (R279): A write to ICU_SWSET sets software sources. -/
  | icuSwset (path : Path) (v : W32)
  /-- IRAM_SCRUB (R265): An IRAM word is scrubbed and errors are corrected or poisoned. -/
  | iramScrub (e : Nat) (w : Nat) (found : Ecc)
  /-- FRAME_FORMED (R243): A spectral frame's last position arrives, and the frame is formed or lost to a gap. -/
  | frameFormed (u : Nat) (entry : Nat)
  /-- SPECTRUM (R245): The pipeline computes a frame's PSD and updates the average. -/
  | spectrum (u : Nat)
  /-- EVALUATION (R247): A set's averages or control spectrum are checked against the rules and output. -/
  | evaluation (u : Nat) (set : Nat)
  /-- SPU_SCRUB (R259): A window or mask table word is scrubbed and errors are handled. -/
  | spuScrub (u : Nat) (mask : Bool) (w : Nat) (found : Ecc)
  /-- AUDIT (R333): Every 1 ms Ranger snapshots and audits the ledger. -/
  | audit
  /-- SNAP (R332): ADM_LCMD.SNAP captures the ledger in one cycle, or sets BUSY in sleep. -/
  | snap (path : Path) (v : W32)
  /-- DEFERRED_SNAP (R332): A SNAP held in sleep is carried out at the next S0 cycle. -/
  | deferredSnap
  /-- CONFIGURATION_REQUEST (R380): A PCI Express configuration request is answered, or answered with retry status before the HOST section. -/
  | configurationRequest (write : Bool) (off : Nat) (v : W32) (be : BitVec 4)
  /-- MEMORY_READ (R381): A BAR0 Memory Read is split into 32-bit register reads and completed. -/
  | memoryRead (addr : Nat) (enables : List (BitVec 4)) (found : Ecc) (ecrcBad : Bool)
  /-- MEMORY_WRITE (R381): A BAR0 Memory Write is split into 32-bit register writes. -/
  | memoryWrite (addr : Nat) (words : List (W32 × BitVec 4)) (poisoned : Bool) (ecrcBad : Bool)
  /-- UNSUPPORTED_REQUEST (R381): A request of unsupported form or outside BAR0 is refused. -/
  | unsupportedRequest
  /-- PERST_N (R377): PERST_N or Hot Reset resets the PCI Express core only. -/
  | perstN (low : Bool) (hot : Bool)
  /-- LINK_FAILURE (R385): The link fails its booking; LINK fault records are written and flags are set. -/
  | linkFailure (gen : Nat) (w : Nat) (lpm : Nat)
  /-- LINK_RECOVERY (R385): The link returns to its booking, and second LINK fault records are written. -/
  | linkRecovery (gen : Nat) (w : Nat) (lpm : Nat)
  /-- ASPM_L1_ENTRY (R383): After 64 µs idle, the hub initiates L1 entry. -/
  | aspmL1Entry
  /-- SUMMARY_CHANGE (R407): SYS_SUMMARY changes after a leaf flag changes. -/
  | summaryChange
  /-- HSP_WRITE_FRAME (R390): An HSP write frame commits its complete words in order. -/
  | hspWriteFrame (bytes : List (BitVec 8)) (extra : Nat)
  /-- HSP_READ_FRAME (R391): An HSP read frame returns words after busy bytes and ready markers. -/
  | hspReadFrame (bytes : List (BitVec 8)) (extra : Nat) (waits : List Nat) (late : List (Option W32))
  /-- TWT_POINTER_WRITE (R396): A TWT write transaction that ends after the pointer sets the pointer. -/
  | twtPointerWrite (ptr : BitVec 16)
  /-- TWT_WRITE (R397): A TWT write transaction commits complete register words. -/
  | twtWrite (ptr : BitVec 16) (bytes : List (BitVec 8))
  /-- TWT_READ (R396): A TWT read transaction returns window bytes from the pointer. -/
  | twtRead (n : Nat)
  /-- TWT_RSACK (R398): A repeated START in an acknowledge slot discards the byte. -/
  | twtRsack (ptr : Option (BitVec 16)) (bytes : List (BitVec 8))
  /-- TWT_STRETCH_TIMEOUT (R399): A stretch reaches 2 ms; SCL is released and TIMEOUT is set. -/
  | twtStretchTimeout
  /-- ALERT_RESPONSE (R400): A read from the Alert Response Address is answered with arbitration. -/
  | alertResponse (won : Bool)
  /-- SLEEP_PREPARATION (R420): After PWR_IDLE, preparation for the chosen sleep state begins, or is cancelled. -/
  | sleepPreparation
  /-- SLEEP_ENTRY (R420): At the commit point, the hub enters S1, S2 or S3. -/
  | sleepEntry (d : Nat)
  /-- WAKE (R422): A wake source brings the hub back to S0, restoring state from S3. -/
  | wake (dur : Nat) (image : Bool)
  /-- READ (R445): A CFP pass-through READ copies flash bytes into CFP_BUF. -/
  | cfpRead (path : Path) (v : W32)
  /-- PROGRAM (R445): A CFP pass-through PROGRAM writes bytes within a page. -/
  | cfpProgram (path : Path) (v : W32)
  /-- ERASE4K (R445): A CFP pass-through ERASE4K erases a 4 KiB sector. -/
  | cfpErase4k (path : Path) (v : W32)
  /-- ERASE64K (R445): A CFP pass-through ERASE64K erases a 64 KiB block. -/
  | cfpErase64k (path : Path) (v : W32)
  /-- READID (R445): A CFP pass-through READID reads the JEDEC ID. -/
  | cfpReadid (path : Path) (v : W32)
  /-- READSR (R445): A CFP pass-through READSR reads Status Register 1. -/
  | cfpReadsr (path : Path) (v : W32)
  /-- CFP_OPERATION_END (R446): A pass-through operation completes, or times out after 4 s. -/
  | cfpOperationEnd (ok : Bool)
  /-- WATCHDOG (R455): Watchdog expiry resets Ranger alone, or freezes the hub. -/
  | watchdog
  /-- PREFETCH_MISS (R454): A prefetch miss fills the line from flash. -/
  | prefetchMiss
  /-- MONITOR_SAMPLE (R456): The monitor sequencer samples the on-die monitors each MONPER. -/
  | monitorSample (m : Nat) (reading : W48)
  /-- JOURNAL_WRITE (R462): Ranger writes a queued entry to the log and advances MGT_JNL_HEAD. -/
  | journalWrite
  /-- INFO (R466): The mailbox INFO command returns the boot record, slot and OTP count. -/
  | mbxInfo (path : Path)
  /-- BEGIN (R466): The mailbox BEGIN command erases the inactive slot. -/
  | mbxBegin (path : Path) (ok : Bool)
  /-- WRITE (R466): The mailbox WRITE command programs 256 bytes into the inactive slot. -/
  | mbxWrite (path : Path) (ok : Bool)
  /-- VERIFY (R466): The mailbox VERIFY command checks the inactive slot. -/
  | mbxVerify (path : Path)
  /-- COMMIT (R466): The mailbox COMMIT command makes the verified slot active on trial. -/
  | mbxCommit (path : Path)
  /-- ABORT (R466): The mailbox ABORT command ends staging. -/
  | mbxAbort (path : Path)
  /-- LINK_TRAINING (R472): The Bight ring ports train, enumerate, calibrate, exchange images and align. -/
  | linkTraining (dUp : Bool) (uUp : Bool) (rejoin : Bool)
  /-- ENUM (R472): An ENUM frame checks positions around the ring and counts the hubs. -/
  | enum (atD : Bool) (f : Option BFrame) (reached : List Nat)
  /-- HOP_CALIBRATION (R476): TIME frames echoed 64 times calibrate a hop's delay. -/
  | hopCalibration (h : Nat) (trips : List Nat) (skew : Rat)
  /-- TIME_FRAME (R477): A secondary receives a 1 ms TIME frame and runs its alignment loop. -/
  | timeFrame (atD : Bool) (f : BFrame) (res : Nat)
  /-- ALIGNMENT_TIMEOUT (R478): The 6 s alignment limit expires, and unaligned secondaries are excluded. -/
  | alignmentTimeout (late : List Nat)
  /-- TRIGGER_ORIGIN (R479): A rising source event sends a broadcast trigger block three times. -/
  | triggerOrigin
  /-- BROADCAST_TRIGGER (R480): A received trigger is latched, forwarded and drives ICU source 122 and CLKSRC 13. -/
  | broadcastTrigger (b : BTrig) (good : Bool)
  /-- REGREQ (R482): A REGREQ frame carries a host access to a secondary's space. -/
  | regreq (atD : Bool) (f : BFrame)
  /-- REGRSP (R482): A REGRSP frame completes a window read. -/
  | regrsp (atD : Bool) (f : BFrame)
  /-- WINDOW_TIMEOUT (R482): No REGRSP arrives within 2 ms; the read returns zero and WINF is set. -/
  | windowTimeout
  /-- CAUSE (R412): A CAUSE frame updates the primary's SECn bit. -/
  | cause (atD : Bool) (f : BFrame)
  /-- CTRL (R484): A CTRL frame carries a reload, time step or BREAK to every hub. -/
  | ctrl (atD : Bool) (f : BFrame)
  /-- FRAME_RETRY (R475): A frame failing its CRC is resent from the replay buffer. -/
  | frameRetry (down : Bool) (received : Bool) (acked : Nat)
  /-- HOP_BREAK (R485): A broken hop switches the hubs to a chain and writes BIGHT fault records. -/
  | hopBreak (h : Nat)
  /-- HOP_RETRAIN (R486): Every 10 ms a broken hop retrains; on success the ring closes and repair records are written. -/
  | hopRetrain (h : Nat) (trips : List Nat) (skew : Rat)
  /-- RING_RELEASE (R483): The primary releases the ring when every hub chooses S2 or S3. -/
  | ringRelease
  /-- RING_WAKE (R483): A hub ends electrical idle, and the wake passes round the ring. -/
  | ringWake
  /-- FREEZE (R497): A freeze trigger or FREEZE_N low marks the freeze instant. -/
  | freeze
  /-- STOP_CYCLE (R498): One gate stops every counter and state machine. -/
  | stopCycle
  /-- FRZ_STATUS (R501): TAP instruction capturing FRZ_CAUSE and FRZ_FAULT. -/
  | frzStatus
  /-- CHAIN_SEL (R501): TAP instruction selecting a state chain. -/
  | chainSel (v : BitVec 8)
  /-- CHAIN_SHIFT (R501): TAP instruction shifting out the selected chain non-destructively. -/
  | chainShift (n : Nat)
  /-- MEM_ADDR (R501): TAP instruction setting the memory read address. -/
  | memAddr (a : W32)
  /-- MEM_READ (R503): TAP instruction streaming memory slots with their status. -/
  | memRead (found : List Ecc)
  /-- EXTEST (R531): TAP boundary-scan EXTEST. -/
  | extest (cells : List Bool)
  /-- IDCODE (R531): TAP instruction reading the 32-bit IDCODE. -/
  | idcode
  /-- SAMPLE_PRELOAD (R531): TAP boundary-scan SAMPLE/PRELOAD. -/
  | samplePreload (cells : List Bool)
  /-- BYPASS (R531): TAP one-bit bypass. -/
  | bypass (code : BitVec 8) (bs : List Bool)
  /-- TEST_LOGIC_RESET (R501): The TAP reset selects IDCODE and does not end a freeze. -/
  | testLogicReset
  /-- FABRIC_PARITY_FAILURE (R490): A fabric word fails parity and is repeated once, then taken as received. -/
  | fabricParityFailure (block : Nat) (k : Nat) (again : Bool)
  /-- SRAM_SCRUB (R491): A batch SRAM word is scrubbed, and errors are corrected or poisoned. -/
  | sramScrub (w : Nat) (found : Ecc) (avg : Option (Nat × Nat))
  /-- PIN_RETURN (R127): The event pin returns to the debounced level before confirmation, so the candidate is dropped and BOUNCE counts it. -/
  | pinReturn (n : Nat)
  /-- PACKET_LOST (R180): A grant's retry slot, or its primary slot where there is none, ends without a good packet, so LOSTPKT counts the loss and the expected samples are refused. -/
  | packetLost (n : Nat) (m : Nat) (g : Nat)
  /-- PCIE_LINK_CHANGE (R385): The PCI Express link trains, retrains or goes down with no booking riding on it, and HL_STAT follows. -/
  | pcieLinkChange (gen : Nat) (w : Nat) (lpm : Nat)
  /-- POWER_LOSS (R529): VDD_AON falls below 0.72 V, and the power-on detector holds the hub in reset, losing device time and the freeze record. -/
  | powerLoss
  deriving DecidableEq, Repr

end Sys2Proof
end

