-- ==== Sys2Proof/Decode.lean ====
section
/-! DEFINITION. Commands read from a word. The opcode table gives no row any bits, so no word spells a command. -/

namespace Sys2Proof

/-- The command that a word spells by the opcode table's bits. The table gives bits to no row: none. -/
def decodeTableWord (_nbits _w : Nat) : Option Instr := none

end Sys2Proof
end

