-- ==== Sys2Proof/Machine/Sign.lean ====
section
/-! DEFINITION. SHA-256 and the ECDSA P-256 check that R439 and R465 name. PRESUMED: both are taken from the public
standards that the spec names, not from the spec itself. -/

namespace Sys2Proof.Machine
open Sys2Proof

/-- A big-endian number from bytes. -/
def beVal (bs : List (BitVec 8)) : Nat := bs.foldl (fun a b => a * 256 + b.toNat) 0

/-! ### SHA-256 -/

/-- The first bits of the fractional part of the cube root of a prime: the round constants. -/
def shaK : List Nat :=
  [0x428a2f98, 0x71374491, 0xb5c0fbcf, 0xe9b5dba5, 0x3956c25b, 0x59f111f1, 0x923f82a4, 0xab1c5ed5,
   0xd807aa98, 0x12835b01, 0x243185be, 0x550c7dc3, 0x72be5d74, 0x80deb1fe, 0x9bdc06a7, 0xc19bf174,
   0xe49b69c1, 0xefbe4786, 0x0fc19dc6, 0x240ca1cc, 0x2de92c6f, 0x4a7484aa, 0x5cb0a9dc, 0x76f988da,
   0x983e5152, 0xa831c66d, 0xb00327c8, 0xbf597fc7, 0xc6e00bf3, 0xd5a79147, 0x06ca6351, 0x14292967] ++
  [0x27b70a85, 0x2e1b2138, 0x4d2c6dfc, 0x53380d13, 0x650a7354, 0x766a0abb, 0x81c2c92e, 0x92722c85,
   0xa2bfe8a1, 0xa81a664b, 0xc24b8b70, 0xc76c51a3, 0xd192e819, 0xd6990624, 0xf40e3585, 0x106aa070,
   0x19a4c116, 0x1e376c08, 0x2748774c, 0x34b0bcb5, 0x391c0cb3, 0x4ed8aa4a, 0x5b9cca4f, 0x682e6ff3,
   0x748f82ee, 0x78a5636f, 0x84c87814, 0x8cc70208, 0x90befffa, 0xa4506ceb, 0xbef9a3f7, 0xc67178f2]

/-- The starting hash words. -/
def shaInit : List W32 :=
  [0x6a09e667, 0xbb67ae85, 0x3c6ef372, 0xa54ff53a, 0x510e527f, 0x9b05688c, 0x1f83d9ab, 0x5be0cd19]

/-- The padded message. -/
def shaPad (m : List (BitVec 8)) : List (BitVec 8) :=
  let n := m.length
  m ++ [(0x80 : BitVec 8)] ++ List.replicate ((119 - n % 64) % 64) (0 : BitVec 8) ++
    (List.range 8).map (fun i => BitVec.ofNat 8 ((8 * n) >>> (56 - 8 * i)))

/-- One schedule word from the latest sixteen, newest first. -/
def shaNext (w : List W32) : W32 :=
  let a := w.getD 14 0
  let b := w.getD 1 0
  w.getD 15 0 + (a.rotateRight 7 ^^^ a.rotateRight 18 ^^^ (a >>> 3)) +
    w.getD 6 0 + (b.rotateRight 17 ^^^ b.rotateRight 19 ^^^ (b >>> 10))

/-- The schedule of a block, newest first, extended n times. -/
def shaExpand : Nat → List W32 → List W32
  | 0, w => w
  | n + 1, w => shaExpand n (shaNext w :: w)

/-- One round. -/
def shaRound (h : List W32) (kw : W32) : List W32 :=
  match h with
  | [a, b, c, d, e, f, g, x] =>
    let t1 := x + (e.rotateRight 6 ^^^ e.rotateRight 11 ^^^ e.rotateRight 25) + ((e &&& f) ^^^ (~~~e &&& g)) + kw
    let t2 := (a.rotateRight 2 ^^^ a.rotateRight 13 ^^^ a.rotateRight 22) + ((a &&& b) ^^^ (a &&& c) ^^^ (b &&& c))
    [t1 + t2, a, b, c, d + t1, e, f, g]
  | _ => h

/-- Sixteen words of a block, oldest first. -/
def shaWords (b : List (BitVec 8)) : List W32 :=
  (List.range 16).map (fun i => BitVec.ofNat 32 (beVal ((b.drop (4 * i)).take 4)))

/-- One block of 64 bytes. -/
def shaBlock (h : List W32) (b : List (BitVec 8)) : List W32 :=
  let w := (shaExpand 48 (shaWords b).reverse).reverse
  let r := (shaK.zip w).foldl (fun h p => shaRound h (BitVec.ofNat 32 p.1 + p.2)) h
  (h.zip r).map (fun p => p.1 + p.2)

/-- n blocks in order. -/
def shaBlocks : Nat → List W32 → List (BitVec 8) → List W32
  | 0, h, _ => h
  | n + 1, h, m => shaBlocks n (shaBlock h (m.take 64)) (m.drop 64)

/-- SHA-256. -/
def sha256 (m : List (BitVec 8)) : BitVec 256 :=
  let p := shaPad m
  BitVec.ofNat 256 ((shaBlocks (p.length / 64) shaInit p).foldl (fun a w => a * 2 ^ 32 + w.toNat) 0)

/-! ### ECDSA on the curve P-256 -/

def ecP : Nat := 0xffffffff00000001000000000000000000000000ffffffffffffffffffffffff
def ecN : Nat := 0xffffffff00000000ffffffffffffffffbce6faada7179e84f3b9cac2fc632551
def ecB : Nat := 0x5ac635d8aa3a93e7b3ebbd55769886bc651d06b0cc53b0f63bce3c3e27d2604b
def ecG : Nat × Nat :=
  (0x6b17d1f2e12c4247f8bce6e563a440f277037d812deb33a0f4a13945d898c296,
   0x4fe342e2fe1a7f9b8ee7eb4a7c0f9e162bce33576b315ececbb6406837bf51f5)

/-- x ^ (the low `bits` bits of k) modulo m. -/
def powMod (m : Nat) : Nat → Nat → Nat → Nat
  | 0, _, _ => 1
  | b + 1, x, k =>
    let r := powMod m b (x * x % m) (k / 2)
    if k % 2 = 1 then r * x % m else r

/-- The inverse modulo a prime. -/
def invMod (m x : Nat) : Nat := powMod m 256 (x % m) (m - 2)

/-- A point, or the point at infinity. -/
abbrev EcPoint := Option (Nat × Nat)

/-- The point (x3, y3) on the chord or tangent of slope l through a point. -/
def ecChord (l x1 y1 x2 : Nat) : EcPoint :=
  let x3 := (l * l + 2 * ecP - x1 - x2) % ecP
  some (x3, (l * (x1 + ecP - x3) + ecP - y1) % ecP)

/-- Point addition. -/
def ecAdd : EcPoint → EcPoint → EcPoint
  | none, q => q
  | p, none => p
  | some (x1, y1), some (x2, y2) =>
    if x1 = x2 then
      if (y1 + y2) % ecP = 0 then none
      else ecChord ((3 * x1 * x1 + ecP - 3) * invMod ecP (2 * y1) % ecP) x1 y1 x2
    else ecChord ((y2 + ecP - y1) * invMod ecP (x2 + ecP - x1) % ecP) x1 y1 x2

/-- k times a point, k below 2^bits. -/
def ecMul : Nat → Nat → EcPoint → EcPoint
  | 0, _, _ => none
  | b + 1, k, p =>
    let r := ecMul b (k / 2) (ecAdd p p)
    if k % 2 = 1 then ecAdd r p else r

/-- A point of the curve. -/
def ecOn (x y : Nat) : Bool := decide (x < ecP ∧ y < ecP ∧ (y * y) % ecP = (x * x * x + (ecP - 3) * x + ecB) % ecP)

/-- The signature (r, s) by the key (x, y) verifies over a hash. -/
def ecdsaOk (hash : BitVec 256) (x y r s : Nat) : Bool :=
  if ecOn x y && decide (0 < r ∧ r < ecN ∧ 0 < s ∧ s < ecN) then
    let w := invMod ecN s
    match ecAdd (ecMul 256 (hash.toNat * w % ecN) (some ecG)) (ecMul 256 (r * w % ecN) (some (x, y))) with
    | some q => decide (q.1 % ecN = r)
    | none => false
  else false

/-- The 128-byte block of R439 holds a signature over a hash: X, Y, r, s. -/
def signatureOk (hash : BitVec 256) (block : List (BitVec 8)) : Bool :=
  ecdsaOk hash (beVal (block.take 32)) (beVal ((block.drop 32).take 32))
    (beVal ((block.drop 64).take 32)) (beVal ((block.drop 96).take 32))

/-- The SHA-256 of X followed by Y (R439). -/
def keyHash (block : List (BitVec 8)) : BitVec 256 := sha256 (block.take 64)

end Sys2Proof.Machine
end

