-- ==== Sys2Proof/Machine/Crc.lean ====
section
/-! DEFINITION. The check codes of the UT4896, as shift registers over bits. -/

namespace Sys2Proof.Machine
open Sys2Proof

/-- One bit, most significant first, through an n-bit CRC register with the given polynomial. -/
def crcBit {n : Nat} (poly : BitVec n) (r : BitVec n) (b : Bool) : BitVec n :=
  if r.msb != b then (r <<< 1) ^^^ poly else r <<< 1

/-- A CRC over bits in transmission order. -/
def crcBits {n : Nat} (poly init : BitVec n) (bs : List Bool) : BitVec n := bs.foldl (crcBit poly) init

/-- The bits of an n-bit value, most significant first. -/
def msbBits {n : Nat} (w : BitVec n) : List Bool := (List.range n).map (fun i => w.getLsbD (n - 1 - i))

/-- A value from its bits, most significant first. -/
def ofBits (bs : List Bool) : Nat := bs.foldl (fun a b => 2 * a + (if b then 1 else 0)) 0

/-- Bytes as bits, most significant first. -/
def byteBits (bs : List (BitVec 8)) : List Bool := bs.flatMap msbBits

/-- The CRC-8 of R89: polynomial 0x2F, start 0xFF, not reflected, no final XOR. -/
def crc8 (bs : List Bool) : BitVec 8 := crcBits 0x2F 0xFF bs

/-- The SMBus PEC of R115: x^8 + x^2 + x + 1, start 0x00. -/
def pec (bs : List (BitVec 8)) : BitVec 8 := crcBits 0x07 0x00 (byteBits bs)

/-- One bit, least significant first, through the reflected CRC-32C register (R438). -/
def crc32cBit (r : BitVec 32) (b : Bool) : BitVec 32 :=
  if r.getLsbD 0 != b then (r >>> 1) ^^^ 0x82F6_3B78 else r >>> 1

/-- One byte through the CRC-32C register. -/
def crc32cByte (r : BitVec 32) (b : BitVec 8) : BitVec 32 :=
  (List.range 8).foldl (fun r i => crc32cBit r (b.getLsbD i)) r

/-- CRC-32C (R438): reflected in and out, start and final XOR 0xFFFF_FFFF. -/
def crc32c (bs : List (BitVec 8)) : BitVec 32 := ~~~ (bs.foldl crc32cByte 0xFFFF_FFFF)

end Sys2Proof.Machine
end

