-- ==== Sys2Proof/Config.lean ====
section
/-! DEFINITION. The free values: what the spec leaves open, as constants without a body. -/

namespace Sys2Proof

/-- A 48-bit value the spec leaves open, by the count of free values drawn so far. -/
opaque Config.freeWord : Nat → BitVec 48

/-- Words of the Ranger ROM (R451), which the spec sizes but does not list. -/
opaque Config.romWord : Nat → BitVec 48

/-- Where the recovery firmware of R465 starts in the ROM. -/
opaque Config.recoveryEntry : Nat

/-- Journal words 0 to 3 as the boot record of R465 fills them: word number, and the record's fields in one number. -/
opaque Config.bootWord : Nat → Nat → BitVec 64

/-- What a readable word holds whose layout the spec does not give: its address, and a count that tells its contents apart. -/
opaque Config.innerWord : Nat → Nat → BitVec 64

end Sys2Proof
end

