-- ==== Sys2Proof/Machine/State.lean ====
section
/-! DEFINITION. The state of one UT4896 hub as plain data, its reset value, and the reasons a step can stop. -/

namespace Sys2Proof.Machine
open Sys2Proof

/-- Why a step stops with a fault. The UT4896 reports its own faults as state and goes on, so no command stops one. -/
inductive Fault where
  /-- Raised by no command: kept so that the type has a value. Safe. -/
  | unreachable
  deriving DecidableEq, Repr

/-- Why a step gives no meaning. -/
inductive Refusal where
  /-- The command has no meaning in the model. Safe: nothing is claimed of it. -/
  | notModelled (mnemonic : String)
  deriving DecidableEq, Repr

/-- The common STATE encoding (R15). -/
inductive BlkState where
  | off | starting | on | stopping
  deriving DecidableEq, Repr, Inhabited

/-- The states of the discipline loop (R51, R60). -/
inductive Loop where
  | none | acquiring | locked | holdover
  deriving DecidableEq, Repr, Inhabited

/-- The power states (R30). -/
inductive PState where
  | s0 | s1 | s2 | s3
  deriving DecidableEq, Repr, Inhabited

/-- A pending time step (R52, R54). -/
structure PendingStep where
  relative : Bool
  value : W64
  tApply : W64
  deriving DecidableEq, Repr, Inhabited

/-- The time base (02_time_base). -/
structure TimeBase where
  /-- The fast counter: 64-bit ticks and a 32-bit fraction (R37). -/
  fast : W96 := 0
  /-- FCLK cycles counted since reset, modulo 2^64: the phase reference of CVn_CK (R84). The model's own. -/
  cycles : W64 := 0
  /-- The always-on accumulator (R39). -/
  acc : W96 := 0
  /-- The accumulator at the last crystal edge (R40, R42). -/
  edge : W96 := 0
  /-- T_ent, latched at entry to S2 or S3 (R40). -/
  tEnt : W64 := 0
  /-- WOSC rising edges since the last crystal edge (R42). -/
  woscN : Nat := 0
  trim : BitVec 24 := 0
  /-- The WOSC period (R41); the spec states no reset value, the nominal 25 ticks stand in it (DESIGN CHOICE). -/
  woscPer : W32 := 0x19000000
  handover : BitVec 8 := 0
  steer : W32 := 0
  /-- f of R50, in parts per one. -/
  f : Rat := 0
  refMiss : Bool := false
  aligned : Bool := false
  trimLim : Bool := false
  slewLim : Bool := false
  loop : Loop := .none
  /-- HELD since a HOLDOVER not yet left through LOCKED (R45, R51). -/
  heldOver : Bool := false
  err : W32 := 0
  /-- The expected instant X (R49). -/
  expect : Option W64 := none
  /-- The HOST reference (R49). -/
  hostRef : W64 := 0
  /-- Instant of the previous valid measurement (R50). -/
  lastMeas : Option W64 := none
  good : Nat := 0
  misses : Nat := 0
  /-- y0 of the last REF_IN interval, and whether REF_IN was present throughout it (R49, R50). -/
  refY0 : Rat := 0
  refPresent : Bool := false
  setValue : W64 := 0
  step : Option PendingStep := none
  /-- A step was applied in the current measurement interval (R54). -/
  stepInInterval : Bool := false
  stepCnt : W32 := 0
  /-- The last step applied: old time at T_apply, and new time (R53). -/
  lastStep : Option (W64 × W64) := none
  /-- The hand-over of a wake has loaded the fast counter (R43). -/
  handed : Bool := false
  /-- A bit-47 boundary that passed in sleep, not yet recorded (R55): its full time. -/
  epochDue : Option W64 := none
  deriving DecidableEq, Repr, Inhabited

/-- One timer channel's running state (03_timers). -/
structure Timer where
  running : Bool := false
  count : W48 := 0
  /-- Prescaler accumulator (R64). -/
  acc : Nat := 0
  capA : W48 := 0
  capB : W48 := 0
  capTA : W48 := 0
  capTB : W48 := 0
  capQA : Quality := .fine
  capQB : Quality := .fine
  phase : W48 := 0
  /-- OUT before inversion (R70). -/
  out : Bool := false
  /-- A hitch RESET lands in the next control cycle, after the edge of that cycle is evaluated (R75, R78). -/
  resetDue : Bool := false
  /-- A hitch START lands in the next control cycle, whose edge is not counted (R74, R75). -/
  startDue : Bool := false
  deriving DecidableEq, Repr, Inhabited

/-- An open batch (R356–R359). -/
structure Batch where
  stamped : Bool := false
  /-- Header FLAGS without PRESTEP (R354). -/
  flags : BitVec 8 := 0
  t0 : W64 := 0
  era : W32 := 0
  /-- Value and short time of each sample, oldest first. -/
  samples : List (W48 × W48) := []
  /-- The intersection [LO, HI] of R357, present from the second sample of a paced batch. -/
  window : Option (Rat × Rat) := none
  deriving DecidableEq, Repr, Inhabited

/-- Where a relayed record comes from: position, RELAY ring, and the index after it there (R481). -/
structure Relayed where
  pos : Nat := 0
  ring : Nat := 0
  idx : W32 := 0
  deriving DecidableEq, Repr, Inhabited

/-- A closed record on its way into a ring (R353–R366). -/
structure Record where
  /-- TYPE (R355). -/
  type : Nat := 0
  sub : Nat := 0
  /-- Stream, or ring for a ring-level record. -/
  num : Nat := 0
  /-- FLAGS without PRESTEP. -/
  flags : BitVec 8 := 0
  /-- Full time of the header TIME or of sample 0. -/
  time : W64 := 0
  era : W32 := 0
  close : Nat := 0
  per : W48 := 0
  samples : List (W48 × W48) := []
  payload : List W48 := []
  /-- A record from a secondary, whose words are `payload` as they came. -/
  relayed : Option Relayed := none
  deriving DecidableEq, Repr, Inhabited

/-- What is written but not yet confirmed at the destination of a MIRROR or RELAY ring (R6, R344). -/
structure InFlight where
  /-- Ring index after the record. -/
  endIdx : W32 := 0
  /-- Stream whose delivered count the record advances, with its samples. -/
  stream : Option Nat := none
  samples : Nat := 0
  stamp : W64 := 0
  /-- The words and the index word have been sent to the destination (R349). -/
  sent : Bool := false
  /-- First ring index of the record, and its words. -/
  startIdx : W32 := 0
  relayed : Option Relayed := none
  deriving DecidableEq, Repr, Inhabited

/-- A delivery ring (15_delivery_rings). -/
structure Ring where
  state : BlkState := .off
  full : Bool := false
  prod : W32 := 0
  cons : W32 := 0
  stg : W32 := 0
  base : BitVec 13 := 0
  /-- Records written before any other on leaving FULL (R343). -/
  front : List Record := []
  /-- Granted records that the stager has not yet written, in its order (R340). -/
  ready : List Record := []
  /-- Kept records deferred while FULL (R342), in the order of their events. -/
  deferred : List Record := []
  /-- Streams that refused in this FULL period (R343). -/
  refusing : List (Nat × RefRun) := []
  fullSince : W64 := 0
  fullQual : Quality := .fine
  fullEra : W32 := 0
  stgAtEntry : W32 := 0
  /-- 1 CONSUMER, 2 STAGING (R362). -/
  fullCause : Nat := 0
  refusedNow : Nat := 0
  persisted : Bool := false
  /-- Ring-level records written, modulo 64 (R353). -/
  seq : Nat := 0
  inflight : List InFlight := []
  /-- The host ring a MIRROR ring writes: HBASE, HSIZE_LOG and HIDX as it started (R368). -/
  host : Option (W64 × Nat × W64) := none
  deriving DecidableEq, Repr, Inhabited

/-- A stream's running state (09, 14, 15). -/
structure Stream where
  offered : W48 := 0
  refused : W48 := 0
  delivered : W48 := 0
  /-- Records written, modulo 4,096 (R353, R356). -/
  seq : Nat := 0
  batch : Option Batch := none
  /-- Refused samples not yet reported (R95, R118, R130, R232). -/
  run : Option RefRun := none
  /-- The stamp reported late, so that R333 reports it once. -/
  lateStamp : Option W64 := none
  deriving DecidableEq, Repr, Inhabited

/-- A channel's latest calibrated value and its limit state (R205, R304). -/
structure Chan where
  last : Option Sample := none
  out : Bool := false
  /-- Side of the limit last crossed: true high (R360). -/
  high : Bool := false
  /-- Refused values that the channel's instance has not yet been told of (R232). -/
  notice : Option RefRun := none
  deriving DecidableEq, Repr, Inhabited

/-- The running state of one stage of one instance (R220–R227). Only the fields of its TYPE are used. -/
structure Stage where
  /-- CIC integrators and combs, modulo 2^104 (R222). -/
  integ : List (BitVec 104) := []
  comb : List (BitVec 104) := []
  cicPhase : Nat := 0
  /-- FIR delay line, newest first (R222, R223). -/
  taps : List Int := []
  phase : Nat := 0
  /-- BQ sections: x(n−1), x(n−2), y(n−1), y(n−2) (R224). -/
  sections : List (Int × Int × Int × Int) := []
  /-- INT: v in Q23.40 and x(n−1) of each integrator (R225). -/
  integrals : List (Int × Int) := []
  /-- RMS sum and window position; PEAK extremes (R226). -/
  sum : Nat := 0
  count : Nat := 0
  maxv : Int := 0
  minv : Int := 0
  /-- TRIG state, run and the run's first input (R227). -/
  active : Bool := false
  run : Nat := 0
  runFirst : Sample := {}
  /-- Countdowns of WAKE, COARSE, HELD, overload, filled (R220). -/
  wakeLeft : Nat := 0
  coarseLeft : Nat := 0
  heldLeft : Nat := 0
  ovrLeft : Nat := 0
  filledLeft : Nat := 0
  /-- Accepted inputs still wanted before the span has refilled after a gap (R232). -/
  refill : Nat := 0
  /-- Last accepted input since the stage's own restart (R232 HOLD). -/
  lastIn : Option Sample := none
  deriving DecidableEq, Repr, Inhabited

/-- A rainflow slot (R229–R231). The matrix itself lies in the slot's batch SRAM pages. -/
structure RfSlot where
  inUse : Bool := false
  page : BitVec 13 := 0
  /-- Owner: engine, channel, stage, with RF_MIN, RF_K and GATE (R229). -/
  owner : Nat × Nat × Nat := (0, 0, 0)
  params : Int × Nat × Nat := (0, 0, 0)
  started : Bool := false
  ext : Nat := 0
  /-- 0 none, 1 rising, 2 falling. -/
  dir : Nat := 0
  residue : List Nat := []
  total : W48 := 0
  clip : W32 := 0
  gaps : W32 := 0
  inputs : Nat := 0
  worst : Quality := .fine
  ovr : Bool := false
  filled : Bool := false
  lastIn : Option Sample := none
  deriving DecidableEq, Repr, Inhabited

/-- A filter engine's running state (10_filter_engines). -/
structure FilterEngine where
  state : BlkState := .off
  /-- Values waiting in the engine's queue, and the most there have been (R234, R239). -/
  queued : Nat := 0
  qmax : Nat := 0
  load : W32 := 0
  burst : W32 := 0
  deriving DecidableEq, Repr, Inhabited

/-- A spectrum or an average at one evaluation (R247): PSD words from line LA to LB, frames averaged, its stamp, quality and flags. -/
structure SpuResult where
  words : List W48 := []
  frames : Nat := 0
  /-- It takes part in evaluations: an exponential average has had 2^ASHIFT frames. -/
  ready : Bool := false
  sample : Sample := {}
  deriving DecidableEq, Repr, Inhabited

/-- A spectral entry's running state (R243, R247). -/
structure SpuEntry where
  /-- Positions received since the first one of the next frame, newest first; `none` marks a refused position. -/
  buffer : List (Option Sample) := []
  /-- Frames formed or lost so far: the index of the next frame. -/
  frameNo : Nat := 0
  /-- Frames whose spectrum has been taken, or that were lost. -/
  resolved : Nat := 0
  /-- The exponential average, and the frames it has averaged. -/
  average : List W48 := []
  frames : Nat := 0
  /-- The current linear block: exact sums of its frames' lines, and their number. -/
  blockSum : List Rat := []
  blockFrames : Nat := 0
  /-- Stamp of the newest input of the newest frame, with the quality and flags of the block's frames. -/
  newest : Sample := {}
  /-- Countdowns in frames for an exponential average (R247, R220). -/
  wakeLeft : Nat := 0
  coarseLeft : Nat := 0
  heldLeft : Nat := 0
  satLeft : Nat := 0
  ovrLeft : Nat := 0
  filledLeft : Nat := 0
  /-- Averages waiting for their evaluation, by frame or block index. -/
  done : Mem SpuResult := []
  deriving DecidableEq, Repr, Inhabited

/-- A frame in a unit's work queue (R256); no inputs mark a frame lost behind others of its entry. -/
structure Frame where
  entry : Nat := 0
  index : Nat := 0
  inputs : List Sample := []
  deriving DecidableEq, Repr, Inhabited

/-- A rule's state for one checked spectrum (R252). -/
structure RuleState where
  run : Nat := 0
  firing : Bool := false
  deriving DecidableEq, Repr, Inhabited

/-- A spectral unit's running state (11_spectral_watch). -/
structure Spu where
  state : BlkState := .off
  abort : Bool := false
  queue : List Frame := []
  entries : Mem SpuEntry := []
  /-- Rule states by set, rule and entry (entry 256 for a control spectrum). -/
  rules : Mem RuleState := []
  /-- Sets that are BROKEN (R259). -/
  broken : List Nat := []
  /-- An abort held by BRKABT until the next load (R259). -/
  brkHeld : Bool := false
  load : W32 := 0
  burst : W32 := 0
  abound : Mem W64 := []
  /-- Evaluations of each set so far: the frame or block index of the next one. -/
  evaluated : Mem Nat := []
  deriving DecidableEq, Repr, Inhabited

/-- RUN of an engine (R288). -/
inductive Run where
  | idle | busy | halted | faulted
  deriving DecidableEq, Repr, Inhabited

/-- A trigger in an engine's invocation queue (R267–R271). -/
structure Trigger where
  /-- Trigger kind, 1–5. -/
  kind : Nat := 0
  entry : Nat := 0
  index : Nat := 0
  evt : Nat := 0
  value0 : W48 := 0
  value1 : W48 := 0
  gap : Bool := false
  sample : Sample := {}
  deriving DecidableEq, Repr, Inhabited

/-- The processor part shared by the event engines and Ranger (12, 13, 20). -/
structure Proc where
  /-- Operand stack, top first. -/
  stack : List W48 := []
  /-- Return stack of slot addresses, top first. -/
  rets : List Nat := []
  /-- Slot address of the next instruction. -/
  pc : Nat := 0
  /-- Repeat counter RC. -/
  rc : BitVec 16 := 0
  /-- Repetitions left of a REP or REPI whose follower waits for a secondary (Ranger only). -/
  rep : Option Nat := none
  cycles : Nat := 0
  budget : Nat := 0
  entry : Nat := 0
  stamp : W64 := 0
  qual : Quality := .fine
  sat : Bool := false
  ovr : Bool := false
  filled : Bool := false
  era : W32 := 0
  deriving DecidableEq, Repr, Inhabited

/-- An event engine (12_event_engines). -/
structure Engine where
  state : BlkState := .off
  run : Run := .idle
  proc : Proc := {}
  queue : List Trigger := []
  /-- The kind of the invocation now running, 0 for none. -/
  kind : Nat := 0
  qmax : Nat := 0
  restLeft : Nat := 0
  fault : W32 := 0
  ftime : W48 := 0
  cycMax : Nat := 0
  load : W32 := 0
  burst : W32 := 0
  /-- EVO pins this engine drives (R304). -/
  evo : BitVec 8 := 0
  deriving DecidableEq, Repr, Inhabited

/-- One ICU source (R279–R282). -/
structure IcuSource where
  latch : Bool := false
  active : Option Nat := none
  lastClaim : Option W64 := none
  /-- The image's TARGET, once Ranger has retargeted the source (R282). -/
  moved : Option Nat := none
  deriving DecidableEq, Repr, Inhabited

/-- A Tally journal entry before Ranger writes it (R460). -/
structure JEntry where
  type : Nat := 0
  stamp : W64 := 0
  qual : Quality := .fine
  era : W32 := 0
  /-- Continuation words 2 onward. -/
  words : List W48 := []
  deriving DecidableEq, Repr, Inhabited

/-- What one access path holds for the split quantities (R11, R12). -/
structure Hold where
  rd : W32 := 0
  /-- TB_NOW_Q as latched (R58). -/
  nowQ : W32 := 0
  /-- Address of the _LO register written, with its value. -/
  wr : Option (Nat × W32) := none
  deriving DecidableEq, Repr, Inhabited

/-- A converter port (04_converter_ports). -/
structure Cvp where
  state : BlkState := .off
  /-- Debounced presence, the pin as last sampled (true = present), and when it was first sampled absent (R99). -/
  pres : Bool := false
  pin : Bool := false
  goneAt : W64 := 0
  synced : Bool := false
  /-- CVn_CK runs. -/
  ck : Bool := false
  /-- FSTMR's OUT is passed to CVn_FS (R100 step 5). -/
  fsPassed : Bool := false
  /-- t_FS of the latest SYNC passed to the pin (R84). -/
  tfs : Option Sample := none
  /-- The period's SYNC was passed to the pin (R95), and the FCLK cycle at which CK started (R84). -/
  launched : Bool := false
  ckStart : W64 := 0
  /-- A SYNC period is open (R95), and the frames examined in it (R92). -/
  period : Bool := false
  examined : Nat := 0
  /-- Frames of the period already accounted, accepted or refused (R95). -/
  accounted : List Nat := []
  /-- The port's SYNC count modulo 8 (R92 check 6), and SYNC_ASSIGN waiting for the next SYNC (R97). -/
  seq : Nat := 0
  assign : Bool := false
  /-- DEVs that have delivered an accepted frame since SYNC_ASSIGN (R100 step 6). -/
  seen : List Nat := []
  /-- The initialisation list: commands left, command index, failed attempts (R98, R100). -/
  initLeft : List W32 := []
  initIndex : Nat := 0
  attempts : Nat := 0
  /-- The list is running; after it, SYNC_ASSIGN (R100 steps 4, 5). -/
  initing : Bool := false
  failed : Bool := false
  cmdBusy : Bool := false
  cmdTx : W32 := 0
  cmdRx : BitVec 24 := 0
  cmdRes : Nat := 0
  deriving DecidableEq, Repr, Inhabited

/-- An event waiting in a pin's or key's queue (R130): its payload word and stamp; or a closed run of refused events, stamped as
its first, in its place behind the events that were queued before it. -/
structure OpEvent where
  word : W48 := 0
  sample : Sample := {}
  gap : Option RefRun := none
  deriving DecidableEq, Repr, Inhabited

/-- A list waiting in a sensor port's queue (R114, R121). -/
inductive SbList where
  /-- A poll list: its HEAD entry, with the pacing event's time and quality (R117). -/
  | poll (head : Nat) (stamp : Sample)
  /-- The alert list, with the stamp of the alert (R121). -/
  | alert (stamp : Sample)
  deriving DecidableEq, Repr, Inhabited

/-- A two-wire or serial sensor port (05_sensor_bus_ports). -/
structure SbPort where
  state : BlkState := .off
  queue : List SbList := []
  running : Option SbList := none
  /-- The entry to run next. -/
  entry : Nat := 0
  /-- Arbitration attempts lost by the current entry (R120). -/
  lost : Nat := 0
  alertLevel : Bool := false
  /-- When the previous alert service began (R121). -/
  lastAlert : Option W64 := none
  /-- The matched entry of a running alert list. -/
  alertEntry : Option Nat := none
  /-- Sensor alert records written (R121, R360): payload word and stamp, newest first. The spec names no stream for them. -/
  alertRecs : List OpEvent := []
  deriving DecidableEq, Repr, Inhabited

/-- An event pin (R126–R130). -/
structure Evp where
  level : Bool := false
  /-- Debouncing has started (R127). -/
  started : Bool := false
  candidate : Option Sample := none
  queue : List OpEvent := []
  /-- The open run of events refused at the full queue (R130). -/
  run : Option RefRun := none
  deriving DecidableEq, Repr, Inhabited

/-- A touch key (R131, R132). -/
structure Tch where
  /-- Baseline B with 8 fraction bits; `none` until the first count after start-up. -/
  base : Option Nat := none
  last : BitVec 16 := 0
  touched : Bool := false
  pressRun : Nat := 0
  negRun : Nat := 0
  relRun : Nat := 0
  scans : Nat := 0
  /-- Stamp of the first scan of the present run. -/
  runStamp : Sample := {}
  queue : List OpEvent := []
  /-- The open run of events refused at the full queue (R130, R132). -/
  run : Option RefRun := none
  deriving DecidableEq, Repr, Inhabited

/-- An event output (R134, R135). -/
structure Evo where
  /-- Drives its level; otherwise high-impedance. -/
  driven : Bool := false
  /-- Polarity and open-drain drive as taken at start-up step 8; a reload holds them until its own step 8 (R135). -/
  inv : Bool := false
  od : Bool := false
  /-- Active state before INV. -/
  active : Bool := false
  latch : Bool := false
  pulse : Bool := false
  /-- The source as last seen. -/
  source : Bool := false
  deriving DecidableEq, Repr, Inhabited

/-- What the power controller is doing. -/
inductive PPhase where
  | awake | preparing (s : PState)
  deriving DecidableEq, Repr, Inhabited

/-- The power controller (18_power_wake). -/
structure Power where
  cur : PState := .s0
  last : PState := .s0
  phase : PPhase := .awake
  wakeSrc : BitVec 11 := 0
  wakeT : W48 := 0
  wakeDur : W32 := 0
  retain : List W32 := [0, 0, 0, 0]
  /-- Wake sources that have asserted since the hub went to sleep (R421). -/
  wakeReq : BitVec 11 := 0
  /-- How long preparation may still run and since when S is deeper than S0 (R418). -/
  idleSince : Option W64 := none
  /-- The short time of the cycle that began the wake now due (R422). -/
  wakeBegan : W48 := 0
  /-- Hibernate images written so far (R420). -/
  images : Nat := 0
  /-- When the present sleep was entered, and the time spent in S1, S2 and S3 beyond the counted units (R428). -/
  entered : W64 := 0
  resLeft : List Nat := [0, 0, 0]
  deriving DecidableEq, Repr, Inhabited

/-- Admission's results and the ledger snapshot (14_admission). -/
structure Adm where
  done : Bool := false
  defaults : Bool := false
  deepest : PState := .s0
  linkGen : Nat := 0
  linkW : Nat := 0
  hubsM1 : Nat := 0
  admitted : Nat := 0
  refusedN : Nat := 0
  ingest : W32 := 0
  fabric : W32 := 0
  link : W32 := 0
  pages : W32 := 0
  hops : List W32 := []
  /-- Per stream: reason code and bound, streams admitted or refused only. -/
  reason : Mem Nat := []
  bound : Mem W64 := []
  /-- Pages admission assigned: bodies and reserved (R338). -/
  ringPages : Nat := 0
  rsvPages : Nat := 0
  /-- First page and number of the pages that hold the engines' copies for S3 (R236, R284). -/
  copies : Nat × Nat := (0, 0)
  /-- T_STAGE as admission computed it (R325). -/
  tStage : Nat := 0
  /-- On the primary: the admitted relayed streams, each with its destination ring (R351, R385). -/
  relayed : List (Nat × Nat) := []
  /-- Ledger snapshot (R332). -/
  snapSeq : BitVec 16 := 0
  snapBal : Bool := false
  snapBusy : Bool := false
  snapFree : Nat := 0
  snapRing : Nat := 0
  snapRsv : Nat := 0
  snapTransit : Nat := 0
  snapRings : Mem (W32 × W32 × W32) := []
  snapStreams : Mem (W48 × W48 × W48 × W48) := []
  deriving DecidableEq, Repr, Inhabited

/-- One monitor (R456–R458). -/
structure Monitor where
  reading : W48 := 0
  qual : Quality := .fine
  out : Bool := false
  deriving DecidableEq, Repr, Inhabited

/-- One copy of the boot record (R465). `tried` marks a trial slot that Ranger has started once. -/
structure BootRec where
  valid : Bool := false
  active : Bool := false
  trial : Bool := false
  tried : Bool := false
  prev : Bool := false
  gen : Nat := 0
  deriving DecidableEq, Repr, Inhabited

/-- How far start-up has come (R30, R31, R35). -/
inductive Phase where
  /-- The internal reset is held (R527). -/
  | inReset
  /-- Steps 1 and 2 are done: the image is to be loaded. -/
  | started
  /-- Steps 3 and 4 are done: admission is to run. -/
  | loaded
  /-- The configuration is locked and the blocks run (steps 7 to 9). -/
  | running
  /-- A CFG_RELOAD delivers what is in flight (R35 steps 1 to 3). -/
  | draining
  deriving DecidableEq, Repr, Inhabited

/-- The freeze record and the freeze itself (23_freeze_readout). -/
structure Frz where
  /-- The freeze instant has come; the stop cycle follows (R497, R498). -/
  pending : Bool := false
  /-- FREEZE: the gate is closed on every clock. -/
  stopped : Bool := false
  /-- The hub holds FREEZE_N low (R496). -/
  driving : Bool := false
  cause : W32 := 0
  fault : W32 := 0
  time : W64 := 0
  qual : Quality := .fine
  count : W32 := 0
  deriving DecidableEq, Repr, Inhabited

/-- Ranger and the management block (20_ranger). -/
structure Mgt where
  proc : Proc := {}
  /-- Ranger executes; false while it is held in reset. -/
  running : Bool := false
  /-- Ranger waits in IDLE (R453). -/
  idle : Bool := false
  recovery : Bool := false
  slot : Bool := false
  rollback : Nat := 0
  /-- OTP: hash words, fused marks and the rollback count (R466, R468). -/
  cfgKey : Bool := false
  fwKey : Bool := false
  cfgHash : BitVec 256 := 0
  fwHash : BitVec 256 := 0
  otp : List W48 := []
  rollbackOtp : Nat := 0
  /-- Prefetch lines held, most recently used first, and whether a fill has been made (R454). -/
  lines : List Nat := []
  filled : Bool := false
  ram : Mem W48 := []
  monitors : Mem Monitor := []
  jnlHead : Nat := 135168
  jnlSeq : W32 := 0
  jqMax : Nat := 0
  mbxArg : W32 := 0
  mbxBuf : Mem (BitVec 8) := []
  mbxResult : Nat := 0
  mbxBusy : Bool := false
  mbxOp : Nat := 0
  /-- Staging: begun, verified since the last WRITE. -/
  begun : Bool := false
  verified : Bool := false
  bootA : BootRec := { valid := true }
  bootB : BootRec := {}
  /-- The entry waiting behind a JQLOST count (R29). -/
  jqLostHeld : Nat := 0
  /-- The kind of the reset in force, for the BOOT entry (R461): 0 power-up, 1 RESET_N. -/
  resetKind : Nat := 0
  /-- When the watchdog was last restarted (R455). -/
  wdogAt : W64 := 0
  /-- Ranger waits for a secondary (R453, R482): 0 not, 1 for RD32, 2 and 3 for the lower and the upper half of RD48;
  and the lower half, once there. -/
  asked : Nat := 0
  askLo : W32 := 0
  /-- What monitors 15 to 18 count (R456): batch SRAM and journal, corrected and uncorrectable. -/
  sramCorr : Nat := 0
  sramUnc : Nat := 0
  jnlCorr : Nat := 0
  jnlUnc : Nat := 0
  deriving DecidableEq, Repr, Inhabited

/-- Configuration load and flash pass-through (19_configuration_image). -/
structure Cfg where
  defaults : Bool := false
  locked : Bool := false
  sigReq : Bool := false
  sigOk : Bool := false
  bootRing : Bool := false
  reason : Nat := 0
  ofs : W32 := 0
  sect : W32 := 0
  loads : W32 := 0
  id : W64 := 0
  /-- HUBS of the DEVICE section (R437). -/
  hubs : Nat := 1
  len : W32 := 0
  crc : W32 := 0
  cfpAddr : BitVec 24 := 0
  cfpBuf : Mem (BitVec 8) := []
  cfpReason : Nat := 0
  cfpLast : Nat := 0
  cfpBusy : Bool := false
  /-- The operation in progress: OP, address, length. -/
  cfpOp : Nat × Nat × Nat := (0, 0, 0)
  /-- A CFG_RELOAD has been accepted and waits for the flash or for S0 (R427, R448). -/
  reloadDue : Bool := false
  /-- A reload runs, from step 4 of R35 to the lock (R444). -/
  reloading : Bool := false
  /-- The rings have closed their batches for a reload (R368). -/
  closed : Bool := false
  /-- A load has been made since reset. -/
  firstDone : Bool := false
  /-- List entries of R436 by kind and index, as bytes. -/
  lists : Mem (List (BitVec 8)) := []
  deriving DecidableEq, Repr, Inhabited

/-- A stage descriptor as read from coefficient memory (R217, R218). -/
structure StageDesc where
  /-- Stage number, from 1. -/
  num : Nat := 0
  type : Nat := 0
  inp : Nat := 0
  tap : Bool := false
  out : Nat := 0
  hold : Bool := false
  /-- Address of word 0 and length. -/
  addr : Nat := 0
  len : Nat := 0
  /-- PARAM, with its bit 32 at bit 0. -/
  param : Nat := 0
  tsadj : Int := 0
  deriving DecidableEq, Repr, Inhabited

/-- A message the PCI Express port sends of its own (R382, R384). -/
inductive LinkMsg where
  | msi (addr : W64) (data : W32)
  | assertInta
  | deassertInta
  | pmPme
  deriving DecidableEq, Repr, Inhabited

/-- A BAR0 request that waits for the hub to wake (R381). -/
inductive HeldReq where
  | read (addr : Nat) (enables : List (BitVec 4)) (found : Ecc)
  | write (addr : Nat) (words : List (W32 × BitVec 4))
  deriving DecidableEq, Repr, Inhabited

/-- A transaction at the two-wire target port (R396–R400): `ptr` is absent where its pointer bytes were not both
acknowledged; `again` tells that a repeated START came in the acknowledge slot of one more byte (R398). -/
inductive TwtTx where
  | write (ptr : Option (BitVec 16)) (bytes : List (BitVec 8)) (again : Bool)
  | read (n : Nat)
  | alert (won : Bool)
  deriving DecidableEq, Repr, Inhabited

/-- The host ports' running state (16_host_ports). -/
structure Hl where
  /-- The trained link: generation 1–3 and width code of R335, 0 when down. -/
  linkGen : Nat := 0
  linkW : Nat := 0
  bme : Bool := false
  msiEn : Bool := false
  /-- Interrupt Disable, D3hot, PME_En and PME_Status (R382, R384). -/
  intDis : Bool := false
  d3 : Bool := false
  pmeEn : Bool := false
  pmeStatus : Bool := false
  /-- Writable configuration space words without behaviour of their own, by offset (R378, R379). -/
  space : Mem W32 := []
  /-- LPM (R403), and PERST_N held low. -/
  lpm : Nat := 4
  perst : Bool := false
  /-- ASPM L1 is enabled by the host (R383). -/
  aspm : Bool := false
  /-- The link is failing its booking (R385). -/
  failing : Bool := false
  /-- SYS_SUMMARY as carried to INT_N and its mirrors (R407, R410). -/
  summary : W32 := 0
  /-- An MSI is held for Bus Master Enable (R382); INTA is asserted; TWT_ALERT_N and HOST_WAKE_N are low. -/
  msiHeld : Bool := false
  inta : Bool := false
  alert : Bool := false
  hostWake : Bool := false
  /-- Messages sent on the link, newest first. -/
  sent : List LinkMsg := []
  /-- When a MIRROR record was last staged or an MSI fell due (R383). -/
  busyAt : W64 := 0
  /-- Requests that arrived in sleep and wait for S0 (R381), oldest first. -/
  held : List HeldReq := []
  /-- The two-wire target's pointer (R396). -/
  twtPtr : Nat := 0
  /-- A two-wire transaction whose SCL is held low until S0, and since when (R399). -/
  twtHeld : Option (TwtTx × W64) := none
  deriving DecidableEq, Repr, Inhabited

/-- What a filter stage receives: a value, or a gap of refused values that may force a restart (R232). -/
inductive Feed where
  | value (x : Sample)
  | gap (run : RefRun) (force : Bool)
  deriving DecidableEq, Repr, Inhabited

/-- A host access waiting for a secondary's answer (R482). -/
structure BReq where
  path : Path := .pcie
  target : Nat := 0
  addr : Nat := 0
  write : Bool := false
  since : W64 := 0
  deriving DecidableEq, Repr, Inhabited

/-- The Bight ring ports (21_bight_ring). -/
structure Bgt where
  state : BlkState := .off
  /-- 0 DOWN, 1 TRAINING, 2 RING, 3 CHAIN. -/
  rstate : Nat := 0
  /-- Ports: 0 down, 1 training, 2 up, 3 electrical idle. -/
  dport : Nat := 0
  uport : Nat := 0
  /-- 0 held, 1 released, 2 waking. -/
  sleep : Nat := 0
  excl : Bool := false
  /-- N, the hubs of the ring; 0 until counted. -/
  hubs : Nat := 0
  /-- Positions excluded and reachable. -/
  reachExcl : BitVec 8 := 0
  reach : BitVec 8 := 0
  ofs : W32 := 0
  hopDly : Mem (BitVec 16) := []
  /-- Hops broken (R485), and the hops broken when admission booked the routes (R473). -/
  broken : List Nat := []
  booked : List Nat := []
  /-- The hops whose last BIGHT record on this hub's streams is a break (R486). -/
  reported : List (Nat × List Nat) := []
  trigLog : BTrig := {}
  /-- Triggers already seen, newest first. -/
  seen : List BTrig := []
  /-- Source events whose trigger this hub has still to send (R479). -/
  trigDue : List BTrig := []
  /-- Trigger blocks sent, newest first, until the next command. -/
  trigTx : List BTrig := []
  /-- Replay buffers of the upstream and downstream ports (R475), oldest first, and failures of the oldest frame. -/
  replayU : List BFrame := []
  replayD : List BFrame := []
  failsU : Nat := 0
  failsD : Nat := 0
  /-- Consecutive good alignment measurements, and whether one has been made (R477, R478). -/
  alignGood : Nat := 0
  measured : Bool := false
  lastTime : Option W64 := none
  dirDown : Bool := false
  primaryHold : Bool := false
  /-- The last CHOICE of each hub (R483), and its forwarded summary (R412). -/
  choices : Mem Nat := []
  secs : W32 := 0
  /-- Running credit totals and words used, by the secondary's position and the destination ring (R481). -/
  credit : Mem W32 := []
  creditUsed : Mem W32 := []
  /-- The index after the last record received, by position and RELAY ring. -/
  taken : Mem W32 := []
  /-- Words of a relayed record received so far, by source position and RELAY ring. -/
  assembly : Mem (List W48) := []
  /-- By position and RELAY ring: the index after the last record delivered and not yet confirmed. -/
  relayIdx : Mem (Option W32) := []
  /-- Host accesses waiting for REGRSP (R482), oldest first. -/
  waiting : List BReq := []
  deriving DecidableEq, Repr, Inhabited

/-- A packet on a trunk: header, payload bytes, the stamp of its reference instant, SNR per used carrier (R145–R154). -/
structure HPkt where
  hdr : BitVec 62 := 0
  payload : List (BitVec 8) := []
  stamp : Sample := {}
  snr : List Int := []
  /-- It captured the receiver (R158). -/
  captured : Bool := false
  deriving DecidableEq, Repr, Inhabited

/-- A receiver's lock (R153, R158). -/
structure HLock where
  metric : Int := 0
  stamp : Sample := {}
  hdr : Option (BitVec 62) := none
  captured : Bool := false
  deriving DecidableEq, Repr, Inhabited

/-- A tone map: rate code and the code of each data carrier (R151). -/
structure TMap where
  rate : Nat := 0
  codes : List Nat := []
  deriving DecidableEq, Repr, Inhabited

/-- A packet waiting for the control slot (R186): its TYPE; LEAVE, JOIN_ACK status or map id in `arg`. -/
structure HCtl where
  type : Nat := 0
  node : Nat := 0
  arg : Nat := 0
  uid : W64 := 0
  map : TMap := {}
  /-- A TMAP_SET that follows a JOIN_ACK. -/
  first : Bool := false
  payload : List (BitVec 8) := []
  deriving DecidableEq, Repr, Inhabited

/-- A generation 2 node as its hub holds it (R170–R192). `nstate` is 0 ABSENT, 1 JOINED, 2 ON, 3 LEAVING. -/
structure HNode where
  nstate : Nat := 0
  uid : W64 := 0
  cap : BitVec 8 := 0
  tmap : Nat := 0
  degraded : Bool := false
  /-- DLY as last sent, and the estimate D (R173). -/
  dly : Int := 0
  dEst : Rat := 0
  dlySent : Option W32 := none
  /-- FIRST of the JOIN_ACK, and whether DATA has arrived since (R177, R178). -/
  first : W32 := 0
  heard : Bool := false
  /-- Next SEQ expected, by grant. -/
  seqs : Mem (Option Nat) := []
  /-- Grants with a good packet in the present cycle, and cycles in a row without one (R190). -/
  got : List Nat := []
  lossRun : Nat := 0
  /-- NODE_CMD payloads left, the index of the first, its SEQ, sending cycle and repeats (R178, R186). -/
  initLeft : List (List (BitVec 8)) := []
  cmdIndex : Nat := 0
  cmdSeq : Nat := 0
  cmdSent : Option W32 := none
  repeats : Nat := 0
  /-- SNR of the last packets, newest first, and cycles of CRC-24 failures (R184). -/
  snrs : List (List Int) := []
  crcFails : List W32 := []
  lost : Nat := 0
  nacks : Nat := 0
  deriving DecidableEq, Repr, Inhabited

/-- A generation 1 node (R187–R190). -/
structure HNode1 where
  nstate : Nat := 0
  lat : Nat := 0
  nch : Nat := 0
  seq : BitVec 8 := 0
  initLeft : List (List (BitVec 8)) := []
  failRun : Nat := 0
  lost : Nat := 0
  retries : Nat := 0
  deriving DecidableEq, Repr, Inhabited

/-- A generation 1 transaction (R188): its command and whether it is the retry; `due` while the retry waits. -/
structure HPoll where
  a : Nat := 0
  cmd : Nat := 0
  retry : Bool := false
  due : Bool := false
  /-- Reference instant of the hub's frame. -/
  ref : Sample := {}
  deriving DecidableEq, Repr, Inhabited

/-- A trunk port (07, 08). -/
structure Hws where
  state : BlkState := .off
  lock : Option HLock := none
  /-- Peaks held behind the lock: metric and stamp (R159). -/
  peaks : List (Int × Sample) := []
  inbox : List HPkt := []
  txQueue : List HPkt := []
  /-- The packet sent last, its data symbols' labels, and the end of its taper tail (R143–R150). -/
  txPkt : HPkt := {}
  txLabels : List (List (List Bool)) := []
  txEnd : W64 := 0
  rssi : BitVec 16 := 0
  rssiNode : Nat := 0
  /-- A_k as a part of P_FS, by entry j; NF_k and NF_WB (R157). -/
  noise : Mem Rat := []
  noiseOn : Bool := false
  nf : Mem (BitVec 16) := []
  nfWb : BitVec 16 := 0
  /-- Power feed: 0 OFF, 1 INRUSH, 2 ON, 3 RETRY (R162). -/
  pstate : Nat := 0
  pwren : Bool := false
  shortLock : Bool := false
  shortRun : Nat := 0
  onSince : W64 := 0
  code : Nat := 0
  /-- Step detector: armed, baseline, run of cycles over the threshold and its first stamp (R164). -/
  armed : Bool := false
  base : Rat := 0
  stepRun : Nat := 0
  stepStamp : Sample := {}
  /-- Link: CYCLE, whether a first cycle has begun, its start and start stamp's quality history (R167, R171, R174). -/
  cycle : W32 := 0
  cycling : Bool := false
  cycStart : W64 := 0
  quals : List (W64 × Quality) := []
  stepSeen : W32 := 0
  stepLeft : Nat := 0
  scanLeft : Nat := 0
  ctl : List HCtl := []
  ctlSent : Bool := false
  ctlCount : Nat := 0
  /-- A tone map change: node, old id, new id, ACTIVATE (R185). -/
  tmchg : Option (Nat × Nat × Nat × W32) := none
  maps : Mem TMap := []
  nodes : Mem HNode := []
  nodes1 : Mem HNode1 := []
  poll : Option HPoll := none
  deriving DecidableEq, Repr, Inhabited

/-- The test access port (R501, R531). -/
structure Tap where
  /-- The instruction register: IDCODE after Test-Logic-Reset. -/
  ir : BitVec 8 := 1
  /-- The chain selected; 10 and above select none. -/
  chain : Nat := 255
  addr : W32 := 0
  /-- The boundary register as last preloaded. -/
  boundary : List Bool := []
  /-- How far each chain is rotated by shifts that were not whole lengths (R501). -/
  turned : Mem Nat := []
  deriving DecidableEq, Repr, Inhabited

/-- The state of one hub. -/
structure State where
  /-- Commands waiting, first in first out. The model's own. -/
  pending : List Instr := []
  /-- Counts the free values drawn so far. The model's own. -/
  fresh : Nat := 0
  tb : TimeBase := {}
  /-- 32-bit configuration registers by device address. -/
  cfg : Mem W32 := []
  /-- 32-bit counters by device address. -/
  cnt : Mem W32 := []
  /-- W1C flag registers by device address. -/
  flags : Mem W32 := []
  /-- Tables and memories, and split writable quantities, by device address of the word. -/
  tab : Mem W64 := []
  /-- Device addresses of memory words marked poisoned or with a parity error (R265, R491). -/
  poisoned : List Nat := []
  holds : Mem Hold := []
  timers : Mem Timer := []
  chans : Mem Chan := []
  streams : Mem Stream := []
  rings : Mem Ring := []
  /-- Ring whose turn at the stager comes next (R340). -/
  stagerTurn : Nat := 0
  /-- Batch SRAM by word number (R337). -/
  sram : Mem W48 := []
  /-- Blocks of 64 pages whose contents S3 has lost, each with the free value its words hold until written (R424). -/
  sramLost : Mem Nat := []
  /-- Host memory, by 64-bit slot address, as the DMA has written it (R347, R348). -/
  hostMem : Mem W64 := []
  fes : Mem FilterEngine := []
  stages : Mem Stage := []
  slots : Mem RfSlot := []
  spus : Mem Spu := []
  engines : Mem Engine := []
  icu : Mem IcuSource := []
  /-- PEND views as presented, by processor (R280). -/
  icuViews : Mem (BitVec 128) := []
  journalQ : List JEntry := []
  cvps : Mem Cvp := []
  sbps : Mem SbPort := []
  /-- POLLe_STAT: failures and last result (R124). -/
  polls : Mem (Nat × Nat) := []
  evps : Mem Evp := []
  tchs : Mem Tch := []
  /-- The key measured last in the current scan, and that scan's start (R131). -/
  tchScan : Nat := 0
  tchStamp : Sample := {}
  evos : Mem Evo := []
  trigLines : W32 := 0
  power : Power := {}
  adm : Adm := {}
  mgt : Mgt := {}
  config : Cfg := {}
  /-- The Tally journal by word (R459), and words with an uncorrectable error. -/
  journal : Mem W64 := []
  /-- The configuration flash, by byte (R430). -/
  flash : List Host.Cell := []
  /-- The flash answers, and its JEDEC ID. -/
  flashId : BitVec 24 := 0
  straps : Straps := {}
  hl : Hl := {}
  bgt : Bgt := {}
  hws : Mem Hws := []
  phase : Phase := .inReset
  frz : Frz := {}
  tap : Tap := {}
  /-- What the last command that returns data returned, first word first. The model's own. -/
  answer : List W64 := []
  deriving DecidableEq, Repr, Inhabited

/-- The machine right after reset: every field at the value the spec states, or at the value the assumption log names. -/
def State.reset : State := {}

end Sys2Proof.Machine
end

