-- ==== Sys2Proof/Machine/Store.lean ====
section
/-! DEFINITION. Reading and writing the sparse stores of the state, in their one canonical form. -/

namespace Sys2Proof

/-- What key `a` holds in a store whose unlisted keys hold `d`. -/
def Mem.read {α : Type} (d : Nat → α) : Mem α → Nat → α
  | [], a => d a
  | (k, v) :: m, a => if a < k then d a else if a = k then v else Mem.read d m a

/-- The store without key `a`, which then holds its default again. -/
def Mem.erase {α : Type} : Mem α → Nat → Mem α
  | [], _ => []
  | (k, v) :: m, a =>
    if a < k then (k, v) :: m else if a = k then Mem.erase m a else (k, v) :: Mem.erase m a

/-- The store with the entry `(a, v)` put in its place. -/
def Mem.insert {α : Type} : Mem α → Nat → α → Mem α
  | [], a, v => [(a, v)]
  | (k, w) :: m, a, v =>
    if a < k then (a, v) :: (k, w) :: m else if a = k then (a, v) :: m else (k, w) :: Mem.insert m a v

/-- Key `a` takes value `v`. Writing what an unlisted key holds removes the entry. -/
def Mem.write {α : Type} [DecidableEq α] (d : Nat → α) (m : Mem α) (a : Nat) (v : α) : Mem α :=
  if v = d a then Mem.erase m a else Mem.insert m a v

/-- The canonical form: keys above `lo` rise strictly and no entry equals the default of its key. -/
def Mem.wfFrom {α : Type} [DecidableEq α] (d : Nat → α) : Nat → Mem α → Bool
  | _, [] => true
  | lo, (k, v) :: m => decide (lo ≤ k) && decide (v ≠ d k) && Mem.wfFrom d (k + 1) m

/-- The canonical form of a store. -/
def Mem.wf {α : Type} [DecidableEq α] (d : Nat → α) (m : Mem α) : Bool := Mem.wfFrom d 0 m

/-- Several consecutive keys written from a list, the first at `a`. -/
def Mem.writeList {α : Type} [DecidableEq α] (d : Nat → α) (m : Mem α) (a : Nat) : List α → Mem α
  | [] => m
  | v :: vs => Mem.writeList d (Mem.write d m a v) (a + 1) vs

/-- Every listed value goes through a function; one that then equals its default is no longer listed. -/
def Mem.mapVals {α : Type} [DecidableEq α] (d : Nat → α) (f : α → α) (m : Mem α) : Mem α :=
  (m.map (fun kv => (kv.1, f kv.2))).filter (fun kv => kv.2 ≠ d kv.1)

/-- The entries of a store from key `a` on. -/
def Mem.from {α : Type} (a : Nat) : Mem α → Mem α
  | [] => []
  | (k, v) :: m => if k < a then Mem.from a m else (k, v) :: m

/-- `n` consecutive keys from `a`, of a store without smaller keys. -/
def Mem.walk {α : Type} (d : Nat → α) : Nat → Nat → Mem α → List α
  | 0, _, _ => []
  | n + 1, a, [] => d a :: Mem.walk d n (a + 1) []
  | n + 1, a, (k, v) :: m => if k = a then v :: Mem.walk d n (a + 1) m else d a :: Mem.walk d n (a + 1) ((k, v) :: m)

/-- `n` consecutive keys read from `a`, in one pass over the store. -/
def Mem.slice {α : Type} (d : Nat → α) (m : Mem α) (a n : Nat) : List α := Mem.walk d n a (Mem.from a m)

/-- `n` consecutive keys read from `a`. -/
def Mem.readList {α : Type} (d : Nat → α) (m : Mem α) (a n : Nat) : List α :=
  (List.range n).map (fun i => Mem.read d m (a + i))

end Sys2Proof
end

