-- ==== Sys2Proof/Machine/Ops.lean ====
section
/-! DEFINITION. Named operations over the registers, the flags and counters, device time and the journal queue. -/

namespace Sys2Proof.Machine
open Sys2Proof

/-! ### Fields -/

/-- Bits [hi:lo] of a register or word, as a number. -/
def bits {n : Nat} (w : BitVec n) (hi lo : Nat) : Nat := (w.toNat >>> lo) % 2 ^ (hi + 1 - lo)

/-- Bit i. -/
def bit {n : Nat} (w : BitVec n) (i : Nat) : Bool := w.getLsbD i

/-- An n-bit two's complement field, as an integer. -/
def signed (n v : Nat) : Int := if v % 2 ^ n < 2 ^ (n - 1) then ((v % 2 ^ n : Nat) : Int) else ((v % 2 ^ n : Nat) : Int) - (2 ^ n : Nat)

/-- A word as a signed integer. -/
def sval (w : W48) : Int := w.toInt

/-- The word that holds an integer modulo 2^48. -/
def ofInt (i : Int) : W48 := BitVec.ofInt 48 i

/-- One when true. -/
def b2n (b : Bool) : Nat := if b then 1 else 0

/-! ### Addresses of the blocks (R508) -/

def sysWerrA : Nat := 0x0000_0004
def sysSumEnA : Nat := 0x0000_0010
def sysFlagsA : Nat := 0x0000_0014
def tbLeafA : Nat := 0x0000_0018
def tbCtrlA : Nat := 0x0001_0010
def tbPpsOfsA : Nat := 0x0001_0018
def tbHoldCntA : Nat := 0x0001_0044
def tbMissCntA : Nat := 0x0001_0048
def tmrA (n : Nat) : Nat := 0x0002_0100 + n * 0x80
def tmrGstatA : Nat := 0x0002_0014
def cvpA (n : Nat) : Nat := 0x0003_0100 + n * 0x100
/-- Sensor ports 0–3 are TWC0–TWC3 and 4–7 are SSP0–SSP3 (R124). -/
def sbpA (p : Nat) : Nat := 0x0004_0100 + p * 0x100
def pollA (e k : Nat) : Nat := 0x0004_4000 + e * 0x20 + k * 8
def hwsA (n : Nat) : Nat := 0x0005_0000 + n * 0x2000
def chanA (c w : Nat) : Nat :=
  if c < 1024 then 0x0006_0000 + c * 0x40 + w * 8 else 0x0012_0000 + (c - 1024) * 0x40 + w * 8
def streamA (k w : Nat) : Nat :=
  if k < 2048 then 0x0007_0000 + k * 0x20 + w * 8 else 0x0013_0000 + (k - 2048) * 0x20 + w * 8
def limFA (g : Nat) : Nat := 0x0014_0000 + g * 4
def feA (e : Nat) : Nat := 0x0008_0100 + e * 0x40
def feBrkA (e i : Nat) : Nat := 0x0008_0800 + e * 0x20 + i * 4
def feChainA (e c : Nat) : Nat := 0x0008_1000 + e * 0x800 + c * 8
def coefA (e a : Nat) : Nat := 0x0040_0000 + e * 0x4_0000 + a * 8
def spuA (u : Nat) : Nat := 0x0009_1000 + u * 0x1000
def spuSetA (u k : Nat) : Nat := spuA u + 0x100 + k * 0x20
def spuRuleA (u k r : Nat) : Nat := spuA u + 0x200 + k * 0x40 + r * 0x10
def spuWlA (u i : Nat) : Nat := spuA u + 0x400 + i * 4
def winA (u a : Nat) : Nat := 0x0030_0000 + u * 0x4_0000 + a * 8
def maskA (u a : Nat) : Nat := 0x0032_0000 + u * 0x4_0000 + a * 8
def eeA (e : Nat) : Nat := 0x000A_0100 + e * 0x80
def eeEntryA (e k : Nat) : Nat := 0x000A_2000 + e * 0x100 + k * 8
def icuCfgA (n : Nat) : Nat := 0x000A_4000 + n * 4
def icuAltA (n : Nat) : Nat := 0x000A_4200 + n * 4
def icuPA (p : Nat) : Nat := 0x000A_5000 + p * 0x40
def iramA (e a : Nat) : Nat := 0x0020_0000 + e * 0x1_0000 + a * 8
def dramA (e a : Nat) : Nat := 0x0020_8000 + e * 0x1_0000 + a * 8
def spliceA (j w : Nat) : Nat := 0x0038_0000 + j * 0x40 + w * 8
def admFlagsA : Nat := 0x000B_0018
def admAuditErrA : Nat := 0x000B_001C
def rngA (r : Nat) : Nat := 0x000C_0100 + r * 0x40
def hlA : Nat := 0x000D_0000
def pwrA : Nat := 0x000E_0000
def pwrFlagsA : Nat := 0x000E_0020
def frzA : Nat := 0x000E_4000
def opiA : Nat := 0x000E_8000
def evpA (n : Nat) : Nat := 0x000E_8100 + n * 0x10
def tchA (n : Nat) : Nat := 0x000E_8200 + n * 0x10
def evoA (n : Nat) : Nat := 0x000E_8300 + n * 4
def cfgStatA : Nat := 0x000F_0000
def mgtA : Nat := 0x0010_0000
def mgtFlagsA : Nat := 0x0010_0004
def bgtA : Nat := 0x0011_0000
def sramA (w : Nat) : Nat := 0x0100_0000 + 8 * w
def journalA (w : Nat) : Nat := 0x0400_0000 + 8 * w

/-! ### Reset values of the configuration registers -/

/-- The value a 32-bit configuration register holds at reset, by device address. -/
def cfgReset (a : Nat) : W32 :=
  if a < 0x0001_0000 then (if a = sysSumEnA then 0x80 else 0)
  else if a < 0x0002_0000 then (if a = tbCtrlA then 0x0064_3450 else 0)
  else if a < 0x0003_0000 then
    (if 0x0002_0100 ≤ a ∧ a < 0x0002_1100 ∧ (a - 0x0002_0100) % 0x80 = 4 then 1 else 0)
  else if a < 0x0004_0000 then
    (if 0x0003_0100 ≤ a ∧ a < 0x0003_0900 then
      match (a - 0x0003_0100) % 0x100 with
      | 0 => 0x0100_0010 | 8 => 0x028F | 0xC => 0x0148 | _ => 0
    else 0)
  else if a < 0x0005_0000 then
    (if 0x0004_0100 ≤ a ∧ a < 0x0004_0500 then
      match (a - 0x0004_0100) % 0x100 with
      | 0 => 0x0060_0000 | 8 => 0x78 | 0xC => 0x3E8 | 0x10 => 0x2710 | _ => 0
    else if 0x0004_0500 ≤ a ∧ a < 0x0004_0900 then
      match (a - 0x0004_0500) % 0x100 with
      | 0 => 0x0010_0000 | 8 => 0x0002_0101 | _ => 0
    else 0)
  else if a < 0x0006_0000 then hwsReset ((a - 0x0005_0000) % 0x2000)
  else if 0x0009_0000 ≤ a ∧ a < 0x000A_0000 then
    (if 0x0009_1000 ≤ a ∧ a < 0x0009_3000 then
      let o := (a - 0x0009_1000) % 0x1000
      if 0x100 ≤ o ∧ o < 0x200 ∧ o % 0x20 = 0 then 0x4280_0000
      else if 0x200 ≤ o ∧ o < 0x400 ∧ o % 0x10 = 0 then 0x0080_0000 else 0
    else 0)
  else if 0x000A_4000 ≤ a ∧ a < 0x000A_4200 then 0x10
  else if a < 0x000D_0000 then 0
  else if a < 0x000E_0000 then hlReset (a - 0x000D_0000)
  else if a < 0x000E_4000 then
    match a - 0x000E_0000 with
    | 8 => 0x3E8 | 0x10 => 0x64 | 0x14 => 0xF_4240 | _ => 0
  else if a < 0x000E_8000 then (if a = frzA then 1 else 0)
  else if a < 0x000F_0000 then
    (if a = 0x000E_8010 then 0x0290
    else if 0x000E_8200 ≤ a ∧ a < 0x000E_8300 ∧ a % 0x10 = 0 then 0x0401_0360
    else if 0x000E_8300 ≤ a ∧ a < 0x000E_8320 then 0x0001_0000 else 0)
  else if 0x0010_0000 ≤ a ∧ a < 0x0011_0000 then
    (if a = 0x0010_000C then 0xA
    else if a = 0x0010_0010 then 0x8000
    else if 0x0010_0100 ≤ a ∧ a < 0x0010_0230 ∧ a % 0x10 = 8 then 0x7FFF_8000 else 0)
  else if 0x0011_0000 ≤ a ∧ a < 0x0012_0000 then bgtReset (a - 0x0011_0000)
  else 0
where
  /-- Trunk port registers (R165, R195). -/
  hwsReset (o : Nat) : W32 :=
    match o with
    | 0x000 => 0x0660_0000 | 0x008 => 0x8000_0018 | 0x020 => 0x0004_8300 | 0x02C => 0x07D0 | 0x030 => 0x0300_0010
    | 0x034 => 0x1432_03E8 | 0x100 => 0x0010_2040 | 0x10C => 0x07D0_0064 | 0x110 => 0x03E8_080C | _ => 0
  /-- Host port registers (R402). -/
  hlReset (o : Nat) : W32 := match o with | 0x04 => 0x7 | 0x0C => 0x8832 | 0x14 => 0x1EC7 | _ => 0
  /-- Bight ring registers (R487). -/
  bgtReset (o : Nat) : W32 := if o = 4 then 0x4000 else 0

/-- The value a split quantity or a table word holds at reset, by the address of its _LO half. -/
def tabReset (a : Nat) : W64 :=
  if 0x0002_0100 ≤ a ∧ a < 0x0002_1100 ∧ (a - 0x0002_0100) % 0x80 = 0x10 then 0xFFFF_FFFF_FFFF else 0

/-! ### The register stores -/

/-- A configuration register. -/
def cfgR (s : State) (a : Nat) : W32 := Mem.read cfgReset s.cfg a
/-- A configuration register takes a value. -/
def setCfg (a : Nat) (v : W32) (s : State) : State := { s with cfg := Mem.write cfgReset s.cfg a v }
/-- A table word or split quantity. -/
def tabR (s : State) (a : Nat) : W64 := Mem.read tabReset s.tab a
/-- A table word takes a value. -/
def setTab (a : Nat) (v : W64) (s : State) : State := { s with tab := Mem.write tabReset s.tab a v }
/-- A 48-bit table word. -/
def wordR (s : State) (a : Nat) : W48 := (tabR s a).setWidth 48
/-- A 48-bit table word takes a value. -/
def setWord (a : Nat) (v : W48) (s : State) : State := setTab a (v.setWidth 64) s
/-- A counter. -/
def cntR (s : State) (a : Nat) : W32 := Mem.read (fun _ => 0) s.cnt a
/-- A counter takes a value. -/
def setCnt (a : Nat) (v : W32) (s : State) : State := { s with cnt := Mem.write (fun _ => 0) s.cnt a v }
/-- One more, saturating at 2^32 − 1. -/
def satInc (v : W32) : W32 := if v = BitVec.allOnes 32 then v else v + 1
/-- A saturating counter counts one. -/
def bump (a : Nat) (s : State) : State := setCnt a (satInc (cntR s a)) s
/-- A wrapping counter counts one. -/
def bumpWrap (a : Nat) (s : State) : State := setCnt a (cntR s a + 1) s
/-- A saturating counter counts n. -/
def bumpBy (a n : Nat) (s : State) : State :=
  setCnt a (BitVec.ofNat 32 (min (2 ^ 32 - 1) ((cntR s a).toNat + n))) s
/-- The W1C flags of a register. -/
def flagR (s : State) (a : Nat) : W32 := Mem.read (fun _ => 0) s.flags a
/-- The W1C flags of a register take a value. -/
def setFlags (a : Nat) (v : W32) (s : State) : State := { s with flags := Mem.write (fun _ => 0) s.flags a v }
/-- The hub sets a W1C flag, which raises its leaf (R404). -/
def raise (a i : Nat) (s : State) : State := setFlags a (flagR s a ||| (1#32 <<< i)) s
/-- A W1C write: each 1 clears its flag (R10). -/
def clearFlags (a : Nat) (v : W32) (s : State) : State := setFlags a (flagR s a &&& ~~~v) s
/-- SYS_WERR counts an ignored write and sets WERRF (R14, R32, R416). -/
def werr (s : State) : State := raise sysFlagsA 0 (bump sysWerrA s)

/-! ### Units -/

def holdOf (p : Path) : Nat := match p with | .pcie => 0 | .hsp => 1 | .twt => 2 | .ranger => 3
def getHold (s : State) (p : Path) : Hold := Mem.read (fun _ => {}) s.holds (holdOf p)
def setHold (p : Path) (h : Hold) (s : State) : State := { s with holds := Mem.write (fun _ => {}) s.holds (holdOf p) h }
def getTimer (s : State) (n : Nat) : Timer := Mem.read (fun _ => {}) s.timers n
def setTimer (n : Nat) (t : Timer) (s : State) : State := { s with timers := Mem.write (fun _ => {}) s.timers n t }
def getChan (s : State) (c : Nat) : Chan := Mem.read (fun _ => {}) s.chans c
def setChan (c : Nat) (x : Chan) (s : State) : State := { s with chans := Mem.write (fun _ => {}) s.chans c x }
def getStream (s : State) (k : Nat) : Stream := Mem.read (fun _ => {}) s.streams k
def setStream (k : Nat) (x : Stream) (s : State) : State := { s with streams := Mem.write (fun _ => {}) s.streams k x }
def getRing (s : State) (r : Nat) : Ring := Mem.read (fun _ => {}) s.rings r
def setRing (r : Nat) (x : Ring) (s : State) : State := { s with rings := Mem.write (fun _ => {}) s.rings r x }
def getFe (s : State) (e : Nat) : FilterEngine := Mem.read (fun _ => {}) s.fes e
def setFe (e : Nat) (x : FilterEngine) (s : State) : State := { s with fes := Mem.write (fun _ => {}) s.fes e x }
def getSlot (s : State) (k : Nat) : RfSlot := Mem.read (fun _ => {}) s.slots k
def setSlot (k : Nat) (x : RfSlot) (s : State) : State := { s with slots := Mem.write (fun _ => {}) s.slots k x }
def getSpu (s : State) (u : Nat) : Spu := Mem.read (fun _ => {}) s.spus u
def setSpu (u : Nat) (x : Spu) (s : State) : State := { s with spus := Mem.write (fun _ => {}) s.spus u x }
def getEngine (s : State) (e : Nat) : Engine := Mem.read (fun _ => {}) s.engines e
def setEngine (e : Nat) (x : Engine) (s : State) : State := { s with engines := Mem.write (fun _ => {}) s.engines e x }
def getIcu (s : State) (n : Nat) : IcuSource := Mem.read (fun _ => {}) s.icu n
def setIcu (n : Nat) (x : IcuSource) (s : State) : State := { s with icu := Mem.write (fun _ => {}) s.icu n x }
def getCvp (s : State) (n : Nat) : Cvp := Mem.read (fun _ => {}) s.cvps n
def setCvp (n : Nat) (x : Cvp) (s : State) : State := { s with cvps := Mem.write (fun _ => {}) s.cvps n x }
def getSbp (s : State) (n : Nat) : SbPort := Mem.read (fun _ => {}) s.sbps n
def setSbp (n : Nat) (x : SbPort) (s : State) : State := { s with sbps := Mem.write (fun _ => {}) s.sbps n x }
def getEvp (s : State) (n : Nat) : Evp := Mem.read (fun _ => {}) s.evps n
def setEvp (n : Nat) (x : Evp) (s : State) : State := { s with evps := Mem.write (fun _ => {}) s.evps n x }
def getTch (s : State) (n : Nat) : Tch := Mem.read (fun _ => {}) s.tchs n
def setTch (n : Nat) (x : Tch) (s : State) : State := { s with tchs := Mem.write (fun _ => {}) s.tchs n x }
def getEvo (s : State) (n : Nat) : Evo := Mem.read (fun _ => {}) s.evos n
def setEvo (n : Nat) (x : Evo) (s : State) : State := { s with evos := Mem.write (fun _ => {}) s.evos n x }
/-- What a batch SRAM word not written since holds: nothing after power-up, an open value where S3 has lost it (R424). -/
def sramD (s : State) (w : Nat) : W48 :=
  match Mem.read (fun _ => 0) s.sramLost (w / 32768) with
  | 0 => 0
  | n + 1 => (Config.innerWord (sramA w) n).setWidth 48
/-- A batch SRAM word (R337). -/
def sramR (s : State) (w : Nat) : W48 := Mem.read (sramD s) s.sram w
/-- A batch SRAM word takes a value; its error mark goes with the old contents. -/
def setSram (w : Nat) (v : W48) (s : State) : State :=
  { s with sram := Mem.write (sramD s) s.sram w v, poisoned := s.poisoned.filter (· ≠ sramA w) }

/-- n consecutive batch SRAM words are cleared, with their error marks. -/
def clearSram (w n : Nat) (s : State) : State :=
  let m := s.sram.filter (fun kv => decide (kv.1 < w ∨ w + n ≤ kv.1))
  { s with
    sram := if s.sramLost = [] then m else Mem.writeList (sramD s) m w (List.replicate n 0)
    poisoned := s.poisoned.filter (fun a => decide (a < sramA w ∨ sramA (w + n) ≤ a)) }

/-- Applies an operation once for each number of a list, in order. -/
def forEach (l : List Nat) (f : Nat → State → State) (s : State) : State := l.foldl (fun s i => f i s) s

/-! ### Device time -/

/-- The fast counter runs: in S0 and S1, and once a wake has loaded it (R37, R43). -/
def fastRuns (s : State) : Bool := s.power.cur = .s0 || s.power.cur = .s1 || s.tb.handed

/-- Device time's integer part (R37, R39, R40). -/
def ticks (s : State) : W64 :=
  if fastRuns s then (s.tb.fast >>> 32).setWidth 64
  else
    let t : W64 := (s.tb.acc >>> 32).setWidth 64
    if t < s.tb.tEnt then s.tb.tEnt else t

/-- Short time: the low 48 bits (R4). -/
def short (t : W64) : W48 := t.setWidth 48

/-- The loop or the ring alignment makes every stamp HELD (R45). -/
def heldNow (s : State) : Bool :=
  s.tb.loop = .holdover || s.tb.heldOver || (s.straps.role = 2 && !s.tb.aligned)

/-- The quality a stamp of the state in force carries: FINE in S0 and S1, COARSE at a crystal edge (R45). -/
def qualNow (s : State) : Quality := if heldNow s then .held else if fastRuns s then .fine else .coarse

/-- The quality a fast-domain stamp would carry now (R60). -/
def qualFast (s : State) : Quality := if heldNow s then .held else .fine

/-- The code of a quality (R45). -/
def qcode (q : Quality) : Nat := match q with | .fine => 0 | .wake => 1 | .coarse => 2 | .held => 3

/-- The worse of two qualities (R21). -/
def qworse (a b : Quality) : Quality := if qcode a < qcode b then b else a

/-- A stamp taken now by the domain in force. -/
def stampNow (s : State) : Sample := { stamp := ticks s, qual := qualNow s, era := s.tb.stepCnt }

/-- A stamp taken now for an event pin or a timer capture: through WOSC in S2 (R42, R72), never below T_ent (R40). -/
def stampWosc (s : State) : Sample :=
  if s.power.cur = .s2 && !s.tb.handed then
    let t : W64 := ((s.tb.edge + BitVec.ofNat 96 (s.tb.woscN * s.tb.woscPer.toNat * 2 ^ 8)) >>> 32).setWidth 64
    { stamp := if t < s.tb.tEnt then s.tb.tEnt else t,
      qual := if heldNow s then .held else .wake, era := s.tb.stepCnt }
  else stampNow s

/-- Ticks of device time since a stamp; a step between the two does not count. -/
def sinceStamp (s : State) (t : W64) (era : W32) : W64 :=
  match s.tb.lastStep with
  | some (old, new) => if era = s.tb.stepCnt then ticks s - t else ticks s - (t + (new - old))
  | none => ticks s - t

/-- Whether device time has reached an instant. -/
def reached (s : State) (t : W64) : Bool := decide (t ≤ ticks s)

/-! ### The journal queue -/

/-- MGT_JQLOST and JQLOSTF. -/
def jqLostA : Nat := 0x0010_0020

/-- A journal entry joins the queue of R29: kept while there is room, counted otherwise. -/
def journal (type : Nat) (at_ : Sample) (words : List W48) (s : State) : State :=
  if s.journalQ.length < 256 then
    let q := s.journalQ ++ [{ type := type, stamp := at_.stamp, qual := at_.qual, era := at_.era, words := words }]
    { s with journalQ := q, mgt := { s.mgt with jqMax := max s.mgt.jqMax q.length } }
  else
    raise mgtFlagsA 4 (bump jqLostA { s with mgt := { s.mgt with jqLostHeld := s.mgt.jqLostHeld + 1 } })

/-- A word built from fields given as (value, low bit). -/
def pack (fs : List (Nat × Nat)) : W48 := BitVec.ofNat 48 (fs.foldl (fun a f => a + f.1 * 2 ^ f.2) 0)

/-- A free value: one the spec leaves open, different at each use. -/
def draw (s : State) : Nat × State := (s.fresh, { s with fresh := s.fresh + 1 })

/-- A quantity kept to whole units where the spec names no rounding: exact where it is whole, else the free one of its two neighbours. -/
def roundFree (q : Rat) (s : State) : Int × State :=
  let f := q.floor
  if (f : Rat) = q then (f, s)
  else let d := draw s; (f + ((Config.freeWord d.1).toNat % 2 : Nat), d.2)

/-- The STATE encoding (R15). -/
def bcode (b : BlkState) : Nat := match b with | .off => 0 | .starting => 1 | .on => 2 | .stopping => 3

/-- The encoding of a power state (R428). -/
def pcode (p : PState) : Nat := match p with | .s0 => 0 | .s1 => 1 | .s2 => 2 | .s3 => 3

/-- The power state of a code. -/
def pstate (n : Nat) : PState := match n with | 0 => .s0 | 1 => .s1 | 2 => .s2 | _ => .s3

/-! ### Reset and FREEZE (R498, R527) -/

/-- No clock of the hub runs: FREEZE, or the internal reset. -/
def stopped (s : State) : Bool := s.frz.stopped || decide (s.phase = .inReset)

/-- A command other than those of reset and the TAP does nothing while no clock runs. -/
def live (s : State) (r : Host.Outcome State Fault Refusal) : Host.Outcome State Fault Refusal :=
  if stopped s then .next s else r

/-- The record of a freeze, and FREEZE_N driven for an own trigger (R496, R497). -/
def freezeRecord (cause unit : Nat) (fault : W32) (count : W32) (s : State) : State :=
  let drove := decide (cause ≠ 0) && bit (cfgR s frzA) 1
  { s with frz :=
    { s.frz with
      pending := true, driving := drove, fault := fault, time := ticks s, qual := qualNow s, count := count,
      cause := BitVec.ofNat 32 (2 ^ 31 + 2 ^ 30 + cause * 2 ^ 24 + unit * 2 ^ 20 + pcode s.power.cur * 2 ^ 18 + b2n drove * 2 ^ 17) } }

/-- A trigger in the cycle of the freeze instant goes before the one that came first: an own one before FREEZE_N, the
lower CAUSE, and within CAUSE 2 the lower engine (R505). -/
def freezeBefore (cause unit : Nat) (s : State) : Bool :=
  let c := bits s.frz.cause 27 24
  s.frz.time = ticks s && decide (cause ≠ 0) &&
    decide (c = 0 ∨ cause < c ∨ (cause = 2 ∧ c = 2 ∧ unit < bits s.frz.cause 23 20))

/-- A freeze trigger (R497): the first one makes the record; a later one changes it in the same cycle alone. -/
def freezeNow (cause unit : Nat) (fault : W32) (s : State) : State :=
  if s.frz.stopped then s
  else if s.frz.pending then (if freezeBefore cause unit s then freezeRecord cause unit fault s.frz.count s else s)
  else freezeRecord cause unit fault (satInc s.frz.count) s

end Sys2Proof.Machine
end

