-- ==== Sys2Proof/Machine/RingPort.lean ====
section
/-! DEFINITION. What a hub sends over the Bight ring (R474–R485), as the operations that other blocks call. -/

namespace Sys2Proof.Machine
open Sys2Proof

/-- The role and position straps (R470). -/
def isSecondary (s : State) : Bool := s.straps.role = 2
def isPrimary (s : State) : Bool := s.straps.role = 1
def onRing (s : State) : Bool := isPrimary s || isSecondary s
def myPos (s : State) : Nat := s.straps.pos

/-- BGT_FLAGS and its flags (R488). -/
def bgtFlagsA : Nat := bgtA + 0x08

/-- N, the hubs of the ring: as ENUM counted them, and until then as DEVICE names them (R472). -/
def ringHubs (s : State) : Nat := max 1 (if s.bgt.hubs = 0 then s.config.hubs else s.bgt.hubs)

/-- Hop h is whole (R485). -/
def hopUp (s : State) (h : Nat) : Bool := !s.bgt.broken.contains h

/-- Hops from position a going downstream to position b. -/
def downHops (s : State) (a b : Nat) : List Nat :=
  (List.range ((b + ringHubs s - a) % ringHubs s)).map (fun i => (a + i) % ringHubs s)

/-- Hops from position a going upstream to position b. -/
def upHops (s : State) (a b : Nat) : List Nat := downHops s b a

/-- Whether the downstream way from a to b is taken when the hops of a list are broken: the shorter of the two whole
ways, upstream on a tie (R330, R485). -/
def routeAround (bad : List Nat) (s : State) (a b : Nat) : Option Bool :=
  let d := downHops s a b
  let u := upHops s a b
  let whole := fun (hs : List Nat) => hs.all (fun h => !bad.contains h)
  match whole d, whole u with
  | true, true => some (decide (d.length < u.length))
  | true, false => some true
  | false, true => some false
  | false, false => none

/-- The route on the hops that are whole now. -/
def takesDown (s : State) (a b : Nat) : Option Bool := routeAround s.bgt.broken s a b

/-- The route of relayed data: as admission booked it, or in the surviving direction (R473, R485). -/
def relayRouteNow (s : State) (a b : Nat) : Option Bool :=
  match routeAround (s.bgt.booked ++ s.bgt.broken) s a b with
  | some d => some d
  | none => takesDown s a b

/-- A frame goes out downstream or upstream, into that port's replay buffer (R475). A port that is down sends nothing;
one in electrical idle or in training sends it when it is up. -/
def sendOut (down : Bool) (f : BFrame) (s : State) : State :=
  if down then
    if s.bgt.dport = 0 then s else { s with bgt := { s.bgt with replayD := s.bgt.replayD ++ [f] } }
  else if s.bgt.uport = 0 then s
  else { s with bgt := { s.bgt with replayU := s.bgt.replayU ++ [f] } }

/-- A frame to one position goes the way of its route (R330, R485). -/
def bgtSend (f : BFrame) (s : State) : State :=
  if !onRing s then s
  else match takesDown s (myPos s) f.dst with
  | some down => sendOut down f s
  | none => s

/-- A frame for every hub goes out of both ports. -/
def bgtSendAll (f : BFrame) (s : State) : State :=
  if onRing s then sendOut true f (sendOut false f s) else s

/-- CTRL codes in the frame's [31:28]. The spec lists what CTRL carries, not its coding: a DESIGN CHOICE. -/
def ctrlReload : Nat := 1
def ctrlStep : Nat := 2
def ctrlBreak : Nat := 3
def ctrlChoice : Nat := 4
def ctrlStepDone : Nat := 5
def ctrlRelease : Nat := 6
def ctrlRepair : Nat := 7
def ctrlHubs : Nat := 8
def ctrlExclude : Nat := 9

/-- A CTRL frame (R484). -/
def ctrlFrame (s : State) (dst op arg : Nat) (payload : List W48) : BFrame :=
  { kind := 8, src := myPos s, dst := dst, info := BitVec.ofNat 32 (op * 2 ^ 28 + arg % 2 ^ 28), payload := payload }

end Sys2Proof.Machine
end

