-- ==== Sys2Proof/Machine/Tables.lean ====
section
/-! DEFINITION. The channel, stream and chain tables as the data path reads them (R199–R209, R215–R218). -/

namespace Sys2Proof.Machine
open Sys2Proof

/-! ### Channels (R199, R200) -/

def chW (s : State) (c w : Nat) : W48 := wordR s (chanA c w)
def chEn (s : State) (c : Nat) : Bool := bit (chW s c 0) 47
def chKind (s : State) (c : Nat) : Nat := bits (chW s c 0) 46 43
def chXsh (s : State) (c : Nat) : Nat := bits (chW s c 0) 42 37
def chLimSh (s : State) (c : Nat) : Nat := bits (chW s c 0) 36 32
def chAddr (s : State) (c : Nat) : Nat := bits (chW s c 0) 19 0
/-- NOMPER in ticks, Q40.8. -/
def chNomper (s : State) (c : Nat) : Nat := (chW s c 1).toNat
def chHooks (s : State) (c : Nat) : Nat := bits (chW s c 7) 47 32
def chFe (s : State) (c : Nat) : Nat := bits (chW s c 7) 31 29
def chChain (s : State) (c : Nat) : Nat := bits (chW s c 7) 28 21
def chChainEn (s : State) (c : Nat) : Bool := bit (chW s c 7) 20
def chLimMode (s : State) (c : Nat) : Nat := bits (chW s c 7) 19 18
def chStrEn (s : State) (c : Nat) : Bool := bit (chW s c 7) 12
def chStream (s : State) (c : Nat) : Nat := bits (chW s c 7) 11 0

/-- An event channel has SRCKIND 5, 6 or 7 (R207). -/
def chIsEvent (s : State) (c : Nat) : Bool := decide (5 ≤ chKind s c ∧ chKind s c ≤ 7)

/-- The channel whose word 0 lies at an address. -/
def chanOfA (a : Nat) : Option Nat :=
  if 0x0006_0000 ≤ a ∧ a < 0x0007_0000 then
    if (a - 0x0006_0000) % 0x40 = 0 then some ((a - 0x0006_0000) / 0x40) else none
  else if 0x0012_0000 ≤ a ∧ a < 0x0013_0000 then
    if (a - 0x0012_0000) % 0x40 = 0 then some (1024 + (a - 0x0012_0000) / 0x40) else none
  else none

/-- Every enabled channel, ascending. -/
def enabledChans (s : State) : List Nat :=
  (s.tab.filterMap (fun kv => chanOfA kv.1)).filter (chEn s)

/-- The enabled channel that takes a source value, if any (R197). -/
def chanOfSource (s : State) (kind addr : Nat) : Option Nat :=
  (enabledChans s).find? (fun c => chKind s c = kind && chAddr s c = addr)

/-! ### Streams (R208, R209) -/

def stW (s : State) (k w : Nat) : W48 := wordR s (streamA k w)
def stEn (s : State) (k : Nat) : Bool := bit (stW s k 0) 47
def stKind (s : State) (k : Nat) : Nat := bits (stW s k 0) 46 44
def stRing (s : State) (k : Nat) : Nat := bits (stW s k 0) 43 37
/-- FORM: stamped batches. -/
def stStamped (s : State) (k : Nat) : Bool := bit (stW s k 0) 36
def stBatchM1 (s : State) (k : Nat) : Nat := bits (stW s k 0) 35 24
def stUnit (s : State) (k : Nat) : Nat := bits (stW s k 0) 23 20
def stOutput (s : State) (k : Nat) : Nat := bits (stW s k 0) 19 12
def stFlush (s : State) (k : Nat) : Nat := bits (stW s k 1) 45 0
def stBoundReq (s : State) (k : Nat) : Nat := bits (stW s k 2) 45 0

/-- The stream whose word 0 lies at an address. -/
def streamOfA (a : Nat) : Option Nat :=
  if 0x0007_0000 ≤ a ∧ a < 0x0008_0000 then
    if (a - 0x0007_0000) % 0x20 = 0 then some ((a - 0x0007_0000) / 0x20) else none
  else if 0x0013_0000 ≤ a ∧ a < 0x0014_0000 then
    if (a - 0x0013_0000) % 0x20 = 0 then some (2048 + (a - 0x0013_0000) / 0x20) else none
  else none

/-- Every enabled stream, ascending. -/
def enabledStreams (s : State) : List Nat :=
  (s.tab.filterMap (fun kv => streamOfA kv.1)).filter (stEn s)

/-- The reason admission gave for a stream (R328). -/
def admReason (s : State) (k : Nat) : Nat := Mem.read (fun _ => 0) s.adm.reason k
/-- The published bound (R211). -/
def boundOf (s : State) (k : Nat) : W64 := Mem.read (fun _ => 0) s.adm.bound k

/-- ADM of word 3 (R208, R211). -/
def stAdm (s : State) (k : Nat) : Nat :=
  if !s.adm.done then 0 else if !stEn s k then 3 else if admReason s k = 0 then 1 else 2

/-- An admitted stream. -/
def admitted (s : State) (k : Nat) : Bool := decide (stAdm s k = 1)

/-- Word 3 of a stream descriptor as read (R211). -/
def stWord3 (s : State) (k : Nat) : W48 :=
  pack [(stAdm s k, 46), (if stAdm s k = 1 then (boundOf s k).toNat else 0, 0)]

/-- The enabled stream of a kind that names a producer's unit and output, if any (R209). -/
def streamOf (s : State) (kind unit output : Nat) : Option Nat :=
  (enabledStreams s).find? (fun k => stKind s k = kind && stUnit s k = unit && stOutput s k = output)

/-- The channel whose direct stream is k (R209). -/
def chanOfStream (s : State) (k : Nat) : Option Nat :=
  (enabledChans s).find? (fun c => chStrEn s c && chStream s c = k)

/-- The stream that a TRIG output feeds: PROD 0 with an event channel names that channel instead (R209). -/
def trigStream (s : State) (e out : Nat) : Option Nat :=
  match streamOf s 4 e out with
  | some k => if e = 0 && out = 0 && (chanOfStream s k).isSome then none else some k
  | none => none

/-! ### Chains and stages (R215–R218) -/

def coef (s : State) (e a : Nat) : W48 := wordR s (coefA e a)

/-- The stage descriptor at a coefficient memory address. -/
def stageAt (s : State) (e num a : Nat) : StageDesc :=
  let w0 := coef s e a
  let w1 := coef s e (a + 1)
  { num := num, type := bits w0 47 44, inp := bits w0 43 40, tap := bit w0 39, out := bits w0 38 31,
    hold := bit w0 30, addr := a, len := bits w0 29 15, param := bits w1 47 32,
    tsadj := signed 32 (bits w1 31 0) }

/-- n stages from an address on, numbered from `num`. -/
def stagesFrom (s : State) (e : Nat) : Nat → Nat → Nat → List StageDesc
  | 0, _, _ => []
  | n + 1, num, a =>
    let d := stageAt s e num a
    d :: stagesFrom s e n (num + 1) (a + d.len)

def chainW (s : State) (e c : Nat) : W48 := wordR s (feChainA e c)
def chainValid (s : State) (e c : Nat) : Bool := bit (chainW s e c) 47
def chainNuse (s : State) (e c : Nat) : Nat := bits (chainW s e c) 42 35 + 1
def chainSbase (s : State) (e c : Nat) : Nat := bits (chainW s e c) 34 20

/-- The stages of a chain, in order. -/
def chainStages (s : State) (e c : Nat) : List StageDesc :=
  stagesFrom s e (bits (chainW s e c) 46 43 + 1) 1 (bits (chainW s e c) 14 0)

/-- The channels that run a chain, ascending (R216). -/
def chainChans (s : State) (e c : Nat) : List Nat :=
  (enabledChans s).filter (fun ch => chChainEn s ch && chFe s ch = e && chChain s ch = c)

/-- The instance a channel owns (R216). -/
def instanceOf (s : State) (ch : Nat) : Nat :=
  (chainChans s (chFe s ch) (chChain s ch)).idxOf ch

/-- The chain is BROKEN (R233). -/
def chainBroken (s : State) (e c : Nat) : Bool := bit (cntR s (feBrkA e (c / 32))) (c % 32)

/-- FIR control word fields: CIC_SH, NT, SYM, GE (R218). -/
def firSh (w : W48) : Nat := bits w 47 42
def firNt (w : W48) : Nat := bits w 41 31
def firSym (w : W48) : Bool := bit w 30
def firGe (w : W48) : Int := signed 4 (bits w 29 26)
/-- Stored coefficients K. -/
def firK (w : W48) : Nat := if firSym w then (firNt w + 1) / 2 else firNt w

/-- DEC parameters: CIC order, CIC rate, FIR decimation (R218, R222). -/
def decN (d : StageDesc) : Nat := d.param / 2 ^ 13 % 8
def decRcic (d : StageDesc) : Nat := d.param / 2 ^ 2 % 2 ^ 11 + 1
def decDf (d : StageDesc) : Nat := 2 ^ (d.param % 4)
/-- Window length N of RMS and PEAK (R218). -/
def winN (s : State) (e : Nat) (d : StageDesc) : Nat := bits (coef s e (d.addr + 2)) 20 0

/-- Inputs of a stage for each of its outputs (R219): R, D, N, or 1. -/
def decimation (s : State) (e : Nat) (d : StageDesc) : Nat :=
  match d.type with
  | 1 => decRcic d * decDf d
  | 2 => d.param / 2 ^ 12 + 1
  | 5 | 6 => winN s e d
  | _ => 1

/-- The span of a stage (R220), in its own inputs. -/
def spanOf (s : State) (e : Nat) (d : StageDesc) : Nat :=
  match d.type with
  | 1 =>
    let nt := firNt (coef s e (d.addr + 2))
    if decN d = 0 then nt else decRcic d * (decN d + nt - 1)
  | 2 => firNt (coef s e (d.addr + 2))
  | 3 => 2 ^ (d.param / 2 ^ 6 % 2 ^ 5)
  | 4 => 2 ^ (d.param / 2 ^ 10 % 2 ^ 5)
  | 5 | 6 => winN s e d
  | 8 => d.param / 2 ^ 6 % 2 ^ 8
  | _ => 1

/-- The stages on the path from CAL to a stage, along IN, the stage itself last. -/
def stagePath (ds : List StageDesc) : Nat → Nat → List StageDesc
  | 0, _ => []
  | _ + 1, 0 => []
  | fuel + 1, num =>
    match ds.find? (fun d => d.num = num) with
    | some d => stagePath ds fuel d.inp ++ [d]
    | none => []

/-- Product of the decimations on the path to a stage (R357). -/
def pathDecimation (s : State) (e : Nat) (ds : List StageDesc) (num : Nat) : Nat :=
  (stagePath ds 17 num).foldl (fun a d => a * decimation s e d) 1

/-- Engine, channel, stage and instance that produce an output, if any (R217). -/
def outputOwner (s : State) (e out : Nat) : Option (Nat × StageDesc) :=
  ((enabledChans s).filter (fun ch => chChainEn s ch && chFe s ch = e)).findSome? (fun ch =>
    ((chainStages s e (chChain s ch)).find? (fun d =>
      d.tap && d.type ≠ 7 && d.out + instanceOf s ch = out)).map (fun d => (ch, d)))

/-- Engine, channel and stage that own a rainflow slot, if any (R217). -/
def slotOwner (s : State) (slot : Nat) : Option (Nat × StageDesc) :=
  ((enabledChans s).filter (chChainEn s)).findSome? (fun ch =>
    ((chainStages s (chFe s ch) (chChain s ch)).find? (fun d =>
      d.type = 7 && d.out % 128 + instanceOf s ch = slot)).map (fun d => (ch, d)))

/-- The nominal period of a batch stream, as the 48-bit PER of a single sample (R357). -/
def nominalPer (s : State) (k : Nat) : W48 :=
  match stKind s k with
  | 0 =>
    match chanOfStream s k with
    | some c => BitVec.ofNat 48 (chNomper s c * 2 ^ 8)
    | none => 0
  | _ =>
    match outputOwner s (stUnit s k) (stOutput s k) with
    | some (ch, d) =>
      BitVec.ofNat 48 (chNomper s ch * 2 ^ 8 *
        pathDecimation s (chFe s ch) (chainStages s (chFe s ch) (chChain s ch)) d.num)
    | none => 0

end Sys2Proof.Machine
end

