-- ==== Sys2Proof/Machine/Rings.lean ====
section
/-! DEFINITION. Records, batches, room and refusal in the delivery rings (R336–R366). -/

namespace Sys2Proof.Machine
open Sys2Proof

/-! ### Ring configuration (R337, R373) -/

def ringEn (s : State) (r : Nat) : Bool := bit (cfgR s (rngA r)) 31
/-- MODE: 0 LOCAL, 1 MIRROR, 2 RELAY (R336). -/
def ringMode (s : State) (r : Nat) : Nat := bits (cfgR s (rngA r)) 30 29
def bodySize (s : State) (r : Nat) : Nat := 512 * 2 ^ bits (cfgR s (rngA r)) 23 20
def hostSize (s : State) (r : Nat) : Nat := 512 * 2 ^ bits (cfgR s (rngA r)) 28 24
def ringBodyPages (s : State) (r : Nat) : Nat := 2 ^ bits (cfgR s (rngA r)) 23 20
def ringWmark (s : State) (r : Nat) : W32 := cfgR s (rngA r + 0x14)
def ringHbase (s : State) (r : Nat) : W64 := tabR s (rngA r + 0x18)
def ringHidx (s : State) (r : Nat) : W64 := tabR s (rngA r + 0x20)
def ringDest (s : State) (r : Nat) : Nat := bits (cfgR s (rngA r + 0x28)) 6 0

/-- Flags of RNGr_STAT (R373). -/
def ringDataF : Nat := 3
def ringFullF : Nat := 4
def ringConsErr : Nat := 5

/-- Rings enabled by the image, ascending. -/
def enabledRings (s : State) : List Nat := (List.range 128).filter (ringEn s)

/-- Rings in STATE ON, ascending. -/
def ringsOn (s : State) : List Nat := (List.range 128).filter (fun r => (getRing s r).state = .on)

/-! ### Records as words (R353–R356) -/

/-- A record whose words came from a secondary. One that the primary itself writes on a relayed stream (R385) names
position 0: it is formed and written like a record of the primary's own. -/
def fromSecondary (x : Record) : Bool := match x.relayed with | some y => y.pos ≠ 0 | none => false

/-- Words of a record in its ring. -/
def recLen (x : Record) : Nat :=
  if fromSecondary x then x.payload.length
  else if x.type = 1 then 4 + x.samples.length
  else if x.type = 2 then 4 + 2 * x.samples.length
  else 2 + x.payload.length

/-- Record-level data the identities of R8 count: a batch's samples, or one record; kept records count nothing (R342). -/
def recCount (x : Record) : Nat :=
  if fromSecondary x then 0
  else if x.type = 1 ∨ x.type = 2 then x.samples.length
  else if x.type = 3 ∨ 9 ≤ x.type then 1 else 0

/-- A ring-level record has SUB bit 3 (R353). -/
def ringLevel (x : Record) : Bool := decide (8 ≤ x.sub)

/-- FLAGS as written: PRESTEP when a step was applied since the stamp (R53, R354). -/
def recFlags (s : State) (x : Record) : Nat :=
  x.flags.toNat % 128 + (if x.era = s.tb.stepCnt then 0 else 128)

/-- The words of a record with its SEQ (R353, R356). -/
def recWords (s : State) (x : Record) (seq : Nat) : List W48 :=
  if fromSecondary x then x.payload
  else if x.type = 1 ∨ x.type = 2 then
    [pack [(x.type, 44), (x.num, 32), (x.samples.length - 1, 20), (seq % 4096, 8), (recFlags s x, 0)],
     short x.time,
     pack [(x.close, 44), (x.time.toNat / 2 ^ 48, 0)],
     x.per] ++
    (if x.type = 1 then x.samples.map Prod.fst else x.samples.flatMap (fun p => [p.1, p.2]))
  else
    [pack [(x.type, 44), (x.num, 32), (x.payload.length, 18), (x.sub, 14), (seq % 64, 8), (recFlags s x, 0)],
     short x.time] ++ x.payload

/-- Header FLAGS of a sample (R354). -/
def sampleFlags (x : Sample) : BitVec 8 :=
  BitVec.ofNat 8 (qcode x.qual + 64 * b2n x.sat + 32 * b2n x.ovr + 16 * b2n x.filled)

/-! ### Room (R341) -/

/-- Words an open batch occupies (R324). -/
def batchWords (b : Batch) : Nat := 4 + (if b.stamped then 2 else 1) * b.samples.length

/-- Streams of a ring with an open batch, ascending. -/
def openStreams (s : State) (r : Nat) : List Nat :=
  (s.streams.filter (fun kv => kv.2.batch.isSome && stRing s kv.1 = r)).map Prod.fst

/-- Words the primary has granted to secondaries for a destination ring and not yet received whole (R481). -/
def creditWords (s : State) (r : Nat) : Nat :=
  if isPrimary s then
    ((s.bgt.credit.filter (fun kv => kv.1 % 128 = r)).map (fun kv =>
      (kv.2 - Mem.read (fun _ => 0) s.bgt.creditUsed kv.1).toNat)).sum
  else 0

/-- Res of R341. -/
def resWords (s : State) (r : Nat) : Nat :=
  creditWords s r + ((getRing s r).front.map recLen).sum + ((getRing s r).ready.map recLen).sum +
  ((openStreams s r).map (fun k => match (getStream s k).batch with | some b => batchWords b | none => 0)).sum

/-- F_B of R341. -/
def freeBody (s : State) (r : Nat) : Int :=
  let g := getRing s r
  let x := if ringMode s r = 0 then g.cons else g.prod
  (bodySize s r : Int) - ((g.stg - x).toNat : Int) - (resWords s r : Int)

/-- F_H of R341. -/
def freeHost (s : State) (r : Nat) : Int :=
  let g := getRing s r
  (hostSize s r : Int) - ((g.stg - g.cons).toNat : Int) - (resWords s r : Int)

/-- Whether L words fit (R341). -/
def fits (s : State) (r L : Nat) : Bool :=
  decide ((L : Int) + 8 ≤ freeBody s r) && (ringMode s r != 1 || decide ((L : Int) + 8 ≤ freeHost s r))

/-- Assembly pages held: open batches and closed batches not yet copied (R339). -/
def assemblyPages (s : State) : Nat :=
  (s.streams.map (fun kv => match kv.2.batch with | some b => (batchWords b + 511) / 512 | none => 0)).sum +
  (s.rings.map (fun kv => (((kv.2.front ++ kv.2.ready).filter (fun x => x.type = 1 || x.type = 2)).map
    (fun x => (recLen x + 511) / 512)).sum)).sum

/-- Free pages (R331). -/
def freePages (s : State) : Nat := 8192 - s.adm.ringPages - s.adm.rsvPages - assemblyPages s

/-! ### Becoming ready (R340) -/

/-- A granted record waits for the stager: ring-level records first, then in order of readiness. -/
def makeReady (r : Nat) (x : Record) (s : State) : State :=
  let g := getRing s r
  let q := if ringLevel x then
      g.ready.filter ringLevel ++ [x] ++ g.ready.filter (fun y => !ringLevel y)
    else g.ready ++ [x]
  setRing r { g with ready := q } s

/-! ### FULL (R342, R362) -/

/-- The ring gap record of a FULL period (R362). KIND 0 ENTRY, 1 PERSIST. -/
def ringGap (g : Ring) (r kind : Nat) : Record :=
  { type := 4, sub := 8, num := r, flags := BitVec.ofNat 8 (qcode g.fullQual), time := g.fullSince, era := g.fullEra,
    payload := [pack [(kind, 40), (g.fullCause, 32), (g.stgAtEntry.toNat, 0)],
                BitVec.ofNat 48 (g.refusedNow % 2 ^ 40)] }

/-- CAUSE of a FULL period for a demand of L words (R362). -/
def fullCauseOf (s : State) (r L : Nat) : Nat :=
  if ringMode s r = 0 then 1
  else if ringMode s r = 1 then (if freeHost s r < (L : Int) + 8 then 1 else 2)
  else 2

/-- A stream's refusal is noted for the gap record of R343. -/
def noteRefusal (l : List (Nat × RefRun)) (k : Nat) (x : Sample) : List (Nat × RefRun) :=
  match l with
  | [] => [(k, { first := x.stamp, last := x.stamp, count := 1, reason := 2, qual := x.qual, era := x.era })]
  | (j, run) :: l' =>
    if k < j then (k, { first := x.stamp, last := x.stamp, count := 1, reason := 2, qual := x.qual, era := x.era }) :: (j, run) :: l'
    else if k = j then (j, { run with last := x.stamp, count := run.count + 1 }) :: l'
    else (j, run) :: noteRefusal l' k x

/-- A FULL ring refuses a sample or record of stream k (R342). -/
def refuseAtRing (k r : Nat) (x : Sample) (s : State) : State :=
  let g := getRing s r
  let st := getStream s k
  bump (rngA r + 0x34)
    (setStream k { st with refused := st.refused + 1 }
      (setRing r { g with refusedNow := g.refusedNow + 1, refusing := noteRefusal g.refusing k x } s))

/-- The ring enters FULL for want of L words: FULLF, FULLS and the period's beginnings (R342). -/
def enterFull (r L : Nat) (s : State) : State :=
  let g := getRing s r
  let now := stampNow s
  bump (rngA r + 0x30) (raise (rngA r + 0x04) ringFullF
    (setRing r { g with full := true, fullSince := now.stamp, fullQual := now.qual, fullEra := now.era,
                        stgAtEntry := g.stg, fullCause := fullCauseOf s r L, refusedNow := 0,
                        refusing := [], persisted := false } s))

/-- The ENTRY record goes into the headroom (R342). -/
def entryGap (r : Nat) (s : State) : State := makeReady r (ringGap (getRing s r) r 0) s

/-! ### Kept records (R342) -/

/-- Stream gap records of one stream and one REASON merge while deferred; so do status REQUESTs (R342). -/
def mergeDeferred : List Record → Record → List Record
  | [], x => [x]
  | y :: l, x =>
    if x.type = 4 ∧ y.type = 4 ∧ x.num = y.num ∧ bits (x.payload.getD 1 0) 47 40 = bits (y.payload.getD 1 0) 47 40 then
      { y with payload := [x.payload.getD 0 0,
          pack [(bits (y.payload.getD 1 0) 47 40, 40),
                ((bits (y.payload.getD 1 0) 39 0 + bits (x.payload.getD 1 0) 39 0) % 2 ^ 40, 0)]] } :: l
    else if x.type = 8 ∧ y.type = 8 then y :: l
    else y :: mergeDeferred l x

/-- A kept record becomes ready, or is deferred; it is never refused (R342). -/
def keepRec (r : Nat) (x : Record) (s : State) : State :=
  let g := getRing s r
  if g.state ≠ .on then s
  else if g.full then setRing r { g with deferred := mergeDeferred g.deferred x } s
  else if fits s r (recLen x) then makeReady r x s
  else
    let s := entryGap r (enterFull r (recLen x) s)
    let g := getRing s r
    setRing r { g with deferred := mergeDeferred g.deferred x } s

/-- The stream gap record of a run (R361). -/
def gapRec (k : Nat) (run : RefRun) : Record :=
  { type := 4, sub := 0, num := k, flags := BitVec.ofNat 8 (qcode run.qual), time := run.first, era := run.era,
    payload := [short run.last, pack [(run.reason, 40), (run.count % 2 ^ 40, 0)]] }

/-- A stream's gap record is formed (R361). -/
def formGap (k : Nat) (run : RefRun) (s : State) : State :=
  if admitted s k then keepRec (stRing s k) (gapRec k run) s else s

/-! ### Batches (R356–R359) -/

/-- The PER field of a closing batch (R357, R358). -/
def batchPer (s : State) (k : Nat) (b : Batch) : W48 :=
  if b.stamped then 0
  else match b.window with
    | some (lo, hi) => ofInt (2 ^ 15 * (lo + hi) + 1 / 2 : Rat).floor
    | none => nominalPer s k

/-- The record of a closed batch. -/
def batchRec (s : State) (k close : Nat) (b : Batch) : Record :=
  { type := if b.stamped then 2 else 1, num := k, flags := b.flags, time := b.t0, era := b.era,
    close := close, per := batchPer s k b, samples := b.samples }

/-- A stream's open batch closes and becomes ready (R359). -/
def closeBatch (k close : Nat) (s : State) : State :=
  let st := getStream s k
  match st.batch with
  | none => s
  | some b => makeReady (stRing s k) (batchRec s k close b) (setStream k { st with batch := none } s)

/-- Every open batch of a ring closes, in ascending stream number. -/
def closeRingBatches (r close : Nat) (s : State) : State :=
  forEach (openStreams s r) (fun k => closeBatch k close) s

/-- Every open batch of the hub closes. -/
def closeAllBatches (close : Nat) (s : State) : State :=
  forEach ((s.streams.filter (fun kv => kv.2.batch.isSome)).map Prod.fst) (fun k => closeBatch k close) s

/-- The interval of periods that sample j admits, in ticks (R357). -/
def paceInterval (b : Batch) (t : W64) : Rat × Rat :=
  let j : Rat := (b.samples.length : Nat)
  let d : Rat := ((t - b.t0).toInt : Int)
  ((d - 5 / 4) / j, (d + 5 / 4) / j)

/-- The intersection of a batch's window with an interval (R357). -/
def paceMeet (b : Batch) (i : Rat × Rat) : Rat × Rat :=
  match b.window with
  | none => i
  | some (lo, hi) => (max lo i.1, min hi i.2)

/-- Whether a sample can join an open batch, or the reason it closes: 1 FLUSH, 2 QUAL, 3 PACE (R359). -/
def batchBreak (s : State) (k : Nat) (b : Batch) (x : Sample) : Option Nat :=
  if reached s (b.t0 + BitVec.ofNat 64 (stFlush s k)) then some 1
  else if b.flags ≠ sampleFlags x then some 2
  else if b.stamped then none
  else
    let w := paceMeet b (paceInterval b x.stamp)
    if w.2 < w.1 then some 3 else none

/-- A sample joins its stream's batch, opening one when there is none; a full batch closes (R210, R357). -/
def joinBatch (k : Nat) (x : Sample) (s : State) : State :=
  let st := getStream s k
  let b : Batch := match st.batch with
    | none => { stamped := stStamped s k, flags := sampleFlags x, t0 := x.stamp, era := x.era, samples := [(x.value, short x.stamp)] }
    | some b => { b with samples := b.samples ++ [(x.value, short x.stamp)],
                         window := if b.stamped then none else some (paceMeet b (paceInterval b x.stamp)) }
  let s := setStream k { st with batch := some b } s
  if b.samples.length = stBatchM1 s k + 1 then closeBatch k 0 s else s

/-- A sample is offered to its stream's ring: granted room, or refused (R341, R342). -/
def offerRing (k : Nat) (x : Sample) (s : State) : State :=
  let r := stRing s k
  let st := getStream s k
  let s := setStream k { st with offered := st.offered + 1 } s
  if (getRing s r).full then refuseAtRing k r x s
  else
    let s := match (getStream s k).batch with
      | some b => (match batchBreak s k b x with | some c => closeBatch k c s | none => s)
      | none => s
    let need := (if stStamped s k then 2 else 1) + (if (getStream s k).batch.isSome then 0 else 4)
    if fits s r need then joinBatch k x s
    else entryGap r (refuseAtRing k r x (enterFull r need s))

/-- A record that is not a batch is offered to its stream's ring (R341, R342). -/
def offerRecRing (k : Nat) (x : Sample) (y : Record) (s : State) : State :=
  let r := stRing s k
  let st := getStream s k
  let s := setStream k { st with offered := st.offered + 1 } s
  if (getRing s r).full then refuseAtRing k r x s
  else if fits s r (recLen y) then makeReady r y s
  else entryGap r (refuseAtRing k r x (enterFull r (recLen y) s))

/-- Whether a stream takes samples: admitted, with its ring ON (R27, R368). -/
def streamRuns (s : State) (k : Nat) : Bool := admitted s k && decide ((getRing s (stRing s k)).state = .on)

/-! ### Ring-level records (R363, R364, R366) -/

/-- An epoch record; KIND 0 WRAP, 1 HALF, 2 START (R363). -/
def epochRec (s : State) (r kind : Nat) (t : W64) : Record :=
  { type := 5, sub := 8, num := r, flags := BitVec.ofNat 8 (qcode (qualNow s)), time := t, era := s.tb.stepCnt,
    payload := [pack [(kind, 46), (t.toNat / 2 ^ 48, 0)]] }

/-- A time-step record (R364). -/
def stepRec (s : State) (r : Nat) (old new : W64) : Record :=
  { type := 6, sub := 8, num := r, flags := BitVec.ofNat 8 (qcode (qualNow s)), time := new, era := s.tb.stepCnt,
    payload := [short old, pack [(old.toNat / 2 ^ 48, 16), (new.toNat / 2 ^ 48, 0)], s.tb.stepCnt.setWidth 48] }

/-- The code of a loop state (R60). -/
def loopCode (l : Loop) : Nat := match l with | .none => 0 | .acquiring => 1 | .locked => 2 | .holdover => 3

/-- A status record; WHY 0 START, 1 REQUEST, 2 STOP (R366). -/
def statusRec (s : State) (r why : Nat) : Record :=
  let g := getRing s r
  { type := 8, sub := 8, num := r, flags := BitVec.ofNat 8 (qcode (qualNow s)), time := ticks s, era := s.tb.stepCnt,
    payload := [pack [(why, 40), (r, 0)], g.stg.setWidth 48, g.cons.setWidth 48,
      pack [(s.config.loads.toNat % 2 ^ 16, 32), ((cntR s (rngA r + 0x30)).toNat % 2 ^ 16, 16),
            (pcode s.adm.deepest, 4), (loopCode s.tb.loop, 2), (qcode (qualFast s), 0)]] }

/-- A fault record on a stream (R365). -/
def faultRec (s : State) (k origin unit code : Nat) (w1 : W48) : Record :=
  { type := 7, sub := 0, num := k, flags := BitVec.ofNat 8 (qcode (qualNow s)), time := ticks s, era := s.tb.stepCnt,
    payload := [pack [(origin, 40), (unit, 32), (code, 0)], w1] }

/-- A fault record enters its stream's ring as a kept record (R365). -/
def formFault (k origin unit code : Nat) (w1 : W48) (s : State) : State :=
  if admitted s k then keepRec (stRing s k) (faultRec s k origin unit code w1) s else s

/-! ### The stager (R340) and delivery (R344, R346–R349) -/

/-- A record's words are written into the body from an index on (R337). -/
def writeBody (r : Nat) : List W48 → W32 → State → State
  | [], _, s => s
  | w :: ws, i, s =>
    writeBody r ws (i + 1) (setSram (512 * (getRing s r).base.toNat + i.toNat % bodySize s r) w s)

/-- DATAF after PROD has advanced (R346). -/
def checkWmark (r : Nat) (s : State) : State :=
  let g := getRing s r
  let w := ringWmark s r
  if w ≠ 0 ∧ w ≤ g.prod - g.cons then raise (rngA r + 0x04) ringDataF s else s

/-- A delivered record counts in its stream (R6, R331). -/
def deliverCount (k : Option Nat) (n : Nat) (s : State) : State :=
  match k with
  | some k =>
    let st := getStream s k
    setStream k { st with delivered := st.delivered + BitVec.ofNat 48 n } s
  | none => s

/-- The host link carries DMA: trained, with bus mastering enabled, in D0. Otherwise staged records wait in their bodies; a link
that is only slower than booked carries them late (R329, R367, R385). -/
def linkCarries (s : State) : Bool := s.hl.linkGen ≠ 0 && s.hl.bme && !s.hl.d3

/-- The 64-bit slot of a word at a ring index (R347). -/
def hostSlot (i : W32) (w : W48) : W64 :=
  let low : BitVec 56 := (i.setWidth 8 : BitVec 8) ++ w
  crc8 (msbBits low) ++ low

/-- The producer index word (R348). -/
def indexWord (r : Nat) (i : W32) : W64 :=
  let low : BitVec 56 := BitVec.ofNat 56 (r % 128 * 2 ^ 32 + i.toNat)
  crc8 (msbBits low) ++ low

/-- A host memory slot takes a value. -/
def setHost (a : Nat) (v : W64) (s : State) : State := { s with hostMem := Mem.write (fun _ => 0) s.hostMem a v }

/-- SYS_SEALINV. -/
def sealInvA : Nat := 0x108

/-- One body word goes to its slot of the host ring (R337, R347); a poisoned one is sealed with its CRC complemented,
and counted (R492). -/
def dmaWord (r : Nat) (i : W32) (s : State) : State :=
  let w := 512 * (getRing s r).base.toNat + i.toNat % bodySize s r
  let a := (ringHbase s r).toNat + 8 * (i.toNat % hostSize s r)
  let v := hostSlot i (sramR s w)
  if s.poisoned.contains (sramA w) then setHost a (v ^^^ 0xFF00_0000_0000_0000) (bump sealInvA s) else setHost a v s

/-- n body words from an index on go to the host ring. -/
def dmaWords (r : Nat) : Nat → W32 → State → State
  | 0, _, s => s
  | n + 1, i, s => dmaWords r n (i + 1) (dmaWord r i s)

/-- The record's words, then its index word, are sent (R348, R349). -/
def dmaRecord (r : Nat) (f : InFlight) (s : State) : State :=
  setHost (ringHidx s r).toNat (indexWord r f.endIdx) (dmaWords r (f.endIdx - f.startIdx).toNat f.startIdx s)

/-- Whatever a MIRROR ring has staged is sent while the link carries it, and brings the link back to L0 (R349, R367, R383). -/
def dmaPending (r : Nat) (s : State) : State :=
  if linkCarries s && ringMode s r = 1 then
    let g := getRing s r
    let due := g.inflight.filter (fun f => !f.sent)
    let s := due.foldl (fun s f => dmaRecord r f s) s
    let s := if due.isEmpty then s else { s with hl := { s.hl with lpm := if s.hl.lpm ≤ 3 then 0 else s.hl.lpm } }
    setRing r { g with inflight := g.inflight.map (fun f => { f with sent := true }) } s
  else s

/-- The fragments of a relayed record, of up to 64 words (R481): FIRST, LAST and the fragment's number. -/
def relayFrames (s : State) (r : Nat) : Nat → Nat → List W48 → List BFrame
  | 0, _, _ => []
  | fuel + 1, i, ws =>
    { kind := 2, src := myPos s, dst := 0, payload := ws.take 64,
      info := BitVec.ofNat 32 (r * 2 ^ 25 + ringDest s r * 2 ^ 18 + b2n (i = 0) * 2 ^ 17 + b2n (ws.length ≤ 64) * 2 ^ 16 + i % 2 ^ 16) } ::
    (if ws.length ≤ 64 then [] else relayFrames s r fuel (i + 1) (ws.drop 64))

/-- A record's words in its body. -/
def bodyWords (s : State) (r : Nat) (f : InFlight) : List W48 :=
  (List.range (f.endIdx - f.startIdx).toNat).map (fun i =>
    sramR s (512 * (getRing s r).base.toNat + (f.startIdx + BitVec.ofNat 32 i).toNat % bodySize s r))

/-- The oldest unsent record of a RELAY ring goes out, if its credit covers it and a route is there (R481). -/
def relayOne (r : Nat) (s : State) : State :=
  let g := getRing s r
  let key := 128 * myPos s + ringDest s r
  match g.inflight.find? (fun f => !f.sent), relayRouteNow s (myPos s) 0 with
  | some f, some down =>
    let n := f.endIdx - f.startIdx
    let used := Mem.read (fun _ => 0) s.bgt.creditUsed key
    if !s.bgt.excl && decide (n ≤ Mem.read (fun _ => 0) s.bgt.credit key - used) then
      let ws := bodyWords s r f
      let s := (relayFrames s r (ws.length + 1) 0 ws).foldl (fun s b => sendOut down b s) s
      { setRing r { g with inflight := g.inflight.map (fun x => if x.endIdx = f.endIdx then { x with sent := true } else x) } s with
        bgt := { s.bgt with creditUsed := Mem.write (fun _ => 0) s.bgt.creditUsed key (used + n) } }
    else s
  | _, _ => s

/-- Whatever a RELAY ring has staged is sent as far as its credit goes. -/
def relayPending (r : Nat) (s : State) : State :=
  if isSecondary s && ringMode s r = 2 then forEach ((getRing s r).inflight.map (fun _ => r)) relayOne s else s

/-- The stream a record counts for. -/
def recStream (x : Record) : Option Nat := if ringLevel x || x.relayed.isSome then none else some x.num

/-- The next SEQ of a record's stream or ring, and the state with it used (R353). The spec does not say how the primary
counts the records it writes on a relayed stream: a free value. -/
def takeSeq (r : Nat) (x : Record) (s : State) : Nat × State :=
  if fromSecondary x then (0, s)
  else if x.relayed.isSome then let d := draw s; ((Config.freeWord d.1).toNat, d.2)
  else if ringLevel x then
    let g := getRing s r
    (g.seq, setRing r { g with seq := (g.seq + 1) % 64 } s)
  else
    let st := getStream s x.num
    (st.seq, setStream x.num { st with seq := (st.seq + 1) % 4096 } s)

/-- The primary notes a relayed record as delivered, for the next CONFIRM frame (R481). -/
def noteRelayed (x : Option Relayed) (s : State) : State :=
  match x with
  | some y =>
    if y.pos = 0 then s
    else { s with bgt := { s.bgt with relayIdx := Mem.write (fun _ => none) s.bgt.relayIdx (128 * y.pos + y.ring) (some y.idx) } }
  | none => s

/-- A status record tells of the cycle in which it is written (R366). -/
def atWriting (s : State) (r : Nat) (x : Record) : Record :=
  if x.type = 8 && x.relayed.isNone then statusRec s r (bits (x.payload.headD 0) 47 40) else x

/-- One record is written into its body (R340, R344). On a MIRROR ring it keeps the link out of L1 (R383). -/
def stageRecord (r : Nat) (rec : Record) (s : State) : State :=
  let x := atWriting s r rec
  let q := takeSeq r x s
  let s := if ringMode s r = 1 then { q.2 with hl := { q.2.hl with busyAt := ticks s } } else q.2
  let ws := recWords s x q.1
  let i := (getRing s r).stg
  let e := i + BitVec.ofNat 32 ws.length
  let s := writeBody r ws i s
  let g := getRing s r
  if ringMode s r = 0 then
    checkWmark r (bumpWrap (rngA r + 0x38) (noteRelayed x.relayed (deliverCount (recStream x) (recCount x)
      (setRing r { g with stg := e, prod := e } s))))
  else
    relayPending r <| dmaPending r (setRing r { g with stg := e, inflight := g.inflight ++
      [{ endIdx := e, startIdx := i, stream := recStream x, samples := recCount x, stamp := x.time, relayed := x.relayed }] } s)

/-- The ring whose turn it is: the first from the turn pointer on with a record ready (R340). -/
def stagerRing (s : State) : Option Nat :=
  ((List.range 128).map (fun i => (s.stagerTurn + i) % 128)).find? (fun r =>
    !(getRing s r).front.isEmpty || !(getRing s r).ready.isEmpty)

/-- STAGER_WRITE (R340): the record at the front of the ring whose turn it is. -/
def execStagerWrite (s : State) : Host.Outcome State Fault Refusal := live s <|
  if s.power.cur ≠ .s0 then .next s
  else match stagerRing s with
  | none => .next s
  | some r =>
    let g := getRing s r
    let s := { s with stagerTurn := (r + 1) % 128 }
    match g.front, g.ready with
    | x :: rest, _ => .next (stageRecord r x (setRing r { g with front := rest } s))
    | [], x :: rest => .next (stageRecord r x (setRing r { g with ready := rest } s))
    | [], [] => .next s

/-- Half the smallest bound among a ring's admitted streams (R342). -/
def halfMinBound (s : State) (r : Nat) : Option Nat :=
  ((enabledStreams s).filter (fun k => admitted s k && stRing s k = r)).foldl
    (fun m k => match m with
      | none => some ((boundOf s k).toNat / 2)
      | some v => some (min v ((boundOf s k).toNat / 2))) none

/-- PERSIST (R342): once, half the smallest bound after FULL began. -/
def execPersist (r : Nat) (s : State) : Host.Outcome State Fault Refusal := live s <|
  let g := getRing s r
  match halfMinBound s r with
  | some h =>
    if g.full && !g.persisted && reached s (g.fullSince + BitVec.ofNat 64 h) then
      .next (makeReady r (ringGap g r 1) (setRing r { g with persisted := true } s))
    else .next s
  | none => .next s

/-- Words the records due at leaving FULL need (R343). -/
def leaveNeed (g : Ring) : Nat := (g.deferred.map recLen).sum + 4 * g.refusing.length

/-- LEAVE_FULL (R343): the deferred records and one gap record per refusing stream, once they fit. -/
def execLeaveFull (r : Nat) (s : State) : Host.Outcome State Fault Refusal := live s <|
  let g := getRing s r
  if g.full && fits s r (leaveNeed g) then
    .next (setRing r
      { g with
        full := false, deferred := [], refusing := [],
        front := g.front ++ g.deferred ++ g.refusing.map (fun p => gapRec p.1 p.2) } s)
  else .next s

/-- The oldest sent record of a ring is confirmed: PROD and the delivered counts advance (R344). -/
def confirmOldest (r : Nat) (s : State) : State :=
  let g := getRing s r
  match g.inflight with
  | f :: rest =>
    if f.sent then
      checkWmark r (bumpWrap (rngA r + 0x38) (noteRelayed f.relayed (deliverCount f.stream f.samples
        (setRing r { g with prod := f.endIdx, inflight := rest } s))))
    else s
  | [] => s

/-- DMA_ACKNOWLEDGE (R344): the link partner acknowledges the oldest index word of a MIRROR ring. -/
def execDmaAcknowledge (r : Nat) (s : State) : Host.Outcome State Fault Refusal := live s <|
  if ringMode s r = 1 then .next (confirmOldest r s) else .next s

/-- The effect of a write to RNGr_CONS (R345). -/
def writeCons (r : Nat) (c : W32) (s : State) : State :=
  let g := getRing s r
  if ringMode s r = 2 then werr s
  else if c - g.cons ≤ g.prod - g.cons then setRing r { g with cons := c } s
  else raise (rngA r + 0x04) ringConsErr (werr s)

/-- CONSUMER_WRITE (R345). -/
def execConsumerWrite (_path : Path) (r : Nat) (c : W32) (s : State) : Host.Outcome State Fault Refusal := live s <|
  if r < 128 then .next (writeCons r c s) else .next s

/-- What a doorbell's FLUSH bit does (R350). -/
def doorbellFlush (v : W32) (s : State) : State :=
  if bit v 31 then closeRingBatches (bits v 6 0) 6 s else s

/-- What a doorbell's STATUS bit does (R350). -/
def doorbellStatus (v : W32) (s : State) : State :=
  if bit v 30 then keepRec (bits v 6 0) (statusRec s (bits v 6 0) 1) s else s

/-- A write to RNG_DB in S0; a ring that is not ON is only counted (R350). -/
def ringDoorbell (v : W32) (s : State) : State :=
  if (getRing s (bits v 6 0)).state ≠ .on then werr s else doorbellStatus v (doorbellFlush v s)

end Sys2Proof.Machine
end

