-- ==== Sys2Proof/Machine/Signals.lean ====
section
/-! DEFINITION. Signals between blocks: event outputs (R134–R136), the interrupt controller's sources (R279–R281),
wake requests (R421), and triggers for the event engines (R267–R269). -/

namespace Sys2Proof.Machine
open Sys2Proof

/-! ### Wake requests -/

/-- PWR_CANCEL. -/
def pwrCancelA : Nat := pwrA + 0x6C

/-- A wake source asserts: it cancels a preparation (R420), and in sleep it asks for a wake: the sources of the
cycle that begins it are kept (R421, R422). -/
def requestWake (i : Nat) (s : State) : State :=
  match s.power.cur, s.power.phase with
  | .s0, .preparing _ => bump pwrCancelA { s with power := { s.power with phase := .awake, idleSince := none } }
  | .s0, .awake => s
  | _, _ =>
    if s.power.wakeReq = 0 then { s with power := { s.power with wakeReq := 1#11 <<< i, wakeBegan := short (ticks s) } }
    else if s.power.wakeBegan = short (ticks s) then { s with power := { s.power with wakeReq := s.power.wakeReq ||| (1#11 <<< i) } }
    else s

/-- The wake source of an access path (R421): PCI Express 7, HSP 8, TWT 9; Ranger is awake when it writes. -/
def pathWake (p : Path) (s : State) : State :=
  match p with
  | .pcie => requestWake 7 s
  | .hsp => requestWake 8 s
  | .twt => requestWake 9 s
  | .ranger => s

/-! ### Event outputs (R134, R135) -/

def evoCfg (s : State) (n : Nat) : W32 := cfgR s (evoA n)
def evoSrc (s : State) (n : Nat) : Nat := bits (evoCfg s n) 7 5
def evoIdx (s : State) (n : Nat) : Nat := bits (evoCfg s n) 12 8
def evoMode (s : State) (n : Nat) : Nat := bits (evoCfg s n) 4 3
/-- OPI_EVO_WERR. -/
def evoWerrA : Nat := opiA + 0x18

/-- OUT of a timer as driven: low before inversion while not started (R70). -/
def timerOut (s : State) (n : Nat) : Bool :=
  let t := getTimer s n
  (t.running && t.out) != bit (cfgR s (tmrA n)) 12

/-- The source an event output follows, now (R134, R139). -/
def evoSource (s : State) (n : Nat) : Bool :=
  match evoSrc s n with
  | 1 => timerOut s (evoIdx s n)
  | 2 => bit (getEngine s (evoIdx s n % 16)).evo n
  | 3 => (getSpu s (evoIdx s n % 2)).abort
  | 4 => bit s.trigLines (evoIdx s n)
  | _ => false

/-- An event output's latch is set or cleared, with its journal entry (R133, R461). -/
def evoJournal (n : Nat) (set : Bool) (s : State) : State :=
  journal 0x13 (stampNow s) [pack [(n, 40), (b2n set, 8), (evoSrc s n, 5), (evoIdx s n, 0)]] s

/-- The blocks run: from start-up step 8 on, and through a reload until its step 4 (R31, R35). -/
def blocksRun (s : State) : Bool := s.phase = .running || s.phase = .draining

/-- A source of a kind offers: from step 9 on, until a reload stops the sources. What the engines still put is no
source's (R31, R35, R284). -/
def sourcesRun (s : State) (kind : Nat) : Bool := s.phase = .running || (s.phase = .draining && kind = 8)

/-- One event output follows its source; it holds while a reload has stopped the blocks (R135). -/
def evoFollow (n : Nat) (s : State) : State :=
  let o := getEvo s n
  let src := evoSource s n
  let rise := src && !o.source
  if !o.driven || !blocksRun s then s
  else match evoMode s n with
    | 0 => setEvo n { o with source := src, active := src } s
    | 1 =>
      if rise && !o.latch then evoJournal n true (setEvo n { o with source := src, latch := true, active := true } s)
      else setEvo n { o with source := src } s
    | 2 => if rise then setEvo n { o with source := src, pulse := true, active := true } s else setEvo n { o with source := src } s
    | _ => s

/-- Every event output follows its source. -/
def evoRefresh (s : State) : State := forEach (List.range 8) evoFollow s

/-- A clear of LATCH outputs through OPI_EVO_CLR or EVOCLR (R135, R304). -/
def evoClear (mask : Nat) (s : State) : State :=
  forEach ((List.range 8).filter (fun n => mask.testBit n)) (fun n s =>
    let o := getEvo s n
    if evoMode s n = 1 ∧ o.latch ∧ blocksRun s then evoJournal n false (setEvo n { o with latch := false, active := false } s) else s) s

/-! ### ICU sources (R279) -/

/-- W1C flags of a trunk port: PHY_STAT, PWR_STAT and LINK_STAT (R406). -/
def hwsFlags (s : State) (n : Nat) : W32 :=
  flagR s (hwsA n + 0x04) ||| flagR s (hwsA n + 0x24) ||| flagR s (hwsA n + 0x104)

/-- An uncorrectable error stands flagged in some FE, SPU or EE memory. -/
def anyEccUnc (s : State) : Bool :=
  (List.range 8).any (fun e => bit (flagR s (feA e)) 6) ||
  (List.range 2).any (fun u => bit (flagR s (spuA u + 4)) 6) ||
  (List.range 16).any (fun e => bit (flagR s (eeA e + 4)) 4)

/-- The level of a level source (R279). -/
def icuLevel (s : State) (n : Nat) : Bool :=
  if n < 2 then (getSpu s n).abort
  else if n < 34 then bit s.trigLines (n - 2)
  else if 50 ≤ n ∧ n < 66 then (getTch s (n - 50)).touched
  else if 98 ≤ n ∧ n < 106 then flagR s (cvpA (n - 98) + 4) ≠ 0
  else if 106 ≤ n ∧ n < 114 then hwsFlags s (n - 106) ≠ 0
  else if n = 125 then (List.range 16).any (fun e => (getEngine s e).run = .faulted)
  else if n = 126 then anyEccUnc s
  else false

/-- A source is asserted while its level or latch is 1 (R279). -/
def icuAsserted (s : State) (n : Nat) : Bool := icuLevel s n || (getIcu s n).latch

/-- The latch of a latch source is set (R279). -/
def icuLatch (n : Nat) (s : State) : State := setIcu n { getIcu s n with latch := true } s

/-- A source pending under R280. -/
def icuPending (s : State) (n : Nat) : Bool :=
  let c := cfgR s (icuCfgA n)
  let g := getIcu s n
  bit c 5 && icuAsserted s n && g.active.isNone && decide (n < 127) &&
  match g.lastClaim with
  | none => true
  | some t => decide (BitVec.ofNat 64 (bits c 31 16 * 400) ≤ ticks s - t)

/-- The processor a source is presented to. -/
def icuTarget (s : State) (n : Nat) : Nat := bits (cfgR s (icuCfgA n)) 4 0

/-- The PEND view of a processor, as presented. -/
def icuView (s : State) (p : Nat) : BitVec 128 := Mem.read (fun _ => 0) s.icuViews p
def setView (p : Nat) (v : BitVec 128) (s : State) : State := { s with icuViews := Mem.write (fun _ => 0) s.icuViews p v }

/-- The view a presentation cycle gives a processor (R280). -/
def icuPresented (s : State) (p : Nat) : BitVec 128 :=
  (List.range 128).foldl (fun v n => if icuTarget s n = p && icuPending s n then v ||| (1#128 <<< n) else v) 0

/-- The sources active for a processor. -/
def icuActive (s : State) (p : Nat) : BitVec 128 :=
  (List.range 128).foldl (fun v n => if (getIcu s n).active = some p then v ||| (1#128 <<< n) else v) 0

/-- The lowest source of a view (R280). -/
def icuFirst (v : BitVec 128) : Option Nat := (List.range 128).find? (fun n => bit v n)

/-- ICU_Pp_BADCOMP counts in one of its saturating halves, and ICUBADF is set (R281, R416). -/
def icuBad (p : Nat) (claim : Bool) (s : State) : State :=
  let a := icuPA p + 0x30
  let v := cntR s a
  let hi := bits v 31 16
  let lo := bits v 15 0
  let hi' := if claim then min 65535 (hi + 1) else hi
  let lo' := if claim then lo else min 65535 (lo + 1)
  if hi' = hi ∧ lo' = lo then s
  else raise sysFlagsA 1 (setCnt a (BitVec.ofNat 32 (hi' * 65536 + lo')) s)

/-- CLAIM(n) by processor p (R281). -/
def icuClaim (p n : Nat) (s : State) : State :=
  if n < 128 ∧ bit (icuView s p) n then
    let g := getIcu s n
    setView p (icuView s p &&& ~~~(1#128 <<< n))
      (setIcu n { g with active := some p, latch := false, lastClaim := some (ticks s) } s)
  else icuBad p true s

/-- COMPLETE(n) by processor p (R281). -/
def icuComplete (p n : Nat) (s : State) : State :=
  if n < 128 ∧ (getIcu s n).active = some p then setIcu n { getIcu s n with active := none } s
  else icuBad p false s

/-- A rising event of a broadcast trigger's source: 1 CMP_A, 2 TRIG line, 3 ABORT, 4 event pin, 5 software source (R479, R488). -/
def ringTrigger (src idx : Nat) (s : State) : State :=
  let ks := (List.range 8).filter (fun k =>
    let c := cfgR s (bgtA + 0x80 + 4 * k)
    bit c 0 && bits c 3 1 = src && bits c 12 8 = idx)
  let due : List BTrig := ks.map (fun k => { chan := k, origin := s.straps.pos, time := short (ticks s) })
  { s with bgt := { s.bgt with trigDue := s.bgt.trigDue ++ due } }

/-! ### Engine triggers (R267–R269) -/

def entryA (s : State) (e k : Nat) : W32 := cfgR s (eeEntryA e k)
def entryKind (s : State) (e k : Nat) : Nat := bits (entryA s e k) 31 29
def entryEvt (s : State) (e k : Nat) : Nat := bits (entryA s e k) 28 27
def entryIndex (s : State) (e k : Nat) : Nat := bits (entryA s e k) 23 12
def entryAddr (s : State) (e k : Nat) : Nat := bits (entryA s e k) 11 0
def entryBudget (s : State) (e k : Nat) : Nat := bits (cfgR s (eeEntryA e k + 4)) 19 0
def engineEn (s : State) (e : Nat) : Bool := bit (cfgR s (eeA e)) 0

/-- The first entry of a kind, if any. -/
def entryOfKind (s : State) (e kind : Nat) : Option Nat := (List.range 32).find? (fun k => entryKind s e k = kind)

/-- Engines' entries in ascending engine and entry number that a test selects. -/
def entriesWhere (s : State) (f : Nat → Nat → Bool) : List (Nat × Nat) :=
  (List.range 16).flatMap (fun e => if engineEn s e then ((List.range 32).filter (f e)).map (fun k => (e, k)) else [])

/-- STREAM entries that watch a stream (R267). -/
def streamEntries (s : State) (k : Nat) : List (Nat × Nat) :=
  entriesWhere s (fun e i => entryKind s e i = 2 && entryIndex s e i = k)

/-- DERIVED streams of an engine, fault streams left out. -/
def derivedStreams (s : State) (e : Nat) : List Nat :=
  (enabledStreams s).filter (fun k => stKind s k = 2 && stUnit s k = e && stOutput s k ≠ 255)

/-- A gap notice for a run of refused samples, as a trigger (R268, R270, R271). -/
def gapTrigger (k entry : Nat) (run : RefRun) : Trigger :=
  { kind := 2, entry := entry, index := k, value0 := BitVec.ofNat 48 run.count, gap := true,
    sample := { stamp := run.first, qual := run.qual, era := run.era } }

/-- A trigger joins its engine's queue, or is refused: QREF, QREFF and a gap record on each DERIVED stream (R269, R277). -/
def joinTrigger : Nat → Nat → Trigger → State → State
  | 0, _, _, s => s
  | fuel + 1, e, t, s =>
    let g := getEngine s e
    if g.state ≠ .on then s
    else if g.run = .faulted ∧ t.kind = 5 then s
    else if g.run ≠ .faulted ∧ g.queue.length < 256 then
      setEngine e { g with queue := g.queue ++ [t], qmax := max g.qmax (g.queue.length + 1) } s
    else
      let run : RefRun := { first := t.sample.stamp, last := t.sample.stamp, count := 1, reason := 3,
                            qual := t.sample.qual, era := t.sample.era }
      let s := raise (eeA e + 4) 2 (bump (eeA e + 0x24) s)
      (derivedStreams s e).foldl (fun s k =>
        (streamEntries s k).foldl (fun s p => joinTrigger fuel p.1 (gapTrigger k p.2 run) s) (formGap k run s)) s

/-- Depth of trigger chains: R286 lets no chain pass an engine twice. -/
def triggerDepth : Nat := 17

/-- A trigger joins its engine's queue (R269). -/
def pushTrigger (e : Nat) (t : Trigger) (s : State) : State := joinTrigger triggerDepth e t s

/-- Each STREAM entry of a stream receives its copy (R267, R268). -/
def streamTriggers (k : Nat) (v0 v1 : W48) (x : Sample) (s : State) : State :=
  (streamEntries s k).foldl (fun s p =>
    pushTrigger p.1 { kind := 2, entry := p.2, index := k, value0 := v0, value1 := v1, sample := x } s) s

/-- HOOK entries of the engines a channel names (R200, R267). -/
def hookTriggers (c : Nat) (v0 v1 : W48) (x : Sample) (s : State) : State :=
  forEach ((List.range 16).filter (fun e => (chHooks s c).testBit e)) (fun e s =>
    match entryOfKind s e 3 with
    | some i => pushTrigger e { kind := 3, entry := i, index := c, value0 := v0, value1 := v1, sample := x } s
    | none => s) s

/-- TIMER entries of a timer's event (R267). -/
def timerTriggers (n evt : Nat) (x : Sample) (s : State) : State :=
  (entriesWhere s (fun e i => entryKind s e i = 4 && entryIndex s e i = n && entryEvt s e i = evt)).foldl
    (fun s p => pushTrigger p.1 { kind := 4, entry := p.2, index := n, evt := evt, sample := x } s) s

/-- The ICU trigger of an engine with a non-empty view, unless one is queued or running (R269). -/
def icuTrigger (e : Nat) (s : State) : State :=
  let g := getEngine s e
  match entryOfKind s e 5 with
  | some i =>
    if icuView s e = 0 ∨ g.kind = 5 ∨ g.queue.any (fun t => t.kind = 5) then s
    else pushTrigger e { kind := 5, entry := i, sample := stampNow s } s
  | none => s

/-! ### Offers (R5, R8, R267, R341) -/

/-- A closed run of refused samples: its gap record, and a gap notice to each STREAM entry (R95, R268). -/
def closedGap (k : Nat) (run : RefRun) (s : State) : State :=
  (streamEntries s k).foldl (fun s p => pushTrigger p.1 (gapTrigger k p.2 run) s) (formGap k run s)

/-- A stream's run of refused samples closes. -/
def closeRun (k : Nat) (s : State) : State :=
  let st := getStream s k
  match st.run with
  | none => s
  | some run => closedGap k run (setStream k { st with run := none } s)

/-- Samples refused before the ring join their stream's run; a run of another reason closes first (R95, R361). -/
def refuseRun (k : Nat) (run : RefRun) (s : State) : State :=
  if !streamRuns s k || run.count = 0 then s
  else
    let s := match (getStream s k).run with
      | some r => if r.reason = run.reason then s else closeRun k s
      | none => s
    let st := getStream s k
    let n : W48 := BitVec.ofNat 48 run.count
    let r := match st.run with
      | some r => { r with last := run.last, count := r.count + run.count }
      | none => run
    let s := setStream k { st with offered := st.offered + n, refused := st.refused + n, run := some r } s
    if r.era = run.era ∧ boundOf s k / 2 ≤ r.last - r.first then closeRun k s else s

/-- A sample is offered to a stream (R5, R267, R341). -/
def offer (k : Nat) (x : Sample) (s : State) : State :=
  if !streamRuns s k then s
  else offerRing k x (streamTriggers k x.value 0 x (closeRun k s))

/-- A record that is not a batch is offered to a stream (R268, R341). -/
def offerRec (k : Nat) (x : Sample) (y : Record) (s : State) : State :=
  if !streamRuns s k then s
  else offerRecRing k x y (streamTriggers k (y.payload.getD 0 0) (y.payload.getD 1 0) x (closeRun k s))

/-- An event record (R360) offered to a stream. -/
def offerEvent (k sub : Nat) (x : Sample) (payload : List W48) (s : State) : State :=
  offerRec k x { type := 3, sub := sub, num := k, flags := sampleFlags x, time := x.stamp, era := x.era, payload := payload } s

/-- An event of an event channel: its direct stream and its hooks (R207). -/
def channelEvent (kind addr sub : Nat) (x : Sample) (w : W48) (s : State) : State :=
  match chanOfSource s kind addr with
  | none => s
  | some c =>
    if !sourcesRun s kind then s else
    let s := if chStrEn s c then offerEvent (chStream s c) sub x [w] s else s
    hookTriggers c w 0 x s

end Sys2Proof.Machine
end

