-- ==== Sys2Proof/Machine/Boot.lean ====
section
/-! DEFINITION. The start and the reset of Ranger: the boot record, the firmware slots and their check (R455, R464–R466). -/

namespace Sys2Proof.Machine
open Sys2Proof

/-! ### The configuration flash (R430) -/

/-- A byte of the flash; what was never programmed reads as erased. -/
def flashByte (s : State) (a : Nat) : BitVec 8 := Mem.read (fun _ => 0xFF) s.flash a
/-- n bytes of the flash from a. -/
def flashBytes (s : State) (a n : Nat) : List (BitVec 8) := Mem.slice (fun _ => 0xFF) s.flash a n
/-- A flash byte takes a value. -/
def setFlash (a : Nat) (v : BitVec 8) (s : State) : State := { s with flash := Mem.write (fun _ => 0xFF) s.flash a v }

/-! ### Firmware slots (R464) -/

/-- Where a slot lies: A below B. -/
def slotBase (b : Bool) : Nat := if b then 0xC0_0000 else 0x80_0000
def slotField (s : State) (b : Bool) (i n : Nat) : Nat := beVal (flashBytes s (slotBase b + i) n)
def slotRollback (s : State) (b : Bool) : Nat := slotField s b 6 1
def slotLength (s : State) (b : Bool) : Nat := slotField s b 8 4
def slotResident (s : State) (b : Bool) : Nat := slotField s b 12 4
def slotEntry (s : State) (b : Bool) : Nat := slotField s b 16 4

/-- Word i of a slot's image. -/
def slotWord (s : State) (b : Bool) (i : Nat) : W48 := BitVec.ofNat 48 (slotField s b (64 + 6 * i) 6)

/-- The header is in order (R464). -/
def slotHeaderOk (s : State) (b : Bool) : Bool :=
  decide (slotField s b 0 4 = 0x5554_4657 ∧ slotField s b 4 2 = 0x0100 ∧ slotRollback s b ≤ 64 ∧ slotField s b 7 1 = 0 ∧
    1 ≤ slotLength s b ∧ slotLength s b ≤ 699018 ∧ slotResident s b ≤ 24576 ∧ slotField s b 20 44 = 0)

/-- The signature over the header and the words, with the key check when the firmware key hash is fused (R465). -/
def slotSigned (s : State) (b : Bool) : Bool :=
  let n := 64 + 6 * slotLength s b
  let block := flashBytes s (slotBase b + n) 128
  (!s.mgt.fwKey || decide (keyHash block = s.mgt.fwHash)) && signatureOk (sha256 (flashBytes s (slotBase b) n)) block

/-- The check of a slot in the order of R465, as the result codes of R466: 0 OK, 3 FORMAT, 5 ROLLBACK, 4 SIG. -/
def slotCheck (s : State) (b : Bool) : Nat :=
  if !slotHeaderOk s b then 3
  else if slotRollback s b < s.mgt.rollbackOtp then 5
  else if !slotSigned s b then 4 else 0

/-! ### The boot record (R465) -/

/-- Copy A governs: it is valid and no older than a valid copy B. -/
def bootIsA (s : State) : Bool := s.mgt.bootA.valid && (!s.mgt.bootB.valid || decide (s.mgt.bootB.gen ≤ s.mgt.bootA.gen))
/-- The copy that governs. -/
def bootRead (s : State) : BootRec := if bootIsA s then s.mgt.bootA else s.mgt.bootB
/-- A write goes to the older copy. -/
def bootWrite (r : BootRec) (s : State) : State :=
  let r := { r with valid := true, gen := (bootRead s).gen + 1 }
  if bootIsA s then { s with mgt := { s.mgt with bootB := r } } else { s with mgt := { s.mgt with bootA := r } }

/-- The running firmware is a trial slot. -/
def runsTrial (s : State) : Bool :=
  s.mgt.running && !s.mgt.recovery && (bootRead s).trial && (bootRead s).tried && s.mgt.slot = (bootRead s).active

/-- Rollback fuses are blown up to a count (R453 ROLLUP). -/
def rollUp (n : Nat) (s : State) : State := { s with mgt := { s.mgt with rollbackOtp := max s.mgt.rollbackOtp n } }

/-- A trial slot that reaches the lock is confirmed (R466). -/
def confirmTrial (s : State) : State :=
  if runsTrial s then
    journal 0x04 (stampNow s) [1] (rollUp s.mgt.rollback (bootWrite { bootRead s with trial := false, tried := false } s))
  else s

/-! ### Starting Ranger (R465, R504) -/

/-- FWF and an FWTRIAL entry. -/
def fwTrial (code : Nat) (s : State) : State :=
  journal 0x04 (stampNow s) [BitVec.ofNat 48 code] (raise mgtFlagsA 8 s)

/-- The FREEZE entry of a freeze whose entry has not been written (R504). -/
def freezeEntry (s : State) : State :=
  if bit s.frz.cause 30 then
    let s := journal 0x60 { stamp := s.frz.time, qual := s.frz.qual, era := s.tb.stepCnt }
      [s.frz.cause.setWidth 48, s.frz.fault.setWidth 48] s
    { s with frz := { s.frz with cause := s.frz.cause &&& ~~~(0x4000_0000#32) } }
  else s

/-- The BOOT entry: reset kind, slot, the image's ROLLBACK, and what a fault adds (R461). -/
def bootEntry (kind : Nat) (extra : List W48) (s : State) : State :=
  journal 0x01 (stampNow s) (pack [(kind, 8), (b2n s.mgt.slot, 7), (s.mgt.rollback, 0)] :: extra) s

/-- A slot's firmware starts: the resident words are copied to RAM, and execution begins at ENTRY. -/
def runSlot (b : Bool) (s : State) : State :=
  { s with mgt :=
    { s.mgt with
      running := true, idle := false, asked := 0, recovery := false, slot := b, rollback := slotRollback s b,
      proc := { pc := slotEntry s b }, lines := [], filled := false, wdogAt := ticks s,
      ram := Mem.writeList (fun _ => 0) [] 0 ((List.range (slotResident s b)).map (slotWord s b)) } }

/-- The recovery firmware starts from the ROM. -/
def runRecovery (s : State) : State :=
  { s with mgt :=
    { s.mgt with
      running := true, idle := false, asked := 0, recovery := true, proc := { pc := Config.recoveryEntry % 32768 },
      lines := [], filled := false, ram := [], wdogAt := ticks s } }

/-- A trial that was started and never confirmed is reverted to PREV (R466). -/
def revertTrial (s : State) : State :=
  let r := bootRead s
  if r.trial && r.tried then fwTrial 2 (bootWrite { r with active := r.prev, trial := false, tried := false } s) else s

/-- ACTIVE, then PREV, then the recovery firmware (R465). A COMMIT waits for RESET_N (R466): a reset of Ranger alone
starts the old slot again. `kind` is the reset kind of R461. -/
def selectSlot (kind : Nat) (s : State) : State :=
  let r := bootRead s
  let first := if 2 ≤ kind && r.trial then r.prev else r.active
  if slotCheck s first = 0 then
    runSlot first (if r.trial && first = r.active then bootWrite { r with tried := true } s else s)
  else
    let s := raise mgtFlagsA 8 s
    if slotCheck s r.prev = 0 then runSlot r.prev s else fwTrial 3 (runRecovery s)

/-- The ROM at a start of Ranger. -/
def startRanger (kind : Nat) (extra : List W48) (s : State) : State :=
  freezeEntry (bootEntry kind extra (selectSlot kind (revertTrial s)))

/-- A mailbox command in progress ends with ABORTED, and a COMMIT needs VERIFY again (R467). -/
def abortMailbox (s : State) : State :=
  if s.mgt.mbxBusy then
    journal 0x03 (stampNow s) [pack [(6, 4), (s.mgt.mbxOp, 0)]]
      (raise mgtFlagsA 7 { s with mgt := { s.mgt with mbxBusy := false, mbxResult := 6, verified := false } })
  else s

/-- Ranger alone is reset, by the watchdog (kind 2) or by a fault (kind 3) (R452, R455). -/
def resetRanger (kind : Nat) (extra : List W48) (s : State) : State :=
  let s := { s with bgt := { s.bgt with waiting := s.bgt.waiting.filter (fun q => q.path ≠ .ranger) } }
  let s := raise mgtFlagsA 3 (bump (mgtA + 0x18) (abortMailbox s))
  let s := startRanger kind extra s
  if s.phase = .loaded then { s with phase := .started } else s

end Sys2Proof.Machine
end

