-- ==== Sys2Proof/Machine/Filter.lean ====
section
/-! DEFINITION. The arithmetic of the filter stages, one input at a time (R203, R218–R230). -/

namespace Sys2Proof.Machine
open Sys2Proof

/-! ### Rounding and saturation (R220) -/

/-- n / d to the nearest integer, ties to even. -/
def roundDiv (n : Int) (d : Nat) : Int :=
  let q := n.fdiv d
  let r := 2 * (n - q * d)
  if r < d then q else if (d : Int) < r then q + 1 else if q % 2 = 0 then q else q + 1

/-- Saturates to lo..hi, and says whether it did. -/
def clampTo (lo hi v : Int) : Int × Bool := if v < lo then (lo, true) else if hi < v then (hi, true) else (v, false)

/-- Saturates to Q23.24 (R18). -/
def satQ (v : Int) : Int × Bool := clampTo (-(2 ^ 47)) (2 ^ 47 - 1) v

/-- The integer square root by bits, from bit b down, with r found so far. -/
def isqrtFrom (n : Nat) : Nat → Nat → Nat
  | 0, r => r
  | b + 1, r => if (r + 2 ^ b) * (r + 2 ^ b) ≤ n then isqrtFrom n b (r + 2 ^ b) else isqrtFrom n b r

/-- The integer square root of a number below 2^128. -/
def isqrt (n : Nat) : Nat := isqrtFrom n 64 0

/-- √(n / d) to the nearest integer, ties to even. -/
def roundSqrt (n d : Nat) : Nat :=
  let r := isqrt (n / d)
  let m := (2 * r + 1) * (2 * r + 1) * d
  if 4 * n < m then r else if m < 4 * n then r + 1 else if r % 2 = 0 then r else r + 1

/-! ### CAL (R203, R221) -/

/-- E and M of a scaled-format coefficient (R203). -/
def coefE (w : W48) : Int := signed 6 (bits w 47 42)
def coefM (w : W48) : Int := signed 42 (bits w 41 0)

/-- The term of degree i, scaled by 2^200, of the polynomial in Q23.24 units. -/
def calTerm (w : W48) (raw : Int) (xsh i : Nat) : Int :=
  coefM w * raw ^ i * 2 ^ (coefE w - 16 - (xsh * i : Nat) + 200).toNat

/-- y of R203, exact and then rounded and saturated under R220, with whether it saturated. -/
def calValue (a0 a1 a2 a3 : W48) (xsh : Nat) (raw : Int) : Int × Bool :=
  satQ (roundDiv (sval a0 * 2 ^ 200 + calTerm a1 raw xsh 1 + calTerm a2 raw xsh 2 + calTerm a3 raw xsh 3) (2 ^ 200))

/-- CAL of a channel (R198, R221). -/
def calOf (s : State) (c : Nat) (raw : W48) : Int × Bool :=
  calValue (chW s c 2) (chW s c 3) (chW s c 4) (chW s c 5) (chXsh s c) (sval raw)

/-! ### FIR, DEC, BQ, INT -/

/-- Stored coefficient j: the even-numbered one in [47:24] (R218). -/
def firStored (s : State) (e base j : Nat) : Int :=
  let w := coef s e (base + j / 2)
  signed 24 (if j % 2 = 0 then bits w 47 24 else bits w 23 0)

/-- h_j, with the second half mirrored when SYM = 1 (R218). -/
def firCoef (s : State) (e : Nat) (d : StageDesc) (j : Nat) : Int :=
  let w := coef s e (d.addr + 2)
  firStored s e (d.addr + 3) (if firSym w && decide (firK w ≤ j) then firNt w - 1 - j else j)

/-- Σ h_j × taps(j), exact. -/
def firSum (s : State) (e : Nat) (d : StageDesc) (taps : List Int) : Int :=
  (taps.zipIdx.map (fun p => firCoef s e d p.2 * p.1)).sum

/-- The FIR output from its delay line (R222, R223). -/
def firOut (s : State) (e : Nat) (d : StageDesc) (taps : List Int) : Int × Bool :=
  let ge := firGe (coef s e (d.addr + 2))
  satQ (roundDiv (firSum s e d taps * 2 ^ (ge + 8).toNat) (2 ^ 31))

/-- A new value enters a delay line of n taps. -/
def pushTap (n : Nat) (x : Int) (taps : List Int) : List Int := (x :: taps).take n

/-- The integrators of a CIC, modulo 2^104 (R222). -/
def cicInteg : List (BitVec 104) → BitVec 104 → List (BitVec 104) × BitVec 104
  | [], x => ([], x)
  | i :: is, x =>
    let v := i + x
    let r := cicInteg is v
    (v :: r.1, r.2)

/-- The combs of a CIC with differential delay 1 (R222). -/
def cicComb : List (BitVec 104) → BitVec 104 → List (BitVec 104) × BitVec 104
  | [], x => ([], x)
  | c :: cs, x =>
    let r := cicComb cs (x - c)
    (x :: r.1, r.2)

/-- One BQ section: new section state, output and saturation (R224). -/
def bqSection (s : State) (e a : Nat) (hp : Bool) (st : Int × Int × Int × Int) (x : Int) :
    (Int × Int × Int × Int) × Int × Bool :=
  let (x1, x2, y1, y2) := st
  let w0 := coef s e a
  let w1 := coef s e (a + 1)
  let b0 := signed 24 (bits w0 47 24)
  let b1 := signed 24 (bits w0 23 0)
  let b2 := signed 24 (bits w1 47 24)
  let v :=
    if hp then
      roundDiv ((b0 * x + b1 * x1 + b2 * x2) * 2 ^ 24 - sval (coef s e (a + 2)) * y1 - sval (coef s e (a + 3)) * y2) (2 ^ 45)
    else
      roundDiv (b0 * x + b1 * x1 + b2 * x2 - signed 24 (bits w1 23 0) * y1 -
        signed 24 (bits (coef s e (a + 2)) 47 24) * y2) (2 ^ 21)
  let y := satQ v
  ((x, x1, y.1, y1), y.1, y.2)

/-- The sections of a BQ in order, from an address on. -/
def bqRun (s : State) (e : Nat) (hp : Bool) : Nat → List (Int × Int × Int × Int) → Int → List (Int × Int × Int × Int) × Int × Bool
  | _, [], x => ([], x, false)
  | a, st :: rest, x =>
    let r := bqSection s e a hp st x
    let q := bqRun s e hp (a + if hp then 4 else 3) rest r.2.1
    (r.1 :: q.1, q.2.1, r.2.2 || q.2.2)

/-- One integrator of INT: v in Q23.40, x(n−1), and the output in Q23.24 (R225). -/
def intStep (s : State) (e : Nat) (d : StageDesc) (st : Int × Int) (x : Int) : (Int × Int) × Int × Bool :=
  let c := sval (coef s e (d.addr + 2))
  let w := coef s e (d.addr + 3)
  let ge := signed 6 (bits w 47 42)
  let gm := signed 24 (bits w 41 18)
  let v := clampTo (-(2 ^ 63)) (2 ^ 63 - 1)
    (roundDiv (c * st.1) (2 ^ 47) + roundDiv (gm * (x + st.2) * 2 ^ (ge - 7 + 39).toNat) (2 ^ 39))
  let y := satQ (roundDiv v.1 (2 ^ 16))
  ((v.1, x), y.1, v.2 || y.2)

/-- The integrators of INT in order. -/
def intRun (s : State) (e : Nat) (d : StageDesc) : List (Int × Int) → Int → List (Int × Int) × Int × Bool
  | [], x => ([], x, false)
  | st :: rest, x =>
    let r := intStep s e d st x
    let q := intRun s e d rest r.2.1
    (r.1 :: q.1, q.2.1, r.2.2 || q.2.2)

/-! ### Stage state -/

/-- The cleared state of a stage (R222–R227). -/
def stageReset (s : State) (e : Nat) (d : StageDesc) : Stage :=
  match d.type with
  | 1 => { integ := List.replicate (decN d) 0, comb := List.replicate (decN d) 0 }
  | 3 => { sections := List.replicate (d.param / 2 ^ 12 + 1) (0, 0, 0, 0) }
  | 4 => { integrals := List.replicate (d.param / 2 ^ 15 + 1) (0, 0) }
  | _ => let _ := coef s e d.addr; {}

/-- Quality and flags of an input start the countdowns; every other countdown falls by one (R220). -/
def countdown (span : Nat) (x : Sample) (st : Stage) : Stage :=
  { st with
    wakeLeft := if x.qual = .wake then span else st.wakeLeft - 1
    coarseLeft := if x.qual = .coarse then span else st.coarseLeft - 1
    heldLeft := if x.qual = .held then span else st.heldLeft - 1
    ovrLeft := if x.ovr then span else st.ovrLeft - 1
    filledLeft := if x.filled then span else st.filledLeft - 1 }

/-- The worst quality in the span (R220). -/
def spanQual (st : Stage) : Quality :=
  if 0 < st.heldLeft then .held else if 0 < st.coarseLeft then .coarse else if 0 < st.wakeLeft then .wake else .fine

/-- An output of a stage: its value, the newest input's stamp plus TSADJ, the span's quality and flags (R219, R220). -/
def stageSample (d : StageDesc) (st : Stage) (x : Sample) (y : Int × Bool) : Sample :=
  { value := ofInt y.1, stamp := x.stamp + BitVec.ofInt 64 d.tsadj, qual := spanQual st, sat := y.2,
    ovr := decide (0 < st.ovrLeft), filled := decide (0 < st.filledLeft), era := x.era }

/-- The value a PEAK window yields (R226). -/
def peakOut (d : StageDesc) (mx mn : Int) : Int × Bool :=
  match d.param / 2 ^ 14 with
  | 0 => (mx, false)
  | 1 => (mn, false)
  | 2 => satQ (max mx.natAbs mn.natAbs : Nat)
  | _ => satQ (mx - mn)

/-- One input through a DEC, FIR, BQ, INT, RMS or PEAK stage: its new state, and its output if it forms one. -/
def stageArith (s : State) (e : Nat) (d : StageDesc) (st : Stage) (v : Int) : Stage × Option (Int × Bool) :=
  match d.type with
  | 1 =>
    let w := coef s e (d.addr + 2)
    let i := cicInteg st.integ (BitVec.ofInt 104 v)
    let cph := (st.cicPhase + 1) % decRcic d
    if cph ≠ 0 then ({ st with integ := i.1, cicPhase := cph }, none)
    else
      let c := cicComb st.comb i.2
      let z := if decN d = 0 then (v, false) else satQ (roundDiv c.2.toInt (2 ^ firSh w))
      let taps := pushTap (firNt w) z.1 st.taps
      let ph := (st.phase + 1) % decDf d
      let st := { st with integ := i.1, comb := c.1, cicPhase := 0, taps := taps, phase := ph }
      if ph ≠ 0 then (st, none)
      else let y := firOut s e d taps; (st, some (y.1, y.2 || z.2))
  | 2 =>
    let w := coef s e (d.addr + 2)
    let taps := pushTap (firNt w) v st.taps
    let ph := (st.phase + 1) % (d.param / 2 ^ 12 + 1)
    let st := { st with taps := taps, phase := ph }
    if ph ≠ 0 then (st, none) else (st, some (firOut s e d taps))
  | 3 =>
    let r := bqRun s e (d.param / 2 ^ 11 % 2 = 1) (d.addr + 2) st.sections v
    ({ st with sections := r.1 }, some r.2)
  | 4 =>
    let r := intRun s e d st.integrals v
    ({ st with integrals := r.1 }, some r.2)
  | 5 =>
    let n := winN s e d
    let sum := st.sum + v.natAbs * v.natAbs
    if st.count + 1 < n then ({ st with sum := sum, count := st.count + 1 }, none)
    else ({ st with sum := 0, count := 0 }, some (satQ (roundSqrt sum n : Nat)))
  | 6 =>
    let n := winN s e d
    let mx := if st.count = 0 then v else max st.maxv v
    let mn := if st.count = 0 then v else min st.minv v
    if st.count + 1 < n then ({ st with maxv := mx, minv := mn, count := st.count + 1 }, none)
    else ({ st with maxv := mx, minv := mn, count := 0 }, some (peakOut d mx mn))
  | _ => (st, none)

/-- Outputs a stage would have formed for m missing inputs (R232): its decimation phase runs on. -/
def missedOutputs (s : State) (e : Nat) (d : StageDesc) (st : Stage) (m : Nat) : Nat :=
  match d.type with
  | 1 => (st.cicPhase + st.phase * decRcic d + m) / (decRcic d * decDf d)
  | 2 => (st.phase + m) / (d.param / 2 ^ 12 + 1)
  | 3 | 4 => m
  | 5 | 6 => (st.count + m) / max 1 (winN s e d)
  | _ => 0

/-! ### TRIG (R227) -/

/-- The condition for the next state of a TRIG holds for x. -/
def trigHolds (s : State) (e : Nat) (d : StageDesc) (active : Bool) (x : Int) : Bool :=
  let hi := sval (coef s e (d.addr + 2))
  let lo := sval (coef s e (d.addr + 3))
  match d.param / 2 ^ 14, active with
  | 0, false => decide (hi < x)
  | 0, true => decide (x < lo)
  | 1, false => decide (x < lo)
  | 1, true => decide (hi < x)
  | _, false => decide (hi < (x.natAbs : Int))
  | _, true => decide ((x.natAbs : Int) < lo)

/-- One input through a TRIG: its new state, and the first input of the run when it changes state. -/
def trigStep (s : State) (e : Nat) (d : StageDesc) (st : Stage) (x : Sample) : Stage × Option Sample :=
  let nq := d.param / 2 ^ 6 % 2 ^ 8
  if trigHolds s e d st.active (sval x.value) then
    let first := if st.run = 0 then x else st.runFirst
    if st.run + 1 < nq then ({ st with run := st.run + 1, runFirst := first }, none)
    else ({ st with run := 0, runFirst := first, active := !st.active }, some first)
  else ({ st with run := 0 }, none)

/-! ### Rainflow (R230) -/

/-- The level of an input, clamped, and whether it was clamped. -/
def rfLevel (rfMin : Int) (rfK : Nat) (y : Int) : Nat × Bool :=
  let l := ((y - rfMin) * rfK).fdiv (2 ^ 40)
  if l < 0 then (0, true) else if 63 < l then (63, true) else (l.toNat, false)

/-- |a − b| of two levels. -/
def levelGap (a b : Nat) : Nat := (a - b) + (b - a)

/-- The loop of push: the residue newest first, and the cycles (r, m) counted, oldest first. -/
def rfClose : Nat → List Nat → List (Nat × Nat) → List Nat × List (Nat × Nat)
  | 0, rs, cs => (rs, cs)
  | fuel + 1, d :: c :: b :: a :: rest, cs =>
    if levelGap c b ≤ levelGap b a ∧ levelGap c b ≤ levelGap d c then
      rfClose fuel (d :: a :: rest) (cs ++ [(levelGap c b, (b + c) / 2)])
    else (d :: c :: b :: a :: rest, cs)
  | _ + 1, rs, cs => (rs, cs)

/-- push(P): the residue (oldest first) with P, and the cycles it counts. -/
def rfPush (residue : List Nat) (p : Nat) : List Nat × List (Nat × Nat) :=
  let r := rfClose residue.length (p :: residue.reverse) []
  (r.1.reverse, r.2)

/-- The level L, turning point and counting step of R230: the slot, and the cycles counted. -/
def rfStep (gate : Nat) (g : RfSlot) (l : Nat) : RfSlot × List (Nat × Nat) :=
  if !g.started then
    let p := rfPush g.residue l
    ({ g with residue := p.1, ext := l, dir := 0, started := true }, p.2)
  else if g.dir = 0 then
    if gate ≤ levelGap l g.ext then ({ g with dir := if g.ext < l then 1 else 2, ext := l }, []) else (g, [])
  else if (g.dir = 1 ∧ g.ext < l) ∨ (g.dir = 2 ∧ l < g.ext) then ({ g with ext := l }, [])
  else if gate ≤ levelGap l g.ext then
    let p := rfPush g.residue g.ext
    ({ g with residue := p.1, dir := 3 - g.dir, ext := l }, p.2)
  else (g, [])

end Sys2Proof.Machine
end

