-- ==== Sys2Proof/Machine/Channels.lean ====
section
/-! DEFINITION. The path of a source value: calibration, limits, copies, filter chains, rainflow slots and gap notices
(R197–R207, R216–R236). -/

namespace Sys2Proof.Machine
open Sys2Proof

/-! ### What is booked (R205, R321, R322) -/

def wlWord (s : State) (u i : Nat) : W32 := cfgR s (spuWlA u i)
def wlEn (s : State) (u i : Nat) : Bool := bit (wlWord s u i) 31
def wlSet (s : State) (u i : Nat) : Nat := bits (wlWord s u i) 30 28
def wlFe (s : State) (u i : Nat) : Nat := bits (wlWord s u i) 26 24
def wlOut (s : State) (u i : Nat) : Nat := bits (wlWord s u i) 23 16

/-- The watch entry of an output: unit and entry (R241). -/
def watchOf (s : State) (e out : Nat) : Option (Nat × Nat) :=
  ((List.range 2).flatMap (fun u => (List.range 256).map (fun i => (u, i)))).find? (fun p =>
    wlEn s p.1 p.2 && wlFe s p.1 p.2 = e && wlOut s p.1 p.2 = out)

/-- A set's PSD or event stream is admitted (R255). -/
def setBooked (s : State) (u k : Nat) : Bool :=
  (match streamOf s 3 u (2 * k) with | some j => admitted s j | none => false) ||
  (match streamOf s 3 u (2 * k + 1) with | some j => admitted s j | none => false)

/-- TRIG fields: LINE_EN and LINE (R218). -/
def trigLineEn (d : StageDesc) : Bool := decide (d.param / 2 ^ 5 % 2 = 1)
def trigLine (d : StageDesc) : Nat := d.param % 2 ^ 5

/-- The stream a stage output of an instance feeds, if any (R209, R217). -/
def stageStream (s : State) (e inst : Nat) (d : StageDesc) : Option Nat :=
  if d.type = 7 then streamOf s 5 e (d.out % 128 + inst)
  else if !d.tap then none
  else if d.type = 8 then trigStream s e (d.out + inst)
  else streamOf s 1 e (d.out + inst)

/-- A stage that something admitted uses directly. -/
def stageUsed (s : State) (e inst : Nat) (d : StageDesc) : Bool :=
  (match stageStream s e inst d with | some k => admitted s k | none => false) ||
  (d.type = 8 && trigLineEn d) ||
  (d.tap && (match watchOf s e (d.out + inst) with | some (u, i) => setBooked s u (wlSet s u i) | none => false))

/-- A booked stage: it, or a stage that descends from it, is used (R322). -/
def stageBooked (s : State) (e inst : Nat) (ds : List StageDesc) (d : StageDesc) : Bool :=
  ds.any (fun d' => stageUsed s e inst d' && (stagePath ds 17 d'.num).any (fun p => p.num = d.num))

/-- A channel whose CAL is a booked unit (R205). -/
def calBooked (s : State) (c : Nat) : Bool :=
  (chStrEn s c && admitted s (chStream s c)) ||
  (List.range 16).any (fun e => (chHooks s c).testBit e && engineEn s e && (entryOfKind s e 3).isSome) ||
  (chChainEn s c &&
    (chainStages s (chFe s c) (chChain s c)).any (stageUsed s (chFe s c) (instanceOf s c)))

/-! ### Stage states and TRIG lines -/

def stageKey (e c inst num : Nat) : Nat := ((e * 256 + c) * 256 + inst) * 32 + num
def getStage (s : State) (k : Nat) : Stage := Mem.read (fun _ => {}) s.stages k
def setStage (k : Nat) (x : Stage) (s : State) : State := { s with stages := Mem.write (fun _ => {}) s.stages k x }

/-- TRIG line levels: a line is asserted while any instance that names it is ACTIVE (R228). -/
def trigLevels (s : State) : W32 :=
  (enabledChans s).foldl (fun v ch =>
    if chChainEn s ch then
      (chainStages s (chFe s ch) (chChain s ch)).foldl (fun v d =>
        if d.type = 8 && trigLineEn d &&
            (getStage s (stageKey (chFe s ch) (chChain s ch) (instanceOf s ch) d.num)).active
        then v ||| (1#32 <<< trigLine d) else v) v
    else v) 0

/-- The lines and what follows them after a change of some TRIG (R228). -/
def refreshLines (s : State) : State :=
  let new := trigLevels s
  let rise := (List.range 32).filter (fun i => bit new i && !bit s.trigLines i)
  evoRefresh (forEach rise (ringTrigger 2) { s with trigLines := new })

/-! ### Spectral inputs (R243) -/

def getEntry (g : Spu) (i : Nat) : SpuEntry := Mem.read (fun _ => {}) g.entries i
def setEntry (i : Nat) (x : SpuEntry) (g : Spu) : Spu := { g with entries := Mem.write (fun _ => {}) g.entries i x }

/-- An output takes a position of the watch entry that names it: an accepted input, or a refused one (R243). -/
def spuPosition (e out : Nat) (x : Option Sample) (s : State) : State :=
  match watchOf s e out with
  | none => s
  | some (u, i) =>
    let g := getSpu s u
    if g.state ≠ .on then s
    else
      let n := getEntry g i
      setSpu u (setEntry i { n with buffer := x :: n.buffer } g) s

/-- n refused positions. -/
def spuRefused (e out : Nat) : Nat → State → State
  | 0, s => s
  | n + 1, s => spuRefused e out n (spuPosition e out none s)

/-! ### Rainflow slots (R229–R231) -/

/-- Parameters of a RAINFLOW descriptor: RF_MIN, RF_K, GATE, CLR, NSNAP (R218). -/
def rfMin (s : State) (e : Nat) (d : StageDesc) : Int := sval (coef s e (d.addr + 2))
def rfK (s : State) (e : Nat) (d : StageDesc) : Nat := bits (coef s e (d.addr + 3)) 47 24
def rfGate (d : StageDesc) : Nat := d.param / 2 ^ 11 % 2 ^ 4
def rfClr (d : StageDesc) : Bool := decide (d.param / 2 ^ 15 % 2 = 1)
def rfNsnap (s : State) (e : Nat) (d : StageDesc) : Nat := bits (coef s e (d.addr + 4)) 39 0

/-- A count of full cycles saturates at 2^48 − 1 (R229). -/
def satInc48 (v : W48) : W48 := if v = BitVec.allOnes 48 then v else v + 1

/-- One counted cycle in the slot's matrix pages and total (R229, R230). -/
def rfCount (k : Nat) (rm : Nat × Nat) (s : State) : State :=
  let g := getSlot s k
  let w := 512 * g.page.toNat + 64 * rm.1 + rm.2
  setSlot k { g with total := satInc48 g.total } (setSram w (satInc48 (sramR s w)) s)

/-- The snapshot record's payload (R231). -/
def snapshotPayload (s : State) (g : RfSlot) : List W48 :=
  [pack [(g.residue.length, 40), (g.ext, 34), (g.dir, 32), (g.clip.toNat, 0)], g.total] ++
  Mem.readList (sramD s) s.sram (512 * g.page.toNat) 4096 ++
  (List.range 128).map (fun i => BitVec.ofNat 48 (g.residue.getD i 0))

/-- The snapshot of a slot, stamped with its last input plus TSADJ (R231). -/
def takeSnapshot (k : Nat) (s : State) : State :=
  let g := getSlot s k
  match slotOwner s k with
  | none => s
  | some (ch, d) =>
    let x : Sample := match g.lastIn with
      | some y => { y with stamp := y.stamp + BitVec.ofInt 64 d.tsadj, qual := g.worst, ovr := g.ovr, filled := g.filled, sat := false }
      | none => stampNow s
    let s := match streamOf s 5 (chFe s ch) k with
      | some j => offerRec j x { type := 10, sub := 0, num := j, flags := sampleFlags x, time := x.stamp, era := x.era,
                                 payload := snapshotPayload s g } s
      | none => s
    let g := { g with inputs := 0, worst := .fine, ovr := false, filled := false }
    if rfClr d then
      setSlot k { g with total := 0 } (clearSram (512 * g.page.toNat) 4096 s)
    else setSlot k g s

/-- Whether NSNAP inputs have gone into a slot (R231). -/
def snapshotDue (s : State) (k : Nat) : Bool :=
  match slotOwner s k with
  | some (ch, d) => decide (rfNsnap s (chFe s ch) d ≤ (getSlot s k).inputs) && decide (0 < (getSlot s k).inputs)
  | none => false

/-- RAINFLOW_SNAPSHOT (R231). -/
def execRainflowSnapshot (slot : Nat) (s : State) : Host.Outcome State Fault Refusal := live s <|
  if snapshotDue s slot then .next (takeSnapshot slot s) else .next s

/-- One input of a RAINFLOW instance (R230); a snapshot that is due comes first (R231). -/
def rfInput (e : Nat) (d : StageDesc) (k : Nat) (x : Sample) (s : State) : State :=
  let s := if snapshotDue s k then takeSnapshot k s else s
  let l := rfLevel (rfMin s e d) (rfK s e d) (sval x.value)
  let g := getSlot s k
  let r := rfStep (rfGate d) g l.1
  let g := { r.1 with
    clip := if l.2 then satInc g.clip else g.clip
    inputs := g.inputs + 1
    worst := qworse g.worst x.qual
    ovr := g.ovr || x.ovr
    filled := g.filled || x.filled
    lastIn := some x }
  r.2.foldl (fun s rm => rfCount k rm s) (setSlot k g s)

/-! ### Stages in a chain (R219, R232) -/

/-- FEe_SAT and SATF (R220). -/
def feSat (e : Nat) (s : State) : State := raise (feA e) 4 (bump (feA e + 0xC) s)

/-- Refused outputs of a stage: on its stream, and as refused spectral positions (R232, R243). -/
def refuseOutputs (e inst : Nat) (d : StageDesc) (run : RefRun) (s : State) : State :=
  let s := match stageStream s e inst d with
    | some k => if d.type = 7 ∨ d.type = 8 then s else refuseRun k run s
    | none => s
  if d.tap then spuRefused e (d.out + inst) run.count s else s

/-- An output of a stage goes to its stream and to its watch entry (R219). -/
def deliverOutput (e inst : Nat) (d : StageDesc) (y : Sample) (s : State) : State :=
  let s := if y.sat then feSat e s else s
  if d.tap then
    let s := match streamOf s 1 e (d.out + inst) with
      | some k => offer k y s
      | none => s
    spuPosition e (d.out + inst) (some y) s
  else s

/-- A TRIG's change of state: its event record and its line (R227, R228, R360). -/
def trigEvent (e inst ch : Nat) (d : StageDesc) (active : Bool) (x : Sample) (s : State) : State :=
  let y := { x with stamp := x.stamp + BitVec.ofInt 64 d.tsadj }
  let s := if d.tap then
      match trigStream s e (d.out + inst) with
      | some k => offerEvent k 4 y [pack [(b2n active, 47), (e, 40), (d.out + inst, 32), (ch, 0)], x.value] s
      | none => s
    else s
  refreshLines s

/-- One value through a stage: the state after it, and what its children receive. -/
def stageValue (e c ch inst : Nat) (d : StageDesc) (x : Sample) (s : State) : State × List Feed :=
  let key := stageKey e c inst d.num
  let st0 := getStage s key
  let st1 := if st0 = {} then stageReset s e d else st0
  let st := { countdown (spanOf s e d) x st1 with lastIn := some x, refill := st1.refill - 1 }
  if d.type = 7 then (rfInput e d (d.out % 128 + inst) x s, [])
  else if d.type = 8 then
    let r := trigStep s e d st x
    let s := setStage key r.1 s
    match r.2 with
    | some y => (trigEvent e inst ch d r.1.active { y with qual := spanQual r.1 } s, [])
    | none => (s, [])
  else
    let r := stageArith s e d st (sval x.value)
    let s := setStage key r.1 s
    match r.2 with
    | none => (s, [])
    | some y =>
      let o := stageSample d r.1 x y
      if 0 < r.1.refill ∨ chainBroken s e c then
        let run : RefRun := { first := o.stamp, last := o.stamp, count := 1, reason := 4, qual := o.qual, era := o.era }
        (refuseOutputs e inst d run s, [.gap run true])
      else (deliverOutput e inst d o s, [.value o])

/-- The values that stand in for a gap under HOLD (R232). -/
def holdValues (last : Sample) (run : RefRun) : List Sample :=
  (List.range run.count).map (fun (i : Nat) =>
    { last with
      stamp := run.first + BitVec.ofInt 64
        (if run.count ≤ 1 then 0 else roundDiv (((i : Nat) : Int) * (run.last - run.first).toInt) (run.count - 1))
      filled := true })

/-- A gap under RESTART: the stage is cleared, and the outputs it would have formed are refused (R232). -/
def stageRestart (e c inst : Nat) (d : StageDesc) (run : RefRun) (s : State) : State × List Feed :=
  let key := stageKey e c inst d.num
  let m := missedOutputs s e d (getStage s key) run.count
  let out : RefRun := { run with first := run.first + BitVec.ofInt 64 d.tsadj, last := run.last + BitVec.ofInt 64 d.tsadj,
                                 count := m, reason := if run.reason = 3 then 3 else 4 }
  let s := setStage key { stageReset s e d with refill := spanOf s e d } s
  (if m = 0 then s else refuseOutputs e inst d out s, [.gap out true])

/-- A gap through a stage (R232). -/
def stageGap (e c ch inst : Nat) (d : StageDesc) (run : RefRun) (force : Bool) (s : State) : State × List Feed :=
  let key := stageKey e c inst d.num
  if d.type = 8 then (setStage key { getStage s key with run := 0 } s, [])
  else if d.type = 7 then
    if run.count = 0 then (s, [])
    else
      let g := getSlot s (d.out % 128 + inst)
      (setSlot (d.out % 128 + inst) { g with gaps := satInc g.gaps } s, [])
  else match d.hold && !force, (getStage s key).lastIn with
    | true, some last =>
      (holdValues last run).foldl (fun r x =>
        let q := stageValue e c ch inst d x r.1
        (q.1, r.2 ++ q.2)) (s, [])
    | _, _ => stageRestart e c inst d run s

/-- Everything a stage receives for one notice or value, in order. -/
def stageFeeds (e c ch inst : Nat) (d : StageDesc) (fs : List Feed) (s : State) : State × List Feed :=
  fs.foldl (fun r f =>
    let q := match f with
      | .value x => stageValue e c ch inst d x r.1
      | .gap run force => stageGap e c ch inst d run force r.1
    (q.1, r.2 ++ q.2)) (s, [])

/-- The stages of a chain in number order; `outs` holds what each stage so far gives its children (R219). -/
def runStages (e c ch inst : Nat) : List StageDesc → List (Nat × List Feed) → State → State
  | [], _, s => s
  | d :: ds, outs, s =>
    let fs := ((outs.find? (fun p => p.1 = d.inp)).map Prod.snd).getD []
    let r := stageFeeds e c ch inst d fs s
    runStages e c ch inst ds (outs ++ [(d.num, r.2)]) r.1

/-- A channel's chain receives a value or a gap notice from CAL; only booked stages run (R219, R321). -/
def runChain (ch : Nat) (f : Feed) (s : State) : State :=
  if chChainEn s ch then
    let e := chFe s ch
    let c := chChain s ch
    let inst := instanceOf s ch
    let ds := chainStages s e c
    runStages e c ch inst (ds.filter (stageBooked s e inst ds)) [(0, [f])] s
  else s

/-! ### Limits (R205) -/

/-- The channel's W1C bit and event record when its limit state changes (R205, R360). -/
def limitCheck (c : Nat) (x : Sample) (s : State) : State :=
  if chLimMode s c = 0 then s
  else
    let y := sval x.value
    let hi := signed 24 (bits (chW s c 6) 47 24) * 2 ^ chLimSh s c
    let lo := signed 24 (bits (chW s c 6) 23 0) * 2 ^ chLimSh s c
    let ch := getChan s c
    let out := decide (hi < y) || decide (y < lo)
    if out = ch.out then s
    else
      let high := if out then decide (hi < y) else ch.high
      let s := setChan c { ch with out := out, high := high } s
      let s := if out then raise (limFA (c / 32)) (c % 32) s else s
      if chLimMode s c = 2 ∧ chStrEn s c then
        offerEvent (chStream s c) 3 x [pack [(b2n out, 47), (b2n high, 46), (c, 0)], x.value] s
      else s

/-! ### Values and gaps of a channel (R198, R234) -/

/-- The gap notice of a channel's refused values reaches its instance (R232). -/
def giveNotice (c : Nat) (s : State) : State :=
  match (getChan s c).notice with
  | some run => runChain c (.gap run false) (setChan c { getChan s c with notice := none } s)
  | none => s

/-- Refused values join the channel's gap notice, which carries the first, the last and the count of a run (R232). A run of
another reason is given first. -/
def joinNotice (c : Nat) (run : RefRun) (s : State) : State :=
  if !chChainEn s c || (getFe s (chFe s c)).state ≠ .on || run.count = 0 then s
  else
    let s := match (getChan s c).notice with
      | some r => if r.reason = run.reason then s else giveNotice c s
      | none => s
    let n := match (getChan s c).notice with
      | some r => { r with last := run.last, count := r.count + run.count }
      | none => run
    setChan c { getChan s c with notice := some n } s

/-- A gap notice goes first (R232); then a calibrated value is kept for GET, checked, and copied to the direct stream, the hooks and the chain (R198, R304). -/
def channelCopies (c : Nat) (y : Sample) (s : State) : State :=
  let s := giveNotice c s
  let s := setChan c { getChan s c with last := some y } s
  let s := limitCheck c y s
  let s := if chStrEn s c then offer (chStream s c) y s else s
  let s := hookTriggers c y.value 0 y s
  runChain c (.value y) s

/-- A gap in a channel's values: refused on the direct stream, and a gap notice to the chain (R95, R232). -/
def channelGap (c : Nat) (run : RefRun) (s : State) : State :=
  if !sourcesRun s (chKind s c) then s else
  let s := if chStrEn s c then refuseRun (chStream s c) run s else s
  joinNotice c run s

/-- A raw value of an enabled value channel (R198, R221, R234). -/
def channelRaw (c : Nat) (raw : W48) (x : Sample) (s : State) : State :=
  let e := chFe s c
  let g := getFe s e
  if !chEn s c || chIsEvent s c || !calBooked s c || g.state ≠ .on || !sourcesRun s (chKind s c) then s
  else if 4096 ≤ g.queued then
    channelGap c { first := x.stamp, last := x.stamp, count := 1, reason := 3, qual := x.qual, era := x.era }
      (raise (feA e) 3 (bump (feA e + 0x18) s))
  else
    let s := setFe e { g with qmax := max g.qmax (g.queued + 1) } s
    let y := calOf s c raw
    let s := if y.2 then feSat e s else s
    channelCopies c { x with value := ofInt y.1, sat := y.2 } s

/-- CHANNEL_VALUE (R198). -/
def execChannelValue (c : Nat) (raw : W48) (x : Sample) (s : State) : Host.Outcome State Fault Refusal := live s <|
  .next (channelRaw c raw x s)

/-- GAP_NOTICE (R232): the gap notice of a channel's refused values reaches its instance. The spec does not say how long a
run of them may grow before that; it is given before the next accepted value, with the direct stream's gap record, and here. -/
def execGapNotice (c : Nat) (s : State) : Host.Outcome State Fault Refusal := live s <| .next (giveNotice c s)

/-- A source value reaches the channel that names it, if any (R197). -/
def sourceValue (kind addr : Nat) (raw : W48) (x : Sample) (s : State) : State :=
  match chanOfSource s kind addr with
  | some c => channelRaw c raw x s
  | none => s

/-- A refused source value, for the channel that names it (R95). -/
def sourceRefused (kind addr : Nat) (run : RefRun) (s : State) : State :=
  match chanOfSource s kind addr with
  | some c => channelGap c run s
  | none => s

/-- A run of one refused value stamped x. -/
def oneRefused (reason : Nat) (x : Sample) : RefRun :=
  { first := x.stamp, last := x.stamp, count := 1, reason := reason, qual := x.qual, era := x.era }

/-- The channels that hold a gap notice. -/
def noticed (s : State) : List Nat := (s.chans.filter (fun kv => kv.2.notice.isSome)).map Prod.fst

/-- The run of a stream that has lasted half the stream's bound closes, and the notice of its channel goes with it (R95). -/
def closeLongRun (k : Nat) (s : State) : State :=
  match (getStream s k).run with
  | some run =>
    if boundOf s k / 2 ≤ sinceStamp s run.first run.era then
      forEach ((noticed s).filter (fun c => chStrEn s c && chStream s c = k)) giveNotice (closeRun k s)
    else s
  | none => s

/-- FLUSH_DEADLINE (R210): device time reaches the first stamp plus FLUSH. -/
def execFlushDeadline (k : Nat) (s : State) : Host.Outcome State Fault Refusal := live s <|
  match (getStream s k).batch with
  | some b =>
    if reached s (b.t0 + BitVec.ofNat 64 (stFlush s k)) then .next (requestWake 6 (closeBatch k 1 s)) else .next s
  | none => .next s

/-! ### Coefficient memory errors (R233) -/

/-- What a coefficient memory word is: descriptor or coefficient of chains, state of an instance, or unused. -/
inductive CoefUse where
  | chain (c : Nat)
  | state (c inst : Nat)
  | unused
  deriving DecidableEq, Repr

/-- State words of one instance of a stage (R238). -/
def stageStateWords (s : State) (e : Nat) (d : StageDesc) : Nat :=
  let w := coef s e (d.addr + 2)
  match d.type with
  | 1 => 6 * decN d + firNt w + 4
  | 2 => firNt w + 4
  | 3 => 4 * (d.param / 2 ^ 12 + 1) + 3
  | 4 => 3 * (d.param / 2 ^ 15 + 1) + 3
  | 5 => 7
  | 6 | 8 => 6
  | _ => 0

/-- State words of one instance of a chain: SW of R216. -/
def chainStateWords (s : State) (e c : Nat) : Nat := ((chainStages s e c).map (stageStateWords s e)).sum

/-- The use of word w of an engine's coefficient memory, by the valid chains (R215, R216). -/
def coefUse (s : State) (e w : Nat) : CoefUse :=
  let cs := (List.range 256).filter (chainValid s e)
  match cs.find? (fun c => (chainStages s e c).any (fun d => decide (d.addr ≤ w ∧ w < d.addr + d.len))) with
  | some c => .chain c
  | none =>
    match cs.find? (fun c => decide (chainSbase s e c ≤ w ∧ w < chainSbase s e c + chainNuse s e c * chainStateWords s e c)) with
    | some c => .state c ((w - chainSbase s e c) / max 1 (chainStateWords s e c))
    | none => .unused

/-- An uncorrectable error in coefficient memory (R233). -/
def coefUncorrectable (e w : Nat) (s : State) : State :=
  let s := journal 0x40 (stampNow s) [pack [(0, 36), (e, 32), (w, 0)]]
    (raise (feA e) 6 (bump (feA e + 0x14) s))
  match coefUse s e w with
  | .chain c =>
    let a := feBrkA e (c / 32)
    setCnt a (cntR s a ||| (1#32 <<< (c % 32))) s
  | .state c inst =>
    let s := bump (feA e + 0x1C) s
    let t := stampNow s
    let run : RefRun := { first := t.stamp, last := t.stamp, count := 0, reason := 4, qual := t.qual, era := t.era }
    (chainStages s e c).foldl (fun s d => if d.type = 7 ∨ d.type = 8 then s else (stageRestart e c inst d run s).1) s
  | .unused => s

/-- FE_SCRUB (R233): one word is read; a single-bit error is corrected, an uncorrectable one handled. -/
def execFeScrub (e w : Nat) (found : Ecc) (s : State) : Host.Outcome State Fault Refusal := live s <|
  if s.power.cur ≠ .s0 ∨ 8 ≤ e ∨ 32768 ≤ w then .next s
  else match found with
  | .clean => .next s
  | .corrected => .next (raise (feA e) 5 (bump (feA e + 0x10) s))
  | .uncorrectable => .next (coefUncorrectable e w s)

end Sys2Proof.Machine
end

