-- ==== Sys2Proof/Machine/Converter.lean ====
section
/-! DEFINITION. The converter ports: SYNC periods, frames, the command line and presence (R83–R105). -/

namespace Sys2Proof.Machine
open Sys2Proof

/-! ### Configuration (R105) -/

def cvpCtrl (s : State) (n : Nat) : W32 := cfgR s (cvpA n)
def cvpEn (s : State) (n : Nat) : Bool := bit (cvpCtrl s n) 0
def cvpPresEn (s : State) (n : Nat) : Bool := bit (cvpCtrl s n) 4
def cvpFstmr (s : State) (n : Nat) : Nat := bits (cvpCtrl s n) 12 8
/-- NFRAME_M1 + 1. -/
def cvpFrames (s : State) (n : Nat) : Nat := bits (cvpCtrl s n) 17 16 + 1
/-- N of R86. -/
def cvpN (s : State) (n : Nat) : Nat := bits (cvpCtrl s n) 23 18 + 1
def cvpCkdiv (s : State) (n : Nat) : Nat := bits (cvpCtrl s n) 31 24
def cvpGdly (s : State) (n d : Nat) : Int := (cfgR s (cvpA n + 0x10 + 4 * d)).toInt
def cvpLat (s : State) (n d : Nat) : Int := (cfgR s (cvpA n + 0x20 + 4 * d)).toInt

/-- Flags of CVPn_STAT (R105). -/
def cvpInitF : Nat := 11
def cvpErrF : Nat := 10
def cvpRefF : Nat := 9
def cvpOvrF : Nat := 8

/-- Entries of a list of the image, by kind and index (R436). -/
def listBytes (s : State) (kind idx : Nat) : List (BitVec 8) := Mem.read (fun _ => []) s.config.lists (kind * 2 ^ 24 + idx)

/-- Bytes as a big-endian number (R432). -/
def beNat (bs : List (BitVec 8)) : Nat := bs.foldl (fun a b => 256 * a + b.toNat) 0

/-- A byte list cut into entries of n bytes. -/
def entriesOfBytes (n : Nat) (bs : List (BitVec 8)) : List (List (BitVec 8)) :=
  (List.range (bs.length / n)).map (fun i => (bs.drop (n * i)).take n)

/-- A port status event: its channel, hooks and journal entry (R100, R101, R133, R360). -/
def portEvent (kind node port : Nat) (x : Sample) (extra : List W48) (s : State) : State :=
  let w := pack [(kind, 16), (node, 8), (port, 0)]
  channelEvent 7 port 2 x w (journal 0x12 x (w :: extra) s)

/-! ### SYNC periods (R84, R95) -/

/-- The stamp of frame d's samples in the current period (R91). -/
def frameStamp (s : State) (n d : Nat) : Sample :=
  match (getCvp s n).tfs with
  | some x => { x with stamp := x.stamp + BitVec.ofInt 64 (cvpGdly s n d) }
  | none => stampNow s

/-- Every sample of an expected frame is refused (R95). -/
def refuseFrame (n d : Nat) (s : State) : State :=
  let x := frameStamp s n d
  let s := setCvp n { getCvp s n with accounted := d :: (getCvp s n).accounted } s
  forEach (List.range (cvpN s n)) (fun i s => sourceRefused 1 (256 * n + (64 * d + i)) (oneRefused 1 x) s) s

/-- The open period ends: its frames not yet accounted are missing (R95). -/
def closePeriod (n : Nat) (s : State) : State :=
  let g := getCvp s n
  if !g.period then s
  else
    let s := forEach ((List.range (cvpFrames s n)).filter (fun d => !g.accounted.contains d)) (refuseFrame n) s
    setCvp n { getCvp s n with period := false } s

/-- FCLK cycles from a rise of OUT to the CK falling edge that launches it: 1 to 2 × CKDIV (R84). -/
def launchDelay (k phase : Nat) : Nat := (k + 2 * k - 1 - phase % (2 * k)) % (2 * k) + 1

/-- The SYNC instant of a rise of OUT in the next control cycle: the launch edge while CK runs (R84). -/
def syncStamp (s : State) (n : Nat) : Sample :=
  let g := getCvp s n
  let k := cvpCkdiv s n
  let d := if g.ck && decide (0 < k) then launchDelay k (s.tb.cycles + 1 - g.ckStart).toNat else 0
  let t := s.tb.fast + BitVec.ofInt 96 ((d + 1 : Nat) * (2 ^ 32 + s.tb.steer.toInt))
  { stamp := (t >>> 32).setWidth 64, qual := qualFast s, era := s.tb.stepCnt }

/-- A SYNC period starts at a rise of FSTMR's OUT (R95); a SYNC passed to the pin counts in SEQ (R92, R97). -/
def syncPort (n : Nat) (s : State) : State :=
  if !cvpEn s n || s.power.cur ≠ .s0 then s
  else
    let s := closePeriod n s
    let g := getCvp s n
    let go := g.fsPassed && g.ck
    setCvp n
      { g with
        tfs := some (syncStamp s n), period := true, examined := 0, accounted := [], launched := go,
        seq := if !go then g.seq else if g.assign then 0 else (g.seq + 1) % 8
        assign := if go then false else g.assign } s

/-- The ports whose FS a timer drives (R84). -/
def fsPorts (s : State) (t : Nat) : List Nat := (List.range 8).filter (fun n => cvpEn s n && cvpFstmr s n = t)

/-- The FS pin of a port follows its timer (R84, R100 step 5). -/
def fsDriven (s : State) (n : Nat) : Bool := (getCvp s n).fsPassed && (getCvp s n).ck

/-! ### Frames (R86–R94) -/

/-- The number that nibbles spell, first nibble most significant. -/
def nibNat (l : List (BitVec 4)) : Nat := l.foldl (fun a b => 16 * a + b.toNat) 0

/-- Nibbles of a frame of N samples (R86). -/
def frameNibbles (n : Nat) : Nat := 10 + 6 * n

/-- The checks of R92 in order: 1 FIFOPAR, 2 LATE, 3 CRCERR, 4 HDRERR, 5 LENERR, 6 SEQERR, 7 SETTLE or REFFLT; 0 accepted. -/
def frameCheck (s : State) (n : Nat) (nibs : List (BitVec 4)) (parity : Bool) : Nat :=
  let g := getCvp s n
  let d := g.examined
  let len := frameNibbles (cvpN s n)
  let body := (nibs.take (len - 2)).drop 4
  let hdr := nibNat ((nibs.drop 4).take 4)
  if parity then 1
  else if nibs.length < len || !g.period || !g.launched ||
      (match g.tfs with | some x => decide (cvpLat s n (min d 3) < (ticks s - x.stamp).toInt) | none => true) then 2
  else if (crc8 (body.flatMap msbBits)).toNat ≠ nibNat ((nibs.drop (len - 2)).take 2) then 3
  else if hdr / 2 ^ 6 % 4 ≠ 0 ∨ hdr / 2 ^ 8 % 4 = 3 then 4
  else if hdr % 2 ^ 6 + 1 ≠ cvpN s n ∨ hdr / 2 ^ 14 % 4 ≠ d then 5
  else if hdr / 2 ^ 11 % 8 ≠ g.seq then 6
  else if hdr / 2 ^ 8 % 4 ≠ 0 then 7
  else 0

/-- The counter of a failed check (R92, R104). -/
def frameCounter (n code stat : Nat) : Nat :=
  cvpA n + (match code with
    | 1 => 0x54 | 2 => 0x4C | 3 => 0x40 | 4 => 0x48 | 5 => 0x44 | 6 => 0x50 | _ => if stat = 1 then 0x58 else 0x5C)

/-- A frame discarded under a check: its counter and flag, and its samples refused (R92, R95). -/
def discardFrame (n d code stat : Nat) (s : State) : State :=
  let s := bump (frameCounter n code stat) s
  let s := if code ≤ 6 then
      raise (cvpA n + 4) cvpErrF (setCvp n { getCvp s n with synced := false } s)
    else
      let s := setCvp n { getCvp s n with synced := true } s
      if stat = 2 then raise (cvpA n + 4) cvpRefF s else s
  if d < cvpFrames s n ∧ (getCvp s n).period then refuseFrame n d s else s

/-- The samples of an accepted frame reach their channels (R88, R91, R94). -/
def frameSamples (n d : Nat) (nibs : List (BitVec 4)) (ovr : Bool) (s : State) : State :=
  let x := { frameStamp s n d with ovr := ovr }
  forEach (List.range (cvpN s n)) (fun i s =>
    sourceValue 1 (256 * n + (64 * d + i)) (ofInt (signed 24 (nibNat ((nibs.drop (8 + 6 * i)).take 6)))) x s) s

/-- A frame accepted (R92, R94, R95, R100 step 6). -/
def acceptFrame (n d : Nat) (nibs : List (BitVec 4)) (s : State) : State :=
  let ovr := (nibNat ((nibs.drop 4).take 4)).testBit 10
  let g := getCvp s n
  let seen := if g.seen.contains d then g.seen else d :: g.seen
  let on := g.state = .on || (g.state = .starting && (List.range (cvpFrames s n)).all (fun i => seen.contains i))
  let s := setCvp n { g with synced := true, accounted := d :: g.accounted, seen := seen, state := if on then .on else g.state } s
  let s := bumpWrap (cvpA n + 0x64) s
  let s := if ovr then raise (cvpA n + 4) cvpOvrF (bump (cvpA n + 0x60) s) else s
  frameSamples n d nibs ovr s

/-- CONVERTER_FRAME (R92): the nibbles found from a sync word on, and whether the port FIFO's parity failed. -/
def execConverterFrame (n : Nat) (nibbles : List (BitVec 4)) (parity : Bool) (s : State) : Host.Outcome State Fault Refusal := live s <|
  let g := getCvp s n
  if n < 8 ∧ s.power.cur = .s0 ∧ cvpEn s n ∧ (g.state = .starting ∨ g.state = .on) ∧ nibNat (nibbles.take 4) = 0xF61E then
    let code := frameCheck s n nibbles parity
    let d := g.examined
    let s := setCvp n { g with examined := d + 1 } s
    if code = 0 then .next (acceptFrame n d nibbles s)
    else .next (discardFrame n d code (nibNat ((nibbles.drop 4).take 4) / 2 ^ 8 % 4) s)
  else .next s

/-! ### Presence (R99–R101) -/

/-- Debounced presence. A removal acts at its first sample; the debounced level follows PRESDB crystal cycles later, unless
presence is confirmed again first (R99). -/
def cvpPresent (s : State) (n : Nat) : Bool :=
  let g := getCvp s n
  g.pres && (g.pin || decide (32 * (ticks s - g.goneAt).toNat < 390625 * bits (cfgR s (cvpA n + 8)) 15 0))

/-- Presence is confirmed: steps 2 and 3 of R100. -/
def confirmPort (n : Nat) (s : State) : State :=
  let g := getCvp s n
  let s := setCvp n
    { g with
      pres := true, pin := true, state := .starting, ck := true, ckStart := s.tb.cycles, fsPassed := false,
      failed := false, initing := false, initLeft := [], initIndex := 0, attempts := 0, seen := [], synced := false } s
  portEvent 1 0 n (stampNow s) [] (bump (cvpA n + 0x68) (requestWake 3 s))

/-- PRESENCE_CONFIRMED (R100). -/
def execPresenceConfirmed (n : Nat) (s : State) : Host.Outcome State Fault Refusal := live s <|
  if n < 8 ∧ cvpEn s n ∧ (getCvp s n).state = .off ∧ s.phase = .running then .next (confirmPort n s)
  else .next s

/-- The port stops, by removal (R101) or by a reload. -/
def stopPort (n : Nat) (s : State) : State :=
  let g := getCvp s n
  setCvp n
    { g with
      state := .off, ck := false, fsPassed := false, synced := false, launched := false, initing := false, initLeft := [],
      initIndex := 0, attempts := 0, seen := [], assign := false, cmdBusy := false,
      cmdRes := if g.cmdBusy then 4 else g.cmdRes } s

/-- REMOVAL (R101). -/
def execRemoval (n : Nat) (s : State) : Host.Outcome State Fault Refusal := live s <|
  if n < 8 ∧ cvpEn s n ∧ cvpPresEn s n ∧ (getCvp s n).state ≠ .off then
    let s := stopPort n s
    let s := setCvp n { getCvp s n with pin := false, goneAt := ticks s } s
    .next (portEvent 2 0 n (stampNow s) [] (requestWake 3 s))
  else .next s

/-! ### Command line (R96–R98) -/

/-- The commands of a port's start-up: its list DEV by DEV, then SYNC_ASSIGN to every DEV (R100 steps 4, 5). -/
def initCommands (s : State) (n : Nat) : List W32 :=
  (List.range (cvpFrames s n)).flatMap (fun d =>
    (entriesOfBytes 4 (listBytes s 1 (4 * n + d))).map (fun e => BitVec.ofNat 32 (beNat e))) ++
  (List.range (cvpFrames s n)).map (fun d => BitVec.ofNat 32 (2 * 2 ^ 30 + d * 2 ^ 28))

/-- The next command of the running list is sent, or the list ends and FS is passed (R100 steps 4, 5). -/
def initNext (n : Nat) (s : State) : State :=
  let g := getCvp s n
  match g.initLeft with
  | w :: _ => setCvp n { g with cmdBusy := true, cmdTx := w } s
  | [] => setCvp n { g with cmdBusy := false, initing := false, fsPassed := true } s

/-- INITIALISATION_LIST (R100 step 4): the power-up wait is over. -/
def execInitialisationList (n : Nat) (s : State) : Host.Outcome State Fault Refusal := live s <|
  let g := getCvp s n
  if n < 8 ∧ s.power.cur = .s0 ∧ g.state = .starting ∧ g.ck ∧ !g.initing ∧ !g.failed ∧ !g.fsPassed then
    .next (initNext n (setCvp n { g with initing := true, initLeft := initCommands s n, initIndex := 0, attempts := 0 } s))
  else .next s

/-- A write to CVPn_CMD_TX (R96, R104): after the lock Ranger alone may. -/
def writeCmdTx (p : Path) (n : Nat) (v : W32) (s : State) : State :=
  let g := getCvp s n
  if p ≠ .ranger then werr s
  else if g.cmdBusy ∨ !g.ck ∨ bits v 31 30 = 3 then s
  else setCvp n { g with cmdBusy := true, cmdTx := v } s

/-- CVP_COMMAND (R96, R104): a write to CVPn_CMD_TX starts a transaction. -/
def execCvpCommand (path : Path) (n : Nat) (w : W32) (s : State) : Host.Outcome State Fault Refusal := live s <|
  if 8 ≤ n then .next s else .next (writeCmdTx path n w s)

/-- RES of a response (R98): 0 OK, 1 REFUSED, 2 BADRESP, 3 NORESP. -/
def responseRes (bs : List Bool) : Nat :=
  let ack := ofBits (bs.take 8)
  if bs.all (fun b => b) then 3
  else if (crc8 (bs.take 24)).toNat ≠ ofBits ((bs.drop 24).take 8) then 2
  else if ack = 0x5A then 0
  else if ack = 0x3C then 1
  else 2

/-- A command of the running list has failed (R98). -/
def initFailed (n : Nat) (s : State) : State :=
  let g := getCvp s n
  if g.attempts + 1 < 3 then setCvp n { g with attempts := g.attempts + 1, cmdBusy := true } s
  else
    let s := setCvp n { g with initing := false, failed := true, initLeft := [], cmdBusy := false } s
    portEvent 9 0 n (stampNow s) [BitVec.ofNat 48 g.initIndex] (raise (cvpA n + 4) cvpInitF s)

/-- COMMAND_RESPONSE (R96–R98): the 32 bits sampled on CVn_CMD after the turnaround. -/
def execCommandResponse (n : Nat) (bs : List Bool) (s : State) : Host.Outcome State Fault Refusal := live s <|
  let g := getCvp s n
  if 8 ≤ n ∨ !g.cmdBusy ∨ bs.length ≠ 32 then .next s
  else
    let r := responseRes bs
    let ok := decide (r = 0)
    let s := setCvp n
      { g with
        cmdBusy := false, cmdRes := r, cmdRx := BitVec.ofNat 24 (ofBits (bs.take 24)),
        assign := g.assign || (ok && decide (bits g.cmdTx 31 30 = 2)) } s
    if !g.initing then .next s
    else if ok then
      let g := getCvp s n
      .next (initNext n (setCvp n { g with initLeft := g.initLeft.drop 1, initIndex := g.initIndex + 1, attempts := 0 } s))
    else .next (initFailed n s)

end Sys2Proof.Machine
end

