-- ==== Sys2Proof/Machine/HawserCode.lean ====
section
/-! DEFINITION. The coding of the Hawser trunk: scrambler, codes, interleaving and tone maps (R142–R151, R157). -/

namespace Sys2Proof.Machine
open Sys2Proof

/-! ### Sequences (R144) -/

/-- One step of the generator x^7 + x^4 + 1: the output and the next state, x7 in bit 6. -/
def scrStep (x : BitVec 7) : Bool × BitVec 7 :=
  let t := x.getLsbD 6 != x.getLsbD 3
  (t, (x <<< 1) ||| (if t then 1 else 0))

/-- The first n outputs from a seed. -/
def scrBits : Nat → BitVec 7 → List Bool
  | 0, _ => []
  | n + 1, x => let r := scrStep x; r.1 :: scrBits n r.2

/-- Values of the 36 short carriers' signs, of the 144 long training carriers, and pilot polarities (R144, R145). -/
def shortSigns : List Bool := scrBits 36 0x5A
def longSigns : List Bool := scrBits 144 0x3B
def pilotSigns (symbols : Nat) : List Bool := scrBits symbols 0x7F

/-- The data scrambler of a NODE, as bytes' bits XOR it (R144, R149). -/
def scramble (node : Nat) (bs : List Bool) : List Bool :=
  (bs.zip (scrBits bs.length (0x7F ^^^ BitVec.ofNat 7 node))).map (fun p => p.1 != p.2)

/-! ### Check codes (R147, R149, R161) -/

/-- CRC-24 over a payload. -/
def crc24 (bs : List (BitVec 8)) : BitVec 24 := crcBits 0x864CFB 0xFFFFFF (byteBits bs)
/-- CRC-16 of a generation 1 frame. -/
def crc16 (bs : List (BitVec 8)) : BitVec 16 := crcBits 0x1021 0xFFFF (byteBits bs)
/-- CRC-8 of a header over bits [61:8]. -/
def headerCrc (h : BitVec 62) : BitVec 8 := crc8 ((msbBits h).take 54)

/-- A header with its check byte. -/
def mkHeader (node type len tmap seq aux : Nat) : BitVec 62 :=
  let h := BitVec.ofNat 62 (node * 2 ^ 56 + type % 16 * 2 ^ 52 + len % 4096 * 2 ^ 40 + tmap % 16 * 2 ^ 36 + seq % 16 * 2 ^ 32 + aux % 2 ^ 24 * 2 ^ 8)
  h ||| (headerCrc h).setWidth 62

/-- Bytes of a bit list, eight at a time. -/
def bytesOfBits (bs : List Bool) : List (BitVec 8) :=
  (List.range (bs.length / 8)).map (fun i => BitVec.ofNat 8 (ofBits ((bs.drop (8 * i)).take 8)))

/-! ### The convolutional code (R149) -/

/-- Parity of the register bits a generator taps; the newest input is the generator's most significant bit. -/
def tapParity (g : BitVec 7) (r : BitVec 7) : Bool := (msbBits (g &&& r)).foldl (fun a b => a != b) false

/-- Constraint length 7, generators 133 and 171 octal: A then B for each input bit, from register r. -/
def convFrom : BitVec 7 → List Bool → List (Bool × Bool)
  | _, [] => []
  | r, b :: bs =>
    let r := (r >>> 1) ||| (if b then 0x40 else 0)
    (tapParity 0x5B r, tapParity 0x79 r) :: convFrom r bs

/-- A rate code's puncturing period, and what it keeps of A and B (R149). -/
def puncture (rate : Nat) : List (Bool × Bool) :=
  match rate with
  | 0 => [(true, true)]
  | 1 => [(true, true), (true, false)]
  | 2 => [(true, true), (true, false), (false, true)]
  | _ => [(true, true), (true, false), (false, true), (true, false), (false, true)]

/-- Coded bits kept in order. -/
def punctured (rate : Nat) (cs : List (Bool × Bool)) : List Bool :=
  let p := puncture rate
  ((List.range cs.length).zip cs).flatMap (fun x =>
    let k := p.getD (x.1 % p.length) (true, true)
    (if k.1 then [x.2.1] else []) ++ (if k.2 then [x.2.2] else []))

/-- Input bits per puncturing period and coded bits per period (R149). -/
def ratePeriod (rate : Nat) : Nat := (puncture rate).length
def rateCoded (rate : Nat) : Nat := match rate with | 0 => 2 | 1 => 3 | 2 => 4 | _ => 6

/-- Input bits of a data field of LEN bytes, padded to a whole number of periods (R149 steps 1 to 5). -/
def inputBits (rate len : Nat) : Nat :=
  let n := 8 * (len + 3) + 6
  (n + ratePeriod rate - 1) / ratePeriod rate * ratePeriod rate

/-- C of R149: coded bits after puncturing. -/
def codedBits (rate len : Nat) : Nat := inputBits rate len / ratePeriod rate * rateCoded rate

/-- N_sym of R149. -/
def dataSymbols (rate ncbps len : Nat) : Nat := if len = 0 then 0 else (codedBits rate len + ncbps - 1) / max 1 ncbps

/-- The coded bits of a data field, filled to whole symbols (R149). -/
def dataField (rate ncbps node : Nat) (payload : List (BitVec 8)) : List Bool :=
  let plain := scramble node (byteBits payload ++ msbBits (crc24 payload))
  let n := dataSymbols rate ncbps payload.length
  let fill := n * ncbps / rateCoded rate * ratePeriod rate + ratePeriod rate
  (punctured rate (convFrom 0 (plain ++ List.replicate (fill - plain.length) false))).take (n * ncbps)

/-- The coded bits of the header symbol (R147). -/
def headerField (h : BitVec 62) : List Bool :=
  punctured 0 (convFrom 0 (msbBits h ++ List.replicate 6 false))

/-! ### Carriers (R142, R150, R151) -/

/-- A used carrier that bears a pilot: k = 19, 37, …, 145. -/
def isPilot (k : Nat) : Bool := decide (19 ≤ k ∧ k ≤ 145 ∧ (k - 19) % 18 = 0)

/-- The data carriers' k, d = 0 to 135 in ascending k. -/
def dataCarriers : List Nat := ((List.range 144).map (· + 10)).filter (fun k => !isPilot k)

/-- Bits of a modulation code (R151). -/
def modBits (c : Nat) : Nat := match c with | 1 => 1 | 2 => 2 | 3 => 4 | 4 => 6 | _ => 0

/-- The order in which a symbol's carriers take coded bits: round r, then i (R150). -/
def carrierOrder (b : List Nat) : List Nat :=
  (List.range 6).flatMap (fun r =>
    ((List.range 136).map (fun i => (41 * i + 17 * r) % 136)).filter (fun d => r < b.getD d 0))

/-- The label bits b_0, b_1, … of every data carrier of one symbol (R150). -/
def symbolLabels (b : List Nat) (coded : List Bool) : List (List Bool) :=
  let ps := (carrierOrder b).zip coded
  (List.range 136).map (fun d => (ps.filter (fun p => p.1 = d)).map Prod.snd)

/-- A packet's data symbols as labels, n symbols of ncbps coded bits (R150). -/
def packetLabels (b : List Nat) (ncbps : Nat) (coded : List Bool) (n : Nat) : List (List (List Bool)) :=
  (List.range n).map (fun i => symbolLabels b ((coded.drop (i * ncbps)).take ncbps))

/-! ### Levels (R157) -/

/-- x^400 ≥ 10^e, for the comparison of 40 log10 x with e / 10. -/
def levelAtLeast (x : Rat) (e : Int) : Bool :=
  if 0 ≤ e then decide ((10 : Rat) ^ e.toNat ≤ x ^ 400) else decide ((1 : Rat) ≤ x ^ 400 * 10 ^ (-e).toNat)

/-- Largest m ≥ lo, found bit by bit downward from 2^b, with 40 log10 x + off/10 ≥ m − 1/2. -/
def levelSearch (x : Rat) (off : Int) : Nat → Int → Int
  | 0, lo => lo
  | b + 1, lo =>
    let m := lo + 2 ^ b
    if levelAtLeast x (10 * m - 5 - off) then levelSearch x off b m else levelSearch x off b lo

/-- round(4 × (10 log10 x + 118.6 − G)) for G of g steps of 0.75 dB (R157), in the signed 16 bits of its register. -/
def levelOf (x : Rat) (g : Nat) : Int := levelSearch x (4744 - 30 * g) 16 (-(2 ^ 15))

end Sys2Proof.Machine
end

