-- ==== Sys2Proof/Machine/HawserPhy.lean ====
section
/-! DEFINITION. The trunk ports' physical layer: transmission, reception, levels and the power feed (R140–R166). -/

namespace Sys2Proof.Machine
open Sys2Proof

def getHws (s : State) (n : Nat) : Hws := Mem.read (fun _ => {}) s.hws n
def setHws (n : Nat) (h : Hws) (s : State) : State := { s with hws := Mem.write (fun _ => {}) s.hws n h }

/-! ### Registers (R165, R166, R195) -/

def hwsR (s : State) (n o : Nat) : W32 := cfgR s (hwsA n + o)
def hwsG2En (s : State) (n : Nat) : Bool := bit (hwsR s n 0) 0
def hwsG1En (s : State) (n : Nat) : Bool := bit (hwsR s n 0) 1
def hwsCapm (s : State) (n : Nat) : Nat := bits (hwsR s n 0) 27 24
def hwsNfShift (s : State) (n : Nat) : Nat := bits (hwsR s n 0) 23 20
def hwsLineDly (s : State) (n : Nat) : Nat := bits (hwsR s n 0) 19 8
def hwsPhyF : Nat := 0x004
def hwsPwrF : Nat := 0x024
def hwsLinkF : Nat := 0x104
/-- Physical layer counters in the order of R165. -/
def hwsPhyCnt (i : Nat) : Nat := 0x040 + 4 * i
/-- Link counters in the order of R195. -/
def hwsLinkCnt (i : Nat) : Nat := 0x140 + 4 * i
def hwsCount (n o : Nat) (s : State) : State := bump (hwsA n + o) s
def hwsRaise (n o i : Nat) (s : State) : State := raise (hwsA n + o) i s
def hwsOff (s : State) (n k : Nat) : Bool := bit (hwsR s n (0x400 + 4 * (k - 10))) 7

/-! ### Tone maps (R151) -/

/-- Bits per data carrier of a map, with masked carriers off. -/
def mapBits (s : State) (n : Nat) (m : TMap) : List Nat :=
  (dataCarriers.zip m.codes).map (fun p => if hwsOff s n p.1 then 0 else modBits p.2)

/-- Tone map 0, ROBUST. -/
def robustMap : TMap := { rate := 0, codes := List.replicate 136 2 }

/-- Tone map m of a port. -/
def portMap (s : State) (n m : Nat) : TMap :=
  if m = 0 then robustMap else Mem.read (fun _ => {}) (getHws s n).maps m

/-- NCBPS of a map. -/
def mapNcbps (s : State) (n : Nat) (m : TMap) : Nat := (mapBits s n m).sum

/-- A map is valid when it holds no reserved code and NCBPS ≥ 12. -/
def mapValid (s : State) (n : Nat) (m : TMap) : Bool :=
  m.codes.length = 136 && m.codes.all (fun c => c ≤ 4) && decide (12 ≤ mapNcbps s n m)

/-! ### Header fields (R147) -/

def hNode (h : BitVec 62) : Nat := bits h 61 56
def hType (h : BitVec 62) : Nat := bits h 55 52
def hLen (h : BitVec 62) : Nat := bits h 51 40
def hTmap (h : BitVec 62) : Nat := bits h 39 36
def hSeq (h : BitVec 62) : Nat := bits h 35 32
def hAux (h : BitVec 62) : Nat := bits h 31 8

/-- A stamp on the time now in force, where a step has come after it (R53). -/
def presentTime (s : State) (x : Sample) : W64 :=
  match s.tb.lastStep with
  | some (old, new) => if x.era = s.tb.stepCnt then x.stamp else x.stamp + (new - old)
  | none => x.stamp

/-! ### Transmission (R143, R145, R160) -/

/-- Length of a packet from its first sample to the end of its taper tail, in ticks (R142, R145). -/
def packetTicks (s : State) (n : Nat) (h : BitVec 62) : Nat :=
  let m := portMap s n (hTmap h)
  2304 * (5 + dataSymbols m.rate (mapNcbps s n m) (hLen h)) + 64

/-- A packet goes out: coded, counted, and a lock in progress dropped without any count (R143, R149, R150, R160). -/
def transmit (n : Nat) (p : HPkt) (s : State) : State :=
  let m := portMap s n (hTmap p.hdr)
  let b := mapBits s n m
  let k := b.sum
  let sym := dataSymbols m.rate k (hLen p.hdr)
  let hl := symbolLabels ((dataCarriers.map (fun c => if hwsOff s n c then 0 else 1))) (headerField p.hdr)
  let labels := hl :: (if hLen p.hdr = 0 then [] else packetLabels b k (dataField m.rate k (hNode p.hdr) p.payload) sym)
  let g := getHws s n
  hwsCount n (hwsPhyCnt 7) (setHws n
    { g with
      lock := none, txPkt := p, txLabels := labels
      txEnd := presentTime s p.stamp - 4608 + BitVec.ofNat 64 (packetTicks s n p.hdr) } s)

/-- PACKET_TRANSMIT (R143): the oldest packet the link has scheduled. -/
def execPacketTransmit (n : Nat) (s : State) : Host.Outcome State Fault Refusal := live s <|
  let g := getHws s n
  match g.txQueue with
  | p :: rest =>
    if n < 8 ∧ s.power.cur = .s0 ∧ hwsG2En s n then .next (transmit n p (setHws n { g with txQueue := rest } s)) else .next s
  | [] => .next s

/-! ### Reception (R153–R159) -/

/-- The reference instant of a received packet, line delay taken out (R146). -/
def rxStamp (s : State) (n : Nat) : Sample :=
  let x := stampNow s
  { x with stamp := x.stamp - BitVec.ofNat 64 (hwsLineDly s n) }

/-- The receiver hunts: no own transmission on the pair, nor within 2 µs of its end (R153, R160). -/
def canReceive (s : State) (n : Nat) : Bool :=
  decide (n < 8 ∧ s.power.cur = .s0) && hwsG2En s n &&
  decide (0 ≤ (ticks s - (getHws s n).txEnd - 800).toInt)

/-- LOCK (R153): M(n) in 2^−16, the margin of E(n) over the floor and the lock metric in 0.25 dB. -/
def execLock (n mq : Nat) (margin metric : Int) (s : State) : Host.Outcome State Fault Refusal := live s <|
  let g := getHws s n
  if canReceive s n && g.lock.isNone && decide (bits (hwsR s n 8) 31 16 ≤ mq) && decide ((bits (hwsR s n 8) 7 0 : Int) < margin) then
    .next (hwsCount n (hwsPhyCnt 0) (setHws n { g with lock := some { metric := metric, stamp := rxStamp s n } } s))
  else .next s

/-- Peaks still inside the 576-sample buffer (R159). -/
def livePeaks (s : State) (g : Hws) : List (Int × Sample) :=
  g.peaks.filter (fun p => decide ((ticks s - presentTime s p.2).toNat ≤ 4608))

/-- The peak with the greatest metric. -/
def bestPeak : List (Int × Sample) → Option (Int × Sample)
  | [] => none
  | p :: ps => match bestPeak ps with | some q => if p.1 < q.1 then some q else some p | none => some p

/-- A false lock: re-locks to the best buffered peak, or hunts (R159). -/
def falseLock (n : Nat) (s : State) : State :=
  let g := getHws s n
  let ps := livePeaks s g
  let s := hwsRaise n hwsPhyF 4 (hwsCount n (hwsPhyCnt 6) s)
  match bestPeak ps with
  | some p => setHws n { g with lock := some { metric := p.1, stamp := p.2 }, peaks := ps.filter (fun q => q ≠ p) } s
  | none => setHws n { g with lock := none, peaks := [] } s

/-- A header, CRC-24 or tone map error: its counter and ERRF (R148, R155, R166). -/
def rxError (n i : Nat) (s : State) : State := hwsRaise n hwsPhyF 2 (hwsCount n (hwsPhyCnt i) s)

/-- NODE values that R147 reserves. -/
def nodeReserved (h : BitVec 62) : Bool := decide (32 ≤ hNode h ∧ hNode h ≤ 62)

/-- A TYPE that a node may send, with a NODE of its own (R170). -/
def typeFromNode (h : BitVec 62) : Bool :=
  (hType h = 1 || hType h = 3 || hType h = 8) && decide (1 ≤ hNode h ∧ hNode h ≤ 31)

/-- A good packet ends the lock and reaches the link (R155, R170). -/
def packetGood (n : Nat) (l : HLock) (h : BitVec 62) (payload : List (BitVec 8)) (snr : List Int) (s : State) : State :=
  let g := getHws s n
  let s := setHws n { g with lock := none } (hwsCount n (hwsPhyCnt 1) s)
  if typeFromNode h then
    let g := getHws s n
    setHws n { g with inbox := g.inbox ++ [{ hdr := h, payload := payload, stamp := l.stamp, snr := snr, captured := l.captured }] } s
  else rxError n 2 s

/-- HEADER (R148, R157, R159): the 62 decoded bits, the level latched at the sync word, and the SNR of each used carrier. -/
def execHeader (n : Nat) (h : BitVec 62) (rssi : BitVec 16) (snr : List Int) (s : State) : Host.Outcome State Fault Refusal := live s <|
  let g := getHws s n
  match g.lock with
  | some l =>
    if l.hdr.isSome then .next s
    else if (headerCrc h).toNat ≠ bits h 7 0 then .next (falseLock n (rxError n 2 s))
    else if nodeReserved h then .next (rxError n 2 (setHws n { g with lock := none } s))
    else
      let l := { l with hdr := some h }
      let s := setHws n { g with lock := some l, rssi := rssi, rssiNode := hNode h } s
      if hLen h = 0 then .next (packetGood n l h [] snr s) else .next s
  | none => .next s

/-- RECEIVER_CAPTURE (R158): a new sync-word peak during a lock. -/
def execReceiverCapture (n : Nat) (metric : Int) (s : State) : Host.Outcome State Fault Refusal := live s <|
  let g := getHws s n
  match g.lock with
  | some l =>
    if l.metric + 4 * hwsCapm s n ≤ metric then
      let passed := l.hdr.isSome
      let s := setHws n { g with lock := some { metric := metric, stamp := rxStamp s n, captured := passed } } s
      if passed then .next (hwsRaise n hwsPhyF 3 (hwsCount n (hwsPhyCnt 5) s))
      else .next (hwsRaise n hwsPhyF 4 (hwsCount n (hwsPhyCnt 6) s))
    else .next (setHws n { g with peaks := (metric, rxStamp s n) :: livePeaks s g } s)
  | none => .next s

/-- Whether a header names a valid map: map 0, or the sending node's own (R148, R185). -/
def mapAccepted (s : State) (n : Nat) (h : BitVec 62) : Bool :=
  let g := getHws s n
  let node := Mem.read (fun _ => ({} : HNode)) g.nodes (hNode h)
  mapValid s n (portMap s n (hTmap h)) &&
  (hTmap h = 0 || hTmap h = node.tmap || (match g.tmchg with | some (m, old, new, _) => m = hNode h && (hTmap h = old || hTmap h = new) | none => false))

/-- A CRC-24 failure is remembered for its node (R184). -/
def noteCrcFail (n m : Nat) (s : State) : State :=
  let g := getHws s n
  let x := Mem.read (fun _ => ({} : HNode)) g.nodes m
  setHws n { g with nodes := Mem.write (fun _ => {}) g.nodes m { x with crcFails := (g.cycle :: x.crcFails).take 2 } } s

/-- PACKET_RECEIVED (R148, R149, R155): the decoded data field, payload and CRC-24 still scrambled, and the SNR per carrier. -/
def execPacketReceived (n : Nat) (data : List (BitVec 8)) (snr : List Int) (s : State) : Host.Outcome State Fault Refusal := live s <|
  let g := getHws s n
  match g.lock with
  | some l =>
    match l.hdr with
    | some h =>
      let bs := bytesOfBits (scramble (hNode h) (byteBits data))
      let payload := bs.take (hLen h)
      if data.length ≠ hLen h + 3 then .next s
      else if !mapAccepted s n h then .next (rxError n 4 (setHws n { g with lock := none } s))
      else if (crc24 payload).toNat ≠ ofBits (byteBits (bs.drop (hLen h))) then
        .next (rxError n 3 (noteCrcFail n (hNode h) (setHws n { g with lock := none } s)))
      else .next (packetGood n l h payload snr s)
    | none => .next s
  | none => .next s

/-! ### Noise floor (R157) -/

/-- One level as a 16-bit register value; a zero power has no logarithm and gives a free value. -/
def levelReg (x : Rat) (g : Nat) (s : State) : BitVec 16 × State :=
  if 0 < x then (BitVec.ofInt 16 (levelOf x g), s)
  else let d := draw s; ((Config.freeWord d.1).setWidth 16, d.2)

/-- A_k and NF_k of one entry take a window's bin power. -/
def noiseBin (n gain j : Nat) (p : Rat) (s : State) : State :=
  let g := getHws s n
  let a0 := Mem.read (fun _ => (0 : Rat)) g.noise j
  let a := if g.noiseOn then a0 + (p - a0) / 2 ^ hwsNfShift s n else p
  let v := levelReg a gain s
  let g := getHws v.2 n
  setHws n { g with noise := Mem.write (fun _ => 0) g.noise j a, nf := Mem.write (fun _ => 0) g.nf j v.1 } v.2

/-- NOISE_FLOOR_WINDOW (R157): Pbin_k over P_FS of the 144 used carriers, and the AGC gain in 0.75 dB steps. -/
def execNoiseFloorWindow (n : Nat) (bins : List Rat) (gain : Nat) (s : State) : Host.Outcome State Fault Refusal := live s <|
  let g := getHws s n
  if !canReceive s n || g.lock.isSome || decide (bins.length ≠ 144) then .next s
  else
    let s := ((List.range 144).zip bins).foldl (fun s p => noiseBin n gain p.1 p.2 s) s
    let sum := ((List.range 144).map (fun j => Mem.read (fun _ => (0 : Rat)) (getHws s n).noise j)).sum
    let v := levelReg sum gain s
    .next (setHws n { getHws v.2 n with nfWb := v.1, noiseOn := true } v.2)

/-! ### Power feed (R162–R164) -/

def pwrCtrl (s : State) (n : Nat) : W32 := hwsR s n 0x20
def pwrTime (s : State) (n : Nat) : W32 := hwsR s n 0x34

/-- The feed starts: step 1 of R162. -/
def feedStart (n : Nat) (s : State) : State :=
  setHws n { getHws s n with pwren := true, pstate := 1, armed := false, stepRun := 0 } s

/-- The feed is off. -/
def feedOff (n : Nat) (s : State) : State :=
  setHws n { getHws s n with pwren := false, pstate := 0, armed := false, stepRun := 0 } s

/-- INRUSH_END (R162 step 3): `code` is the present ISNS reading. -/
def execInrushEnd (n code : Nat) (s : State) : Host.Outcome State Fault Refusal := live s <|
  let g := getHws s n
  if n < 8 ∧ g.pstate = 1 ∧ code < 1024 then
    .next (setHws n { g with pstate := 2, base := code, code := code, onSince := ticks s } s)
  else .next s

/-- A trunk event: as a port status event of SRCADDR 8 + n (R201, R360). -/
def trunkEvent (kind node n : Nat) (x : Sample) (s : State) : State := portEvent kind node (8 + n) x [] s

/-- RETRY_RESTART (R163). -/
def execRetryRestart (n : Nat) (s : State) : Host.Outcome State Fault Refusal := live s <|
  if n < 8 ∧ (getHws s n).pstate = 3 then .next (feedStart n s) else .next s

/-- The run of consecutive shorts with this one (R163). -/
def shortRunNext (s : State) (g : Hws) : Nat :=
  if (ticks s - g.onSince).toNat ≤ 400000000 then g.shortRun + 1 else 1

/-- ISNS current in mA: round(code × ISNS_GAIN / 1,023) (R162). -/
def isnsMa (s : State) (n : Nat) : Nat :=
  (2 * ((getHws s n).code * bits (hwsR s n 0x2C) 15 0) + 1023) / 2046

end Sys2Proof.Machine
end

