-- ==== Sys2Proof/Machine/TimeBase.lean ====
section
/-! DEFINITION. Device time: counting, trim, hand-over, discipline, steps and epochs (R37–R57). -/

namespace Sys2Proof.Machine
open Sys2Proof

/-! ### Rounding -/

/-- To the nearest integer, ties away from zero (R39). -/
def roundAway (q : Rat) : Int := if 0 ≤ q then (q + 1 / 2).floor else -((-q + 1 / 2).floor)

/-- To the nearest integer where the spec names no rule for a tie: a tie takes either neighbour, a free value. -/
def roundNear (q : Rat) (s : State) : Int × State :=
  let f := (q + 1 / 2).floor
  if (f : Rat) - 1 / 2 = q then let d := draw s; (f - ((Config.freeWord d.1).toNat % 2 : Nat), d.2) else (f, s)

/-! ### TB_CTRL (R59) -/

/-- SRC in force: a secondary uses 5 (R48, R57). -/
def tbSrc (s : State) : Nat := if isSecondary s then 5 else bits (cfgR s tbCtrlA) 2 0
def tbLockw (s : State) : Nat := bits (cfgR s tbCtrlA) 7 4
def tbTc (s : State) : Nat := bits (cfgR s tbCtrlA) 11 8
def tbMissN (s : State) : Nat := bits (cfgR s tbCtrlA) 15 12
def tbReacq (s : State) : Nat := bits (cfgR s tbCtrlA) 19 16
def tbHostTo (s : State) : Nat := bits (cfgR s tbCtrlA) 23 20
def tbPpsOfs (s : State) : Nat := bits (cfgR s tbPpsOfsA) 28 0

/-- Replaces the time base part of the state. -/
def setTb (b : TimeBase) (s : State) : State := { s with tb := b }

/-! ### Always-on counting (R39) -/

/-- INC_Q, in units of 2^−32 tick. -/
def incQ (s : State) : Int := 52428800000000 + roundAway ((390625 / 32 : Rat) * s.tb.trim.toInt)

/-- TRIM_RECOMPUTATION (R40): `delta` is the fast-counter advance over 4,096 crystal edges, in 1/8 ticks. -/
def execTrimRecomputation (delta : Nat) (s : State) : Host.Outcome State Fault Refusal := live s <|
  if !fastRuns s then .next s
  else
    let r := roundNear (((delta : Nat) : Rat) / 400000000 * 2 ^ 32 - 2 ^ 32) s
    let v := r.1
    let s := r.2
    let lim := decide (v < -8388607) || decide (8388607 < v)
    let w := max (-8388607) (min 8388607 v)
    let s := setTb { s.tb with trim := BitVec.ofInt 24 w, trimLim := lim } s
    .next (if lim then raise tbLeafA 1 s else s)

/-- WOSC_CALIBRATION (R41): `n` WOSC cycles in 4,096 crystal cycles. -/
def execWoscCalibration (n : Nat) (s : State) : Host.Outcome State Fault Refusal := live s <|
  if s.power.cur = .s3 ∨ n = 0 then .next s
  else
    let v := roundFree (4096 * (incQ s : Rat) * 2 ^ 24 / (n * 2 ^ 32)) s
    .next (setTb { v.2.tb with woscPer := BitVec.ofInt 32 v.1 } v.2)

/-- HAND_OVER (R43, R44): `d` is the interval from the latest crystal edge to FCLK edge F, in 1/8 ticks. -/
def execHandOver (d : Nat) (s : State) : Host.Outcome State Fault Refusal := live s <|
  if fastRuns s ∨ s.power.wakeReq = 0 then .next s
  else
    let a : Rat := (s.tb.edge.toNat : Rat) / 2 ^ 32 + (d : Rat) / 8
    let n := roundNear a s
    let r := n.1
    let v := roundFree ((a - r) * 8) n.2
    .next (setTb
      { v.2.tb with
        fast := BitVec.ofInt 96 ((r + 32) * 2 ^ 32)
        handover := BitVec.ofInt 8 v.1
        handed := true } v.2)

/-! ### Epochs (R55) -/

/-- A bit-47 boundary is recorded: batches close with EPOCH, then every ring in ON takes an epoch record. -/
def recordEpoch (t : W64) (s : State) : State :=
  let s := closeAllBatches 5 (setTb { s.tb with epochDue := none } s)
  forEach (ringsOn s) (fun r s => keepRec r (epochRec s r (if short t = 0 then 0 else 1) t) s) s

/-- EPOCH (R55): a boundary that has passed is recorded, in S0 and S1 or on the next wake. -/
def execEpoch (s : State) : Host.Outcome State Fault Refusal := live s <|
  match s.tb.epochDue with
  | some t => if s.power.cur = .s0 ∨ s.power.cur = .s1 then .next (recordEpoch t s) else .next s
  | none => .next s

/-- A boundary of bit 47 between two values that differ by ticking (R55). -/
def epochBetween (old new : W64) : Option W64 :=
  if bit old 47 = bit new 47 then none else some ((new >>> 47) <<< 47)

/-- One cycle of the counting domain: the fast counter (R37), or one crystal edge of the accumulator (R39). -/
def countTime (s : State) : State :=
  if fastRuns s then
    setTb { s.tb with fast := s.tb.fast + BitVec.ofInt 96 (2 ^ 32 + s.tb.steer.toInt), cycles := s.tb.cycles + 1 } s
  else
    let a := s.tb.acc + BitVec.ofInt 96 (incQ s)
    setTb { s.tb with acc := a, edge := a, woscN := 0 } s

/-- Device time advances by one control cycle, and a bit-47 boundary it crosses is recorded or held (R37, R39, R55). -/
def tickTime (s : State) : State :=
  let t := ticks s
  let s := countTime s
  match epochBetween t (ticks s) with
  | some b =>
    if s.power.cur = .s0 ∨ s.power.cur = .s1 then recordEpoch b s else setTb { s.tb with epochDue := some b } s
  | none => s

/-! ### The discipline loop (R49–R51) -/

/-- s of R50, in parts per one, limited to ±200 ppm, and whether it was. -/
def clampSteer (v : Rat) : Rat × Bool :=
  if v < -(200 / 1000000) then (-(200 / 1000000), true)
  else if 200 / 1000000 < v then (200 / 1000000, true) else (v, false)

/-- TB_STEER and SLEWLIM for a steering of `q` parts per one (R50). -/
def steerTo (q : Rat) (s : State) : State :=
  let v := clampSteer q
  let r := roundNear (v.1 * 2 ^ 32) s
  setTb { r.2.tb with steer := BitVec.ofInt 32 r.1, slewLim := v.2 } r.2

/-- The loop changes state: its leaf flag, journal entry and quality (R51). Entry into HOLDOVER drops the phase
term at once: TB_STEER becomes that of f alone (R50, R51). -/
def setLoop (new : Loop) (s : State) : State :=
  let old := s.tb.loop
  if old = new then s
  else
    let held := if new = .holdover then true else if new = .locked then false else s.tb.heldOver
    let s := setTb { s.tb with loop := new, heldOver := held, good := 0 } s
    let s := if new = .holdover then bump tbHoldCntA (steerTo s.tb.f s) else s
    journal 0x20 (stampNow s) [pack [(loopCode old, 2), (loopCode new, 0)]] (icuLatch 124 (raise tbLeafA 0 s))

/-- The loop's computation of R50: phase `e` in ticks, `dt` in seconds, `y0` when the interval gives the frequency. -/
def steerBy (e : Int) (dt : Rat) (y0 : Option Rat) (s : State) : State :=
  let p : Rat := (e : Rat) / 400000000
  let tc : Rat := 2 ^ tbTc s
  let f := match y0 with
    | some y => -y
    | none => s.tb.f - p * dt / (4 * tc * tc)
  steerTo (if s.tb.loop = .holdover then f else f - p / tc) (setTb { s.tb with f := f } s)

/-- The transitions of R51 at a valid measurement; `inside` tells a phase within a limit of 2^n ticks. -/
def loopMeasured (inside : Nat → Bool) (s : State) : State :=
  let s := setTb { s.tb with misses := 0 } s
  match s.tb.loop with
  | .acquiring =>
    if inside (tbLockw s) then
      if tbReacq s ≤ s.tb.good + 1 then setLoop .locked s else setTb { s.tb with good := s.tb.good + 1 } s
    else setTb { s.tb with good := 0 } s
  | .locked => if inside (tbLockw s + 2) then s else setLoop .acquiring s
  | .holdover =>
    if tbReacq s ≤ s.tb.good + 1 then setLoop .acquiring s else setTb { s.tb with good := s.tb.good + 1 } s
  | .none => s

/-- TB_ERR: signed ticks, saturating at ±(2^31 − 1) (R58). -/
def satErr (e : Int) : W32 := BitVec.ofInt 32 (max (-(2 ^ 31 - 1)) (min (2 ^ 31 - 1) e))

/-- Δ of R50 in seconds. Before the first valid measurement the spec states none: a free value. -/
def sinceMeasured (s : State) : Rat × State :=
  match s.tb.lastMeas with
  | some t => (((ticks s - t).toNat : Rat) / 400000000, s)
  | none => let d := draw s; (((Config.freeWord d.1).toNat : Rat) / 400000000, d.2)

/-- A valid measurement of phase `e` (R50, R51); one whose interval holds T_apply is discarded (R54). -/
def phaseMeasured (e : Int) (y0 : Option Rat) (s : State) : State :=
  if s.tb.stepInInterval then setTb { s.tb with stepInInterval := false } s
  else
    let d := sinceMeasured s
    let s := steerBy e d.1 y0 d.2
    let s := setTb { s.tb with err := satErr e, lastMeas := some (ticks s) } s
    loopMeasured (fun n => decide (e.natAbs ≤ 2 ^ n)) s

/-- A miss of the loop (R49, R51). -/
def loopMissed (s : State) : State :=
  let s := bump tbMissCntA (setTb { s.tb with misses := s.tb.misses + 1, good := 0 } s)
  match s.tb.loop with
  | .acquiring | .locked => if tbMissN s ≤ s.tb.misses then setLoop .holdover s else s
  | _ => s

/-- e of R49, folded into −200,000,000 … +199,999,999 ticks. -/
def ppsPhase (c : W64) (ofs : Nat) : Int := ((((c.toNat : Int) - ofs) + 200000000) % 400000000) - 200000000

/-- An edge is valid when it is the first, or within X ± 40,000 ticks (R49). -/
def ppsValid (s : State) (c : W64) : Bool :=
  match s.tb.expect with
  | none => true
  | some x => decide ((c - x).toInt.natAbs ≤ 40000)

/-- What a PPS_IN rising edge does in the discipline loop (R48, R49). -/
def ppsMeasure (s : State) : State :=
  if !fastRuns s ∨ (tbSrc s ≠ 1 ∧ tbSrc s ≠ 3) then s
  else
    let c := ticks s
    if !ppsValid s c then s
    else
      let s := icuLatch 123 (setTb { s.tb with expect := some (c + 400000000) } s)
      let y0 := if tbSrc s = 3 ∧ s.tb.refPresent then some s.tb.refY0 else none
      let s := if tbSrc s = 3 then setTb { s.tb with refMiss := !s.tb.refPresent } s else s
      phaseMeasured (ppsPhase c (tbPpsOfs s)) y0 s

/-- REF_INTERVAL (R48, R49): FCLK cycles over 10,000,000 REF_IN cycles, and whether REF_IN was present throughout. -/
def execRefInterval (cycles : Nat) (present : Bool) (s : State) : Host.Outcome State Fault Refusal := live s <|
  let y0 : Rat := (cycles : Rat) / 400000000 - 1
  if !fastRuns s then .next s
  else if tbSrc s = 3 then .next (setTb { s.tb with refY0 := y0, refPresent := present } s)
  else if tbSrc s ≠ 2 then .next s
  else if s.tb.stepInInterval then .next (setTb { s.tb with stepInInterval := false } s)
  else if !present then .next (loopMissed s)
  else .next (loopMeasured (fun _ => true) (steerBy 0 0 (some y0) (setTb { s.tb with lastMeas := some (ticks s) } s)))

/-- A TB_ADJ write (R49, R58): accepted only when SRC = 4. -/
def writeTbAdj (e : W32) (s : State) : State :=
  if tbSrc s ≠ 4 then werr s
  else if !fastRuns s then s
  else phaseMeasured e.toInt none (setTb { s.tb with hostRef := ticks s } s)

/-- TB_ADJ (R49). A write in sleep wakes the hub, which makes no measurement there. -/
def execTbAdj (path : Path) (e : W32) (s : State) : Host.Outcome State Fault Refusal := live s <|
  .next (writeTbAdj e (pathWake path s))

/-- The instant after which a missing measurement is a miss (R49, R477). -/
def missDeadline (s : State) : Option W64 :=
  match tbSrc s with
  | 1 | 3 => s.tb.expect.map (· + 40000)
  | 4 => some (s.tb.hostRef + BitVec.ofNat 64 (2 ^ tbHostTo s * 400000000))
  | 5 => s.bgt.lastTime.map (· + 800000)
  | _ => none

/-- The reference of the next interval after a miss (R49, R477). -/
def afterMiss (s : State) : State :=
  match tbSrc s with
  | 1 | 3 => setTb { s.tb with expect := s.tb.expect.map (· + 400000000) } s
  | 4 => setTb { s.tb with hostRef := ticks s } s
  | 5 => { s with bgt := { s.bgt with lastTime := some (ticks s) } }
  | _ => s

/-- A missing measurement is a miss, but for one whose interval holds T_apply: that counts as neither (R49, R54). -/
def missCounted (s : State) : State :=
  if s.tb.stepInInterval then setTb { s.tb with stepInInterval := false } s else loopMissed s

/-- MISS (R49). -/
def execMiss (s : State) : Host.Outcome State Fault Refusal := live s <|
  match missDeadline s with
  | some t => if fastRuns s && reached s t then .next (afterMiss (missCounted s)) else .next s
  | none => .next s

/-! ### Steps (R52–R54) -/

/-- TB_CMD with a step operation (R52). Only the primary or a single hub accepts one; in sleep it wakes the hub (R54). -/
def requestStep (path : Path) (relative : Bool) (s : State) : State :=
  if isSecondary s then werr s
  else
    let s := pathWake path s
    let t := ticks s + 4096
    let s := setTb { s.tb with step := some { relative := relative, value := s.tb.setValue, tApply := t } } s
    bgtSendAll (ctrlFrame s 7 ctrlStep (b2n relative)
      [short s.tb.setValue, pack [(s.tb.setValue.toNat / 2 ^ 48, 0)], short t, pack [(t.toNat / 2 ^ 48, 0)]]) s

/-- STEP_ABS (R52). -/
def execStepAbs (path : Path) (s : State) : Host.Outcome State Fault Refusal := live s <| .next (requestStep path false s)

/-- STEP_REL (R52). -/
def execStepRel (path : Path) (s : State) : Host.Outcome State Fault Refusal := live s <| .next (requestStep path true s)

/-- Instants that intervals are measured from keep their distance to device time across a step. -/
def shiftInstants (d : W64) (s : State) : State :=
  { s with
    rings := Mem.mapVals (fun _ => {}) (fun v => { v with fullSince := v.fullSince + d }) s.rings
    cvps := Mem.mapVals (fun _ => {}) (fun v => { v with goneAt := v.goneAt + d }) s.cvps
    icu := Mem.mapVals (fun _ => {}) (fun v => { v with lastClaim := v.lastClaim.map (· + d) }) s.icu
    sbps := Mem.mapVals (fun _ => {}) (fun v => { v with lastAlert := v.lastAlert.map (· + d) }) s.sbps
    hws := Mem.mapVals (fun _ => {}) (fun v => { v with onSince := v.onSince + d, txEnd := v.txEnd + d, cycStart := v.cycStart + d }) s.hws
    mgt := { s.mgt with wdogAt := s.mgt.wdogAt + d }
    hl := { s.hl with busyAt := s.hl.busyAt + d, twtHeld := s.hl.twtHeld.map (fun p => (p.1, p.2 + d)) }
    power := { s.power with idleSince := s.power.idleSince.map (· + d) }
    bgt := { s.bgt with lastTime := s.bgt.lastTime.map (· + d),
                        waiting := s.bgt.waiting.map (fun q => { q with since := q.since + d }) }
    tb := { s.tb with
            expect := s.tb.expect.map (· + d)
            hostRef := s.tb.hostRef + d
            lastMeas := s.tb.lastMeas.map (· + d) } }

/-- The new time of a pending step at its T_apply (R52). -/
def stepTarget (p : PendingStep) : W64 := if p.relative then p.tApply + p.value else p.value

/-- A pending step takes effect (R53). -/
def applyStep (p : PendingStep) (s : State) : State :=
  let new := stepTarget p
  let d := new - p.tApply
  let s := closeAllBatches 4 s
  let s := shiftInstants d s
  let s := setTb
    { s.tb with
      fast := s.tb.fast + ((d.setWidth 96) <<< 32)
      step := none
      lastStep := some (p.tApply, new)
      stepInInterval := true
      stepCnt := s.tb.stepCnt + 1 } s
  let s := forEach (ringsOn s) (fun r s => keepRec r (stepRec s r p.tApply new) s) s
  journal 0x21 { stamp := new, qual := qualNow s, era := s.tb.stepCnt }
    [short p.tApply, pack [(p.tApply.toNat / 2 ^ 48, 16), (new.toNat / 2 ^ 48, 0)], s.tb.stepCnt.setWidth 48]
    (raise tbLeafA 2 s)

/-- STEP_APPLY (R53): device time reaches T_apply. -/
def execStepApply (s : State) : Host.Outcome State Fault Refusal := live s <|
  match s.tb.step with
  | some p => if fastRuns s && reached s p.tApply then .next (applyStep p s) else .next s
  | none => .next s

end Sys2Proof.Machine
end

