-- ==== Sys2Proof/Machine/Hawser.lean ====
section
/-! DEFINITION. The trunk ports' link: cycles, joining, grants, data, tone maps and generation 1 polling (R167–R196). -/

namespace Sys2Proof.Machine
open Sys2Proof

/-! ### Configuration -/

def linkCtrl (s : State) (n : Nat) : W32 := hwsR s n 0x100
def linkEn (s : State) (n : Nat) : Bool := bit (linkCtrl s n) 0
def linkCycTmr (s : State) (n : Nat) : Nat := bits (linkCtrl s n) 26 22
/-- J of R168. -/
def linkJ (s : State) (n : Nat) : Nat := bits (linkCtrl s n) 21 19
def linkLossN (s : State) (n : Nat) : Nat := bits (linkCtrl s n) 15 8
def linkLoss1N (s : State) (n : Nat) : Nat := bits (linkCtrl s n) 7 4
def joinScanLen (s : State) (n : Nat) : Nat := bits (hwsR s n 0x10C) 31 16
def joinDiv (s : State) (n : Nat) : Nat := bits (hwsR s n 0x10C) 7 0
def tmWin (s : State) (n : Nat) : Nat := bits (hwsR s n 0x110) 11 8
def tmMargin (s : State) (n : Nat) : Nat := bits (hwsR s n 0x110) 7 0

def getNode (s : State) (n m : Nat) : HNode := Mem.read (fun _ => {}) (getHws s n).nodes m
def setNode (n m : Nat) (x : HNode) (s : State) : State :=
  setHws n { getHws s n with nodes := Mem.write (fun _ => {}) (getHws s n).nodes m x } s
def getNode1 (s : State) (n a : Nat) : HNode1 := Mem.read (fun _ => {}) (getHws s n).nodes1 a
def setNode1 (n a : Nat) (x : HNode1) (s : State) : State :=
  setHws n { getHws s n with nodes1 := Mem.write (fun _ => {}) (getHws s n).nodes1 a x } s

/-! ### Bookings of the image (R181, R194, R436) -/

/-- The TRKNODE entry of a node; empty when the node is not expected. -/
def bookOf (s : State) (n m : Nat) : List (BitVec 8) := listBytes s 2 (32 * n + m)
def expected (s : State) (n m : Nat) : Bool := decide ((bookOf s n m).length = 40)
def expectedNodes (s : State) (n : Nat) : List Nat := ((List.range 32).filter (fun m => decide (1 ≤ m))).filter (expected s n)
def bookUid (s : State) (n m : Nat) : W64 := BitVec.ofNat 64 (beNat ((bookOf s n m).take 8))
def bookLat (s : State) (n m : Nat) : Nat := beNat (((bookOf s n m).drop 8).take 4)
def bookMod (s : State) (n m : Nat) : Nat := beNat (((bookOf s n m).drop 12).take 1)
def bookRate (s : State) (n m : Nat) : Nat := beNat (((bookOf s n m).drop 13).take 1)
def bookGrants (s : State) (n m : Nat) : Nat := beNat (((bookOf s n m).drop 14).take 1)
def bookPer (s : State) (n m g : Nat) : Nat := beNat (((bookOf s n m).drop (16 + 6 * g)).take 1)
def bookRetry (s : State) (n m g : Nat) : Bool := decide (beNat (((bookOf s n m).drop (17 + 6 * g)).take 1) = 1)
def bookChmap (s : State) (n m g : Nat) : W32 := BitVec.ofNat 32 (beNat (((bookOf s n m).drop (18 + 6 * g)).take 4))

/-- The booked map: one modulation on every carrier that is not masked. -/
def bookedMap (s : State) (n m : Nat) : TMap :=
  { rate := bookRate s n m, codes := List.replicate 136 (bookMod s n m) }

/-- Capacity of a map: NCBPS × R, in twelfths of a bit. -/
def mapCapacity (s : State) (n : Nat) (m : TMap) : Nat :=
  mapNcbps s n m * (match m.rate with | 0 => 6 | 1 => 8 | 2 => 9 | _ => 10)

/-- Samples per grant cycle of a node channel (R194); a channel that no descriptor names has none. -/
def grantSamples (s : State) (n m ch per : Nat) : Nat :=
  match chanOfSource s 3 (1024 * n + 32 * m + ch) with
  | some c =>
    let p := chNomper s c
    (2 ^ per * 400080 * 256 + p - 1) / max 1 p
  | none => 0

/-- Node channels of a grant. -/
def grantChans (s : State) (n m g : Nat) : List Nat := (List.range 32).filter (fun c => bit (bookChmap s n m g) c)

/-- MAXLEN (R194). -/
def grantMaxlen (s : State) (n m g : Nat) : Nat :=
  9 + ((grantChans s n m g).map (fun c => 28 + 3 * grantSamples s n m c (bookPer s n m g))).sum

/-- L units of a primary slot (R194). -/
def grantUnits (s : State) (n m g : Nat) : Nat :=
  let b := bookedMap s n m
  let sym := dataSymbols b.rate (mapNcbps s n b) (grantMaxlen s n m g)
  (576 * (5 + sym) + 266 + 624) / 625

/-- A grant as placed in the cycles (R177, R181). -/
structure Placed where
  node : Nat
  g : Nat
  per : Nat
  phase : Nat
  start : Nat
  len : Nat
  /-- First unit of the retry slot, 255 for none. -/
  rstart : Nat
  deriving DecidableEq, Repr, Inhabited

/-- Units that a placed grant holds in its cycles: primary slot, and retry slot of 6 + L. -/
def placedUnits (p : Placed) : List Nat :=
  (List.range p.len).map (· + p.start) ++
  (if p.rstart = 255 then [] else (List.range (6 + p.len)).map (· + p.rstart))

/-- Two placements clash in some cycle. -/
def clash (p q : Placed) : Bool :=
  decide (p.phase % 2 ^ min p.per q.per = q.phase % 2 ^ min p.per q.per) &&
  (placedUnits p).any (fun u => (placedUnits q).contains u)

/-- The first placement of a grant: lowest PHASE, then lowest START (R181). -/
def placeOne (s : State) (n m g : Nat) (held : List Placed) : Option Placed :=
  let len := grantUnits s n m g
  let per := bookPer s n m g
  (List.range (2 ^ per)).findSome? (fun ph =>
    ((List.range 160).map (fun u =>
      ({ node := m, g := g, per := per, phase := ph, start := u, len := len,
         rstart := if bookRetry s n m g then u + len + 4 else 255 } : Placed))).find? (fun p =>
      decide (24 + 8 * linkJ s n ≤ p.start) && (placedUnits p).all (fun x => x < 160) &&
      !held.any (clash p)))

/-- Every grant the image books, in placing order: period, node, grant (R181). -/
def grantsBooked (s : State) (n : Nat) : List (Nat × Nat) :=
  (List.range 11).flatMap (fun per =>
    (expectedNodes s n).flatMap (fun m =>
      ((List.range (bookGrants s n m)).filter (fun g => bookPer s n m g = per)).map (fun g => (m, g))))

/-- The placed grants of a port (R181). -/
def placements (s : State) (n : Nat) : List Placed :=
  (grantsBooked s n).foldl (fun held p =>
    match placeOne s n p.1 p.2 held with | some q => held ++ [q] | none => held) []

/-- Grants active in a cycle. -/
def activeGrants (s : State) (n : Nat) (cyc : W32) : List Placed :=
  (placements s n).filter (fun p => cyc.toNat % 2 ^ p.per = p.phase)

/-! ### Leaving (R190) -/

/-- A node's control packets leave the queue. -/
def dropCtl (n m : Nat) (s : State) : State :=
  let g := getHws s n
  setHws n { g with ctl := g.ctl.filter (fun c => c.node ≠ m),
                    tmchg := match g.tmchg with | some c => (if c.1 = m then none else some c) | none => none } s

/-- A generation 2 node returns to ABSENT, KIND 7 left or 8 timed out (R190, R360). -/
def leaveNode (n m kind : Nat) (s : State) : State :=
  if (getNode s n m).nstate = 0 then s
  else
    let x := getNode s n m
    let s := setNode n m { lost := x.lost, nacks := x.nacks } (dropCtl n m s)
    let s := hwsCount n (hwsLinkCnt (if kind = 8 then 13 else 12)) (hwsRaise n hwsLinkF 4 s)
    trunkEvent kind m n (stampNow s) s

/-- A generation 1 node returns to ABSENT. -/
def leaveNode1 (n a kind : Nat) (s : State) : State :=
  if (getNode1 s n a).nstate = 0 then s
  else
    let x := getNode1 s n a
    let s := setNode1 n a { lost := x.lost, retries := x.retries } s
    let s := hwsCount n (hwsLinkCnt (if kind = 8 then 13 else 12)) (hwsRaise n hwsLinkF 4 s)
    trunkEvent kind (0x40 + a) n (stampNow s) s

/-- Every node of a port leaves: the power feed has fallen (R190). -/
def leaveAll (n : Nat) (s : State) : State :=
  forEach (List.range 8) (fun a => leaveNode1 n a 7) (forEach (List.range 32) (fun m => leaveNode n m 7) s)

/-! ### Refused samples (R179, R180) -/

/-- A node's grants apply, from the FIRST of its JOIN_ACK on (R177). -/
def grantsApply (s : State) (n m : Nat) : Bool :=
  (getNode s n m).nstate ≠ 0 && decide (0 ≤ ((getHws s n).cycle - (getNode s n m).first).toInt)

/-- The samples a grant expects in one packet are refused. -/
def refuseGrant (n m g : Nat) (x : Sample) (s : State) : State :=
  forEach (grantChans s n m g) (fun c s =>
    let k := grantSamples s n m c (bookPer s n m g)
    if k = 0 then s
    else sourceRefused 3 (1024 * n + 32 * m + c)
      { first := x.stamp, last := x.stamp, count := k, reason := 1, qual := x.qual, era := x.era } s) s

/-- LOSTPKT for one packet of a grant, its expected samples refused (R180); those of a node not ON are refused as the
cycle ends (R179). -/
def lostPacket (n m g : Nat) (s : State) : State :=
  let x := getNode s n m
  let s := setNode n m { x with lost := min 65535 (x.lost + 1) } s
  let s := hwsRaise n hwsLinkF 5 (hwsCount n (hwsLinkCnt 8) s)
  if x.nstate = 2 then refuseGrant n m g (stampNow s) s else s

/-! ### Cycles and beacons (R167–R171, R175) -/

/-- The join scan starts, or waits for the cycle timer (R175, R193). -/
def startScan (n : Nat) (s : State) : State := setHws n { getHws s n with scanLeft := joinScanLen s n } s

/-- JOIN_OPEN of a cycle (R175). -/
def joinOpen (s : State) (n : Nat) : Bool :=
  let g := getHws s n
  (expectedNodes s n).any (fun m => (getNode s n m).nstate = 0) &&
  (decide (0 < g.scanLeft) || g.cycle.toNat % max 1 (joinDiv s n) = 0)

/-- A number as big-endian bytes. -/
def beBytes : Nat → Nat → List (BitVec 8)
  | 0, _ => []
  | k + 1, v => BitVec.ofNat 8 (v / 256 ^ k) :: beBytes k v

/-- The mask fragment of a beacon: 16 entries of OFF and ATT (R171). -/
def maskFragment (s : State) (n frag : Nat) : List (BitVec 8) :=
  bytesOfBits ((List.range 16).flatMap (fun i =>
    let w := hwsR s n (0x400 + 4 * (16 * frag + i))
    msbBits (BitVec.ofNat 7 (64 * b2n (bit w 7) + bits w 5 0))))

/-- The beacon payload (R171). -/
def beaconPayload (s : State) (n : Nat) (time : W64) (step : Bool) : List (BitVec 8) :=
  let g := getHws s n
  let frag := g.cycle.toNat % 9
  beBytes 8 time.toNat ++ beBytes 4 g.cycle.toNat ++
  [BitVec.ofNat 8 (64 * qcode (qualFast s) + 32 * b2n (joinOpen s n) + 16 * b2n step), BitVec.ofNat 8 (linkJ s n),
   BitVec.ofNat 8 frag, BitVec.ofNat 8 s.config.loads.toNat] ++ maskFragment s n frag ++ [0, 0]

/-- A packet is scheduled: its reference instant at u × 2,500 + 4,608 ticks after the cycle start (R169). -/
def schedule (n u : Nat) (hdr : BitVec 62) (payload : List (BitVec 8)) (s : State) : State :=
  let g := getHws s n
  let t := g.cycStart + BitVec.ofNat 64 (2500 * u + 4608)
  setHws n { g with txQueue := g.txQueue ++ [{ hdr := hdr, payload := payload, stamp := { stamp := t, qual := qualFast s, era := s.tb.stepCnt } }] } s

/-- What a finished cycle leaves: nodes that gave nothing, and samples of nodes not ON (R179, R190). -/
def closeCycle (n : Nat) (s : State) : State :=
  let g := getHws s n
  if !g.cycling then s
  else
    let acts := activeGrants s n g.cycle
    let s := acts.foldl (fun s p =>
      if (getNode s n p.node).nstate = 2 && grantsApply s n p.node then s else refuseGrant n p.node p.g (stampNow s) s) s
    let s := forEach ((List.range 32).filter (fun m => acts.any (fun p => p.node = m))) (fun m s =>
      let x := getNode s n m
      if !grantsApply s n m then s
      else setNode n m { x with got := [], lossRun := if x.got = [] then x.lossRun + 1 else 0 } s) s
    forEach (List.range 8) (fun a s =>
      let b := listBytes s 4 (8 * n + a)
      if b.length = 12 ∧ (getNode1 s n a).nstate ≠ 2 ∧ g.cycle.toNat % 2 ^ beNat ((b.drop 8).take 1) = 0 then
        forEach (List.range (beNat ((b.drop 9).take 1))) (fun c s =>
          sourceRefused 4 (256 * n + 32 * a + c) (oneRefused 1 (stampNow s)) s) s
      else s) s

/-- The hub gives a node up after a command: journalled with the command index, and its LEAVE waits for the control slot (R178). -/
def hubLeaves (n m : Nat) (s : State) : State :=
  let x := getNode s n m
  let s := setNode n m { x with nstate := 3, cmdSent := none } s
  let s := journal 0x12 (stampNow s) [pack [(9, 16), (m, 8), (8 + n, 0)], BitVec.ofNat 48 x.cmdIndex] s
  setHws n { getHws s n with ctl := (getHws s n).ctl ++ [{ type := 8, node := m }] } s

/-- Commands without an answer after 32 cycles: repeated, or after two repeats the hub sends LEAVE (R178, R186). -/
def ageCommands (n : Nat) (s : State) : State :=
  forEach ((List.range 32).filter (fun m => (getNode s n m).cmdSent.isSome)) (fun m s =>
    let x := getNode s n m
    let g := getHws s n
    match x.cmdSent, x.initLeft with
    | some c, w :: _ =>
      if (g.cycle - c).toNat < 32 then s
      else if x.repeats < 2 then
        let s := setNode n m { x with cmdSent := none, repeats := x.repeats + 1 } s
        setHws n { getHws s n with ctl := (getHws s n).ctl ++ [{ type := 7, node := m, payload := w }] } s
      else hubLeaves n m s
    | _, _ => s) s

/-- The beacon of the cycle (R171); a step that falls before its reference instant is in its TIME and sets its STEP. -/
def sendBeacon (n : Nat) (s : State) : State :=
  let g := getHws s n
  let ref := g.cycStart + 4608
  let ahead := s.tb.step.bind (fun p => if 0 ≤ (ref - p.tApply).toInt then some (stepTarget p + (ref - p.tApply)) else none)
  let steps := if ahead.isSome then s.tb.stepCnt + 1 else s.tb.stepCnt
  let left := if g.stepSeen = steps then g.stepLeft else 8
  let now := (ref, qualFast s)
  let quals := match g.quals with
    | q :: qs => if q.2 = now.2 then q :: qs else now :: q :: qs
    | [] => [now]
  let s := setHws n { g with stepSeen := steps, stepLeft := left - 1, quals := quals } s
  let s := schedule n 0 (mkHeader 63 0 32 0 g.cycle.toNat 0)
    (beaconPayload s n (ahead.getD ref) (decide (0 < left))) s
  bumpWrap (hwsA n + hwsLinkCnt 0) s

/-- A trunk cycle starts at an overflow of the cycle timer (R167, R193). -/
def trunkCycle (n : Nat) (s : State) : State :=
  if !linkEn s n || s.power.cur ≠ .s0 || (getHws s n).state ≠ .on then s
  else
    let s := closeCycle n s
    let g := getHws s n
    let s := setHws n
      { g with cycle := if g.cycling then g.cycle + 1 else 0, cycling := true, cycStart := ticks s, ctlSent := false } s
    let s := sendBeacon n (ageCommands n s)
    setHws n { getHws s n with scanLeft := (getHws s n).scanLeft - 1 } s

/-- Trunk ports whose cycle timer is a given timer. -/
def cyclePorts (s : State) (t : Nat) : List Nat := (List.range 8).filter (fun n => linkEn s n && linkCycTmr s n = t)

/-! ### The control slot (R177, R178, R186) -/

/-- Priority of a waiting control packet (R186). -/
def ctlPrio (c : HCtl) : Nat :=
  match c.type with
  | 8 => 0 | 2 => 1 | 5 => if c.first then 2 else 4 | 6 => 3 | _ => 5

/-- A packet that can be sent now: one tone map change at a time runs on a port (R185). -/
def ctlReady (g : Hws) (c : HCtl) : Bool := c.type != 5 || g.tmchg.isNone

/-- The packet the control slot takes: highest priority, oldest first (R186). -/
def ctlPick (g : Hws) : Option HCtl :=
  (List.range 6).findSome? (fun p => g.ctl.find? (fun c => ctlPrio c = p && ctlReady g c))

/-- The grant fields of a JOIN_ACK (R177). -/
def ackGrant (s : State) (n m g : Nat) : List (BitVec 8) :=
  match (placements s n).find? (fun p => p.node = m && p.g = g) with
  | some p =>
    [BitVec.ofNat 8 p.start, BitVec.ofNat 8 p.len, BitVec.ofNat 8 p.rstart, BitVec.ofNat 8 p.per] ++
    beBytes 2 p.phase ++ beBytes 2 (grantMaxlen s n m g) ++ beBytes 4 (bookChmap s n m g).toNat
  | none => List.replicate 12 0

/-- A signed number as n big-endian bytes. -/
def beSigned (n : Nat) (i : Int) : List (BitVec 8) := beBytes n (i % 256 ^ n).toNat

/-- The least map id from 1 that no node of the port owns (R185). -/
def freeMapId (s : State) (n : Nat) : Nat :=
  (((List.range 16).filter (fun i => decide (1 ≤ i))).find? (fun i =>
    !(List.range 32).any (fun m => (getNode s n m).nstate ≠ 0 && (getNode s n m).tmap = i))).getD 15

/-- Whether the active map falls short of the booked capacity (R192). -/
def isDegraded (s : State) (n m : Nat) (t : TMap) : Bool :=
  decide (mapCapacity s n t < mapCapacity s n (bookedMap s n m))

/-- A node that has just been acknowledged is JOINED (R177, R178). -/
def nodeJoined (n m : Nat) (s : State) : State :=
  let x := getNode s n m
  let g := getHws s n
  let list := entriesOfBytes 7 (listBytes s 3 (32 * n + m))
  let s := setNode n m { x with nstate := if list = [] then 2 else 1, first := g.cycle + 8, heard := false,
                                initLeft := list, cmdIndex := 0, cmdSent := none, repeats := 0,
                                degraded := isDegraded s n m robustMap } s
  let s := hwsCount n (hwsLinkCnt 2) (hwsRaise n hwsLinkF 3 s)
  let s := match list with
    | w :: _ => setHws n { getHws s n with ctl := (getHws s n).ctl ++ [{ type := 7, node := m, payload := w }] } s
    | [] => s
  trunkEvent 6 m n (stampNow s) s

/-- Payload and SEQ of a control packet as it is sent, and what sending it does to its node. -/
def sendCtl (n : Nat) (c : HCtl) (s : State) : State :=
  let g := getHws s n
  let u := 8 + 8 * linkJ s n
  let send (len seq : Nat) (pl : List (BitVec 8)) (s : State) := schedule n u (mkHeader c.node c.type len 0 seq 0) pl s
  match c.type with
  | 8 =>
    let s := send 1 0 [0] s
    if c.node = 63 then s else leaveNode n c.node 7 s
  | 2 =>
    let x := getNode s n c.node
    let dly := roundDlyOf x.dEst
    let s := send 64 g.ctlCount (beBytes 8 c.uid.toNat ++ [BitVec.ofNat 8 c.arg] ++ beSigned 3 dly ++
      beBytes 4 (g.cycle + 8).toNat ++ (List.range 4).flatMap (fun i => if c.arg = 0 then ackGrant s n c.node i else List.replicate 12 0)) s
    if c.arg = 0 then nodeJoined n c.node (setNode n c.node { x with dly := dly, uid := c.uid } s) else s
  | 5 =>
    let x := getNode s n c.node
    let id := if c.map = robustMap then 0 else freeMapId s n
    let act := if c.first then x.first else g.cycle + 8
    let s := send 57 g.ctlCount ([BitVec.ofNat 8 id, BitVec.ofNat 8 c.map.rate] ++ beBytes 4 act.toNat ++
      bytesOfBits (c.map.codes.flatMap (fun k => msbBits (BitVec.ofNat 3 k)))) s
    let g := getHws s n
    hwsCount n (hwsLinkCnt 10) (setHws n { g with tmchg := some (c.node, x.tmap, id, act),
                                                  maps := if id = 0 then g.maps else Mem.write (fun _ => {}) g.maps id c.map } s)
  | 6 =>
    let x := getNode s n c.node
    let dly := roundDlyOf x.dEst
    setNode n c.node { x with dly := dly, dlySent := some g.cycle } (send 4 g.ctlCount (beSigned 3 dly ++ [0]) s)
  | _ =>
    let x := getNode s n c.node
    setNode n c.node { x with cmdSent := some g.cycle } (send 7 x.cmdSeq c.payload s)
where
  /-- round(D), ties away from zero. -/
  roundDlyOf (d : Rat) : Int := if 0 ≤ d then (d + 1 / 2).floor else -((-d + 1 / 2).floor)

/-- CONTROL_SLOT (R186): at most one packet in each control slot. -/
def execControlSlot (n : Nat) (s : State) : Host.Outcome State Fault Refusal := live s <|
  let g := getHws s n
  if 8 ≤ n ∨ s.power.cur ≠ .s0 ∨ g.state ≠ .on ∨ !g.cycling ∨ g.ctlSent then .next s
  else match ctlPick g with
  | none => .next s
  | some c =>
    .next (sendCtl n c (setHws n { g with ctl := g.ctl.erase c, ctlSent := true, ctlCount := (g.ctlCount + 1) % 16 } s))

/-- The slot a packet's reference instant fell in: its grant, and whether it is the retry slot (R167, R180). -/
def slotOf (s : State) (n : Nat) (x : Sample) : Option (Placed × Bool) :=
  let g := getHws s n
  let t := (presentTime s x - g.cycStart).toInt
  let u := t.toNat / 2500
  if t < 0 then none
  else (activeGrants s n g.cycle).findSome? (fun p =>
    if p.start ≤ u ∧ u < p.start + p.len then some (p, false)
    else if p.rstart ≠ 255 ∧ p.rstart ≤ u ∧ u < p.rstart + 6 + p.len then some (p, true) else none)

/-- A foreign packet in a granted slot (R192). -/
def slotCaptured (n : Nat) (s : State) : State := hwsRaise n hwsLinkF 6 (hwsCount n (hwsLinkCnt 9) s)

/-- A packet from another node in a granted slot, or one that captured the receiver there (R192). -/
def foreignPacket (s : State) (n : Nat) (p : HPkt) : Bool :=
  match slotOf s n p.stamp with
  | some (pl, _) => p.captured || decide (hNode p.hdr ≠ pl.node)
  | none => false

/-! ### Joining (R175–R178) -/

/-- The oldest received packet when it has a given TYPE, and the port without it. -/
def takeInbox (g : Hws) (type : Nat) : Option (HPkt × Hws) :=
  match g.inbox with
  | p :: rest => if hType p.hdr = type then some (p, { g with inbox := rest }) else none
  | [] => none

/-- STATUS of a JOIN_ACK (R177). -/
def joinStatus (s : State) (n m : Nat) (uid : W64) (cap : BitVec 8) : Nat :=
  if !expected s n m then 1
  else if bookUid s n m ≠ 0 ∧ bookUid s n m ≠ uid then 2
  else if (getNode s n m).nstate ≠ 0 ∧ (getNode s n m).uid ≠ uid then 3
  else if bits cap 2 0 < bookMod s n m ∨ bits cap 4 3 < bookRate s n m then 4
  else 0

/-- O of R173 for a JOIN_REQ: distance from the nearest join slot's scheduled instant, in ticks. -/
def joinOffset (s : State) (g : Hws) (x : Sample) : Int :=
  let rel := (presentTime s x - g.cycStart - 24608).toInt
  rel - (rel + 10000) / 20000 * 20000

/-- Required SNR of a modulation and rate, in 0.25 dB (R156, R183). -/
def requiredSnr (mod rate : Nat) : Nat :=
  match mod, rate with
  | 1, 0 => 8 | 1, 1 => 14 | 1, 2 => 18 | 1, _ => 22
  | 2, 0 => 20 | 2, 1 => 26 | 2, 2 => 32 | 2, _ => 36
  | 3, 0 => 44 | 3, 1 => 50 | 3, 2 => 56 | 3, _ => 62
  | _, 0 => 68 | _, 1 => 76 | _, 2 => 84 | _, _ => 92

/-- S_d of data carrier i: the least SNR over the window (R184). -/
def leastSnr (win : List (List Int)) (k : Nat) : Int :=
  (win.map (fun l => l.getD (k - 10) 0)).foldl min (((win.head?).getD []).getD (k - 10) 0)

/-- The map of one rate (R184 step 2). -/
def mapForRate (s : State) (n : Nat) (cap : BitVec 8) (win : List (List Int)) (rate : Nat) : TMap :=
  { rate := rate, codes := dataCarriers.map (fun k =>
      if hwsOff s n k then 0
      else (([4, 3, 2, 1].filter (fun m => m ≤ bits cap 2 0)).find? (fun m =>
        decide ((requiredSnr m rate + tmMargin s n : Int) ≤ leastSnr win k))).getD 0) }

/-- The map R184 builds; tone map 0 where its capacity does not exceed 136. -/
def buildMap (s : State) (n : Nat) (cap : BitVec 8) (win : List (List Int)) : TMap :=
  let ms := ((List.range 4).filter (fun r => r ≤ bits cap 4 3)).map (mapForRate s n cap win)
  let best := ms.foldl (fun b m => match b with
    | none => some m
    | some x => if mapCapacity s n x < mapCapacity s n m then some m else some x) none
  match best with
  | some m => if mapCapacity s n m ≤ 136 * 12 ∨ mapNcbps s n m < 12 then robustMap else m
  | none => robustMap

/-- JOIN_REQ (R176, R177): its answer waits for the control slot. -/
def execJoinReq (n : Nat) (s : State) : Host.Outcome State Fault Refusal := live s <|
  match takeInbox (getHws s n) 1 with
  | none => .next s
  | some (p, g) =>
    let m := hNode p.hdr
    let uid : W64 := BitVec.ofNat 64 (beNat (p.payload.take 8))
    let cap := p.payload.getD 11 0
    let s := setHws n g s
    if foreignPacket s n p then .next (slotCaptured n s) else
    let s := hwsCount n (hwsLinkCnt 1) s
    if p.payload.length ≠ 16 then .next s
    else
      let st := joinStatus s n m uid cap
      let s := if st = 1 then hwsCount n (hwsLinkCnt 5) s
        else if st = 3 then hwsRaise n hwsLinkF 7 (hwsCount n (hwsLinkCnt 4) s) else s
      let ack : HCtl := { type := 2, node := m, arg := st, uid := uid }
      if st ≠ 0 then .next (setHws n { getHws s n with ctl := (getHws s n).ctl ++ [ack] } s)
      else
        let s := leaveNode n m 7 s
        let s := setNode n m { getNode s n m with cap := cap, dEst := (joinOffset s g p.stamp : Rat) / 2, snrs := [p.snr] } s
        let t := buildMap s n cap [p.snr]
        let tm := if t = robustMap then [] else [({ type := 5, node := m, map := t, first := true } : HCtl)]
        .next (setHws n { getHws s n with ctl := (getHws s n).ctl ++ [ack] ++ tm } s)

/-- JOINFAIL (R178): no DATA within 16 cycles after FIRST. -/
def execJoinfail (n m : Nat) (s : State) : Host.Outcome State Fault Refusal := live s <|
  let x := getNode s n m
  if n < 8 ∧ m < 32 ∧ x.nstate ≠ 0 ∧ !x.heard ∧ 16 ≤ ((getHws s n).cycle - x.first).toInt then
    .next (setNode n m { lost := x.lost, nacks := x.nacks } (dropCtl n m (hwsCount n (hwsLinkCnt 3) s)))
  else .next s

/-! ### Data (R173, R174, R180, R182) -/

/-- The full time of a node's short time, nearest to now (R56). -/
def fullOf (now : W64) (t : W48) : W64 := now + (t - short now).signExtend 64

/-- The quality in force at an instant by the beacons sent (R174). -/
def beaconQual (g : Hws) (t : W64) : Quality :=
  match g.quals.find? (fun q => decide (0 ≤ (t - q.1).toInt)) with
  | some q => q.2
  | none => match g.quals.getLast? with | some q => q.2 | none => .held

/-- The time scale of a node stamp: one taken before the last step's T_apply keeps the pre-step flag (R53, R192). -/
def nodeEra (s : State) (t : W64) : W32 :=
  match s.tb.lastStep with
  | some (_, new) => if 0 ≤ (t - new).toInt ∧ 0 ≤ (ticks s - t).toInt then s.tb.stepCnt else s.tb.stepCnt - 1
  | none => s.tb.stepCnt

/-- One block of a DATA payload (R182). -/
inductive HBlock where
  | data (ch : Nat) (ovr nsync : Bool) (t0 : W48) (per : Nat) (values : List (BitVec 24))
  | gap (ch : Nat) (nsync : Bool) (t0 : W48) (per count : Nat)
  | answer (seq status addr data : Nat)
  deriving DecidableEq, Repr

/-- The blocks of a payload, or none when a block breaks the rules (R182). -/
def parseBlocks (chmap : W32) : Nat → List (BitVec 8) → Option (List HBlock)
  | _, [] => some []
  | 0, _ => none
  | fuel + 1, b :: bs =>
    if b = 0xFF then
      if bs.length < 8 then none
      else (parseBlocks chmap fuel (bs.drop 8)).map (fun l =>
        .answer (beNat (bs.take 1)) (beNat ((bs.drop 1).take 1)) (beNat ((bs.drop 2).take 2)) (beNat ((bs.drop 4).take 4)) :: l)
    else if 32 ≤ b.toNat ∨ !bit chmap b.toNat ∨ bs.length < 12 then none
    else
      let cnt := beNat (bs.take 1)
      let f := bs.getD 1 0
      let t0 : W48 := BitVec.ofNat 48 (beNat ((bs.drop 2).take 6))
      let per := beNat ((bs.drop 8).take 4)
      let rest := bs.drop 12
      if bits f 4 0 ≠ 0 then none
      else if bit f 7 then
        if cnt ≠ 0 ∨ rest.length < 2 then none
        else (parseBlocks chmap fuel (rest.drop 2)).map (fun l => .gap b.toNat (bit f 5) t0 per (beNat (rest.take 2)) :: l)
      else if rest.length < 3 * cnt then none
      else (parseBlocks chmap fuel (rest.drop (3 * cnt))).map (fun l =>
        .data b.toNat (bit f 6) (bit f 5) t0 per
          ((List.range cnt).map (fun i => BitVec.ofNat 24 (beNat ((rest.drop (3 * i)).take 3)))) :: l)

/-- The stamp of sample i of a block (R174, R182). -/
def blockStamp (s : State) (n : Nat) (t0 : W48) (per i : Nat) (nsync ovr : Bool) : Sample :=
  let t := fullOf (ticks s) t0 + BitVec.ofNat 64 (i * per)
  { stamp := t, qual := if nsync then .held else beaconQual (getHws s n) t, ovr := ovr, era := nodeEra s t }

/-- The answer to a NODE_CMD: OK goes on to the next command, a refusal makes the hub give the node up (R178, R186). -/
def commandAnswer (n m seq status : Nat) (s : State) : State :=
  let x := getNode s n m
  if x.cmdSent.isNone ∨ seq % 16 ≠ x.cmdSeq then s
  else if status = 0 then
    let left := x.initLeft.drop 1
    let s := setNode n m { x with initLeft := left, cmdIndex := x.cmdIndex + 1, cmdSeq := (x.cmdSeq + 1) % 16,
                                  cmdSent := none, repeats := 0, nstate := if left = [] then 2 else x.nstate } s
    match left with
    | w :: _ => setHws n { getHws s n with ctl := (getHws s n).ctl ++ [{ type := 7, node := m, payload := w }] } s
    | [] => s
  else hubLeaves n m s

/-- One block reaches its channel (R179, R182). -/
def takeBlock (n m : Nat) (b : HBlock) (s : State) : State :=
  match b with
  | .answer seq status _ _ => commandAnswer n m seq status s
  | .gap ch nsync t0 per count =>
    if (getNode s n m).nstate ≠ 2 ∨ count = 0 then s
    else
      let x := blockStamp s n t0 per 0 nsync false
      sourceRefused 3 (1024 * n + 32 * m + ch)
        { first := x.stamp, last := x.stamp + BitVec.ofNat 64 ((count - 1) * per), count := count, reason := 1, qual := x.qual, era := x.era } s
  | .data ch ovr nsync t0 per values =>
    if (getNode s n m).nstate ≠ 2 then s
    else ((List.range values.length).zip values).foldl (fun s p =>
      sourceValue 3 (1024 * n + 32 * m + ch) (p.2.signExtend 48) (blockStamp s n t0 per p.1 nsync ovr) s) s

/-- The first DATA under a new map frees the old id (R185, R192). -/
def adoptMap (n m tm : Nat) (s : State) : State :=
  let g := getHws s n
  match g.tmchg with
  | some (k, _, new, _) =>
    if k = m ∧ tm = new then
      let s := setHws n { g with tmchg := none } s
      setNode n m { getNode s n m with tmap := new, degraded := isDegraded s n m (portMap s n new) } s
    else s
  | none => s

/-- The delay estimate takes a packet's offset (R173). -/
def delayUpdate (n m : Nat) (o : Int) (s : State) : State :=
  let x := getNode s n m
  let g := getHws s n
  let d := x.dEst + (((o + x.dly : Int) : Rat) / 2 - x.dEst) / 16
  let x := { x with dEst := d }
  let r := sendCtl.roundDlyOf d
  let free := match x.dlySent with | some c => decide (16 ≤ (g.cycle - c).toNat) | none => true
  let s := setNode n m x s
  if decide (4 ≤ (r - x.dly).natAbs) && free && !g.ctl.any (fun c => c.type = 6 && c.node = m) then
    setHws n { getHws s n with ctl := (getHws s n).ctl ++ [{ type := 6, node := m }] } s
  else s

/-- A good DATA packet in its owner's slot (R173, R178, R180, R182, R185). -/
def takeData (n : Nat) (p : HPkt) (pl : Placed) (retry : Bool) (s : State) : State :=
  let m := pl.node
  let g := getHws s n
  let seq := hSeq p.hdr
  let x := getNode s n m
  let want := Mem.read (fun _ => none) x.seqs pl.g
  let skipped := match want with | some w => if (seq + 16 - w) % 16 < 8 then (seq + 16 - w) % 16 else 0 | none => 0
  let sched := g.cycStart + BitVec.ofNat 64 (2500 * (if retry then pl.rstart + 6 else pl.start) + 4608)
  let s := setNode n m
    { x with
      seqs := Mem.write (fun _ => none) x.seqs pl.g (some ((seq + 1) % 16)), heard := true
      got := if x.got.contains pl.g then x.got else pl.g :: x.got
      snrs := (p.snr :: x.snrs).take (max 1 (tmWin s n)) } s
  let s := forEach (List.range skipped) (fun _ => lostPacket n m pl.g) s
  let s := if retry then hwsCount n (hwsLinkCnt 7) s else s
  let s := adoptMap n m (hTmap p.hdr) (delayUpdate n m (presentTime s p.stamp - sched).toInt s)
  match parseBlocks (bookChmap s n m pl.g) p.payload.length p.payload with
  | none => lostPacket n m pl.g s
  | some bs => bs.foldl (fun s b => takeBlock n m b s) s

/-- DATA (R180, R182, R192). -/
def execData (n : Nat) (s : State) : Host.Outcome State Fault Refusal := live s <|
  match takeInbox (getHws s n) 3 with
  | none => .next s
  | some (p, g) =>
    let s := setHws n g s
    match slotOf s n p.stamp with
    | none => .next s
    | some (pl, retry) =>
      if foreignPacket s n p then .next (slotCaptured n s)
      else if (getNode s n pl.node).nstate = 0 ∨ bits p.hdr 31 30 ≠ pl.g then .next s
      else .next (takeData n p pl retry s)

/-- LEAVE (R190): a node's own LEAVE. -/
def execLeave (n : Nat) (s : State) : Host.Outcome State Fault Refusal := live s <|
  match takeInbox (getHws s n) 8 with
  | none => .next s
  | some (p, g) =>
    let s := setHws n g s
    .next (if foreignPacket s n p then slotCaptured n s else leaveNode n (hNode p.hdr) 7 s)

/-- The active grant of a node with this index, when its packet has not come (R180). -/
def missing (s : State) (n m g : Nat) : Option Placed :=
  if !grantsApply s n m || (getNode s n m).got.contains g then none
  else (activeGrants s n (getHws s n).cycle).find? (fun p => p.node = m && p.g = g)

/-- NACK (R180): at the retry slot of grant g of node m. -/
def execNack (n m g : Nat) (s : State) : Host.Outcome State Fault Refusal := live s <|
  if 8 ≤ n ∨ s.power.cur ≠ .s0 then .next s
  else match missing s n m g with
  | none => .next s
  | some p =>
    if p.rstart = 255 then .next s
    else
      let x := getNode s n m
      let s := setNode n m { x with nacks := min 65535 (x.nacks + 1) } s
      .next (hwsCount n (hwsLinkCnt 6) (schedule n p.rstart (mkHeader m 4 0 0 0 (g * 2 ^ 22)) [] s))

/-- PACKET_LOST (R180): the last slot of grant g of node m ends without a good packet. -/
def execPacketLost (n m g : Nat) (s : State) : Host.Outcome State Fault Refusal := live s <|
  if 8 ≤ n ∨ s.power.cur ≠ .s0 then .next s
  else match missing s n m g with
  | none => .next s
  | some _ =>
    let x := getNode s n m
    let w := Mem.read (fun _ => none) x.seqs g
    .next (lostPacket n m g (setNode n m { x with seqs := Mem.write (fun _ => none) x.seqs g (w.map (fun k => (k + 1) % 16)) } s))

/-- NODE_TIMEOUT (R190): generation 2 node m, or generation 1 address m = 0x40 + a. -/
def execNodeTimeout (n m : Nat) (s : State) : Host.Outcome State Fault Refusal := live s <|
  if 8 ≤ n then .next s
  else if m < 32 then
    if (getNode s n m).nstate ≠ 0 ∧ linkLossN s n ≤ (getNode s n m).lossRun then .next (leaveNode n m 8 s) else .next s
  else if 0x40 ≤ m ∧ m < 0x48 then
    if (getNode1 s n (m - 0x40)).nstate ≠ 0 ∧ linkLoss1N s n ≤ (getNode1 s n (m - 0x40)).failRun then
      .next (leaveNode1 n (m - 0x40) 8 s)
    else .next s
  else .next s

/-! ### Tone maps (R184, R185) -/

/-- TONE_MAP_REBUILD (R184) of a node: at TM_REFRESH, or after two CRC-24 failures within 16 cycles. -/
def execToneMapRebuild (n m : Nat) (s : State) : Host.Outcome State Fault Refusal := live s <|
  let g := getHws s n
  let x := getNode s n m
  let refresh := bits (hwsR s n 0x110) 31 16
  let bad := match x.crcFails with | [a, b] => decide ((a - b).toNat ≤ 16) | _ => false
  if 8 ≤ n ∨ x.nstate = 0 ∨ g.tmchg.isSome ∨ (!bad ∧ g.cycle.toNat % max 1 refresh ≠ 0) then .next s
  else
    let cur := portMap s n x.tmap
    let s := setNode n m { x with crcFails := [] } s
    let t := buildMap s n x.cap (x.snrs.take (tmWin s n))
    if t ≠ cur ∧ (mapCapacity s n t < mapCapacity s n cur ∨ 17 * mapCapacity s n cur ≤ 16 * mapCapacity s n t) then
      .next (setHws n { getHws s n with ctl := (getHws s n).ctl ++ [{ type := 5, node := m, map := t }] } s)
    else .next s

/-- TMFAIL (R185): no DATA under the new map by ACTIVATE + 16. -/
def execTmfail (n : Nat) (s : State) : Host.Outcome State Fault Refusal := live s <|
  let g := getHws s n
  match g.tmchg with
  | some (_, _, new, act) =>
    if 16 ≤ (g.cycle - act).toInt then
      .next (hwsCount n (hwsLinkCnt 11) (setHws n { g with tmchg := none, maps := Mem.erase g.maps new } s))
    else .next s
  | none => .next s

/-! ### Generation 1 (R187–R190) -/

/-- The G1NODE entry of an address; empty when it is not expected. -/
def book1 (s : State) (n a : Nat) : List (BitVec 8) := listBytes s 4 (8 * n + a)
def expected1 (s : State) (n a : Nat) : Bool := decide ((book1 s n a).length = 12)

/-- The frame a node's state asks for: IDENT, WRITE or READ (R189). -/
def pollCmdOf (x : HNode1) : Nat := match x.nstate with | 0 => 1 | 1 => 3 | _ => 2

/-- A generation 1 frame goes out; its reference instant is the end of its sync word, 48 bit times on (R161). -/
def sendPoll (n a cmd : Nat) (retry : Bool) (s : State) : State :=
  let x := stampNow s
  let s := hwsCount n (hwsPhyCnt 10) (hwsCount n (hwsLinkCnt 14) s)
  let s := if retry then s else setNode1 n a { getNode1 s n a with seq := (getNode1 s n a).seq + 1 } s
  setHws n { getHws s n with poll := some { a := a, cmd := cmd, retry := retry, due := false,
                                            ref := { x with stamp := x.stamp + 76800 } } } s

/-- G1_POLL (R188): the transaction of address 0x40 + a starts at a cycle start, a retry that is due first. -/
def execG1Poll (n a : Nat) (s : State) : Host.Outcome State Fault Refusal := live s <|
  let g := getHws s n
  if 8 ≤ n ∨ 8 ≤ a ∨ s.power.cur ≠ .s0 ∨ g.state ≠ .on ∨ !g.cycling ∨ !hwsG1En s n ∨ !expected1 s n a then .next s
  else match g.poll with
  | some p => if p.due then .next (sendPoll n p.a p.cmd true s) else .next s
  | none => .next (sendPoll n a (pollCmdOf (getNode1 s n a)) false s)

/-- A transaction fails: the retry of a poll is due, or the poll is lost; an IDENT or WRITE only ends (R188). -/
def pollFailed (n : Nat) (p : HPoll) (s : State) : State :=
  let x := getNode1 s n p.a
  if p.cmd ≠ 2 then setHws n { getHws s n with poll := none } s
  else if !p.retry then
    let s := setNode1 n p.a { x with retries := min 65535 (x.retries + 1) } s
    setHws n { getHws s n with poll := some { p with due := true } } s
  else
    let s := setHws n { getHws s n with poll := none } s
    let s := setNode1 n p.a { x with failRun := x.failRun + 1, lost := min 65535 (x.lost + 1) } s
    let s := hwsRaise n hwsLinkF 5 (hwsCount n (hwsLinkCnt 17) s)
    let y := { p.ref with stamp := p.ref.stamp + BitVec.ofNat 64 (400 * x.lat) }
    forEach (List.range x.nch) (fun c s => sourceRefused 4 (256 * n + 32 * p.a + c) (oneRefused 1 y) s) s

/-- NORESP (R187). -/
def execNoresp (n : Nat) (s : State) : Host.Outcome State Fault Refusal := live s <|
  match (getHws s n).poll with
  | some p => if p.due then .next s else .next (pollFailed n p (hwsCount n (hwsLinkCnt 15) s))
  | none => .next s

/-- A node's join over IDENT_RESP (R189). -/
def join1 (n a : Nat) (b : List (BitVec 8)) (s : State) : State :=
  let uid := beNat ((b.drop 2).take 8)
  let want := beNat ((book1 s n a).take 8)
  if want ≠ 0 ∧ want ≠ uid then hwsCount n (hwsLinkCnt 5) s
  else
    let list := entriesOfBytes 6 (listBytes s 5 (8 * n + a))
    let s := setNode1 n a { getNode1 s n a with nstate := if list = [] then 2 else 1, lat := beNat ((b.drop 10).take 2),
                                                nch := beNat ((b.drop 12).take 1), initLeft := list, failRun := 0 } s
    trunkEvent 6 (0x40 + a) n (stampNow s) (hwsRaise n hwsLinkF 3 s)

/-- A response with the right ADDR, CMD and SEQ for its transaction (R187, R188). -/
def responseMatches (x : HNode1) (p : HPoll) (b : List (BitVec 8)) : Bool :=
  decide ((b.getD 0 0).toNat = 0x40 + p.a ∧ (b.getD 1 0).toNat = 0x80 + p.cmd) &&
  (match p.cmd with
   | 1 => decide (b.length = 14)
   | 2 => decide (b.length = 4 + 3 * x.nch) && b.getD 2 0 = x.seq
   | _ => decide (b.length = 4))

/-- A good response (R189). -/
def takeResponse (n : Nat) (p : HPoll) (b : List (BitVec 8)) (s : State) : State :=
  let x := getNode1 s n p.a
  let s := setHws n { getHws s n with poll := none } s
  let s := if p.retry then hwsCount n (hwsLinkCnt 16) s else s
  match p.cmd with
  | 1 => join1 n p.a b s
  | 2 =>
    let s := setNode1 n p.a { x with failRun := 0 } s
    let y := { p.ref with stamp := p.ref.stamp + BitVec.ofNat 64 (400 * x.lat) }
    forEach (List.range x.nch) (fun c s =>
      sourceValue 4 (256 * n + 32 * p.a + c)
        ((BitVec.ofNat 24 (beNat ((b.drop (4 + 3 * c)).take 3))).signExtend 48) y s) s
  | _ =>
    if b.getD 2 0 ≠ 0 then s
    else
      let left := x.initLeft.drop 1
      setNode1 n p.a { x with initLeft := left, nstate := if left = [] then 2 else 1 } s

/-- G1_FRAME_RECEIVED (R161): length byte, payload and CRC-16. -/
def execG1FrameReceived (n : Nat) (bytes : List (BitVec 8)) (s : State) : Host.Outcome State Fault Refusal := live s <|
  let len := (bytes.getD 0 0).toNat
  let body := bytes.take (len + 1)
  if 8 ≤ n ∨ s.power.cur ≠ .s0 ∨ !hwsG1En s n then .next s
  else
    let good := decide (len ≤ 64) && decide (bytes.length = len + 3) &&
      decide ((crc16 body).toNat = beNat (bytes.drop (len + 1)))
    let s := hwsCount n (hwsPhyCnt (if good then 8 else 9)) s
    match (getHws s n).poll with
    | some p =>
      if p.due then .next s
      else if good && responseMatches (getNode1 s n p.a) p (body.drop 1) then .next (takeResponse n p (body.drop 1) s)
      else .next (pollFailed n p s)
    | none => .next s

/-! ### The power feed and the link (R162–R164, R175) -/

/-- STEP_DETECTOR_ARM (R162 step 4): a join scan starts (R175). -/
def execStepDetectorArm (n : Nat) (s : State) : Host.Outcome State Fault Refusal := live s <|
  let g := getHws s n
  if n < 8 ∧ g.pstate = 2 ∧ !g.armed then .next (startScan n (setHws n { g with armed := true, stepRun := 0 } s))
  else .next s

/-- SHORT (R163). -/
def execShort (n : Nat) (s : State) : Host.Outcome State Fault Refusal := live s <|
  let g := getHws s n
  if 8 ≤ n ∨ g.pstate ≠ 2 then .next s
  else
    let run := shortRunNext s g
    let lock := decide (bits (pwrCtrl s n) 10 8 + 1 ≤ run)
    let s := setHws n { g with pwren := false, pstate := if lock then 0 else 3, shortRun := run,
                               shortLock := g.shortLock || lock, armed := false, stepRun := 0 } s
    let s := hwsRaise n hwsPwrF 6 (hwsCount n (hwsPhyCnt 11) s)
    .next (leaveAll n (trunkEvent 3 0 n (stampNow s) s))

/-- A current step: counted, flagged, recorded, and a positive one starts a join scan (R164, R175). -/
def currentStep (n : Nat) (up : Bool) (x : Sample) (s : State) : State :=
  let s := hwsRaise n hwsPwrF 5 (hwsCount n (hwsPhyCnt 12) s)
  let s := trunkEvent (if up then 4 else 5) 0 n x s
  let s := if up then startScan n s else s
  if bit (pwrCtrl s n) 11 then requestWake 4 s else s

/-- CURRENT_STEP (R164): the step detector's value of one crystal cycle, in ISNS codes. -/
def execCurrentStep (n : Nat) (x : Rat) (s : State) : Host.Outcome State Fault Refusal := live s <|
  let g := getHws s n
  if 8 ≤ n ∨ g.pstate ≠ 2 ∨ !g.armed then .next s
  else
    let d := x - g.base
    let g := { g with code := x.floor.toNat % 1024 }
    if (bits (hwsR s n 0x30) 9 0 : Rat) ≤ (if d < 0 then -d else d) then
      let first := if g.stepRun = 0 then stampNow s else g.stepStamp
      if bits (pwrCtrl s n) 19 16 ≤ g.stepRun + 1 then
        .next (currentStep n (decide (0 < d)) first (setHws n { g with base := x, stepRun := 0 } s))
      else .next (setHws n { g with stepRun := g.stepRun + 1, stepStamp := first } s)
    else .next (setHws n { g with stepRun := 0, base := g.base + d / 2 ^ bits (pwrCtrl s n) 15 12 } s)

/-- The link starts at start-up step 9: its join scan begins (R175). -/
def linkStart (n : Nat) (s : State) : State :=
  if linkEn s n then startScan n (setHws n { getHws s n with state := .on, cycling := false, cycle := 0 } s) else s

/-- Whether a trunk port vetoes sleep (R193). -/
def linkVetoes (s : State) (n : Nat) : Bool :=
  let g := getHws s n
  linkEn s n && ((List.range 32).any (fun m => (getNode s n m).nstate ≠ 0) ||
    (List.range 8).any (fun a => (getNode1 s n a).nstate ≠ 0) ||
    (decide (0 < g.scanLeft) && (getTimer s (linkCycTmr s n)).running))

end Sys2Proof.Machine
end

