-- ==== Sys2Proof/Machine/SensorBus.lean ====
section
/-! DEFINITION. The two-wire and serial sensor ports and the poll table (R106–R125). -/

namespace Sys2Proof.Machine
open Sys2Proof

/-! ### The poll table (R110–R112) -/

def pollW (s : State) (e k : Nat) : W48 := wordR s (pollA e k)
def pollHead (s : State) (e : Nat) : Bool := bit (pollW s e 0) 47
def pollEvt (s : State) (e : Nat) : Nat := bits (pollW s e 0) 46 45
def pollTmr (s : State) (e : Nat) : Nat := bits (pollW s e 0) 44 40
/-- Port index: 0–3 two-wire, 4–7 serial. -/
def pollPort (s : State) (e : Nat) : Nat := 4 * bits (pollW s e 0) 39 39 + bits (pollW s e 0) 38 37
def pollLast (s : State) (e : Nat) : Bool := bit (pollW s e 0) 36
def pollNext (s : State) (e : Nat) : Nat := bits (pollW s e 0) 35 27
def pollTsMode (s : State) (e : Nat) : Nat := bits (pollW s e 0) 26 25
def pollChk (s : State) (e : Nat) : Bool := bit (pollW s e 0) 24
def pollAlert (s : State) (e : Nat) : Bool := bit (pollW s e 0) 23
def pollAddr (s : State) (e : Nat) : Nat := bits (pollW s e 0) 20 14
def pollNc (s : State) (e : Nat) : Nat := bits (pollW s e 0) 13 11
def pollNr (s : State) (e : Nat) : Nat := bits (pollW s e 0) 10 5

/-- The command bytes of an entry, CMD[47:40] first (R111). -/
def pollCmd (s : State) (e : Nat) : List (BitVec 8) :=
  (List.range (pollNc s e)).map (fun i => BitVec.ofNat 8 (bits (pollW s e 1) (47 - 8 * i) (40 - 8 * i)))

/-- The entry whose word 0 lies at an address. -/
def pollOfA (a : Nat) : Option Nat :=
  if 0x0004_4000 ≤ a ∧ a < 0x0004_8000 ∧ (a - 0x0004_4000) % 0x20 = 0 then some ((a - 0x0004_4000) / 0x20) else none

/-- HEAD entries, ascending. -/
def pollHeads (s : State) : List Nat := (s.tab.filterMap (fun kv => pollOfA kv.1)).filter (pollHead s)

/-- The entries of a list in chain order (R110). -/
def listEntries (s : State) : Nat → Nat → List Nat
  | 0, _ => []
  | fuel + 1, e => e :: (if pollLast s e then [] else listEntries s fuel (pollNext s e))

/-- Entries of the list a HEAD begins. -/
def entriesOf (s : State) (head : Nat) : List Nat := listEntries s 512 head

/-- The raw value a parse rule forms from the bytes read (R112, R113). -/
def parseRule (w : W48) (bs : List (BitVec 8)) : W48 :=
  let nb := bits w 30 29 + 1
  let ofs := bits w 35 31
  let used := (List.range nb).map (fun i => (bs.getD (ofs + i) 0).toNat)
  let used := if bit w 28 then used.reverse else used
  let u := used.foldl (fun a b => 256 * a + b) 0
  let width := bits w 22 18 + 1
  let f := u / 2 ^ bits w 27 23 % 2 ^ width
  let v : Int := if bit w 17 then signed width f else (f : Int)
  ofInt (v * 2 ^ bits w 16 12)

/-! ### Ports -/

def sbpTwoWire (p : Nat) : Bool := decide (p < 4)
/-- EN of a port (R125). -/
def sbpEn (s : State) (p : Nat) : Bool := if sbpTwoWire p then bit (cfgR s (sbpA p)) 0 else bit (cfgR s (sbpA p)) 15
def twcShared (s : State) (p : Nat) : Bool := bit (cfgR s (sbpA p)) 20
def twcRetry (s : State) (p : Nat) : Nat := bits (cfgR s (sbpA p)) 23 21
def twcAlertEn (s : State) (p : Nat) : Bool := bit (cfgR s (sbpA p)) 19

/-- Flag numbers of TWCn_STAT and SSPn_STAT (R125). -/
def sbpOvrF (p : Nat) : Nat := if sbpTwoWire p then 3 else 2
def sbpErrF (p : Nat) : Nat := if sbpTwoWire p then 4 else 3

/-- The counter of a result code (R118, R124). -/
def sbpCounter (p code : Nat) : Nat :=
  if sbpTwoWire p then
    match code with
    | 1 => sbpA p + 0x40 | 2 => sbpA p + 0x44 | 3 => sbpA p + 0x48 | 4 => sbpA p + 0x4C
    | 5 => sbpA p + 0x50 | 6 => sbpA p + 0x54 | _ => sbpA p + 0x5C
  else match code with
    | 7 => sbpA p + 0x40 | _ => sbpA p + 0x44

/-- POLLe_STAT: failures and last result; 9 not yet run (R124). -/
def getPoll (s : State) (e : Nat) : Nat × Nat := Mem.read (fun _ => (0, 9)) s.polls e
def setPoll (e : Nat) (x : Nat × Nat) (s : State) : State := { s with polls := Mem.write (fun _ => (0, 9)) s.polls e x }

/-- An entry's result is recorded, a failure counted (R118, R124). -/
def pollResult (e code : Nat) (s : State) : State :=
  let p := getPoll s e
  setPoll e (if code = 0 then p.1 else min 65535 (p.1 + 1), code) s

/-- The values of an entry count as offered and refused (R118). -/
def refuseEntry (e : Nat) (x : Sample) (s : State) : State :=
  forEach [0, 1] (fun v s =>
    if bit (pollW s e (2 + v)) 47 then sourceRefused 2 (2 * e + v) (oneRefused 1 x) s else s) s

/-- A list refused a run: OVERRUN, and every entry's values refused (R114, R118). -/
def refuseList (p head : Nat) (x : Sample) (s : State) : State :=
  forEach (entriesOf s head) (fun e s => pollResult e 8 (refuseEntry e x s))
    (raise (sbpA p + 4) (sbpErrF p) (raise (sbpA p + 4) (sbpOvrF p) (bump (sbpCounter p 8) s)))

/-- Whether a list waits in or runs on its port. -/
def listBusy (g : SbPort) (head : Nat) : Bool :=
  (match g.running with | some (.poll h _) => h = head | _ => false) ||
  g.queue.any (fun l => match l with | .poll h _ => h = head | .alert _ => false)

/-- The list of a HEAD entry joins its port's queue, or is refused (R114). -/
def joinList (head : Nat) (x : Sample) (s : State) : State :=
  let p := pollPort s head
  let g := getSbp s p
  if g.state ≠ .on then s
  else if listBusy g head then refuseList p head x s
  else setSbp p { g with queue := g.queue ++ [.poll head x] } s

/-- The lists a timer's event paces join their queues, lowest HEAD first (R114). -/
def paceLists (n evt : Nat) (x : Sample) (s : State) : State :=
  forEach ((pollHeads s).filter (fun e => pollTmr s e = n && pollEvt s e = evt)) (fun e s => joinList e x s) s

/-- Whether a timer's event is the pacing event of a list or the trigger of an engine entry (R421). -/
def pacesSomething (s : State) (n evt : Nat) : Bool :=
  (pollHeads s).any (fun e => pollTmr s e = n && pollEvt s e = evt) ||
  !(entriesWhere s (fun e i => entryKind s e i = 4 && entryIndex s e i = n && entryEvt s e i = evt)).isEmpty

/-- LIST_RUN (R114): a free port takes the next queued list. -/
def execListRun (p : Nat) (s : State) : Host.Outcome State Fault Refusal := live s <|
  let g := getSbp s p
  if s.power.cur ≠ .s0 ∨ g.state ≠ .on then .next s
  else match g.running, g.queue with
  | none, .poll h x :: rest =>
    .next (setSbp p { g with running := some (.poll h x), queue := rest, entry := h, lost := 0, alertEntry := none } s)
  | none, .alert x :: rest =>
    .next (setSbp p { g with running := some (.alert x), queue := rest, lost := 0, alertEntry := none,
                             lastAlert := some (ticks s) } s)
  | _, _ => .next s

/-- The entry a port is running, with the stamp TSMODE 2 gives. -/
def currentEntry (g : SbPort) : Option (Nat × Sample) :=
  match g.running with
  | some (.poll _ x) => some (g.entry, x)
  | some (.alert x) => g.alertEntry.map (fun e => (e, x))
  | none => none

/-- The stamp of an entry's values (R117). -/
def entryStamp (s : State) (e : Nat) (pace : Sample) : Sample :=
  if pollTsMode s e = 2 then pace else stampNow s

/-- The port goes on to the next entry, or the list ends (R114). -/
def advanceList (p e : Nat) (s : State) : State :=
  let g := getSbp s p
  match g.running with
  | some (.poll _ _) =>
    if pollLast s e then setSbp p { g with running := none, lost := 0 } s
    else setSbp p { g with entry := pollNext s e, lost := 0 } s
  | _ => setSbp p { g with running := none, lost := 0, alertEntry := none } s

/-- An entry fails with a result code; its values are refused and the list runs on (R118). -/
def failEntry (p e code : Nat) (counted : Bool) (x : Sample) (s : State) : State :=
  let s := if counted then bump (sbpCounter p code) s else s
  advanceList p e (refuseEntry e x (pollResult e code (raise (sbpA p + 4) (sbpErrF p) s)))

/-- An entry completes: its values reach their channels (R113, R118). -/
def completeEntry (p e : Nat) (bs : List (BitVec 8)) (x : Sample) (s : State) : State :=
  let s := bumpWrap (if sbpTwoWire p then sbpA p + 0x6C else sbpA p + 0x48) (pollResult e 0 s)
  let s := forEach [0, 1] (fun v s =>
    let w := pollW s e (2 + v)
    if bit w 47 then sourceValue 2 (2 * e + v) (parseRule w bs) x s else s) s
  advanceList p e s

/-- A lost attempt: ARBLOST, and after RETRY retries the entry fails (R118, R120). -/
def lostAttempt (p e : Nat) (x : Sample) (s : State) : State :=
  let g := getSbp s p
  let s := bump (sbpCounter p 3) s
  if g.lost + 1 ≤ twcRetry s p then setSbp p { g with lost := g.lost + 1 } s
  else failEntry p e 3 false x s

/-- Every byte of an entry's transaction, from the first address byte on, without the PEC byte itself (R115). -/
def busBytes (s : State) (e : Nat) (rd : List (BitVec 8)) : List (BitVec 8) :=
  let a := pollAddr s e
  (if 0 < pollNc s e then BitVec.ofNat 8 (2 * a) :: pollCmd s e else []) ++
  (if 0 < pollNr s e then BitVec.ofNat 8 (2 * a + 1) :: rd else [])

/-- The result code of a two-wire transaction as its bus shows it, 0 for success (R115, R118, R119). -/
def twoWireResult (s : State) (e : Nat) (b : BusTrace) : Nat :=
  let nc := pollNc s e
  let nr := pollNr s e
  if b.sdaLow && b.sdaStuck then 6
  else if b.busErr then 6
  else if 0 < nc ∧ b.ackWrite = false then 1
  else if (b.ackCmd.take nc).any (fun x => !x) then 2
  else if 0 < nr ∧ b.ackRead = false then 1
  else if pollChk s e && decide (0 < nr) &&
      (pec (busBytes s e (b.bytes.take nr)) != b.bytes.getD nr 0) then 5
  else 0

/-- TWO_WIRE_ENTRY (R115, R118–R120). -/
def execTwoWireEntry (p : Nat) (bus : BusTrace) (s : State) : Host.Outcome State Fault Refusal := live s <|
  let g := getSbp s p
  match sbpTwoWire p && decide (s.power.cur = .s0), currentEntry g with
  | true, some (e, pace) =>
    let x := entryStamp s e pace
    let s := if bus.sdaLow then raise (sbpA p + 4) 5 (bump (sbpA p + 0x58) s) else s
    let code := twoWireResult s e bus
    if code = 0 then .next (completeEntry p e bus.bytes x s)
    else if code = 6 ∧ twcShared s p then .next (lostAttempt p e x (bump (sbpCounter p 6) s))
    else .next (failEntry p e code true x s)
  | _, _ => .next s

/-- Whether the fill check fails a value: its bytes are all 0xFF or all 0x00 (R123). -/
def fillFails (w : W48) (bs : List (BitVec 8)) : Bool :=
  let used := (List.range (bits w 30 29 + 1)).map (fun i => bs.getD (bits w 35 31 + i) 0)
  bit w 47 && (used.all (· = 0xFF) || used.all (· = 0x00))

/-- SERIAL_ENTRY (R116, R118, R123). -/
def execSerialEntry (p : Nat) (bytes : List (BitVec 8)) (s : State) : Host.Outcome State Fault Refusal := live s <|
  let g := getSbp s p
  match decide (4 ≤ p ∧ p < 8 ∧ s.power.cur = .s0), currentEntry g with
  | true, some (e, pace) =>
    let x := entryStamp s e pace
    if pollChk s e && (fillFails (pollW s e 2) bytes || fillFails (pollW s e 3) bytes) then
      .next (failEntry p e 7 true x s)
    else .next (completeEntry p e (bytes.take (pollNr s e)) x s)
  | _, _ => .next s

/-- ARBITRATION_LOST (R120). -/
def execArbitrationLost (p : Nat) (s : State) : Host.Outcome State Fault Refusal := live s <|
  match sbpTwoWire p, currentEntry (getSbp s p) with
  | true, some (e, pace) => .next (lostAttempt p e (entryStamp s e pace) s)
  | _, _ => .next s

/-- STRTO (R118): a target holds SCL low beyond the allowance. -/
def execStrto (p : Nat) (s : State) : Host.Outcome State Fault Refusal := live s <|
  match sbpTwoWire p, currentEntry (getSbp s p) with
  | true, some (e, pace) => .next (failEntry p e 4 true (entryStamp s e pace) s)
  | _, _ => .next s

/-- Whether ALERTMIN has passed since the previous alert service began (R121). -/
def alertReady (s : State) (p : Nat) (g : SbPort) : Bool :=
  match g.lastAlert with
  | none => true
  | some t => decide (BitVec.ofNat 64 (bits (cfgR s (sbpA p + 0x10)) 23 0 * 400) ≤ ticks s - t)

/-- An alert list already waits or runs. -/
def alertBusy (g : SbPort) : Bool :=
  (match g.running with | some (.alert _) => true | _ => false) ||
  g.queue.any (fun l => match l with | .alert _ => true | .poll _ _ => false)

/-- A port that watches ALERT_N and sees it low queues the alert list, ALERTMIN after its last service began (R121). -/
def seeAlert (p : Nat) (s : State) : State :=
  let g := getSbp s p
  if g.alertLevel && twcAlertEn s p && decide (g.state = .on) && alertReady s p g && !alertBusy g then
    bump (sbpA p + 0x60) (setSbp p { g with queue := g.queue ++ [.alert (stampNow s)] } s)
  else s

/-- Alerts that asserted outside S0 are seen at the entry to S0 (R121). -/
def seeAlerts (s : State) : State := forEach (List.range 4) seeAlert s

/-- ALERT (R121): ALERT_N goes low, and is seen in S0. -/
def execAlert (p : Nat) (s : State) : Host.Outcome State Fault Refusal := live s <|
  if sbpTwoWire p then
    let s := setSbp p { getSbp s p with alertLevel := true } s
    .next (if s.power.cur = .s0 then seeAlert p s else s)
  else .next s

/-- The port's ALERT entry for an address, if any (R121). -/
def alertEntryOf (s : State) (p a : Nat) : Option Nat :=
  (s.tab.filterMap (fun kv => pollOfA kv.1)).find? (fun e => pollPort s e = p && pollAlert s e && pollAddr s e = a)

/-- ALERT_LIST (R121): the Alert Response read, its record, and the matching entry next. -/
def execAlertList (p : Nat) (answer : Option (BitVec 8)) (s : State) : Host.Outcome State Fault Refusal := live s <|
  let g := getSbp s p
  match sbpTwoWire p, g.running, g.alertEntry with
  | true, some (.alert x), none =>
    match answer with
    | none =>
      .next (bump (sbpA p + 0x68) (setSbp p
        { g with
          running := none, alertLevel := false
          alertRecs := { word := pack [(p, 16), (1, 15)], sample := x } :: g.alertRecs } s))
    | some b =>
      let a := b.toNat / 2
      let g := { g with alertLevel := false, alertRecs := { word := pack [(p, 16), (a, 0)], sample := x } :: g.alertRecs }
      match alertEntryOf s p a with
      | some e => .next (setSbp p { g with alertEntry := some e } s)
      | none => .next (bump (sbpA p + 0x64) (setSbp p { g with running := none } s))
  | _, _, _ => .next s

end Sys2Proof.Machine
end

