-- ==== Sys2Proof/Machine/Timers.lean ====
section
/-! DEFINITION. The timers: prescaler, counting, compares, captures, hitches and stagger groups (R61–R82). -/

namespace Sys2Proof.Machine
open Sys2Proof

/-! ### Configuration (R81, R82) -/

def tmrCtrl (s : State) (n : Nat) : W32 := cfgR s (tmrA n)
def tmrSrc (s : State) (n : Nat) : Nat := bits (tmrCtrl s n) 3 0
def tmrIdx (s : State) (n : Nat) : Nat := bits (tmrCtrl s n) 8 4
def tmrOutMode (s : State) (n : Nat) : Nat := bits (tmrCtrl s n) 10 9
def tmrEdge (s : State) (n : Nat) : Nat := bits (tmrCtrl s n) 17 16
def tmrTop (s : State) (n : Nat) : W48 := wordR s (tmrA n + 0x10)
def tmrCmp (s : State) (n : Nat) (b : Bool) : W48 := wordR s (tmrA n + (if b then 0x20 else 0x18))
/-- dq of R64. -/
def tmrDq (s : State) (n : Nat) : Nat := bits (cfgR s (tmrA n + 4)) 23 0 * 2 ^ 24 + bits (cfgR s (tmrA n + 8)) 23 0
def tmrHitch (s : State) (n : Nat) : W32 := cfgR s (tmrA n + 0x0C)
/-- Source and index of a capture (R71, R82). -/
def capSrc (s : State) (n : Nat) (b : Bool) : Nat := if b then bits (cfgR s (tmrA n + 0x58)) 19 16 else bits (cfgR s (tmrA n + 0x58)) 3 0
def capIdx (s : State) (n : Nat) (b : Bool) : Nat := if b then bits (cfgR s (tmrA n + 0x58)) 28 24 else bits (cfgR s (tmrA n + 0x58)) 12 8
def tmrStatA (n : Nat) : Nat := tmrA n + 0x5C

/-- The WOSC edges since the last crystal edge that an event in S2 is stamped by (R42, R72). -/
def atWosc (w : Nat) (s : State) : State := if s.power.cur = .s2 then setTb { s.tb with woscN := w } s else s

/-! ### Captures (R72, R73) -/

/-- The stamp of an edge at a pin: in S3 that of the next crystal edge, COARSE (R42, R46). -/
def stampEdge (s : State) : Sample :=
  if s.power.cur = .s3 && !fastRuns s then
    { stampNow s with stamp := ((s.tb.acc + BitVec.ofInt 96 (incQ s)) >>> 32).setWidth 64 }
  else stampWosc s

/-- COUNT as a capture copies it. An edge from outside passes two synchroniser stages first, in which a timer on FCLK counts two
edges more (R62, R72). What slower clocks tick in these two cycles are commands of their own. -/
def capturedCount (s : State) (n : Nat) (b : Bool) : W48 :=
  let t := getTimer s n
  if (capSrc s n b = 1 || capSrc s n b = 2) && fastRuns s && t.running && tmrSrc s n = 0 then
    BitVec.ofNat 48 ((t.count.toNat + (t.acc + 2 * 2 ^ 24) / tmrDq s n) % ((tmrTop s n).toNat + 1))
  else t.count

/-- A capture event on one capture of a timer. -/
def capture (n : Nat) (b : Bool) (s : State) : State :=
  let t := getTimer s n
  let x := if capSrc s n b = 2 then stampEdge s else stampWosc s
  let c := capturedCount s n b
  let t := if b then { t with capB := c, capTB := short x.stamp, capQB := x.qual }
    else { t with capA := c, capTA := short x.stamp, capQA := x.qual }
  let i := if b then 2 else 0
  let already := bit (flagR s (tmrStatA n)) i
  let s := raise (tmrStatA n) i (setTimer n t s)
  if already then raise (tmrStatA n) (i + 1) s else s

/-- Every capture that selects a source takes its event (R71). -/
def captureAll (src : Nat) (idx : Option Nat) (s : State) : State :=
  forEach (List.range 32) (fun n s =>
    [false, true].foldl (fun s b =>
      if capSrc s n b = src ∧ (idx = none ∨ idx = some (capIdx s n b)) then capture n b s else s) s) s

/-! ### Actions on a timer (R66, R74, R80) -/

/-- RESET: COUNT and acc are cleared. -/
def resetTimer (n : Nat) (s : State) : State :=
  setTimer n { getTimer s n with count := 0, acc := 0, resetDue := false, startDue := false } s

/-- START of a timer that is not started. -/
def startTimer (n : Nat) (s : State) : State :=
  let t := getTimer s n
  if t.running then s else setTimer n { t with running := true, acc := 0, out := false } s

/-- The hitch actions of a tick's events: target and 2-bit action, in event order (R74, R82). -/
def hitchActions (s : State) (n : Nat) (a b ovf : Bool) : List (Nat × Nat) :=
  let h := tmrHitch s n
  let link := bits h 28 24
  (if a then [(n, bits h 1 0), (link, bits h 3 2)] else []) ++
  (if b then [(n, bits h 5 4), (link, bits h 7 6)] else []) ++
  (if ovf then [(n, bits h 9 8), (link, bits h 11 10)] else [])

/-- A timer's source edge comes in every control cycle: FCLK in S0 and S1, WOSC in S2, the crystal in S3 (R62). -/
def onControl (s : State) (n : Nat) : Bool :=
  (tmrSrc s n = 0 && fastRuns s) || (tmrSrc s n = 2 && s.power.cur = .s2 && !fastRuns s) ||
  (tmrSrc s n = 3 && s.power.cur = .s3 && !fastRuns s)

/-- A hitch RESET lands in the control cycle after its event. Where that cycle brings the target an edge, the edge is evaluated
first (R75, R78). -/
def landReset (n : Nat) (s : State) : State :=
  let t := getTimer s n
  if t.running && onControl s n then setTimer n { t with resetDue := true } s else resetTimer n s

/-- A hitch START lands in the control cycle after its event; the target counts from its next edge (R74, R75). -/
def landStart (n : Nat) (s : State) : State :=
  if (getTimer s n).running then s
  else
    let s := startTimer n s
    setTimer n { getTimer s n with startDue := onControl s n } s

/-- Hitches that meet combine: every RESET lands, then every START (R75, R78). -/
def applyHitches (l : List (Nat × Nat)) (s : State) : State :=
  let s := forEach ((l.filter (fun p => p.2 % 2 = 1)).map Prod.fst) landReset s
  forEach ((l.filter (fun p => 2 ≤ p.2)).map Prod.fst) landStart s

/-! ### A tick and what follows it (R65–R75, R114, R167, R267, R421) -/

/-- OUT after a tick with its matches, before inversion (R70). -/
def outAfter (mode : Nat) (out a b : Bool) : Bool :=
  match mode with
  | 1 => if a then true else if b then false else out
  | 2 => out != a
  | _ => false

/-- Every running timer on an event source takes an edge from it (R61). -/
def sourceEdges (edge : Nat → State → State) (src : Nat) (idx : Option Nat) (s : State) : State :=
  forEach ((List.range 32).filter (fun m => tmrSrc s m = src && (idx = none || idx = some (tmrIdx s m)))) edge s

/-- FS of a port rises: captures and counted edges (R61, R71). -/
def fsRise (edge : Nat → State → State) (n : Nat) (s : State) : State :=
  sourceEdges edge 12 (some n) (captureAll 6 (some n) s)

/-- OUT of a timer has changed from `old`: SYNC periods, FS and event outputs (R70, R84, R134). -/
def outChanged (edge : Nat → State → State) (n : Nat) (old : Bool) (s : State) : State :=
  let new := timerOut s n
  if old = new then s
  else
    let s := if new then
        forEach (fsPorts s n) (fun p s =>
          let s := syncPort p s
          if fsDriven s p then fsRise edge p s else s) s
      else s
    evoRefresh s

/-- One of the three events of a timer: lists, engine entries and wake (R111, R267, R421). -/
def timerEvent (n evt : Nat) (s : State) : State :=
  let x := stampWosc s
  let s := if pacesSomething s n evt || bit (cfgR s (pwrA + 0x18)) n then requestWake 0 s else s
  timerTriggers n evt x (paceLists n evt x s)

/-- One tick of a running timer (R65). -/
def tickTimer (edge : Nat → State → State) (n : Nat) (s : State) : State :=
  let t := getTimer s n
  let ovf := decide (t.count = tmrTop s n)
  let c := if ovf then 0 else t.count + 1
  let a := decide (c = tmrCmp s n false)
  let b := decide (c = tmrCmp s n true)
  let old := timerOut s n
  let s := setTimer n { t with count := c, out := outAfter (tmrOutMode s n) t.out a b } s
  let s := if a then ringTrigger 1 n (captureAll 4 (some n) (timerEvent n 0 s)) else s
  let s := if b then timerEvent n 1 s else s
  let s := if ovf then icuLatch (66 + n) (captureAll 3 (some n) (timerEvent n 2 s)) else s
  let s := if ovf then
      forEach (cyclePorts s n) (fun p s =>
        let s := trunkCycle p s
        if (getHws s p).cycling then sourceEdges edge 11 (some p) (captureAll 7 (some p) s) else s) s
    else s
  let s := outChanged edge n old s
  let s := if ovf then sourceEdges edge 8 (some n) s else s
  let s := if a then sourceEdges edge 9 (some n) s else s
  applyHitches (hitchActions s n a b ovf) s

/-- One counted source edge of a timer (R64); R62 lets no cascade run in a circle. -/
def timerEdge : Nat → Nat → State → State
  | 0, _, s => s
  | fuel + 1, n, s =>
    let t := getTimer s n
    if !t.running then s
    else if t.startDue then setTimer n { t with startDue := false } s
    else
      let acc := t.acc + 2 ^ 24
      let u := { t with resetDue := false }
      let s :=
        if tmrDq s n ≤ acc then tickTimer (timerEdge fuel) n (setTimer n { u with acc := acc - tmrDq s n } s)
        else setTimer n { u with acc := acc } s
      if t.resetDue then setTimer n { getTimer s n with count := 0, acc := 0 } s else s

/-- Depth of a cascade of timers. -/
def cascade : Nat := 33

/-- A source edge reaches one timer. -/
def edge (n : Nat) (s : State) : State := timerEdge cascade n s

/-- An event source gives its edge to every timer that counts it (R61). -/
def countSource (src : Nat) (idx : Option Nat) (s : State) : State := sourceEdges edge src idx s

/-! ### Ticks from free-running clocks -/

/-- Whether a clock source runs in a power state (R61). -/
def srcRuns (src : Nat) (p : PState) : Bool :=
  match p with
  | .s0 => true
  | .s1 => decide (src ≤ 9) || src = 15
  | .s2 => src = 2 || src = 3 || src = 5 || src = 6 || src = 8 || src = 9 || src = 15
  | .s3 => src = 3 || src = 5 || src = 6 || src = 8 || src = 9 || src = 15

/-- A source whose edges are no other command's effect. -/
def freeRunning (src : Nat) : Bool := decide (src ≤ 4) || src = 7 || src = 10

/-- The next edge of a timer is a tick. -/
def ticksNext (s : State) (n : Nat) : Bool :=
  let t := getTimer s n
  !t.startDue && decide (tmrDq s n ≤ t.acc + 2 ^ 24)

/-- The edges up to a timer's next tick arrive, and it ticks (R64, R65). A hitch that is due lands with the first of them. -/
def runToTick (n : Nat) (s : State) : State :=
  let t := getTimer s n
  let s1 := if t.startDue || t.resetDue then edge n s else s
  if t.resetDue && ticksNext s n then s1
  else
    let t := getTimer s1 n
    let dq := tmrDq s n
    let k := max 1 ((dq - t.acc + 2 ^ 24 - 1) / 2 ^ 24)
    tickTimer (timerEdge cascade) n (setTimer n { t with acc := t.acc + k * 2 ^ 24 - dq } s1)

/-- COUNT as a timer's next tick finds it. -/
def countAtTick (s : State) (n : Nat) : W48 :=
  if (getTimer s n).resetDue && !ticksNext s n then 0 else (getTimer s n).count

/-- A touch key is enabled, so that its measurements give the scan's ticks (R131). -/
def touchKeys (s : State) : Bool := (List.range 16).any (fun n => bit (cfgR s (tchA n)) 0)

/-- A timer that a free-running clock can tick now; the touch scan is one while no key is enabled (R61, R131). -/
def canTick (s : State) (n : Nat) : Bool :=
  decide (n < 32) && (getTimer s n).running && (freeRunning (tmrSrc s n) || (tmrSrc s n = 15 && !touchKeys s)) &&
    srcRuns (tmrSrc s n) s.power.cur

/-- PRESCALER_TICK (R64); `w` counts the WOSC edges since the last crystal edge, for a stamp in S2. -/
def execPrescalerTick (n w : Nat) (s : State) : Host.Outcome State Fault Refusal := live s <|
  if canTick s n then .next (runToTick n (atWosc w s)) else .next s

/-- OVERFLOW (R65): the tick of a timer that stands at TOP. -/
def execOverflow (n w : Nat) (s : State) : Host.Outcome State Fault Refusal := live s <|
  if canTick s n && decide (countAtTick s n = tmrTop s n) then .next (runToTick n (atWosc w s)) else .next s

/-- COUNT after a timer's next tick. -/
def nextCount (s : State) (n : Nat) : W48 :=
  if countAtTick s n = tmrTop s n then 0 else countAtTick s n + 1

/-- MATCH (R68): the tick that arrives at a compare value. -/
def execCmpMatch (n w : Nat) (s : State) : Host.Outcome State Fault Refusal := live s <|
  if canTick s n && (decide (nextCount s n = tmrCmp s n false) || decide (nextCount s n = tmrCmp s n true)) then
    .next (runToTick n (atWosc w s))
  else .next s

/-- CAPTURE (R72): the event of a capture's selected source, for a source from outside. -/
def execCapture (n : Nat) (b : Bool) (w : Nat) (s : State) : Host.Outcome State Fault Refusal := live s <|
  if n < 32 ∧ (capSrc s n b = 1 ∨ capSrc s n b = 2 ∨ capSrc s n b = 6 ∨ capSrc s n b = 7) then
    .next (capture n b (atWosc w s))
  else .next s

/-! ### Commands (R76–R80) -/

/-- The timers of a stagger group agree (R76). -/
def staggerOk (s : State) (base n : Nat) : Bool :=
  decide (2 ≤ n ∧ n ≤ 32 ∧ base + n ≤ 32) &&
  (List.range n).all (fun i =>
    decide (tmrSrc s (base + i) = tmrSrc s base ∧ tmrIdx s (base + i) = tmrIdx s base ∧
      tmrDq s (base + i) = tmrDq s base ∧ tmrTop s (base + i) = tmrTop s base))

/-- PHASE_i (R77). -/
def staggerPhase (top i n : Nat) : Nat := (2 * i * top + n) / (2 * n)

/-- STAGGER of a group (R76, R77). -/
def stagger (base n : Nat) (s : State) : State :=
  if staggerOk s base n then
    forEach (List.range n) (fun i s =>
      let c : W48 := BitVec.ofNat 48 (staggerPhase (tmrTop s base).toNat i n)
      let t := getTimer s (base + i)
      setTimer (base + i) { t with count := c, phase := c, acc := 0, running := true, out := t.running && t.out, resetDue := false, startDue := false } s) s
  else raise tmrGstatA 0 (setCnt tmrGstatA (BitVec.ofNat 32 (min 65535 ((cntR s tmrGstatA).toNat + 1))) s)

/-- A software capture (R71). -/
def softCapture (n : Nat) (b : Bool) (s : State) : State := if capSrc s n b = 5 then capture n b s else s

/-- A TMR_CMD operation (R80). -/
def timerCmd (op n k : Nat) (s : State) : State :=
  match op with
  | 1 => startTimer n s
  | 2 => resetTimer n s
  | 3 => startTimer n (resetTimer n s)
  | 4 => stagger n k s
  | 5 => softCapture n false s
  | 6 => softCapture n true s
  | _ => s

/-- A write to TMR_CMD: Ranger's is carried out, the host's is ignored and counted (R80). -/
def writeTmrCmd (path : Path) (op n k : Nat) (s : State) : State :=
  if path = .ranger then timerCmd op (n % 32) (k % 64) s else werr s

/-- START (R80). -/
def execStart (path : Path) (n : Nat) (s : State) : Host.Outcome State Fault Refusal := live s <| .next (writeTmrCmd path 1 n 0 s)
/-- RESET (R80). -/
def execTimerReset (path : Path) (n : Nat) (s : State) : Host.Outcome State Fault Refusal := live s <| .next (writeTmrCmd path 2 n 0 s)
/-- RESET_START (R80). -/
def execResetStart (path : Path) (n : Nat) (s : State) : Host.Outcome State Fault Refusal := live s <| .next (writeTmrCmd path 3 n 0 s)
/-- STAGGER (R77). -/
def execStagger (path : Path) (base n : Nat) (s : State) : Host.Outcome State Fault Refusal := live s <| .next (writeTmrCmd path 4 base n s)
/-- CAPA (R71). -/
def execCapA (path : Path) (n : Nat) (s : State) : Host.Outcome State Fault Refusal := live s <| .next (writeTmrCmd path 5 n 0 s)
/-- CAPB (R71). -/
def execCapB (path : Path) (n : Nat) (s : State) : Host.Outcome State Fault Refusal := live s <| .next (writeTmrCmd path 6 n 0 s)

/-- A compare is written (R68, R69). -/
def writeCompare (n : Nat) (b : Bool) (v : W48) (s : State) : State :=
  let s := setWord (tmrA n + (if b then 0x20 else 0x18)) v s
  if tmrTop s n < v then raise (tmrStatA n) 4 s else s

/-- PPS_EDGE (R49, R63): the timers and captures on PPS_IN, then the discipline loop. -/
def execPpsEdge (rising : Bool) (w : Nat) (s : State) : Host.Outcome State Fault Refusal := live s <|
  let s := atWosc w s
  let s := if rising then captureAll 2 none s else s
  let ms := (List.range 32).filter (fun m => tmrSrc s m = 5 &&
    (tmrEdge s m = 2 || (tmrEdge s m = 0 && rising) || (tmrEdge s m = 1 && !rising)))
  let s := forEach ms edge s
  .next (if rising then ppsMeasure s else s)

/-! ### Vetoes (R67) -/

/-- The source a timer counts in the end, through cascades. -/
def effectiveSource (s : State) : Nat → Nat → Nat
  | 0, n => tmrSrc s n
  | fuel + 1, n => if tmrSrc s n = 8 ∨ tmrSrc s n = 9 then effectiveSource s fuel (tmrIdx s n) else tmrSrc s n

/-- A running timer whose effective source stops in a state (R67). -/
def timerVetoes (s : State) (p : PState) (n : Nat) : Bool :=
  (getTimer s n).running && !srcRuns (effectiveSource s 32 n) p

/-- TMR_VETO_S1 to S3. -/
def timerVetoMap (s : State) (p : PState) : W32 :=
  (List.range 32).foldl (fun v n => if timerVetoes s p n then v ||| (1#32 <<< n) else v) 0

end Sys2Proof.Machine
end

