-- ==== Sys2Proof/Machine/EngineCore.lean ====
section
/-! DEFINITION. The processor that the event engines and Ranger share: fetch, decode, checks, faults, invocations
(R264–R278, R289–R297, R308–R310, R451–R454). -/

namespace Sys2Proof.Machine
open Sys2Proof

/-- Ranger's processor number; 0 to 15 are the event engines. -/
def rangerP : Nat := 16

/-! ### Processors -/

def procOf (s : State) (p : Nat) : Proc := if p = rangerP then s.mgt.proc else (getEngine s p).proc
def setProc (p : Nat) (x : Proc) (s : State) : State :=
  if p = rangerP then { s with mgt := { s.mgt with proc := x } } else setEngine p { getEngine s p with proc := x } s

/-- A processor executes: an engine that is BUSY in S0 (R284, R288), Ranger outside IDLE, S3 and a wait for a secondary
(R451, R453). -/
def procRuns (s : State) (p : Nat) : Bool :=
  if p = rangerP then s.mgt.running && !s.mgt.idle && decide (s.mgt.asked = 0 ∧ s.power.cur ≠ .s3)
  else decide (p < 16 ∧ s.power.cur = .s0 ∧ (getEngine s p).state = .on ∧ (getEngine s p).run = .busy)

/-! ### Memories (R264–R266, R451) -/

def iramR (s : State) (e a : Nat) : W48 := wordR s (iramA e a)
def dramR (s : State) (e a : Nat) : W48 := wordR s (dramA e a)
def ramR (s : State) (a : Nat) : W48 := Mem.read (fun _ => 0) s.mgt.ram a
def setRam (a : Nat) (v : W48) (s : State) : State :=
  { s with mgt := { s.mgt with ram := Mem.write (fun _ => 0) s.mgt.ram a v } }

/-- A table word takes a value, and its error mark goes with the old contents. -/
def setClean (a : Nat) (v : W48) (s : State) : State :=
  let s := setWord a v s
  { s with poisoned := s.poisoned.filter (· ≠ a) }

/-- A word of the plain data space: an engine's DRAM, or Ranger's RAM. -/
def dataR (s : State) (p a : Nat) : W48 := if p = rangerP then ramR s a else dramR s p a
def setData (p a : Nat) (v : W48) (s : State) : State := if p = rangerP then setRam a v s else setClean (dramA p a) v s
/-- An engine's read of a DRAM word with a parity error (R265). -/
def dataBad (s : State) (p a : Nat) : Bool := decide (p ≠ rangerP) && s.poisoned.contains (dramA p a)
/-- Words of the plain data space. -/
def dataSize (p : Nat) : Nat := if p = rangerP then 0x8000 else 0x1000

/-- What a fetch of a program word finds. -/
inductive Fetch (α : Type) where
  | got (x : α)
  | unmapped
  | poisoned
  /-- A line of the active slot that the prefetch buffer does not hold (R454). -/
  | absent
  deriving DecidableEq, Repr

/-- The line of the prefetch buffer that holds a program word (R454). -/
def lineOf (w : Nat) : Nat := w / 16

/-- A program word (R289, R451). -/
def fetchWord (s : State) (p w : Nat) : Fetch W48 :=
  if p = rangerP then
    if w < 0x2000 then .got (Config.romWord w)
    else if 0x1_0000 ≤ w ∧ w < 0x1_8000 then .got (ramR s (w - 0x1_0000))
    else if 0x10_0000 ≤ w ∧ w < 0x10_0000 + slotLength s s.mgt.slot ∧ s.mgt.recovery = false then
      if s.mgt.lines.contains (lineOf w) then .got (slotWord s s.mgt.slot (w - 0x10_0000)) else .absent
    else .unmapped
  else if 4096 ≤ w then .unmapped
  else if s.poisoned.contains (iramA p w) then .poisoned
  else .got (iramR s p w)

/-- Slot i of a word, slot 0 in [47:36] (R289). -/
def codeOf (w : W48) (i : Nat) : Nat := bits w (47 - 12 * i) (36 - 12 * i)

/-- The slot at a slot address. -/
def fetchSlot (s : State) (p a : Nat) : Fetch Nat :=
  match fetchWord s p (a / 4) with
  | .got w => .got (codeOf w (a % 4))
  | .unmapped => .unmapped
  | .poisoned => .poisoned
  | .absent => .absent

/-- A slot address that a branch may go to (R292, R452). -/
def slotMapped (s : State) (p : Nat) (t : Int) : Bool :=
  decide (0 ≤ t) && (if p = rangerP then fetchWord s p (t.toNat / 4) != .unmapped else decide (t ≤ 16383))

/-! ### Instructions -/

/-- An instruction as decoded: processor, slot address, code − first code of its row, operand field, next slot address. -/
structure Ctx where
  p : Nat := 0
  addr : Nat := 0
  k : Nat := 0
  opnd : W48 := 0
  next : Nat := 0
  deriving DecidableEq, Repr

/-- What an instruction comes to. -/
inductive IRes where
  | go (s : State)
  | fault (code addr : Nat) (s : State)
  /-- The invocation ends (R270). -/
  | stop (s : State)
  /-- Ranger waits for a secondary with n repetitions still to run (R453). -/
  | wait (n : Nat) (s : State)

/-- A row of the instruction tables. -/
structure EOp where
  /-- First and last code. -/
  lo : Nat
  hi : Nat
  /-- Bits of the operand field; 0 when the row names no operand (R290). -/
  operand : Nat := 0
  /-- The operand is the next word (R291). -/
  literal : Bool := false
  /-- May not follow REP or REPI (R309). -/
  norep : Bool := false
  /-- Defined for the processor in the present state (R293, R294, R452). -/
  defined : Nat → Nat → State → Bool := fun _ _ _ => true
  /-- Items named on the left and on the right of the stack effect. -/
  pops : Ctx → Proc → Nat := fun _ _ => 0
  pushes : Ctx → Proc → Nat := fun _ _ => 0
  cycles : Ctx → Proc → State → Nat := fun _ _ _ => 1
  /-- Pushes on the return stack (R302). -/
  calls : Bool := false
  /-- The count of a REP or REPI (R307). -/
  repeats : Option (Ctx → Proc → Nat) := none
  run : Ctx → State → IRes := fun _ s => .go s

/-- The row is the one of a code. -/
def EOp.is (op : EOp) (p code : Nat) (s : State) : Bool :=
  decide (op.lo ≤ code ∧ code ≤ op.hi) && op.defined p (code - op.lo) s

/-- The row of a code, if it is defined (R294). -/
def findOp (ops : List EOp) (p code : Nat) (s : State) : Option EOp := ops.find? (fun op => op.is p code s)

/-- What a failed fetch raises at a slot: IADDR 8, IECC 10; a line that is absent only waits (R454). -/
def fetchFault {α : Type} (f : Fetch α) (addr : Nat) (s : State) : IRes :=
  match f with
  | .unmapped => .fault 8 addr s
  | .poisoned => .fault 10 addr s
  | _ => .go s

/-- The operand of an instruction and the slot address after it, or what its fetch raises (R290, R291, R310 order 3). -/
def operandOf (op : EOp) (p addr : Nat) (s : State) : Except IRes (W48 × Nat) :=
  if op.literal then
    match fetchWord s p (addr / 4 + 1) with
    | .got w => .ok (w, 4 * (addr / 4 + 2))
    | f => .error (fetchFault f (4 * (addr / 4 + 1)) s)
  else if op.operand = 0 then .ok (0, addr + 1)
  else match fetchSlot s p (addr + 1) with
    | .got v => if 2 ^ op.operand ≤ v then .error (.fault 1 addr s) else .ok (BitVec.ofNat 48 v, addr + 2)
    | f => .error (fetchFault f (addr + 1) s)

/-- Orders 5 and 6 of R310: BUDGET 3, OSUNF 5, OSOVF 4, RSOVF 6; Ranger has no budget (R452). -/
def checks (op : EOp) (x : Ctx) (s : State) : Option Nat :=
  let pr := procOf s x.p
  if x.p ≠ rangerP ∧ pr.budget < pr.cycles + op.cycles x pr s then some 3
  else if pr.stack.length < op.pops x pr then some 5
  else if 32 < pr.stack.length - op.pops x pr + op.pushes x pr then some 4
  else if op.calls ∧ 16 ≤ pr.rets.length then some 6
  else none

/-- The cycles of an instruction count against the budget (R274). -/
def charge (p n : Nat) (s : State) : State :=
  if p = rangerP then s else let pr := procOf s p; setProc p { pr with cycles := pr.cycles + n } s

/-- Ranger has used the prefetch line of a slot address: it is now the most recently used (R454). -/
def touchLine (p a : Nat) (s : State) : State :=
  let l := lineOf (a / 4)
  if p = rangerP ∧ s.mgt.lines.contains l then { s with mgt := { s.mgt with lines := l :: s.mgt.lines.filter (· ≠ l) } } else s

/-- One execution of a decoded instruction: the checks, the charge, the effect (R295, R310). -/
def runOne (op : EOp) (x : Ctx) (s : State) : IRes :=
  match checks op x s with
  | some c => .fault c x.addr s
  | none =>
    let pr := procOf s x.p
    let s1 := charge x.p (op.cycles x pr s) (touchLine x.p (x.next - 1) (touchLine x.p x.addr s))
    match op.run x (setProc x.p { procOf s1 x.p with pc := x.next } s1) with
    | .fault c a s2 => .fault c a (setProc x.p { procOf s2 x.p with pc := pr.pc, cycles := pr.cycles } s2)
    | r => r

/-- An instruction run n times, each repetition checked on its own (R308). -/
def runTimes (op : EOp) (x : Ctx) : Nat → State → IRes
  | 0, s => .go s
  | n + 1, s =>
    match runOne op x s with
    | .go s' => if x.p = rangerP ∧ s'.mgt.asked ≠ 0 then .wait n s' else runTimes op x n s'
    | r => r

/-- A follower that REP may not have (R309): class 4, class F, LOOP, REP, REPI, LITW. -/
def badFollower (code : Nat) : Bool :=
  decide (code / 256 = 4 ∨ code / 256 = 15 ∨ code = 0x903 ∨ code = 0x900 ∨ (0x9C0 ≤ code ∧ code ≤ 0x9FF) ∨ code = 0x011)

/-- REP and REPI: the follower's checks, the prefix's cycle, the repetitions (R307–R309). -/
def runRepeat (ops : List EOp) (op : EOp) (count : Ctx → Proc → Nat) (x : Ctx) (s : State) : IRes :=
  match fetchSlot s x.p x.next with
  | .got code =>
    if badFollower code then .fault 2 x.addr s
    else match findOp ops x.p code s with
      | none => .fault 1 x.next s
      | some f =>
        match checks op x s with
        | some c => .fault c x.addr s
        | none =>
          let n := match (procOf s x.p).rep with | some n => n | none => count x (procOf s x.p)
          let y : Ctx := { p := x.p, addr := x.next, k := code - f.lo }
          let s := setProc x.p { procOf s x.p with rep := none } s
          let s1 := charge x.p 1 s
          let skip (a : Nat) := setProc x.p { procOf s1 x.p with pc := a } s1
          if n = 0 then .go (skip (x.next + if f.operand = 0 then 1 else 2))
          else match operandOf f x.p x.next s with
            | .error (.go s') => .go s'
            | .error (.fault c a _) => .fault c a s1
            | .error r => r
            | .ok (v, nx) =>
              match runTimes f { y with opnd := v, next := nx } n s1 with
              | .wait m s' => .go (setProc x.p { procOf s' x.p with pc := x.addr, rep := some m } s')
              | r => r
  | f => fetchFault f x.next s

/-- The instruction at the program counter, whose row is known (R310 from order 3 on). -/
def runOp (ops : List EOp) (op : EOp) (p code : Nat) (s : State) : IRes :=
  let a := (procOf s p).pc
  match operandOf op p a s with
  | .error r => r
  | .ok (v, nx) =>
    let x : Ctx := { p := p, addr := a, k := code - op.lo, opnd := v, next := nx }
    match op.repeats with
    | some n => runRepeat ops op n x s
    | none => runOne op x s

/-! ### The ends of an invocation (R270, R274, R276) -/

def eeStatA (e : Nat) : Nat := eeA e + 4
def restarts (s : State) (e : Nat) : Nat := bits (cfgR s (eeA e)) 7 4

/-- The INIT entry's trigger joins, if there is one (R267). -/
def initTrigger (e : Nat) (s : State) : State :=
  match entryOfKind s e 1 with
  | some i => pushTrigger e { kind := 1, entry := i, sample := stampNow s } s
  | none => s

/-- A trigger is refused: QREF, QREFF, and a gap record on each DERIVED stream (R269). -/
def refuseTrigger (e : Nat) (t : Trigger) (s : State) : State :=
  let run : RefRun := { first := t.sample.stamp, last := t.sample.stamp, count := 1, reason := 3,
                        qual := t.sample.qual, era := t.sample.era }
  let s := raise (eeStatA e) 2 (bump (eeA e + 0x24) s)
  (derivedStreams s e).foldl (fun s k =>
    (streamEntries s k).foldl (fun s p => pushTrigger p.1 (gapTrigger k p.2 run) s) (formGap k run s)) s

/-- EEe_FAULT (R288). -/
def faultWord (code addr entry : Nat) : W32 :=
  BitVec.ofNat 32 (code * 2 ^ 28 + addr % 4 * 2 ^ 26 + entry * 2 ^ 21 + addr / 4 % 4096)

/-- Step 4 of R276: every source active for the engine is completed and counted in FAULTCOMP. -/
def faultComplete (e : Nat) (s : State) : State :=
  forEach ((List.range 128).filter (fun n => (getIcu s n).active = some e))
    (fun n s => bump (eeA e + 0x38) (setIcu n { getIcu s n with active := none } s)) s

/-- Step 6 of R276: auto-restart or FAULTED. -/
def faultRestart (e left : Nat) (s : State) : State :=
  if left = 0 then s
  else icuTrigger e (initTrigger e (setEngine e { getEngine s e with run := .idle, restLeft := left - 1 } s))

/-- A fault of an event engine: the freeze of R497, or the sequence of R276. -/
def engineFault (e code addr : Nat) (s : State) : State :=
  let g := getEngine s e
  let f := faultWord code addr g.proc.entry
  if bit (cfgR s frzA) (16 + e) && bit (cfgR s (frzA + 4)) code then freezeNow 2 e f s
  else
    let st := short g.proc.stamp
    let s := raise (eeStatA e) 5 (bump (eeA e + 0x28)
      (setEngine e { g with run := .faulted, kind := 0, queue := [], proc := {}, fault := f, ftime := short (ticks s) } s))
    let s := match streamOf s 2 e 255 with
      | some k => formFault k 1 e f.toNat st s
      | none => s
    let s := journal 0x41 (stampNow s) [pack [(e, 32), (f.toNat, 0)], st] s
    let s := faultComplete e s
    faultRestart e g.restLeft (g.queue.foldl (fun s t => refuseTrigger e t s) s)

/-- A fault of a processor; Ranger's resets Ranger alone (R452). -/
def procFault (p code addr : Nat) (s : State) : State :=
  if p = rangerP then resetRanger 3 [pack [(code, 40), (addr, 0)]] s else engineFault p code addr s

/-- The end of an invocation (R269, R270, R274). Ranger has no invocation to return to: it executes no more. -/
def endInvocation (p : Nat) (s : State) : State :=
  if p = rangerP then { s with mgt := { s.mgt with running := false } }
  else
    let g := getEngine s p
    let s := setEngine p
      { g with
        run := if g.run = .halted then .halted else .idle, kind := 0, cycMax := max g.cycMax g.proc.cycles,
        proc := { g.proc with stack := [], rets := [] } } s
    if g.kind = 5 then icuTrigger p s else s

/-- The state an instruction leaves. -/
def settle (p : Nat) : IRes → State
  | .go s => s
  | .fault c a s => procFault p c a s
  | .stop s => endInvocation p s
  | .wait _ s => s

/-- The processor runs, and its program counter is at the row. -/
def atRow (op : EOp) (p : Nat) (s : State) : Bool :=
  !stopped s && procRuns s p && (match fetchSlot s p (procOf s p).pc with | .got code => op.is p code s | _ => false)

/-- A row of the instruction tables as a command: it acts when the processor runs and its program counter is at it. -/
def runRow (ops : List EOp) (op : EOp) (p : Nat) (s : State) : Host.Outcome State Fault Refusal :=
  live s <|
    if procRuns s p then
      match fetchSlot s p (procOf s p).pc with
      | .got code => if op.is p code s then .next (settle p (runOp ops op p code s)) else .next s
      | _ => .next s
    else .next s

/-- The instruction at the program counter, whatever it is (R278, R294). -/
def runAny (ops : List EOp) (p : Nat) (s : State) : State :=
  let a := (procOf s p).pc
  match fetchSlot s p a with
  | .got code =>
    match findOp ops p code s with
    | some op => settle p (runOp ops op p code s)
    | none => procFault p 1 a s
  | f => settle p (fetchFault f a s)

/-! ### Starting an invocation (R269–R272) -/

/-- META (R271). -/
def metaWord (t : Trigger) (pre : Bool) (q : Quality) : W48 :=
  pack [(t.kind, 45), (b2n t.gap, 44), (b2n pre, 43), (qcode q, 41), (b2n t.sample.sat, 40), (b2n t.sample.ovr, 39),
    (b2n t.sample.filled, 38), (t.entry, 31), (t.index, 19), (t.evt, 17)]

/-- The sample an invocation takes its STAMP from: the trigger's, or now for ICU and INIT (R270). -/
def startSample (t : Trigger) (s : State) : Sample :=
  if t.kind = 5 ∨ t.kind = 1 then stampNow s else t.sample

/-- VALUE0 (R270). -/
def startValue (e : Nat) (t : Trigger) (s : State) : W48 :=
  match t.kind with
  | 2 | 3 => t.value0
  | 5 => match icuFirst (icuView s e) with | some n => BitVec.ofNat 48 n | none => BitVec.allOnes 48
  | _ => 0

/-- The invocation of a trigger begins (R270). -/
def startInvocation (e : Nat) (t : Trigger) (s : State) : State :=
  let g := getEngine s e
  let x := startSample t s
  let v1 : W48 := if t.kind = 2 ∨ t.kind = 3 then t.value1 else 0
  bumpWrap (eeA e + 0x20) (setEngine e
    { g with
      run := .busy, kind := t.kind, queue := g.queue.drop 1,
      proc := { stack := [metaWord { t with sample := x } (decide (x.era ≠ s.tb.stepCnt)) x.qual, short x.stamp, v1, startValue e t s],
                pc := 4 * entryAddr s e t.entry, budget := entryBudget s e t.entry, entry := t.entry,
                stamp := x.stamp, qual := x.qual, sat := x.sat, ovr := x.ovr, filled := x.filled, era := x.era } } s)

/-- INVOCATION_START (R270). -/
def execInvocationStart (e : Nat) (s : State) : Host.Outcome State Fault Refusal := live s <|
  let g := getEngine s e
  if e < 16 ∧ s.power.cur = .s0 ∧ g.state = .on ∧ g.run = .idle then
    match g.queue with
    | t :: _ => .next (startInvocation e t s)
    | [] => .next s
  else .next s

/-- TRIGGER (R267–R269): a trigger of an entry arises; `v0`, `v1` and `x` are what it carries. An INIT trigger arises
only with its causes, an ICU trigger only from a view that is not empty. -/
def execTrigger (e entry : Nat) (gap : Bool) (v0 v1 : W48) (x : Sample) (s : State) : Host.Outcome State Fault Refusal := live s <|
  let k := entryKind s e entry
  if 16 ≤ e ∨ 32 ≤ entry ∨ !engineEn s e ∨ s.power.cur ≠ .s0 then .next s
  else if k = 5 then .next (icuTrigger e s)
  else if 2 ≤ k ∧ k ≤ 4 then
    .next (pushTrigger e
      { kind := k, entry := entry, index := entryIndex s e entry, evt := if k = 4 then entryEvt s e entry else 0,
        value0 := v0, value1 := v1, gap := gap && decide (k = 2), sample := x } s)
  else .next s

end Sys2Proof.Machine
end

