-- ==== Sys2Proof/Machine/IsaBasic.lean ====
section
/-! DEFINITION. Engine instructions of classes 0x0 to 0x3: stack and literals, arithmetic, logic and shift, compare
(R298–R301). -/

namespace Sys2Proof.Machine
open Sys2Proof

/-! ### Shapes of instructions -/

/-- An instruction that replaces the top n items by the results of a function, deepest item first. -/
def stackRun (n : Nat) (f : List W48 → List W48) (x : Ctx) (s : State) : IRes :=
  let pr := procOf s x.p
  .go (setProc x.p { pr with stack := (f (pr.stack.take n).reverse).reverse ++ pr.stack.drop n } s)

/-- An instruction that only works on the operand stack. -/
def pureOp (code ins outs cy : Nat) (f : List W48 → List W48) : EOp :=
  { lo := code, hi := code, pops := fun _ _ => ins, pushes := fun _ _ => outs, cycles := fun _ _ _ => cy, run := stackRun ins f }

/-- ( a -- f a ). -/
def unOp (code cy : Nat) (f : W48 → W48) : EOp := pureOp code 1 1 cy (fun l => [f (l.getD 0 0)])

/-- ( a b -- f a b ). -/
def binOp (code cy : Nat) (f : W48 → W48 → W48) : EOp := pureOp code 2 1 cy (fun l => [f (l.getD 0 0) (l.getD 1 0)])

/-- ( a -- f a k ), k = code − lo. -/
def unRange (lo hi : Nat) (f : W48 → Nat → W48) : EOp :=
  { lo := lo, hi := hi, pops := fun _ _ => 1, pushes := fun _ _ => 1,
    run := fun x s => stackRun 1 (fun l => [f (l.getD 0 0) x.k]) x s }

/-- ( a b -- f a b ), DIVZ when b = 0. -/
def divOp (code : Nat) (f : W48 → W48 → W48) : EOp :=
  { binOp code 26 f with
    run := fun x s => if (procOf s x.p).stack.getD 0 0 = 0 then .fault 12 x.addr s
      else stackRun 2 (fun l => [f (l.getD 0 0) (l.getD 1 0)]) x s }

/-- A flag (R296). -/
def flag (b : Bool) : W48 := if b then BitVec.allOnes 48 else 0

/-! ### Arithmetic shared with the splices -/

def wMulh (a b : W48) : W48 := ofInt ((sval a * sval b).fdiv (2 ^ 48))
def wAbs (a : W48) : W48 := ofInt (sval a).natAbs
def wMin (a b : W48) : W48 := if sval a ≤ sval b then a else b
def wMax (a b : W48) : W48 := if sval a ≤ sval b then b else a
/-- Shifts by an unsigned count (R300). -/
def wShl (a n : W48) : W48 := if 48 ≤ n.toNat then 0 else a <<< n.toNat
def wShr (a n : W48) : W48 := if 48 ≤ n.toNat then 0 else a >>> n.toNat
def wSar (a n : W48) : W48 := a.sshiftRight (min n.toNat 47)
def wPopc (a : W48) : W48 := BitVec.ofNat 48 ((List.range 48).filter (fun i => bit a i)).length
def wClz (a : W48) : W48 := BitVec.ofNat 48 ((List.range 48).takeWhile (fun i => !bit a (47 - i))).length
/-- FIELD (R300). -/
def wField (a l w : W48) : W48 :=
  if 48 ≤ l.toNat then 0
  else if 48 ≤ w.toNat then a >>> l.toNat else BitVec.ofNat 48 ((a.toNat >>> l.toNat) % 2 ^ w.toNat)

/-! ### Class 0x0 (R298) -/

def opNop : EOp := { lo := 0x000, hi := 0x000 }
def opDup : EOp := pureOp 0x001 1 2 1 (fun l => [l.getD 0 0, l.getD 0 0])
def opDrop : EOp := pureOp 0x002 1 0 1 (fun _ => [])
def opSwap : EOp := pureOp 0x003 2 2 1 (fun l => [l.getD 1 0, l.getD 0 0])
def opOver : EOp := pureOp 0x004 2 3 1 (fun l => [l.getD 0 0, l.getD 1 0, l.getD 0 0])
def opRot : EOp := pureOp 0x005 3 3 1 (fun l => [l.getD 1 0, l.getD 2 0, l.getD 0 0])
def opNip : EOp := pureOp 0x006 2 1 1 (fun l => [l.getD 1 0])
def opTuck : EOp := pureOp 0x007 2 3 1 (fun l => [l.getD 1 0, l.getD 0 0, l.getD 1 0])
/-- n is the depth before the push. -/
def opDepth : EOp :=
  { lo := 0x008, hi := 0x008, pushes := fun _ _ => 1,
    run := fun x s => stackRun 0 (fun _ => [BitVec.ofNat 48 (procOf s x.p).stack.length]) x s }
def opLit8 : EOp :=
  { lo := 0x010, hi := 0x010, operand := 8, pushes := fun _ _ => 1,
    run := fun x s => stackRun 0 (fun _ => [ofInt (signed 8 x.opnd.toNat)]) x s }
/-- The next word whole; the rest of the current word is skipped (R291). -/
def opLitw : EOp :=
  { lo := 0x011, hi := 0x011, literal := true, norep := true, pushes := fun _ _ => 1, cycles := fun _ _ _ => 2,
    run := fun x s => stackRun 0 (fun _ => [x.opnd]) x s }
def opLits : EOp :=
  { lo := 0x020, hi := 0x03F, pushes := fun _ _ => 1,
    run := fun x s => stackRun 0 (fun _ => [ofInt ((x.k : Int) - 16)]) x s }
def opPick : EOp :=
  { lo := 0x040, hi := 0x05F, pops := fun x _ => x.k + 1, pushes := fun x _ => x.k + 2,
    run := fun x s => stackRun 0 (fun _ => [(procOf s x.p).stack.getD x.k 0]) x s }

/-! ### Class 0x1 (R299) -/

def opAdd : EOp := binOp 0x100 1 (fun a b => a + b)
def opSub : EOp := binOp 0x101 1 (fun a b => a - b)
def opNeg : EOp := unOp 0x102 1 (fun a => -a)
def opAbs : EOp := unOp 0x103 1 wAbs
def opMul : EOp := binOp 0x104 2 (fun a b => a * b)
def opMulh : EOp := binOp 0x105 2 wMulh
def opDiv : EOp := divOp 0x106 (fun a b => ofInt ((sval a).tdiv (sval b)))
def opMod : EOp := divOp 0x107 (fun a b => ofInt (sval a - (sval a).tdiv (sval b) * sval b))
def opInc : EOp := unOp 0x108 1 (fun a => a + 1)
def opDec : EOp := unOp 0x109 1 (fun a => a - 1)
def opMin : EOp := binOp 0x10A 1 wMin
def opMax : EOp := binOp 0x10B 1 wMax

/-! ### Class 0x2 (R300) -/

def opAnd : EOp := binOp 0x200 1 (fun a b => a &&& b)
def opOr : EOp := binOp 0x201 1 (fun a b => a ||| b)
def opXor : EOp := binOp 0x202 1 (fun a b => a ^^^ b)
def opNot : EOp := unOp 0x203 1 (fun a => ~~~a)
def opShl : EOp := binOp 0x204 1 wShl
def opShr : EOp := binOp 0x205 1 wShr
def opSar : EOp := binOp 0x206 1 wSar
def opField : EOp := pureOp 0x207 3 1 1 (fun l => [wField (l.getD 0 0) (l.getD 1 0) (l.getD 2 0)])
def opPopc : EOp := unOp 0x208 1 wPopc
def opClz : EOp := unOp 0x209 1 wClz
def opShlk : EOp := unRange 0x240 0x26F (fun a k => a <<< k)
def opShrk : EOp := unRange 0x270 0x29F (fun a k => a >>> k)
def opSark : EOp := unRange 0x2A0 0x2CF (fun a k => a.sshiftRight k)

/-! ### Class 0x3 (R301) -/

def opEq : EOp := binOp 0x300 1 (fun a b => flag (decide (a = b)))
def opNe : EOp := binOp 0x301 1 (fun a b => flag (decide (a ≠ b)))
def opLt : EOp := binOp 0x302 1 (fun a b => flag (decide (sval a < sval b)))
def opLe : EOp := binOp 0x303 1 (fun a b => flag (decide (sval a ≤ sval b)))
def opGt : EOp := binOp 0x304 1 (fun a b => flag (decide (sval b < sval a)))
def opGe : EOp := binOp 0x305 1 (fun a b => flag (decide (sval b ≤ sval a)))
def opUlt : EOp := binOp 0x306 1 (fun a b => flag (decide (a < b)))
def opUge : EOp := binOp 0x307 1 (fun a b => flag (decide (b ≤ a)))
def opZeq : EOp := unOp 0x308 1 (fun a => flag (decide (a = 0)))
def opZlt : EOp := unOp 0x309 1 (fun a => flag (decide (sval a < 0)))
def opWithin : EOp :=
  pureOp 0x30A 3 1 1 (fun l =>
    [flag (decide (sval (l.getD 1 0) ≤ sval (l.getD 0 0) ∧ sval (l.getD 0 0) ≤ sval (l.getD 2 0)))])

/-- Classes 0x0 to 0x3 in code order. -/
def basicOps : List EOp :=
  [opNop, opDup, opDrop, opSwap, opOver, opRot, opNip, opTuck, opDepth, opLit8, opLitw, opLits, opPick] ++
  [opAdd, opSub, opNeg, opAbs, opMul, opMulh, opDiv, opMod, opInc, opDec, opMin, opMax] ++
  [opAnd, opOr, opXor, opNot, opShl, opShr, opSar, opField, opPopc, opClz, opShlk, opShrk, opSark] ++
  [opEq, opNe, opLt, opLe, opGt, opGe, opUlt, opUge, opZeq, opZlt, opWithin]

/-! ### The commands: processor p executes the instruction at its program counter -/

/-- NOP (R298). -/
def execNop (p : Nat) (s : State) : Host.Outcome State Fault Refusal := runRow [] opNop p s
/-- DUP (R298). -/
def execDup (p : Nat) (s : State) : Host.Outcome State Fault Refusal := runRow [] opDup p s
/-- DROP (R298). -/
def execDrop (p : Nat) (s : State) : Host.Outcome State Fault Refusal := runRow [] opDrop p s
/-- SWAP (R298). -/
def execSwap (p : Nat) (s : State) : Host.Outcome State Fault Refusal := runRow [] opSwap p s
/-- OVER (R298). -/
def execOverOp (p : Nat) (s : State) : Host.Outcome State Fault Refusal := runRow [] opOver p s
/-- ROT (R298). -/
def execRot (p : Nat) (s : State) : Host.Outcome State Fault Refusal := runRow [] opRot p s
/-- NIP (R298). -/
def execNip (p : Nat) (s : State) : Host.Outcome State Fault Refusal := runRow [] opNip p s
/-- TUCK (R298). -/
def execTuck (p : Nat) (s : State) : Host.Outcome State Fault Refusal := runRow [] opTuck p s
/-- DEPTH (R298). -/
def execDepth (p : Nat) (s : State) : Host.Outcome State Fault Refusal := runRow [] opDepth p s
/-- LIT8 (R298). -/
def execLit8 (p : Nat) (s : State) : Host.Outcome State Fault Refusal := runRow [] opLit8 p s
/-- LITW (R291). -/
def execLitw (p : Nat) (s : State) : Host.Outcome State Fault Refusal := runRow [] opLitw p s
/-- LITS (R298). -/
def execLits (p : Nat) (s : State) : Host.Outcome State Fault Refusal := runRow [] opLits p s
/-- PICK (R298). -/
def execPick (p : Nat) (s : State) : Host.Outcome State Fault Refusal := runRow [] opPick p s
/-- ADD (R299). -/
def execAdd (p : Nat) (s : State) : Host.Outcome State Fault Refusal := runRow [] opAdd p s
/-- SUB (R299). -/
def execSub (p : Nat) (s : State) : Host.Outcome State Fault Refusal := runRow [] opSub p s
/-- NEG (R299). -/
def execNeg (p : Nat) (s : State) : Host.Outcome State Fault Refusal := runRow [] opNeg p s
/-- ABS (R299). -/
def execAbs (p : Nat) (s : State) : Host.Outcome State Fault Refusal := runRow [] opAbs p s
/-- MUL (R299). -/
def execMul (p : Nat) (s : State) : Host.Outcome State Fault Refusal := runRow [] opMul p s
/-- MULH (R299). -/
def execMulh (p : Nat) (s : State) : Host.Outcome State Fault Refusal := runRow [] opMulh p s
/-- DIV (R299). -/
def execDiv (p : Nat) (s : State) : Host.Outcome State Fault Refusal := runRow [] opDiv p s
/-- MOD (R299). -/
def execMod (p : Nat) (s : State) : Host.Outcome State Fault Refusal := runRow [] opMod p s
/-- INC (R299). -/
def execInc (p : Nat) (s : State) : Host.Outcome State Fault Refusal := runRow [] opInc p s
/-- DEC (R299). -/
def execDec (p : Nat) (s : State) : Host.Outcome State Fault Refusal := runRow [] opDec p s
/-- MIN (R299). -/
def execMin (p : Nat) (s : State) : Host.Outcome State Fault Refusal := runRow [] opMin p s
/-- MAX (R299). -/
def execMax (p : Nat) (s : State) : Host.Outcome State Fault Refusal := runRow [] opMax p s
/-- AND (R300). -/
def execAndOp (p : Nat) (s : State) : Host.Outcome State Fault Refusal := runRow [] opAnd p s
/-- OR (R300). -/
def execOrOp (p : Nat) (s : State) : Host.Outcome State Fault Refusal := runRow [] opOr p s
/-- XOR (R300). -/
def execXorOp (p : Nat) (s : State) : Host.Outcome State Fault Refusal := runRow [] opXor p s
/-- NOT (R300). -/
def execNotOp (p : Nat) (s : State) : Host.Outcome State Fault Refusal := runRow [] opNot p s
/-- SHL (R300). -/
def execShl (p : Nat) (s : State) : Host.Outcome State Fault Refusal := runRow [] opShl p s
/-- SHR (R300). -/
def execShr (p : Nat) (s : State) : Host.Outcome State Fault Refusal := runRow [] opShr p s
/-- SAR (R300). -/
def execSar (p : Nat) (s : State) : Host.Outcome State Fault Refusal := runRow [] opSar p s
/-- FIELD (R300). -/
def execField (p : Nat) (s : State) : Host.Outcome State Fault Refusal := runRow [] opField p s
/-- POPC (R300). -/
def execPopc (p : Nat) (s : State) : Host.Outcome State Fault Refusal := runRow [] opPopc p s
/-- CLZ (R300). -/
def execClz (p : Nat) (s : State) : Host.Outcome State Fault Refusal := runRow [] opClz p s
/-- SHLK (R300). -/
def execShlk (p : Nat) (s : State) : Host.Outcome State Fault Refusal := runRow [] opShlk p s
/-- SHRK (R300). -/
def execShrk (p : Nat) (s : State) : Host.Outcome State Fault Refusal := runRow [] opShrk p s
/-- SARK (R300). -/
def execSark (p : Nat) (s : State) : Host.Outcome State Fault Refusal := runRow [] opSark p s
/-- EQ (R301). -/
def execEqOp (p : Nat) (s : State) : Host.Outcome State Fault Refusal := runRow [] opEq p s
/-- NE (R301). -/
def execNeOp (p : Nat) (s : State) : Host.Outcome State Fault Refusal := runRow [] opNe p s
/-- LT (R301). -/
def execLtOp (p : Nat) (s : State) : Host.Outcome State Fault Refusal := runRow [] opLt p s
/-- LE (R301). -/
def execLeOp (p : Nat) (s : State) : Host.Outcome State Fault Refusal := runRow [] opLe p s
/-- GT (R301). -/
def execGtOp (p : Nat) (s : State) : Host.Outcome State Fault Refusal := runRow [] opGt p s
/-- GE (R301). -/
def execGeOp (p : Nat) (s : State) : Host.Outcome State Fault Refusal := runRow [] opGe p s
/-- ULT (R301). -/
def execUlt (p : Nat) (s : State) : Host.Outcome State Fault Refusal := runRow [] opUlt p s
/-- UGE (R301). -/
def execUge (p : Nat) (s : State) : Host.Outcome State Fault Refusal := runRow [] opUge p s
/-- ZEQ (R301). -/
def execZeq (p : Nat) (s : State) : Host.Outcome State Fault Refusal := runRow [] opZeq p s
/-- ZLT (R301). -/
def execZlt (p : Nat) (s : State) : Host.Outcome State Fault Refusal := runRow [] opZlt p s
/-- WITHIN (R301). -/
def execWithin (p : Nat) (s : State) : Host.Outcome State Fault Refusal := runRow [] opWithin p s

end Sys2Proof.Machine
end

