-- ==== Sys2Proof/Machine/IsaMemory.lean ====
section
/-! DEFINITION. Engine instructions of classes 0x4, 0x5 and 0x9: control flow, memory, repeat count and loop
(R266, R302, R303, R307). -/

namespace Sys2Proof.Machine
open Sys2Proof

/-! ### Class 0x4 (R302) -/

/-- The branch target T of R292. -/
def target (x : Ctx) : Int := (x.addr : Int) + 2 + signed 8 x.opnd.toNat

/-- n items are popped. -/
def popN (p n : Nat) (s : State) : State := let pr := procOf s p; setProc p { pr with stack := pr.stack.drop n } s

/-- Execution goes to a slot address, or IADDR is raised. -/
def goTo (x : Ctx) (t : Int) (s : State) : IRes :=
  if slotMapped s x.p t then .go (setProc x.p { procOf s x.p with pc := t.toNat } s) else .fault 8 x.addr s

/-- The same, with the address of the next instruction pushed on the return stack. -/
def callTo (x : Ctx) (t : Int) (s : State) : IRes :=
  match goTo x t s with
  | .go s' => let pr := procOf s' x.p; .go (setProc x.p { pr with rets := x.next :: pr.rets } s')
  | r => r

/-- A branch that pops f and is taken when f is zero, or when it is not. -/
def condOp (code : Nat) (onZero : Bool) : EOp :=
  { lo := code, hi := code, operand := 8, norep := true, pops := fun _ _ => 1,
    cycles := fun _ pr _ => match pr.stack with | f :: _ => if decide (f = 0) = onZero then 2 else 1 | [] => 1,
    run := fun x s =>
      let f := (procOf s x.p).stack.getD 0 0
      let s := popN x.p 1 s
      if decide (f = 0) = onZero then goTo x (target x) s else .go s }

def opBra : EOp :=
  { lo := 0x400, hi := 0x400, operand := 8, norep := true, cycles := fun _ _ _ => 2, run := fun x s => goTo x (target x) s }
def opBz : EOp := condOp 0x401 true
def opBnz : EOp := condOp 0x402 false
def opCall : EOp :=
  { lo := 0x403, hi := 0x403, operand := 8, norep := true, cycles := fun _ _ _ => 2, calls := true,
    run := fun x s => callTo x (target x) s }
def opJmpi : EOp :=
  { lo := 0x404, hi := 0x404, norep := true, pops := fun _ _ => 1, cycles := fun _ _ _ => 2,
    run := fun x s => goTo x (sval ((procOf s x.p).stack.getD 0 0)) (popN x.p 1 s) }
def opCalli : EOp :=
  { lo := 0x405, hi := 0x405, norep := true, pops := fun _ _ => 1, cycles := fun _ _ _ => 2, calls := true,
    run := fun x s => callTo x (sval ((procOf s x.p).stack.getD 0 0)) (popN x.p 1 s) }
def opRet : EOp :=
  { lo := 0x406, hi := 0x406, norep := true, cycles := fun _ _ _ => 2,
    run := fun x s =>
      let pr := procOf s x.p
      match pr.rets with
      | a :: rest => .go (setProc x.p { pr with rets := rest, pc := a } s)
      | [] => .stop s }
def opEnd : EOp := { lo := 0x407, hi := 0x407, norep := true, run := fun _ s => .stop s }

/-! ### The data space (R266, R303, R452) -/

/-- A pending or active word of an engine's view: sources 48 i on. -/
def viewWord (v : BitVec 128) (i : Nat) : W48 := BitVec.ofNat 48 ((v.toNat >>> (48 * i)) % 2 ^ 48)

/-- A local register as an instruction of `own` cycles reads it (R266, R303). -/
def localR (s : State) (e a own : Nat) : W48 :=
  match a with
  | 0x1000 => viewWord (icuView s e) 0
  | 0x1001 => viewWord (icuView s e) 1
  | 0x1002 => viewWord (icuView s e) 2
  | 0x1003 => match icuFirst (icuView s e) with | some n => BitVec.ofNat 48 n | none => BitVec.allOnes 48
  | 0x1006 => viewWord (icuActive s e) 0
  | 0x1007 => viewWord (icuActive s e) 1
  | 0x1008 => viewWord (icuActive s e) 2
  | 0x1009 => BitVec.ofNat 48 ((procOf s e).budget + own - (procOf s e).cycles)
  | 0x100A => BitVec.ofNat 48 e
  | _ => 0

/-- A store to a local register: CLAIM and COMPLETE act, any other is ignored (R303). -/
def localW (e a : Nat) (v : W48) (s : State) : State :=
  match a with
  | 0x1004 => icuClaim e v.toNat s
  | 0x1005 => icuComplete e v.toNat s
  | _ => s

/-- A load from the data space: the value, or DADDR 7 or DPAR 9. -/
def loadData (x : Ctx) (a : W48) (own : Nat) (s : State) : Except Nat W48 :=
  if a.toNat < dataSize x.p then (if dataBad s x.p a.toNat then .error 9 else .ok (dataR s x.p a.toNat))
  else if x.p ≠ rangerP ∧ a.toNat < 0x1100 then .ok (localR s x.p a.toNat own)
  else .error 7

/-- A store to the data space: the state after it, or DADDR. -/
def storeData (x : Ctx) (a v : W48) (s : State) : Except Nat State :=
  if a.toNat < dataSize x.p then .ok (setData x.p a.toNat v s)
  else if x.p ≠ rangerP ∧ a.toNat < 0x1100 then .ok (localW x.p a.toNat v s)
  else .error 7

/-- Items are pushed after n are popped, deepest first. -/
def replaceTop (p n : Nat) (vs : List W48) (s : State) : State :=
  let pr := procOf s p
  setProc p { pr with stack := vs.reverse ++ pr.stack.drop n } s

/-! ### Class 0x5 (R303) -/

def topOf (s : State) (p i : Nat) : W48 := (procOf s p).stack.getD i 0

def opLd : EOp :=
  { lo := 0x500, hi := 0x500, pops := fun _ _ => 1, pushes := fun _ _ => 1, cycles := fun _ _ _ => 2,
    run := fun x s =>
      match loadData x (topOf s x.p 0) 2 s with
      | .ok w => .go (replaceTop x.p 1 [w] s)
      | .error c => .fault c x.addr s }
def opSt : EOp :=
  { lo := 0x501, hi := 0x501, pops := fun _ _ => 2,
    run := fun x s =>
      match storeData x (topOf s x.p 0) (topOf s x.p 1) s with
      | .ok s' => .go (popN x.p 2 s')
      | .error c => .fault c x.addr s }
def opLdi : EOp :=
  { lo := 0x502, hi := 0x502, operand := 12, pushes := fun _ _ => 1, cycles := fun _ _ _ => 2,
    run := fun x s =>
      if dataBad s x.p x.opnd.toNat then .fault 9 x.addr s else .go (replaceTop x.p 0 [dataR s x.p x.opnd.toNat] s) }
def opSti : EOp :=
  { lo := 0x503, hi := 0x503, operand := 12, pops := fun _ _ => 1,
    run := fun x s => .go (popN x.p 1 (setData x.p x.opnd.toNat (topOf s x.p 0) s)) }
def opLdp : EOp :=
  { lo := 0x504, hi := 0x504, pops := fun _ _ => 1, pushes := fun _ _ => 2, cycles := fun _ _ _ => 2,
    run := fun x s =>
      match loadData x (topOf s x.p 0) 2 s with
      | .ok w => .go (replaceTop x.p 1 [topOf s x.p 0 + 1, w] s)
      | .error c => .fault c x.addr s }
def opStp : EOp :=
  { lo := 0x505, hi := 0x505, pops := fun _ _ => 2, pushes := fun _ _ => 1,
    run := fun x s =>
      match storeData x (topOf s x.p 0) (topOf s x.p 1) s with
      | .ok s' => .go (replaceTop x.p 2 [topOf s x.p 0 + 1] s')
      | .error c => .fault c x.addr s }
def opAddm : EOp :=
  { lo := 0x506, hi := 0x506, pops := fun _ _ => 2, cycles := fun _ _ _ => 3,
    run := fun x s =>
      let a := (topOf s x.p 0).toNat
      if dataSize x.p ≤ a then .fault 7 x.addr s
      else if dataBad s x.p a then .fault 9 x.addr s
      else .go (popN x.p 2 (setData x.p a (dataR s x.p a + topOf s x.p 1) s)) }

/-! ### Class 0x9 without the prefixes (R307) -/

def opSetrc : EOp :=
  { lo := 0x901, hi := 0x901, pops := fun _ _ => 1,
    run := fun x s =>
      let pr := procOf s x.p
      .go (setProc x.p { pr with rc := (pr.stack.getD 0 0).setWidth 16, stack := pr.stack.drop 1 } s) }
def opGetrc : EOp :=
  { lo := 0x902, hi := 0x902, pushes := fun _ _ => 1,
    run := fun x s => .go (replaceTop x.p 0 [(procOf s x.p).rc.setWidth 48] s) }
def opLoop : EOp :=
  { lo := 0x903, hi := 0x903, operand := 8, norep := true, cycles := fun _ pr _ => if 2 ≤ pr.rc.toNat then 2 else 1,
    run := fun x s =>
      let pr := procOf s x.p
      let s' := setProc x.p { pr with rc := if pr.rc = 0 then 0 else pr.rc - 1 } s
      if 2 ≤ pr.rc.toNat then goTo x (target x) s' else .go s' }

/-- Classes 0x4, 0x5 and 0x9, the prefixes left out. -/
def memoryOps : List EOp :=
  [opBra, opBz, opBnz, opCall, opJmpi, opCalli, opRet, opEnd] ++
  [opLd, opSt, opLdi, opSti, opLdp, opStp, opAddm] ++ [opSetrc, opGetrc, opLoop]

/-! ### The commands: processor p executes the instruction at its program counter -/

/-- BRA (R302). -/
def execBra (p : Nat) (s : State) : Host.Outcome State Fault Refusal := runRow [] opBra p s
/-- BZ (R302). -/
def execBz (p : Nat) (s : State) : Host.Outcome State Fault Refusal := runRow [] opBz p s
/-- BNZ (R302). -/
def execBnz (p : Nat) (s : State) : Host.Outcome State Fault Refusal := runRow [] opBnz p s
/-- CALL (R302). -/
def execCall (p : Nat) (s : State) : Host.Outcome State Fault Refusal := runRow [] opCall p s
/-- JMPI (R302). -/
def execJmpi (p : Nat) (s : State) : Host.Outcome State Fault Refusal := runRow [] opJmpi p s
/-- CALLI (R302). -/
def execCalli (p : Nat) (s : State) : Host.Outcome State Fault Refusal := runRow [] opCalli p s
/-- RET (R302). -/
def execRet (p : Nat) (s : State) : Host.Outcome State Fault Refusal := runRow [] opRet p s
/-- END (R302). -/
def execEndOp (p : Nat) (s : State) : Host.Outcome State Fault Refusal := runRow [] opEnd p s
/-- The parity check of the engine's read at an instruction fails at a DRAM word: the word has a parity error from then
on (R265). -/
def spoilData (par : Bool) (op : EOp) (p : Nat) (a : W48) (s : State) : State :=
  if par ∧ p < 16 ∧ a.toNat < 0x1000 ∧ atRow op p s ∧ !dataBad s p a.toNat then { s with poisoned := dramA p a.toNat :: s.poisoned } else s

/-- LD (R303); `par`: the word read has a parity error. -/
def execLd (p : Nat) (par : Bool) (s : State) : Host.Outcome State Fault Refusal := runRow [] opLd p (spoilData par opLd p (topOf s p 0) s)
/-- ST (R303). -/
def execSt (p : Nat) (s : State) : Host.Outcome State Fault Refusal := runRow [] opSt p s
/-- LDI (R303). -/
def execLdi (p : Nat) (par : Bool) (s : State) : Host.Outcome State Fault Refusal :=
  match operandOf opLdi p (procOf s p).pc s with
  | .ok (a, _) => runRow [] opLdi p (spoilData par opLdi p a s)
  | .error _ => runRow [] opLdi p s
/-- STI (R303). -/
def execSti (p : Nat) (s : State) : Host.Outcome State Fault Refusal := runRow [] opSti p s
/-- LDP (R303). -/
def execLdp (p : Nat) (par : Bool) (s : State) : Host.Outcome State Fault Refusal := runRow [] opLdp p (spoilData par opLdp p (topOf s p 0) s)
/-- STP (R303). -/
def execStp (p : Nat) (s : State) : Host.Outcome State Fault Refusal := runRow [] opStp p s
/-- ADDM (R303). -/
def execAddm (p : Nat) (par : Bool) (s : State) : Host.Outcome State Fault Refusal := runRow [] opAddm p (spoilData par opAddm p (topOf s p 0) s)
/-- SETRC (R307). -/
def execSetrc (p : Nat) (s : State) : Host.Outcome State Fault Refusal := runRow [] opSetrc p s
/-- GETRC (R307). -/
def execGetrc (p : Nat) (s : State) : Host.Outcome State Fault Refusal := runRow [] opGetrc p s
/-- LOOP (R307). -/
def execLoop (p : Nat) (s : State) : Host.Outcome State Fault Refusal := runRow [] opLoop p s

end Sys2Proof.Machine
end

