-- ==== Sys2Proof/Machine/Operator.lean ====
section
/-! DEFINITION. Event pins, touch keys and event outputs (R126–R139). -/

namespace Sys2Proof.Machine
open Sys2Proof

/-! ### Queues shared by pins and keys (R130) -/

/-- The stream that takes the events of a source, if a channel names it. -/
def eventStream (s : State) (kind addr : Nat) : Option Nat :=
  match chanOfSource s kind addr with
  | some c => if chStrEn s c then some (chStream s c) else none
  | none => none

/-- The queue of a pin (kind 5) or key (kind 6). -/
def opQueue (s : State) (kind n : Nat) : List OpEvent := if kind = 5 then (getEvp s n).queue else (getTch s n).queue

/-- The open run of refused events of a pin or key. -/
def opRun (s : State) (kind n : Nat) : Option RefRun := if kind = 5 then (getEvp s n).run else (getTch s n).run

def setOpQueue (kind n : Nat) (q : List OpEvent) (s : State) : State :=
  if kind = 5 then setEvp n { getEvp s n with queue := q } s else setTch n { getTch s n with queue := q } s

def setOpRun (kind n : Nat) (r : Option RefRun) (s : State) : State :=
  if kind = 5 then setEvp n { getEvp s n with run := r } s else setTch n { getTch s n with run := r } s

/-- The run of refused events closes: it waits behind the events queued before it, ahead of later ones (R130). -/
def closeOpRun (kind n : Nat) (s : State) : State :=
  match opRun s kind n with
  | some r =>
    setOpQueue kind n (opQueue s kind n ++ [{ sample := { stamp := r.first, qual := r.qual, era := r.era }, gap := some r }])
      (setOpRun kind n none s)
  | none => s

/-- An event is refused for want of room in its queue: it counts on the stream and joins the run (R130). -/
def refuseEvent (kind n k : Nat) (x : Sample) (s : State) : State :=
  let st := getStream s k
  let r := match opRun s kind n with
    | some r => { r with last := x.stamp, count := r.count + 1 }
    | none => oneRefused 1 x
  setOpRun kind n (some r) (setStream k { st with offered := st.offered + 1, refused := st.refused + 1 } s)

/-- A confirmed event reaches its queue of 16; `refusedA` counts the ones it has no room for (R130, R132). -/
def queueEvent (kind n : Nat) (w : W48) (x : Sample) (refusedA : Nat) (s : State) : State :=
  if ((opQueue s kind n).filter (fun e => e.gap.isNone)).length < 16 then
    let s := closeOpRun kind n s
    setOpQueue kind n (opQueue s kind n ++ [{ word := w, sample := x }]) s
  else
    let s := bump refusedA s
    match eventStream s kind n with
    | some k => if streamRuns s k then refuseEvent kind n k x s else s
    | none => s

/-- The head of a pin's or key's queue passes to its stream (R130). -/
def drainOne (kind n : Nat) (s : State) : State :=
  match opQueue s kind n with
  | [] => s
  | e :: rest =>
    let s := setOpQueue kind n rest s
    match e.gap with
    | none => channelEvent kind n (kind - 5) e.sample e.word s
    | some r => match eventStream s kind n with
      | some k => closedGap k r s
      | none => s

/-- All that a pin's or key's queue holds, and its open run, pass to its stream. -/
def drainAll (kind n : Nat) (s : State) : State :=
  let s := closeOpRun kind n s
  (opQueue s kind n).foldl (fun s _ => drainOne kind n s) s

/-- A run of refused events that has lasted half its stream's bound closes (R130). -/
def closeLongOpRun (k kind n : Nat) (s : State) : State :=
  match opRun s kind n with
  | some r => if eventStream s kind n = some k ∧ boundOf s k / 2 ≤ sinceStamp s r.first r.era then closeOpRun kind n s else s
  | none => s

/-- GAP_RUN_CLOSE (R95, R130): the span of a run of refused samples or events reaches half its stream's bound. -/
def execGapRunClose (k : Nat) (s : State) : Host.Outcome State Fault Refusal := live s <|
  .next (forEach (List.range 16) (fun n s => closeLongOpRun k 6 n (closeLongOpRun k 5 n s)) (closeLongRun k s))

/-! ### Event pins (R126–R130) -/

def evpCfg (s : State) (n : Nat) : W32 := cfgR s (evpA n)
def evpEn (s : State) (n : Nat) : Bool := bit (evpCfg s n) 0
def evpDb (s : State) (n : Nat) : Nat := bits (evpCfg s n) 19 8

/-- A transition to `level` is of the active kind (R126, R139). -/
def evpActive (s : State) (n : Nat) (level : Bool) : Bool :=
  match bits (evpCfg s n) 5 4 with | 0 => level | 1 => !level | _ => true

/-- A confirmed event of the active kind joins the pin's queue (R130). -/
def queuePin (n : Nat) (level : Bool) (x : Sample) (s : State) : State :=
  let w := pack [(b2n level, 8), (n, 0)]
  let s := bump (evpA n + 4) s
  let s := if bit (evpCfg s n) 7 then journal 0x10 x [w] s else s
  let s := if bit (evpCfg s n) 6 then requestWake 1 s else s
  queueEvent 5 n w x (evpA n + 0xC) s

/-- A candidate is confirmed: the level, timers, captures, and for the active kind the event (R127–R130). -/
def confirmPin (n : Nat) (x : Sample) (s : State) : State :=
  let g := getEvp s n
  let level := !g.level
  let s := setEvp n { g with level := level, candidate := none } s
  let act := evpActive s n level
  let s := if act then captureAll 1 (some n) s else s
  let ms := (List.range 32).filter (fun m => tmrSrc s m = 6 && tmrIdx s m = n &&
    (tmrEdge s m = 2 || (tmrEdge s m = 0 && level) || (tmrEdge s m = 1 && !level)))
  let s := forEach ms edge s
  if act then ringTrigger 4 n (icuLatch (34 + n) (queuePin n level x s)) else s

/-- CANDIDATE (R127, R128): an edge that leaves the debounced level; `w` counts WOSC edges since the last crystal edge. -/
def execCandidate (n w : Nat) (s : State) : Host.Outcome State Fault Refusal := live s <|
  let g := getEvp s n
  if 16 ≤ n ∨ !evpEn s n ∨ !g.started ∨ g.candidate.isSome then .next s
  else
    let s := atWosc w s
    let x := stampEdge s
    if evpDb s n = 0 then .next (confirmPin n x s) else .next (setEvp n { g with candidate := some x } s)

/-- EVP_CONFIRMED (R127): the candidate has held across DB crystal edges. -/
def execEvpConfirmed (n w : Nat) (s : State) : Host.Outcome State Fault Refusal := live s <|
  match (getEvp s n).candidate with
  | some x => if n < 16 ∧ evpEn s n then .next (confirmPin n x (atWosc w s)) else .next s
  | none => .next s

/-- PIN_RETURN (R127): the candidate is dropped and BOUNCE counts it. -/
def execPinReturn (n : Nat) (s : State) : Host.Outcome State Fault Refusal := live s <|
  let g := getEvp s n
  if n < 16 ∧ g.candidate.isSome then .next (bump (evpA n + 8) (setEvp n { g with candidate := none } s)) else .next s

/-- EVENT_QUEUE_DRAIN (R130): one event of a pin's or key's queue passes to its stream, in S0. -/
def execEventQueueDrain (touch : Bool) (n : Nat) (s : State) : Host.Outcome State Fault Refusal := live s <|
  if s.power.cur ≠ .s0 ∨ 16 ≤ n ∨ s.phase ≠ .running then .next s else .next (drainOne (if touch then 6 else 5) n s)

/-! ### Touch keys (R131, R132) -/

def tchCfg (s : State) (n : Nat) : W32 := cfgR s (tchA n)
def tchEn (s : State) (n : Nat) : Bool := bit (tchCfg s n) 0
def tchThr (s : State) (n : Nat) : Int := bits (tchCfg s n) 31 20
def tchHys (s : State) (n : Nat) : Int := bits (tchCfg s n) 19 12
def tchConf (s : State) (n : Nat) : Nat := bits (tchCfg s n) 11 8
def tchShift (s : State) (n : Nat) : Nat := bits (tchCfg s n) 7 4
def tchMaxHold (s : State) : Nat := bits (cfgR s (opiA + 0x14)) 15 0

/-- The first key of a scan. -/
def firstKey (s : State) : Option Nat := (List.range 16).find? (tchEn s)

/-- A press or release is emitted (R132, R360). -/
def touchEvent (n : Nat) (press stuck : Bool) (x : Sample) (s : State) : State :=
  let w := pack [(b2n stuck, 9), (b2n press, 8), (n, 0)]
  let s := if bit (tchCfg s n) 3 then journal 0x11 x [w] s else s
  let s := if press && bit (tchCfg s n) 2 then requestWake 2 s else s
  queueEvent 6 n w x (tchA n + 8) s

/-- The baseline filter B := B + (C − B) / 2^BSHIFT, in 1/256 count (R132). -/
def filterBase (b c sh : Nat) (s : State) : Nat × State :=
  let v := roundFree ((b : Rat) + ((256 * c : Nat) - (b : Rat)) / 2 ^ sh) s
  (v.1.toNat, v.2)

/-- A key that is not touched takes a count (R132). -/
def untouched (n c b : Nat) (d : Int) (s : State) : State :=
  let g := getTch s n
  let thr := tchThr s n
  let press := if thr ≤ d then g.pressRun + 1 else 0
  let stamp := if thr ≤ d ∧ g.pressRun = 0 then s.tchStamp else g.runStamp
  let hit := decide (press = tchConf s n)
  let v := if -thr < d ∧ d < thr then filterBase b c (tchShift s n) s else (b, s)
  let s := v.2
  let neg := if d ≤ -thr then g.negRun + 1 else 0
  let reset := decide (neg = tchConf s n)
  let s := setTch n
    { g with
      base := some (if reset then 256 * c else v.1), last := BitVec.ofNat 16 c, touched := hit, pressRun := if hit then 0 else press,
      negRun := if reset then 0 else neg, relRun := 0, scans := 0, runStamp := stamp } s
  if hit then touchEvent n true false stamp s else s

/-- A touched key takes a count (R132). -/
def stillTouched (n c b : Nat) (d : Int) (s : State) : State :=
  let g := getTch s n
  let low := decide (d < tchThr s n - tchHys s n)
  let rel := if low then g.relRun + 1 else 0
  let stamp := if low ∧ g.relRun = 0 then s.tchStamp else g.runStamp
  let hit := decide (rel = tchConf s n)
  let scans := g.scans + 1
  let stuck := !hit && decide (0 < tchMaxHold s ∧ scans = tchMaxHold s)
  let s := setTch n
    { g with
      base := some (if stuck then 256 * c else b), last := BitVec.ofNat 16 c, touched := !hit && !stuck, relRun := if hit || stuck then 0 else rel,
      pressRun := 0, negRun := 0, scans := scans, runStamp := stamp } s
  if hit then touchEvent n false false stamp s
  else if stuck then touchEvent n false true s.tchStamp s else s

/-- TOUCH_MEASUREMENT (R131, R132): the first key's measurement starts the scan. -/
def execTouchMeasurement (n : Nat) (c : BitVec 16) (s : State) : Host.Outcome State Fault Refusal := live s <|
  if 16 ≤ n ∨ !tchEn s n then .next s
  else
    let s := if firstKey s = some n then countSource 15 none { s with tchScan := n, tchStamp := stampNow s } else { s with tchScan := n }
    let g := getTch s n
    let b := g.base.getD (256 * c.toNat)
    let d : Int := (c.toNat : Int) - (b / 256 : Nat)
    if g.touched then .next (stillTouched n c.toNat b d s) else .next (untouched n c.toNat b d s)

/-! ### Event outputs (R134, R135) -/

/-- The level an event output drives; none where it is high-impedance (R134, R135, R139). -/
def pinEvo (s : State) (n : Nat) : Option Bool :=
  let o := getEvo s n
  let level := o.active != o.inv
  if !o.driven || (o.od && level) then none else some level

/-- PULSE_END (R135). -/
def execPulseEnd (n : Nat) (s : State) : Host.Outcome State Fault Refusal := live s <|
  let o := getEvo s n
  if n < 8 ∧ evoMode s n = 2 ∧ o.pulse ∧ blocksRun s then .next (setEvo n { o with pulse := false, active := false } s) else .next s

/-- OPI_EVO_CLR (R135, R138): by Ranger after the lock; a host write is ignored and counted. -/
def execOpiEvoClr (path : Path) (v : W32) (s : State) : Host.Outcome State Fault Refusal := live s <|
  if path = .ranger then .next (evoClear (bits v 7 0) s) else .next (werr s)

/-- Step 8: an enabled output drives its inactive level, a LATCH starts cleared, a disabled one is high-impedance (R134, R135). -/
def evoStart (s : State) : State :=
  forEach (List.range 8) (fun n s =>
    setEvo n { driven := bit (evoCfg s n) 0, inv := bit (evoCfg s n) 1, od := bit (evoCfg s n) 2, active := false, latch := false, pulse := false, source := false } s) s

end Sys2Proof.Machine
end

