-- ==== Sys2Proof/Machine/IsaFabric.lean ====
section
/-! DEFINITION. Engine instructions of classes 0x6 and 0x7: fabric I/O and signals, time and timers (R304, R305). -/

namespace Sys2Proof.Machine
open Sys2Proof

/-- An instruction that Ranger does not have (R452). -/
def enginesOnly (p _ : Nat) (_ : State) : Bool := decide (p ≠ rangerP)

/-! ### Class 0x6 (R304) -/

/-- What GET reads of a channel: its latest calibrated value, none for a channel that has none (R304). -/
def getSample (s : State) (c : Nat) : Option Sample :=
  if chEn s c && !chIsEvent s c then (getChan s c).last else none

/-- Quality and flags of a value read combine into the invocation's records (R273, R304). -/
def combine (p : Nat) (y : Option Sample) (s : State) : State :=
  let pr := procOf s p
  match y with
  | some y => setProc p
      { pr with qual := qworse pr.qual y.qual, sat := pr.sat || y.sat, ovr := pr.ovr || y.ovr, filled := pr.filled || y.filled } s
  | none => setProc p { pr with filled := true } s

/-- The sample a value or record of the invocation carries (R273). -/
def procSample (pr : Proc) (v : W48) : Sample :=
  { value := v, stamp := pr.stamp, qual := pr.qual, sat := pr.sat, ovr := pr.ovr, filled := pr.filled, era := pr.era }

def opGet : EOp :=
  { lo := 0x600, hi := 0x600, operand := 11, pushes := fun _ _ => 1, cycles := fun _ _ _ => 4,
    run := fun x s =>
      let y := getSample s x.opnd.toNat
      .go (replaceTop x.p 0 [(y.getD {}).value] (combine x.p y s)) }
def opGett : EOp :=
  { lo := 0x601, hi := 0x601, operand := 11, pushes := fun _ _ => 2, cycles := fun _ _ _ => 4,
    run := fun x s =>
      let y := getSample s x.opnd.toNat
      .go (replaceTop x.p 0 [(y.getD {}).value, short (y.getD {}).stamp] (combine x.p y s)) }
def opPut : EOp :=
  { lo := 0x602, hi := 0x602, operand := 8, defined := enginesOnly, pops := fun _ _ => 1, cycles := fun _ _ _ => 2,
    run := fun x s =>
      let a := x.p * 256 + x.opnd.toNat
      match chanOfSource s 8 a with
      | none => .fault 11 x.addr s
      | some c =>
        let v := topOf s x.p 0
        let s := popN x.p 1 s
        .go (channelRaw c v (procSample (procOf s x.p) v) s) }

/-- n of EMIT, when it is in range. -/
def emitN (pr : Proc) : Option Nat :=
  match pr.stack with
  | n :: _ => if 1 ≤ sval n ∧ sval n ≤ 16 then some n.toNat else none
  | [] => none

/-- A derived record of the invocation is offered to a stream (R273, R355). -/
def emitRecord (k : Nat) (pr : Proc) (ws : List W48) (s : State) : State :=
  let x := procSample pr (ws.getD 0 0)
  offerRec k x { type := 11, sub := 0, num := k, flags := sampleFlags x, time := x.stamp, era := x.era, payload := ws } s

def opEmit : EOp :=
  { lo := 0x603, hi := 0x603, operand := 8, defined := enginesOnly,
    pops := fun _ pr => match emitN pr with | some n => n + 1 | none => 1,
    cycles := fun _ pr _ => match emitN pr with | some n => 2 + n | none => 2,
    run := fun x s =>
      let pr := procOf s x.p
      match emitN pr, decide (x.opnd = 255), streamOf s 2 x.p x.opnd.toNat with
      | some n, false, some k =>
        let ws := ((pr.stack.drop 1).take n).reverse
        .go (emitRecord k pr ws (popN x.p (n + 1) s))
      | _, _, _ => .fault 11 x.addr s }

/-- EVOA and EVOD: the engine's drive of a pin; one that the pin does not follow is counted (R304). -/
def driveEvo (x : Ctx) (on : Bool) (s : State) : State :=
  let n := x.opnd.toNat
  let g := getEngine s x.p
  let m := 1#8 <<< n
  let s := setEngine x.p { g with evo := if on then g.evo ||| m else g.evo &&& ~~~m } s
  if evoSrc s n = 2 ∧ evoIdx s n = x.p then evoFollow n s else bump evoWerrA s

def opEvoa : EOp :=
  { lo := 0x604, hi := 0x604, operand := 3, defined := enginesOnly, run := fun x s => .go (driveEvo x true s) }
def opEvod : EOp :=
  { lo := 0x605, hi := 0x605, operand := 3, defined := enginesOnly, run := fun x s => .go (driveEvo x false s) }
def opEvoclr : EOp :=
  { lo := 0x606, hi := 0x606, operand := 3, run := fun x s => .go (evoClear (2 ^ x.opnd.toNat) s) }

/-- Software source k of the ICU is set; it may also be a broadcast trigger's source (R279, R488). -/
def setSoft (k : Nat) (s : State) : State := ringTrigger 5 k (icuLatch (114 + k) s)

def opSwset : EOp :=
  { lo := 0x607, hi := 0x607, operand := 3, run := fun x s => .go (setSoft x.opnd.toNat s) }

/-- SETs_LVL. -/
def setLvlA (u k : Nat) : Nat := spuSetA u k + 0x10
/-- A level clamped to its 12 bits (R304). -/
def clampLvl (v : W48) : W32 := BitVec.ofInt 32 ((clampTo (-2048) 2047 (sval v)).1 % 4096)

def opSetlvl : EOp :=
  { lo := 0x608, hi := 0x608, operand := 4, pops := fun _ _ => 1,
    run := fun x s =>
      .go (popN x.p 1 (setCfg (setLvlA (x.opnd.toNat / 8) (x.opnd.toNat % 8)) (clampLvl (topOf s x.p 0)) s)) }

/-! ### Class 0x7 (R305) -/

def opNow : EOp :=
  { lo := 0x700, hi := 0x700, pushes := fun _ _ => 1, run := fun x s => .go (replaceTop x.p 0 [short (ticks s)] s) }
def opNowf : EOp :=
  { lo := 0x701, hi := 0x701, pushes := fun _ _ => 2,
    run := fun x s => .go (replaceTop x.p 0 [short (ticks s), (ticks s >>> 48).setWidth 48] s) }
def opTick : EOp :=
  { lo := 0x702, hi := 0x702, defined := enginesOnly, run := fun x s => .go (countSource 14 (some x.p) s) }

/-- A compare is written from the stack. -/
def cmpOp (code : Nat) (b : Bool) : EOp :=
  { lo := code, hi := code, operand := 5, pops := fun _ _ => 1, cycles := fun _ _ _ => 2,
    run := fun x s => .go (popN x.p 1 (writeCompare x.opnd.toNat b (topOf s x.p 0) s)) }

def opTcmpa : EOp := cmpOp 0x710 false
def opTcmpb : EOp := cmpOp 0x711 true
def opTcnt : EOp :=
  { lo := 0x712, hi := 0x712, operand := 5, pushes := fun _ _ => 1, cycles := fun _ _ _ => 2,
    run := fun x s => .go (replaceTop x.p 0 [(getTimer s x.opnd.toNat).count] s) }
def opTcapa : EOp :=
  { lo := 0x713, hi := 0x713, operand := 5, pushes := fun _ _ => 2, cycles := fun _ _ _ => 2,
    run := fun x s => let t := getTimer s x.opnd.toNat; .go (replaceTop x.p 0 [t.capA, t.capTA] s) }
def opTcapb : EOp :=
  { lo := 0x714, hi := 0x714, operand := 5, pushes := fun _ _ => 2, cycles := fun _ _ _ => 2,
    run := fun x s => let t := getTimer s x.opnd.toNat; .go (replaceTop x.p 0 [t.capB, t.capTB] s) }

/-- TMRn_STAT as read (R82). -/
def tmrStat (s : State) (n : Nat) : W32 :=
  flagR s (tmrStatA n) ||| BitVec.ofNat 32 (b2n (getTimer s n).running * 128)

def opTstat : EOp :=
  { lo := 0x715, hi := 0x715, operand := 5, pushes := fun _ _ => 1,
    run := fun x s => .go (replaceTop x.p 0 [BitVec.ofNat 48 ((tmrStat s x.opnd.toNat).toNat % 256)] s) }
def opTclr : EOp :=
  { lo := 0x716, hi := 0x716, operand := 5, pops := fun _ _ => 1,
    run := fun x s =>
      .go (popN x.p 1 (clearFlags (tmrStatA x.opnd.toNat) (BitVec.ofNat 32 ((topOf s x.p 0).toNat % 32)) s)) }

/-- A value written to TMR_CMD with Ranger's or an engine's rights; a reserved OP is counted (R80, R305). -/
def tmrCommand (c : Nat) (s : State) : State :=
  if c % 8 = 7 then werr s else timerCmd (c % 8) (c / 256 % 32) (c / 65536 % 64) s

def opTcmd : EOp :=
  { lo := 0x717, hi := 0x717, pops := fun _ _ => 1, cycles := fun _ _ _ => 2,
    run := fun x s => .go (popN x.p 1 (tmrCommand (topOf s x.p 0).toNat s)) }

/-- Classes 0x6 and 0x7. -/
def fabricOps : List EOp :=
  [opGet, opGett, opPut, opEmit, opEvoa, opEvod, opEvoclr, opSwset, opSetlvl] ++
  [opNow, opNowf, opTick, opTcmpa, opTcmpb, opTcnt, opTcapa, opTcapb, opTstat, opTclr, opTcmd]

/-! ### The commands: processor p executes the instruction at its program counter -/

/-- GET (R304). -/
def execGetOp (p : Nat) (s : State) : Host.Outcome State Fault Refusal := runRow [] opGet p s
/-- GETT (R304). -/
def execGett (p : Nat) (s : State) : Host.Outcome State Fault Refusal := runRow [] opGett p s
/-- PUT (R304). -/
def execPut (p : Nat) (s : State) : Host.Outcome State Fault Refusal := runRow [] opPut p s
/-- EMIT (R304). -/
def execEmit (p : Nat) (s : State) : Host.Outcome State Fault Refusal := runRow [] opEmit p s
/-- EVOA (R304). -/
def execEvoa (p : Nat) (s : State) : Host.Outcome State Fault Refusal := runRow [] opEvoa p s
/-- EVOD (R304). -/
def execEvod (p : Nat) (s : State) : Host.Outcome State Fault Refusal := runRow [] opEvod p s
/-- EVOCLR (R304). -/
def execEvoclr (p : Nat) (s : State) : Host.Outcome State Fault Refusal := runRow [] opEvoclr p s
/-- SWSET (R304). -/
def execSwset (p : Nat) (s : State) : Host.Outcome State Fault Refusal := runRow [] opSwset p s
/-- SETLVL (R304). -/
def execSetlvl (p : Nat) (s : State) : Host.Outcome State Fault Refusal := runRow [] opSetlvl p s
/-- NOW (R305). -/
def execNow (p : Nat) (s : State) : Host.Outcome State Fault Refusal := runRow [] opNow p s
/-- NOWF (R305). -/
def execNowf (p : Nat) (s : State) : Host.Outcome State Fault Refusal := runRow [] opNowf p s
/-- TICK (R305). -/
def execTick (p : Nat) (s : State) : Host.Outcome State Fault Refusal := runRow [] opTick p s
/-- TCMPA (R305). -/
def execTcmpa (p : Nat) (s : State) : Host.Outcome State Fault Refusal := runRow [] opTcmpa p s
/-- TCMPB (R305). -/
def execTcmpb (p : Nat) (s : State) : Host.Outcome State Fault Refusal := runRow [] opTcmpb p s
/-- TCNT (R305). -/
def execTcnt (p : Nat) (s : State) : Host.Outcome State Fault Refusal := runRow [] opTcnt p s
/-- TCAPA (R305). -/
def execTcapa (p : Nat) (s : State) : Host.Outcome State Fault Refusal := runRow [] opTcapa p s
/-- TCAPB (R305). -/
def execTcapb (p : Nat) (s : State) : Host.Outcome State Fault Refusal := runRow [] opTcapb p s
/-- TSTAT (R305). -/
def execTstat (p : Nat) (s : State) : Host.Outcome State Fault Refusal := runRow [] opTstat p s
/-- TCLR (R305). -/
def execTclr (p : Nat) (s : State) : Host.Outcome State Fault Refusal := runRow [] opTclr p s
/-- TCMD (R305). -/
def execTcmd (p : Nat) (s : State) : Host.Outcome State Fault Refusal := runRow [] opTcmd p s

end Sys2Proof.Machine
end

