-- ==== Sys2Proof/Machine/IsaFixed.lean ====
section
/-! DEFINITION. Engine instructions of class 0x8, saturating and fixed-point, and the splices of class 0xF
(R306, R313–R315). -/

namespace Sys2Proof.Machine
open Sys2Proof

/-! ### Class 0x8 (R306) -/

/-- An instruction that sets the saturation flag. -/
def setSat (p : Nat) (b : Bool) (s : State) : State :=
  if b then setProc p { procOf s p with sat := true } s else s

/-- An instruction of n inputs whose exact result saturates. -/
def satOp (code n cy : Nat) (f : List Int → Int) : EOp :=
  { lo := code, hi := code, pops := fun _ _ => n, pushes := fun _ _ => 1, cycles := fun _ _ _ => cy,
    run := fun x s =>
      let r := satQ (f ((((procOf s x.p).stack.take n).reverse).map sval))
      .go (setSat x.p r.2 (replaceTop x.p n [ofInt r.1] s)) }

/-- a × 2^24 / b rounded to nearest, ties to even. -/
def quotQ (a b : Int) : Int := roundDiv (a * 2 ^ 24 * b.sign) b.natAbs

def opAdds : EOp := satOp 0x800 2 1 (fun l => l.getD 0 0 + l.getD 1 0)
def opSubs : EOp := satOp 0x801 2 1 (fun l => l.getD 0 0 - l.getD 1 0)
def opNegs : EOp := satOp 0x802 1 1 (fun l => -l.getD 0 0)
def opAbss : EOp := satOp 0x803 1 1 (fun l => (l.getD 0 0).natAbs)
def opMulq : EOp := satOp 0x804 2 2 (fun l => roundDiv (l.getD 0 0 * l.getD 1 0) (2 ^ 24))
def opMacq : EOp := satOp 0x805 3 2 (fun l => l.getD 0 0 + roundDiv (l.getD 1 0 * l.getD 2 0) (2 ^ 24))
def opDivq : EOp :=
  { satOp 0x806 2 26 (fun l => quotQ (l.getD 0 0) (l.getD 1 0)) with
    run := fun x s => if topOf s x.p 0 = 0 then .fault 12 x.addr s
      else (satOp 0x806 2 26 (fun l => quotQ (l.getD 0 0) (l.getD 1 0))).run x s }
def opSqrtq : EOp := satOp 0x807 1 26 (fun l => roundSqrt ((l.getD 0 0).toNat * 2 ^ 24) 1)
def opClamp : EOp := pureOp 0x808 3 1 1 (fun l => [wMin (wMax (l.getD 0 0) (l.getD 1 0)) (l.getD 2 0)])

/-! ### Splices (R313–R315) -/

def spliceW (s : State) (j w : Nat) : W48 := wordR s (spliceA j w)
def spliceLoaded (s : State) (j : Nat) : Bool := bit (spliceW s j 0) 47
def spliceCount (s : State) (j : Nat) : Nat := bits (spliceW s j 0) 46 43 + 1
/-- Micro-operation i of a splice. -/
def uopOf (s : State) (j i : Nat) : Nat := codeOf (spliceW s j (1 + i / 4)) (i % 4)
def uops (s : State) (j : Nat) : List Nat := (List.range (spliceCount s j)).map (uopOf s j)
/-- Cycles of a micro-operation (R315). -/
def uopCycles (u : Nat) : Nat := if u / 64 = 0x0A ∨ u / 64 = 0x0B ∨ u / 64 = 0x0C ∨ u / 64 = 0x1E then 2 else 1

/-- What a micro-operation comes to: temporaries and state, or a fault code with the state. -/
abbrev URes := (List W48 × State) ⊕ (Nat × State)

/-- TD takes a value. -/
def setTemp (t : List W48) (d : Nat) (v : W48) (s : State) : URes := .inl (t.set d v, s)

/-- TD takes a value that may have saturated. -/
def setTempSat (p : Nat) (t : List W48) (d : Nat) (v : Int) (s : State) : URes :=
  let r := satQ v
  .inl (t.set d (ofInt r.1), setSat p r.2 s)

/-- One micro-operation (R314, R315). UOP values above 0x27 are reserved and have no effect. -/
def uopStep (p u : Nat) (t : List W48) (s : State) : URes :=
  let d := u / 16 % 4
  let td := t.getD d 0
  let a := t.getD (u / 4 % 4) 0
  let b := t.getD (u % 4) 0
  let k := u % 16
  let ks := ofInt (signed 4 k)
  let pr := procOf s p
  match u / 64 with
  | 0x01 => match pr.stack with
    | v :: st => .inl (t.set d v, setProc p { pr with stack := st } s)
    | [] => .inr (5, s)
  | 0x02 => if 32 ≤ pr.stack.length then .inr (4, s) else .inl (t, setProc p { pr with stack := a :: pr.stack } s)
  | 0x03 => match pr.stack with
    | v :: _ => setTemp t d v s
    | [] => .inr (5, s)
  | 0x04 => setTemp t d a s
  | 0x05 => setTemp t d ks s
  | 0x06 => setTemp t d (a + b) s
  | 0x07 => setTemp t d (a - b) s
  | 0x08 => setTempSat p t d (sval a + sval b) s
  | 0x09 => setTempSat p t d (sval a - sval b) s
  | 0x0A => setTemp t d (a * b) s
  | 0x0B => setTemp t d (wMulh a b) s
  | 0x0C => setTempSat p t d (roundDiv (sval a * sval b) (2 ^ 24)) s
  | 0x0D => setTemp t d (-a) s
  | 0x0E => setTemp t d (wAbs a) s
  | 0x0F => setTemp t d (wMin a b) s
  | 0x10 => setTemp t d (wMax a b) s
  | 0x11 => setTemp t d (a &&& b) s
  | 0x12 => setTemp t d (a ||| b) s
  | 0x13 => setTemp t d (a ^^^ b) s
  | 0x14 => setTemp t d (~~~a) s
  | 0x15 => setTemp t d (wShl a b) s
  | 0x16 => setTemp t d (wShr a b) s
  | 0x17 => setTemp t d (wSar a b) s
  | 0x18 => setTemp t d (td <<< k) s
  | 0x19 => setTemp t d (td.sshiftRight k) s
  | 0x1A => setTemp t d (flag (decide (a = b))) s
  | 0x1B => setTemp t d (flag (decide (sval a < sval b))) s
  | 0x1C => setTemp t d (flag (decide (a < b))) s
  | 0x1D => setTemp t d (if td ≠ 0 then a else b) s
  | 0x1E =>
    if 0x1000 ≤ a.toNat then .inr (7, s)
    else if dataBad s p a.toNat then .inr (9, s) else setTemp t d (dataR s p a.toNat) s
  | 0x1F => if 0x1000 ≤ b.toNat then .inr (7, s) else .inl (t, setData p b.toNat a s)
  | 0x20 => setTemp t d (short (ticks s)) s
  | 0x21 => setTemp t d (td + 1) s
  | 0x22 => setTemp t d (td - 1) s
  | 0x23 => setTemp t d (wClz a) s
  | 0x24 => setTemp t d (wPopc a) s
  | 0x25 => setTempSat p t d (sval a).natAbs s
  | 0x26 => setTemp t d (td + ks) s
  | 0x27 => setTemp t d (wMin (wMax td a) b) s
  | _ => .inl (t, s)

/-- The micro-operations in order; a fault is reported at the splice's slot, and what came before it stands (R314). -/
def runUops (x : Ctx) : List Nat → List W48 → State → IRes
  | [], _, s => .go s
  | u :: us, t, s =>
    match uopStep x.p u t s with
    | .inl (t', s') => runUops x us t' s'
    | .inr (c, s') => .fault c x.addr s'

def opSplice : EOp :=
  { lo := 0xF00, hi := 0xF3F, norep := true, defined := fun _ k s => spliceLoaded s k,
    cycles := fun x _ s => ((uops s x.k).map uopCycles).sum,
    run := fun x s => runUops x (uops s x.k) [0, 0, 0, 0] s }

/-- Class 0x8 and the splices. -/
def fixedOps : List EOp := [opAdds, opSubs, opNegs, opAbss, opMulq, opMacq, opDivq, opSqrtq, opClamp, opSplice]

/-! ### The prefixes (R307) -/

def opRep : EOp := { lo := 0x900, hi := 0x900, norep := true, repeats := some (fun _ pr => pr.rc.toNat) }
def opRepi : EOp := { lo := 0x9C0, hi := 0x9FF, norep := true, repeats := some (fun x _ => x.k + 1) }

/-- Every instruction of an event engine. -/
def engineOps : List EOp := basicOps ++ memoryOps ++ fabricOps ++ fixedOps ++ [opRep, opRepi]

/-! ### The commands: processor p executes the instruction at its program counter -/

/-- ADDS (R306). -/
def execAdds (p : Nat) (s : State) : Host.Outcome State Fault Refusal := runRow [] opAdds p s
/-- SUBS (R306). -/
def execSubs (p : Nat) (s : State) : Host.Outcome State Fault Refusal := runRow [] opSubs p s
/-- NEGS (R306). -/
def execNegs (p : Nat) (s : State) : Host.Outcome State Fault Refusal := runRow [] opNegs p s
/-- ABSS (R306). -/
def execAbss (p : Nat) (s : State) : Host.Outcome State Fault Refusal := runRow [] opAbss p s
/-- MULQ (R306). -/
def execMulq (p : Nat) (s : State) : Host.Outcome State Fault Refusal := runRow [] opMulq p s
/-- MACQ (R306). -/
def execMacq (p : Nat) (s : State) : Host.Outcome State Fault Refusal := runRow [] opMacq p s
/-- DIVQ (R306). -/
def execDivq (p : Nat) (s : State) : Host.Outcome State Fault Refusal := runRow [] opDivq p s
/-- SQRTQ (R306). -/
def execSqrtq (p : Nat) (s : State) : Host.Outcome State Fault Refusal := runRow [] opSqrtq p s
/-- CLAMP (R306). -/
def execClampOp (p : Nat) (s : State) : Host.Outcome State Fault Refusal := runRow [] opClamp p s
/-- SPLICE (R314). -/
def execSplice (p : Nat) (s : State) : Host.Outcome State Fault Refusal := runRow [] opSplice p s

end Sys2Proof.Machine
end

