-- ==== Sys2Proof/Machine/EngineControl.lean ====
section
/-! DEFINITION. Ranger's commands to the engines, the interrupt controller's commands, and the IRAM scrub
(R265, R277–R283). -/

namespace Sys2Proof.Machine
open Sys2Proof

/-! ### EEe_CMD (R277, R278, R288) -/

/-- CLEAR acts only on a FAULTED engine; an ICU trigger joins behind INIT (R277). -/
def clearEngine (e : Nat) (s : State) : State :=
  let g := getEngine s e
  if g.run = .faulted then icuTrigger e (initTrigger e (setEngine e { g with run := .idle } s)) else werr s

/-- HALT stops the engine after the instruction in progress (R278). -/
def haltEngine (e : Nat) (s : State) : State :=
  let g := getEngine s e
  if g.run = .busy ∨ g.run = .idle then setEngine e { g with run := .halted } s else s

/-- RESUME continues the invocation (R278). -/
def resumeEngine (e : Nat) (s : State) : State :=
  let g := getEngine s e
  if g.run = .halted then setEngine e { g with run := if g.kind = 0 then .idle else .busy } s else s

/-- STEP executes one instruction of a halted invocation, a REP with its repetitions as one (R278, R308). -/
def stepHalted (e : Nat) (s : State) : State :=
  let g := getEngine s e
  if g.run = .halted ∧ g.kind ≠ 0 ∧ s.power.cur = .s0 then runAny engineOps e s else s

/-- RELOADCNT sets RESTLEFT to RESTARTS at any time (R277). -/
def reloadCount (e : Nat) (s : State) : State := setEngine e { getEngine s e with restLeft := restarts s e } s

/-- A write to EEe_CMD: Ranger's acts, the host's is ignored and counted (R278, R287). -/
def engineCmd (path : Path) (e op : Nat) (s : State) : State :=
  if path ≠ .ranger ∨ 16 ≤ e then werr s
  else match op with
    | 1 => clearEngine e s
    | 2 => haltEngine e s
    | 3 => resumeEngine e s
    | 4 => stepHalted e s
    | 5 => reloadCount e s
    | _ => s

/-- CLEAR (R277). -/
def execClear (path : Path) (e : Nat) (s : State) : Host.Outcome State Fault Refusal := live s <| .next (engineCmd path e 1 s)
/-- HALT (R278). -/
def execHalt (path : Path) (e : Nat) (s : State) : Host.Outcome State Fault Refusal := live s <| .next (engineCmd path e 2 s)
/-- RESUME (R278). -/
def execResume (path : Path) (e : Nat) (s : State) : Host.Outcome State Fault Refusal := live s <| .next (engineCmd path e 3 s)
/-- STEP (R278). -/
def execStepEngine (path : Path) (e : Nat) (s : State) : Host.Outcome State Fault Refusal := live s <| .next (engineCmd path e 4 s)
/-- RELOADCNT (R277). -/
def execReloadcnt (path : Path) (e : Nat) (s : State) : Host.Outcome State Fault Refusal := live s <| .next (engineCmd path e 5 s)

/-! ### The interrupt controller (R279–R283) -/

/-- A latch source (R279). -/
def icuIsLatch (n : Nat) : Bool :=
  decide ((34 ≤ n ∧ n < 50) ∨ (66 ≤ n ∧ n < 98) ∨ (114 ≤ n ∧ n < 125))

/-- Whether a latch source can assert in the present power state (R279). -/
def icuCanLatch (s : State) (n : Nat) : Bool :=
  if n < 50 then true
  else if n < 98 then srcRuns (effectiveSource s 32 (n - 66)) s.power.cur
  else if n < 122 then decide (s.power.cur ≠ .s3)
  else decide (s.power.cur = .s0 ∨ s.power.cur = .s1)

/-- SOURCE_ASSERT (R279): a latch source's event; a level source has no state but its condition. -/
def execSourceAssert (n : Nat) (s : State) : Host.Outcome State Fault Refusal := live s <|
  if icuIsLatch n && icuCanLatch s n then .next (icuLatch n s) else .next s

/-- A processor is asleep (R283). -/
def asleep (s : State) (p : Nat) : Bool :=
  if p = rangerP then s.mgt.idle || decide (s.power.cur = .s3) else decide (s.power.cur ≠ .s0)

/-- WAKE_EN of a processor. -/
def wakeEn (s : State) (p : Nat) : Bool := bit (cfgR s (icuPA p + 0x2C)) 0

/-- A source pending for an asleep target with WAKE_EN wakes it: Ranger resumes on its clock, or the hub wakes (R283). -/
def wakeTarget (p : Nat) (s : State) : State :=
  if icuView s p = 0 ∨ !asleep s p ∨ !wakeEn s p then s
  else if p = rangerP ∧ s.power.cur ≠ .s3 then { s with mgt := { s.mgt with idle := false } }
  else requestWake 5 s

/-- A presentation cycle of one processor's view (R280, R283). -/
def present (p : Nat) (s : State) : State :=
  let was := icuView s p
  let s := setView p (icuPresented s p) s
  let s := if was = 0 ∧ p < 16 then icuTrigger p s else s
  wakeTarget p s

/-- PRESENTATION (R280). -/
def execPresentation (p : Nat) (s : State) : Host.Outcome State Fault Refusal := live s <|
  if p ≤ rangerP then .next (present p s) else .next s

/-- CLAIM (R281). -/
def execClaim (p n : Nat) (s : State) : Host.Outcome State Fault Refusal := live s <|
  if p ≤ rangerP then .next (icuClaim p n s) else .next s

/-- COMPLETE (R281). -/
def execComplete (p n : Nat) (s : State) : Host.Outcome State Fault Refusal := live s <|
  if p ≤ rangerP then .next (icuComplete p n s) else .next s

/-- The image's target of a source (R282). -/
def imageTarget (s : State) (n : Nat) : Nat := (getIcu s n).moved.getD (icuTarget s n)

/-- A write of TARGET after the lock (R282): Ranger's, to the image's target or a processor of ALT. -/
def retarget (path : Path) (n : Nat) (v : W32) (s : State) : State :=
  let t := bits v 4 0
  if path = .ranger ∧ n < 128 ∧ (t = imageTarget s n ∨ (t ≤ rangerP ∧ bit (cfgR s (icuAltA n)) t)) then
    let home := imageTarget s n
    setCfg (icuCfgA n) ((cfgR s (icuCfgA n) &&& ~~~(0x1F#32)) ||| BitVec.ofNat 32 t)
      (setIcu n { getIcu s n with moved := some home } s)
  else werr s

/-- RETARGET (R282). -/
def execRetarget (path : Path) (n : Nat) (v : W32) (s : State) : Host.Outcome State Fault Refusal := live s <|
  .next (retarget path n v s)

/-- A write to ICU_SWSET: Ranger's sets its sources, the host's is ignored and counted (R279, R287). -/
def writeSwset (path : Path) (v : W32) (s : State) : State :=
  if path = .ranger then forEach ((List.range 8).filter (bit v)) setSoft s else werr s

/-- ICU_SWSET (R279). -/
def execIcuSwset (path : Path) (v : W32) (s : State) : Host.Outcome State Fault Refusal := live s <| .next (writeSwset path v s)

/-! ### IRAM errors (R265) -/

/-- A corrected single-bit error in IRAM: EEe_ECC_CORR and ECCCF. -/
def iramCorrected (e : Nat) (s : State) : State := raise (eeStatA e) 3 (bump (eeA e + 0x2C) s)

/-- An uncorrectable error in IRAM: the word is poisoned, counted, flagged and journalled. -/
def iramPoison (e w : Nat) (s : State) : State :=
  let s := journal 0x40 (stampNow s) [pack [(2, 36), (e, 32), (w, 0)]] (raise (eeStatA e) 4 (bump (eeA e + 0x30) s))
  if s.poisoned.contains (iramA e w) then s else { s with poisoned := iramA e w :: s.poisoned }

/-- IRAM_SCRUB (R265). -/
def execIramScrub (e w : Nat) (found : Ecc) (s : State) : Host.Outcome State Fault Refusal := live s <|
  if s.power.cur ≠ .s0 ∨ 16 ≤ e ∨ 4096 ≤ w then .next s
  else match found with
  | .clean => .next s
  | .corrected => .next (iramCorrected e s)
  | .uncorrectable => .next (iramPoison e w s)

end Sys2Proof.Machine
end

