-- ==== Sys2Proof/Machine/Spectral.lean ====
section
/-! DEFINITION. The spectral units: frames, spectra, averages, evaluation, rules and ABORT (R241–R259). -/

namespace Sys2Proof.Machine
open Sys2Proof

/-! ### Sets (R242, R247, R262, R263) -/

def setCtl (s : State) (u k : Nat) : W32 := cfgR s (spuSetA u k)
def setEn (s : State) (u k : Nat) : Bool := bit (setCtl s u k) 31
/-- N. -/
def setN (s : State) (u k : Nat) : Nat := 2 ^ bits (setCtl s u k) 30 27
def setWin (s : State) (u k : Nat) : Nat := bits (setCtl s u k) 26 25
/-- The hop H (R243). -/
def setHop (s : State) (u k : Nat) : Nat := setN s u k / 2 ^ bits (setCtl s u k) 24 23
def setExp (s : State) (u k : Nat) : Bool := bit (setCtl s u k) 22
def setCtrl (s : State) (u k : Nat) : Nat := bits (setCtl s u k) 21 20
def setPsdOut (s : State) (u k : Nat) : Bool := bit (setCtl s u k) 19
def setCmin (s : State) (u k : Nat) : Nat := bits (setCtl s u k) 17 10 + 1
def setNavg (s : State) (u k : Nat) : Nat := bits (cfgR s (spuSetA u k + 4)) 31 20 + 1
def setAshift (s : State) (u k : Nat) : Nat := bits (cfgR s (spuSetA u k + 4)) 19 16
def setOutdiv (s : State) (u k : Nat) : Nat := bits (cfgR s (spuSetA u k + 4)) 15 4 + 1
def setLa (s : State) (u k : Nat) : Nat := bits (cfgR s (spuSetA u k + 8)) 12 0
def setLb (s : State) (u k : Nat) : Nat := bits (cfgR s (spuSetA u k + 8)) 28 16
def setMbase (s : State) (u k : Nat) : Nat := bits (cfgR s (spuSetA u k + 0xC)) 13 0
def setWbase (s : State) (u k : Nat) : Nat := bits (cfgR s (spuSetA u k + 0xC)) 29 16
def setLvl (s : State) (u k : Nat) : Int := signed 12 (bits (cfgR s (spuSetA u k + 0x10)) 11 0)
def setStatA (u k : Nat) : Nat := spuSetA u k + 0x1C
/-- The entries of a set, ascending. -/
def setEntries (s : State) (u k : Nat) : List Nat := (List.range 256).filter (fun i => wlEn s u i && wlSet s u i = k)
/-- The set runs: its unit is ON, it is enabled and one of its streams is admitted. -/
def setRuns (s : State) (u k : Nat) : Bool := decide ((getSpu s u).state = .on) && setEn s u k && setBooked s u k

/-- Input rate of a set's entry, in S/s (R242, R318). -/
def entryRate (s : State) (u i : Nat) : Rat :=
  match outputOwner s (wlFe s u i) (wlOut s u i) with
  | some (ch, d) =>
    (102400000000 : Rat) / (chNomper s ch * pathDecimation s (chFe s ch) (chainStages s (chFe s ch) (chChain s ch)) d.num : Nat)
  | none => 0

/-! ### PSD words (R246) -/

/-- A rational to the nearest integer, ties to even. -/
def roundRat (q : Rat) : Int := roundDiv q.num q.den

/-- The least E from 63 − n on for which M fits 42 bits. -/
def psdExp (q : Rat) : Nat → Nat
  | 0 => 63
  | n + 1 => if roundRat (q * 2 ^ 60 / 2 ^ (63 - (n + 1) + 1)) < 2 ^ 42 then 63 - n else psdExp q n

/-- A value as a PSD word, and whether it saturated. -/
def psdWord (q : Rat) : W48 × Bool :=
  let e := psdExp q 63
  let m := (roundRat (q * 2 ^ 60 / 2 ^ e)).toNat
  if 2 ^ 42 ≤ m then (BitVec.allOnes 48, true)
  else (pack [(if e = 1 ∧ m < 2 ^ 41 then 0 else e, 42), (m, 0)], false)

/-- The value of a PSD word. -/
def psdVal (w : W48) : Rat := (bits w 41 0 : Nat) * 2 ^ (max (bits w 47 42) 1) / 2 ^ 60

/-- SPUu_SAT and SATF for n saturated values (R246). -/
def spuSat (u n : Nat) (s : State) : State := if n = 0 then s else raise (spuA u + 4) 4 (bumpBy (spuA u + 0x24) n s)

/-! ### Windows and transforms (R244, R245) -/

/-- π × 2^160, rounded down. -/
def piFix : Int := 0x3243f6a8885a308d313198a2e03707344a4093822

/-- The Taylor terms of the cosine from term n on, at scale 2^160. -/
def cosTerms (x2 : Int) : Nat → Int → Nat → Int
  | 0, _, _ => 0
  | fuel + 1, t, n => t + cosTerms x2 fuel (-(t * x2 / 2 ^ 160) / ((2 * n + 1) * (2 * n + 2))) (n + 1)

/-- cos(2π i / n) × 2^160. -/
def cosFix (i n : Nat) : Int :=
  let x := 2 * piFix * (i % n : Nat) / n
  cosTerms (x * x / 2 ^ 160) 60 (2 ^ 160) 0

/-- sin(2π i / n) × 2^160, n a multiple of 4. -/
def sinFix (i n : Nat) : Int := cosFix (i + 3 * (n / 4)) n

/-- w_n in Q2.22 (R244). -/
def windowAt (s : State) (u k n : Nat) : Int :=
  let size := setN s u k
  match setWin s u k with
  | 0 => 2 ^ 22
  | 1 => roundDiv (2 ^ 21 * (2 ^ 160 - cosFix n size)) (2 ^ 160)
  | 2 => roundDiv (2 ^ 22 * (215578950 * 2 ^ 160 - 416631580 * cosFix n size + 277263158 * cosFix (2 * n) size -
      83578947 * cosFix (3 * n) size + 6947368 * cosFix (4 * n) size)) (10 ^ 9 * 2 ^ 160)
  | _ => signed 24 (bits (wordR s (winA u (setWbase s u k + n))) 23 0)

/-- w_n x_n of a frame, scaled by 2^46. -/
def windowed (s : State) (u k : Nat) (xs : List Sample) : List Int :=
  xs.zipIdx.map (fun p => windowAt s u k p.2 * sval p.1.value)

/-- |X_k|² of R245. -/
def lineEnergy (wx : List Int) (n k : Nat) : Rat :=
  let re := (wx.zipIdx.map (fun p => p.1 * cosFix (k * p.2) n)).sum
  let im := (wx.zipIdx.map (fun p => p.1 * sinFix (k * p.2) n)).sum
  ((re * re + im * im : Int) : Rat) / 2 ^ 412

/-- S2 of R245. -/
def windowEnergy (s : State) (u k : Nat) : Rat :=
  (((List.range (setN s u k)).map (fun n => windowAt s u k n * windowAt s u k n)).sum : Int) / 2 ^ 44

/-- P_k of R245 before its error. -/
def linePsd (s : State) (u k i : Nat) (wx : List Int) (l : Nat) : Rat :=
  (if l = 0 then 1 else 2) * lineEnergy wx (setN s u k) l / (entryRate s u i * windowEnergy s u k)

/-- A free number from −1 up to 1. -/
def freeUnit (n : Nat) : Rat := (((Config.freeWord n).toNat : Int) - 2 ^ 47 : Int) / 2 ^ 47

/-- The lines LA to LB of a frame: each within 2^−20 of the frame's largest line of P_k, the error being free (R245).
A window whose energy is zero leaves every line free. -/
def framePsd (u k i : Nat) (xs : List Sample) (s : State) : List (W48 × Bool) × State :=
  let wx := windowed s u k xs
  let top := ((List.range (setN s u k / 2)).map (linePsd s u k i wx)).foldl max 0
  let n := setLb s u k + 1 - setLa s u k
  let line (j : Nat) : W48 × Bool :=
    if windowEnergy s u k = 0 then (Config.freeWord (s.fresh + j), false)
    else psdWord (max 0 (linePsd s u k i wx (setLa s u k + j) + top / 2 ^ 20 * freeUnit (s.fresh + j)))
  ((List.range n).map line, { s with fresh := s.fresh + n })

/-! ### Averages (R247) -/

/-- A frame's sample: its newest stamp, the worst quality and the flags of its inputs. -/
def frameSample (xs : List Sample) : Sample :=
  xs.foldl (fun a x => { x with qual := qworse a.qual x.qual, sat := a.sat || x.sat, ovr := a.ovr || x.ovr, filled := a.filled || x.filled })
    { qual := .fine }

/-- Quality and flags of an exponential average from its countdowns. -/
def averageSample (e : SpuEntry) (x : Sample) : Sample :=
  { x with
    qual := if 0 < e.heldLeft then .held else if 0 < e.coarseLeft then .coarse else if 0 < e.wakeLeft then .wake else .fine
    sat := decide (0 < e.satLeft), ovr := decide (0 < e.ovrLeft), filled := decide (0 < e.filledLeft) }

/-- A frame starts or lowers the countdowns of an exponential average; its span is 2^ASHIFT frames. -/
def averageCount (span : Nat) (x : Sample) (e : SpuEntry) : SpuEntry :=
  { e with
    wakeLeft := if x.qual = .wake then span else e.wakeLeft - 1
    coarseLeft := if x.qual = .coarse then span else e.coarseLeft - 1
    heldLeft := if x.qual = .held then span else e.heldLeft - 1
    satLeft := if x.sat then span else e.satLeft - 1
    ovrLeft := if x.ovr then span else e.ovrLeft - 1
    filledLeft := if x.filled then span else e.filledLeft - 1 }

def putDone (idx : Nat) (r : SpuResult) (e : SpuEntry) : SpuEntry :=
  { e with done := Mem.write (fun _ => {}) e.done idx r }

/-- The end of a linear block: its mean, when a frame was formed in it (R247). -/
def finishBlock (u i b : Nat) (s : State) : State :=
  let g := getSpu s u
  let e := getEntry g i
  if e.blockFrames = 0 then s
  else
    let ws := e.blockSum.map (fun q => psdWord (q / (e.blockFrames : Nat)))
    let sat := ws.any Prod.snd
    let r : SpuResult := { words := ws.map Prod.fst, frames := e.blockFrames, ready := true,
                           sample := { e.newest with sat := e.newest.sat || sat } }
    let s := setSpu u (setEntry i { putDone b r e with blockSum := [], blockFrames := 0, newest := {} } g) s
    spuSat u (ws.countP Prod.snd) s

/-- A frame index of an entry is settled; the last of a linear block ends it. -/
def settleFrame (u i idx : Nat) (s : State) : State :=
  let g := getSpu s u
  let k := wlSet s u i
  let s := setSpu u (setEntry i { getEntry g i with resolved := idx + 1 } g) s
  if !setExp s u k && decide ((idx + 1) % setNavg s u k = 0) then finishBlock u i (idx / setNavg s u k) s else s

/-- A formed frame enters its entry's average (R245–R247). -/
def averageFrame (u : Nat) (f : Frame) (s : State) : State :=
  let i := f.entry
  let k := wlSet s u i
  let p := framePsd u k i f.inputs s
  let s := spuSat u (p.1.countP Prod.snd) p.2
  let x0 := frameSample f.inputs
  let x := { x0 with sat := x0.sat || p.1.any Prod.snd }
  let g := getSpu s u
  let e := getEntry g i
  let s :=
    if setExp s u k then
      let ws := if e.frames = 0 then p.1
        else (e.average.zip p.1).map (fun q => psdWord (psdVal q.1 + (psdVal q.2.1 - psdVal q.1) / 2 ^ setAshift s u k))
      let e := averageCount (2 ^ setAshift s u k) { x with sat := x.sat || ws.any Prod.snd } { e with average := ws.map Prod.fst, frames := e.frames + 1 }
      let r : SpuResult := { words := e.average, frames := e.frames, ready := decide (2 ^ setAshift s u k ≤ e.frames),
                             sample := averageSample e x }
      spuSat u (if e.frames = 1 then 0 else ws.countP Prod.snd) (setSpu u (setEntry i (putDone f.index r e) g) s)
    else
      let sums := if e.blockFrames = 0 then p.1.map (fun w => psdVal w.1)
        else (e.blockSum.zip p.1).map (fun q => q.1 + psdVal q.2.1)
      let y := if e.blockFrames = 0 then x
        else { x with qual := qworse e.newest.qual x.qual, sat := e.newest.sat || x.sat, ovr := e.newest.ovr || x.ovr,
                      filled := e.newest.filled || x.filled }
      setSpu u (setEntry i { e with blockSum := sums, blockFrames := e.blockFrames + 1, newest := y } g) s
  settleFrame u i f.index s

/-- Lost frames at the head of the queue are settled. -/
def drainLost (u : Nat) : List Frame → State → State
  | [], s => setSpu u { getSpu s u with queue := [] } s
  | f :: fs, s => if f.inputs.isEmpty then drainLost u fs (settleFrame u f.entry f.index s) else setSpu u { getSpu s u with queue := f :: fs } s

/-- SPECTRUM (R245): the frame at the head of the work queue. -/
def execSpectrum (u : Nat) (s : State) : Host.Outcome State Fault Refusal := live s <|
  if 2 ≤ u ∨ s.power.cur ≠ .s0 ∨ (getSpu s u).state ≠ .on then .next s
  else match (getSpu s u).queue with
  | f :: fs => .next (drainLost u fs (averageFrame u f s))
  | [] => .next s

/-- A frame that is not formed: settled at once, or behind the entry's queued frames (R243). -/
def loseFrame (u i idx : Nat) (s : State) : State :=
  let g := getSpu s u
  if g.queue.any (fun f => f.entry = i) then setSpu u { g with queue := g.queue ++ [{ entry := i, index := idx }] } s
  else settleFrame u i idx s

/-- The next frame of an entry, whose N positions have all arrived (R243, R256). -/
def formFrame (u i : Nat) (s : State) : State :=
  let g := getSpu s u
  let e := getEntry g i
  let k := wlSet s u i
  let xs := e.buffer.reverse.take (setN s u k)
  let s := setSpu u (setEntry i { e with buffer := e.buffer.take (e.buffer.length - setHop s u k), frameNo := e.frameNo + 1 } g) s
  let g := getSpu s u
  if xs.any Option.isNone then
    raise (spuA u + 4) 2 (bump (spuA u + 0x14) (loseFrame u i e.frameNo s))
  else if 512 ≤ g.queue.countP (fun f => !f.inputs.isEmpty) then
    raise (spuA u + 4) 3 (bump (spuA u + 0x20) (loseFrame u i e.frameNo s))
  else
    bumpWrap (spuA u + 0x10) (setSpu u { g with queue := g.queue ++ [{ entry := i, index := e.frameNo, inputs := xs.filterMap id }] } s)

/-- FRAME_FORMED (R243). -/
def execFrameFormed (u i : Nat) (s : State) : Host.Outcome State Fault Refusal := live s <|
  if 2 ≤ u ∨ 256 ≤ i ∨ s.power.cur ≠ .s0 ∨ !wlEn s u i ∨ !setRuns s u (wlSet s u i) then .next s
  else if (getEntry (getSpu s u) i).buffer.length < setN s u (wlSet s u i) then .next s
  else .next (formFrame u i s)

/-! ### Level codes and rules (R249–R253) -/

/-- The largest code whose threshold a value reaches, by bits. -/
def codeFrom (p : Rat) : Nat → Nat → Nat
  | 0, c => c
  | b + 1, c =>
    let d := c + 2 ^ b
    let t : Int := 2 * ((d : Int) - 2048) - 1
    let ok := if 0 ≤ t then decide ((10 : Rat) ^ t.toNat ≤ p ^ 320) else decide (1 ≤ p ^ 320 * 10 ^ (-t).toNat)
    codeFrom p b (if ok then d else c)

/-- c(P) of R249. -/
def levelCode (w : W48) : Nat := let p := psdVal w; if p = 0 then 0 else codeFrom p 12 0

def ruleReg (s : State) (u k r o : Nat) : W32 := cfgR s (spuRuleA u k r + o)
def ruleType (s : State) (u k r : Nat) : Nat := bits (ruleReg s u k r 0) 31 30
def ruleAbort (s : State) (u k r : Nat) : Bool := bit (ruleReg s u k r 0) 29
def ruleSide (s : State) (u k r : Nat) : Nat := bits (ruleReg s u k r 0) 28 27
def rulePersist (s : State) (u k r : Nat) : Nat := bits (ruleReg s u k r 0) 26 23
def ruleK (s : State) (u k r : Nat) : Nat := bits (ruleReg s u k r 0) 22 15 + 1
def ruleM (s : State) (u k r : Nat) : Nat := bits (ruleReg s u k r 0) 14 7 + 1
def ruleLa (s : State) (u k r : Nat) : Nat := bits (ruleReg s u k r 4) 12 0
def ruleLb (s : State) (u k r : Nat) : Nat := bits (ruleReg s u k r 4) 28 16
def ruleLimit (s : State) (u k r : Nat) : Nat := bits (ruleReg s u k r 8) 11 0

/-- A code beyond a high or low limit on a side: 0 high, 1 low, 2 either (R250, R252). -/
def beyond (side : Nat) (c hi lo : Int) : Bool :=
  (decide (side ≠ 1) && decide (hi < c)) || (decide (side ≠ 0) && decide (c < lo))

/-- Whether a line is beyond the rule's bands (R250). -/
def lineBeyond (s : State) (u k r : Nat) (lvl : Int) (l : Nat) (w : W48) : Bool :=
  let m := wordR s (maskA u (setMbase s u k + l - setLa s u k))
  let b := if ruleAbort s u k r then (bits m 47 36, bits m 11 0) else (bits m 35 24, bits m 23 12)
  beyond (ruleSide s u k r) (levelCode w) (b.1 + lvl) (b.2 + lvl)

/-- The lines of a rule's range, with their words. -/
def ruleLines (s : State) (u k r : Nat) (ws : List W48) : List (Nat × W48) :=
  (List.range (ruleLb s u k r + 1 - ruleLa s u k r)).map (fun j =>
    (ruleLa s u k r + j, ws.getD (ruleLa s u k r + j - setLa s u k) 0))

/-- The most lines beyond the band in any m lines in a row. -/
def bestRun (m : Nat) (bs : List Bool) : Nat :=
  ((List.range (bs.length + 1 - m)).map (fun i => ((bs.drop i).take m).countP id)).foldl max 0

/-- R² of BANDRMS (R252). -/
def bandRms (s : State) (u k r i : Nat) (ws : List W48) : W48 × Bool :=
  psdWord (((ruleLines s u k r ws).map (fun p => psdVal p.2)).sum * entryRate s u i / (setN s u k : Nat))

/-- Whether a rule holds for a spectrum, its two payload quantities, and the flags of its lines (R252, R253). -/
def ruleCheck (s : State) (u k r i : Nat) (lvl : Int) (ws : List W48) : Bool × W48 × Bool × List (Nat × Bool) :=
  let ls := (ruleLines s u k r ws).map (fun p => (p.1, lineBeyond s u k r lvl p.1 p.2))
  if ruleType s u k r = 1 then
    let n := bestRun (ruleM s u k r) (ls.map Prod.snd)
    (decide (ruleK s u k r ≤ n), BitVec.ofNat 48 (n % 512), false, ls)
  else
    let q := bandRms s u k r i ws
    let lim : Int := ruleLimit s u k r
    (beyond (ruleSide s u k r) (levelCode q.1) (lim + lvl) (lim + lvl), q.1, q.2, ls)

def ruleKey (k r i : Nat) : Nat := (k * 4 + r) * 512 + i
def getRule (g : Spu) (key : Nat) : RuleState := Mem.read (fun _ => {}) g.rules key
def setRule (key : Nat) (x : RuleState) (g : Spu) : Spu := { g with rules := Mem.write (fun _ => {}) g.rules key x }

/-- A rule's event record (R253). No line beyond the band leaves the first line open. -/
def ruleRecord (u k r i : Nat) (enter : Bool) (w1 : W48) (ls : List (Nat × Bool)) (x : Sample) (s : State) : State :=
  let hits := ls.filter Prod.snd
  let first := match hits with | p :: _ => p.1 | [] => (Config.freeWord s.fresh).toNat % 8192
  let s := if hits.isEmpty then { s with fresh := s.fresh + 1 } else s
  match streamOf s 3 u (2 * k + 1) with
  | some j =>
    offerEvent j 5 x [pack [(b2n (ruleAbort s u k r), 47), (b2n enter, 46), (k, 43), (r, 41), (b2n (decide (i = 256)), 40),
      (if i = 256 then 0 else i, 32), (first, 19), (hits.length % 8192, 6)], w1] s
  | none => s

/-- A rule enters firing: ALARMS or ABORTS and the set's flag (R254). -/
def ruleCounts (u k r : Nat) (s : State) : State :=
  if ruleAbort s u k r then raise (setStatA u k) 8 (bump (spuA u + 0x34) s) else raise (setStatA u k) 7 (bump (spuA u + 0x30) s)

/-- One rule on one checked spectrum: `i` is its entry, 256 for a control spectrum, and `rate` the entry its rate comes from. -/
def runRule (u k r i rate : Nat) (lvl : Int) (ws : List W48) (x : Sample) (s : State) : State :=
  if ruleType s u k r = 0 then s
  else
    let c := ruleCheck s u k r rate lvl ws
    let g := getSpu s u
    let st := getRule g (ruleKey k r i)
    let run := if c.1 then st.run + 1 else 0
    let firing := c.1 && (st.firing || decide (rulePersist s u k r ≤ run))
    let s := setSpu u (setRule (ruleKey k r i) { run := run, firing := firing } g) s
    let s := if c.2.2.1 then spuSat u 1 s else s
    let x := { x with sat := x.sat || c.2.2.1 }
    if firing = st.firing then s
    else ruleRecord u k r i firing c.2.1 c.2.2.2 x (if firing then ruleCounts u k r s else s)

/-- Whether the rules of a set run (R257, R259). -/
def rulesRun (s : State) (u k : Nat) : Bool :=
  !(getSpu s u).broken.contains k && (match streamOf s 3 u (2 * k + 1) with | some j => admitted s j | none => false)

/-- A unit has an ABORT rule firing. -/
def abortFires (s : State) (u : Nat) : Bool :=
  (getSpu s u).rules.any (fun kv => kv.2.firing && ruleAbort s u (kv.1 / 2048) (kv.1 / 512 % 4))

/-- ABORT takes a level, and what follows it (R254). -/
def setAbort (u : Nat) (on : Bool) (s : State) : State :=
  let g := getSpu s u
  if g.abort = on then s
  else
    let s := setSpu u { g with abort := on } s
    let s := if on then
        let s := ringTrigger 3 u s
        if bit (cfgR s frzA) (4 + u) then freezeNow 3 u 0 s else s
      else s
    evoRefresh s

/-- ABORT after an evaluation of the unit (R254, R259). -/
def refreshAbort (u : Nat) (s : State) : State := setAbort u (abortFires s u || (getSpu s u).brkHeld) s

/-! ### Evaluation (R247, R248, R255) -/

/-- A PSD record's payload (R255). -/
def psdPayload (s : State) (u k i frames present : Nat) (ws : List W48) : List W48 :=
  [pack [(b2n (decide (i = 256)), 47), (k, 44), (if i = 256 then 0 else i, 36), (min frames 4095, 24), (present % 512, 15)],
   pack [(setLa s u k, 26), (setLb s u k, 13)]] ++ ws

/-- An output of a set: its record, or a refusal when the set is BROKEN (R255, R259). -/
def psdOutput (u k i frames present : Nat) (ws : List W48) (partialSet : Bool) (x : Sample) (s : State) : State :=
  match streamOf s 3 u (2 * k) with
  | none => s
  | some j =>
    if (getSpu s u).broken.contains k then refuseRun j (oneRefused 4 x) s
    else offerRec j x
      { type := 9, sub := 0, num := j, flags := sampleFlags x ||| (if partialSet then 8 else 0), time := x.stamp, era := x.era,
        payload := psdPayload s u k i frames present ws } s

/-- The control spectrum of present entries (R248): mean or maximum line by line. -/
def controlLines (s : State) (u k : Nat) (rs : List SpuResult) : List (W48 × Bool) :=
  (List.range (setLb s u k + 1 - setLa s u k)).map (fun j =>
    let vs := rs.map (fun r => psdVal (r.words.getD j 0))
    psdWord (if setCtrl s u k = 1 then vs.sum / (vs.length : Nat) else vs.foldl max 0))

/-- Newest stamp, worst quality and flags of the entries (R248). -/
def controlSample (rs : List SpuResult) : Sample :=
  rs.foldl (fun a r =>
    let n := if a.stamp ≤ r.sample.stamp then r.sample else a
    { n with qual := qworse a.qual r.sample.qual, sat := a.sat || r.sample.sat, ovr := a.ovr || r.sample.ovr,
             filled := a.filled || r.sample.filled }) { qual := .fine }

/-- Index of the set's next evaluation, and the frames each entry must have settled for it. -/
def evalIndex (s : State) (u k : Nat) : Nat := Mem.read (fun _ => 0) (getSpu s u).evaluated k
def evalNeed (s : State) (u k : Nat) : Nat :=
  if setExp s u k then evalIndex s u k + 1 else (evalIndex s u k + 1) * setNavg s u k

/-- Every entry of the set has settled the frames of its next evaluation. -/
def evalDue (s : State) (u k : Nat) : Bool :=
  !(setEntries s u k).isEmpty && (setEntries s u k).all (fun i => decide (evalNeed s u k ≤ (getEntry (getSpu s u) i).resolved))

/-- The present entries with their averages at an index (R247). -/
def presentAt (s : State) (u k idx : Nat) : List (Nat × SpuResult) :=
  ((setEntries s u k).map (fun i => (i, Mem.read (fun _ => {}) (getEntry (getSpu s u) i).done idx))).filter (fun p => !p.2.words.isEmpty)

/-- Rules in order, and within a rule the spectra in order (R253). -/
def runRules (u k : Nat) (lvl : Int) (spectra : List (Nat × Nat × List W48 × Sample)) (s : State) : State :=
  if rulesRun s u k then
    forEach (List.range 4) (fun r s => spectra.foldl (fun s p => runRule u k r p.1 p.2.1 lvl p.2.2.1 p.2.2.2 s) s) s
  else s

/-- Too few entries for a control spectrum (R248). -/
def controlMiss (u k : Nat) (out : Bool) (present : List (Nat × SpuResult)) (s : State) : State :=
  let s := bump (spuA u + 0x18) s
  let x := if present.isEmpty then stampNow s else controlSample (present.map Prod.snd)
  match streamOf s 3 u (2 * k), out with
  | some j, true => refuseRun j (oneRefused 5 x) s
  | _, _ => s

/-- Frames averaged as a control spectrum's record carries them: that of its entries, free where they differ (R247, R255). -/
def controlFrames (ready : List (Nat × SpuResult)) (s : State) : Nat × State :=
  match ready with
  | [] => (0, s)
  | p :: ps =>
    if ps.all (fun q => min q.2.frames 4095 = min p.2.frames 4095) then (p.2.frames, s)
    else let d := draw s; ((Config.freeWord d.1).toNat % 4096, d.2)

/-- The control spectrum is formed, checked and output (R248). -/
def controlEval (u k : Nat) (lvl : Int) (out : Bool) (ready : List (Nat × SpuResult)) (s : State) : State :=
  let part := decide (ready.length < (setEntries s u k).length)
  let s := if part then raise (setStatA u k) 6 (bump (spuA u + 0x1C) s) else s
  let ls := controlLines s u k (ready.map Prod.snd)
  let x0 := controlSample (ready.map Prod.snd)
  let x := { x0 with sat := x0.sat || ls.any Prod.snd }
  let ws := ls.map Prod.fst
  let s := spuSat u (ls.countP Prod.snd) s
  let s := if out then let f := controlFrames ready s; psdOutput u k 256 f.1 ready.length ws part x f.2 else s
  runRules u k lvl [(256, (ready.head?.map Prod.fst).getD 0, ws, x)] s

/-- The next evaluation of a set (R247, R248, R251–R255). -/
def evaluate (u k : Nat) (s : State) : State :=
  let idx := evalIndex s u k
  let lvl := setLvl s u k
  let present := presentAt s u k idx
  let ready := present.filter (fun p => p.2.ready)
  let out := !setExp s u k || decide ((idx + 1) % setOutdiv s u k = 0)
  let begun := !setExp s u k || (setEntries s u k).any (fun i => decide (2 ^ setAshift s u k ≤ (getEntry (getSpu s u) i).frames))
  let s := if setPsdOut s u k && out then
      present.foldl (fun s p => psdOutput u k p.1 p.2.frames present.length p.2.words false p.2.sample s) s
    else s
  let s :=
    if !begun then s
    else if setCtrl s u k = 0 then runRules u k lvl (ready.map (fun p => (p.1, p.1, p.2.words, p.2.sample))) s
    else if ready.length < setCmin s u k then controlMiss u k out present s
    else controlEval u k lvl out ready s
  let g := getSpu s u
  let g := (setEntries s u k).foldl (fun g i => setEntry i { getEntry g i with done := Mem.erase (getEntry g i).done idx } g) g
  refreshAbort u (setSpu u { g with evaluated := Mem.write (fun _ => 0) g.evaluated k (idx + 1) } s)

/-- EVALUATION (R247, R252). -/
def execEvaluation (u set : Nat) (s : State) : Host.Outcome State Fault Refusal := live s <|
  if u < 2 ∧ set < 8 ∧ s.power.cur = .s0 ∧ setRuns s u set ∧ evalDue s u set then .next (evaluate u set s) else .next s

/-- FIRING of SETs_STAT (R263). -/
def setFiring (s : State) (u k : Nat) : Nat :=
  (List.range 4).foldl (fun v r =>
    if (getSpu s u).rules.any (fun kv => kv.2.firing && decide (kv.1 / 512 = k * 4 + r)) then v + 2 ^ r else v) 0

/-! ### Table errors (R259) -/

/-- Sets of a unit that use a word of its window or mask table. -/
def setsUsing (s : State) (u : Nat) (mask : Bool) (w : Nat) : List Nat :=
  (List.range 8).filter (fun k => setEn s u k &&
    (if mask then decide (setMbase s u k ≤ w ∧ w ≤ setMbase s u k + setLb s u k - setLa s u k)
     else decide (setWin s u k = 3 ∧ setWbase s u k ≤ w ∧ w < setWbase s u k + setN s u k)))

/-- A set becomes BROKEN: its rules leave firing with no record, and BRKABT holds ABORT (R259). -/
def breakSet (u k : Nat) (s : State) : State :=
  let g := getSpu s u
  let g := { g with
    broken := if g.broken.contains k then g.broken else k :: g.broken
    rules := g.rules.filter (fun kv => kv.1 / 2048 ≠ k) }
  if bit (cfgR s (spuA u)) 1 then setAbort u true (setSpu u { g with brkHeld := true } s) else setSpu u g s

/-- An uncorrectable error in a table word: window words are 0 to 16,383 of the journal's address, mask words follow. -/
def spuUncorrectable (u : Nat) (mask : Bool) (w : Nat) (s : State) : State :=
  let s := journal 0x40 (stampNow s) [pack [(1, 36), (u, 32), (if mask then 16384 + w else w, 0)]]
    (raise (spuA u + 4) 6 (bump (spuA u + 0x2C) s))
  forEach (setsUsing s u mask w) (breakSet u) s

/-- SPU_SCRUB (R259). -/
def execSpuScrub (u : Nat) (mask : Bool) (w : Nat) (found : Ecc) (s : State) : Host.Outcome State Fault Refusal := live s <|
  if s.power.cur ≠ .s0 ∨ 2 ≤ u ∨ 16384 ≤ w then .next s
  else match found with
  | .clean => .next s
  | .corrected => .next (raise (spuA u + 4) 5 (bump (spuA u + 0x28) s))
  | .uncorrectable => .next (spuUncorrectable u mask w s)

/-- An average restarts after an error in its memory (R259). -/
def restartAverage (u i : Nat) (s : State) : State :=
  let g := getSpu s u
  let e := getEntry g i
  bump (spuA u + 0x38) (setSpu u (setEntry i
    { e with average := [], frames := 0, blockSum := [], blockFrames := 0, newest := {} } g) s)

/-! ### Vetoes and leaving ON (R260) -/

/-- A unit with a formed frame in its queue or an evaluation due vetoes sleep. -/
def spuVetoes (s : State) (u : Nat) : Bool :=
  decide ((getSpu s u).state = .on) &&
  (!(getSpu s u).queue.isEmpty || (List.range 8).any (fun k => setRuns s u k && evalDue s u k))

/-- Entries, averages and rules start over; an EVO in LATCH keeps its level (R260). -/
def spuClear (u : Nat) (s : State) : State :=
  let g := getSpu s u
  setAbort u g.brkHeld (setSpu u { g with queue := [], entries := [], rules := [], evaluated := [] } s)

end Sys2Proof.Machine
end

