-- ==== Sys2Proof/Machine/Integrity.lean ====
section
/-! DEFINITION. What the checks of memories and of the fabric find, and what follows (R233, R259, R265, R463, R490, R491). -/

namespace Sys2Proof.Machine
open Sys2Proof

/-- A MEMERR entry (R461). -/
def memErr (block unit w : Nat) (s : State) : State :=
  journal 0x40 (stampNow s) [pack [(block, 36), (unit, 32), (w % 2 ^ 23, 0)]] s

/-! ### Batch SRAM (R491) -/

/-- A corrected single-bit error: monitor 15 counts it. -/
def sramCorrected (s : State) : State := { s with mgt := { s.mgt with sramCorr := s.mgt.sramCorr + 1 } }

/-- An uncorrectable word is poisoned, counted once by monitor 16, flagged and journalled, until it is written again. -/
def sramPoison (w : Nat) (s : State) : State :=
  if s.poisoned.contains (sramA w) then s
  else
    let s := { s with poisoned := sramA w :: s.poisoned, mgt := { s.mgt with sramUnc := s.mgt.sramUnc + 1 } }
    memErr 5 0 w (raise mgtFlagsA 5 s)

/-- What a read of a batch SRAM word finds. -/
def sramFound (w : Nat) (found : Ecc) (s : State) : State :=
  match found with
  | .clean => s
  | .corrected => sramCorrected s
  | .uncorrectable => sramPoison w s

/-- SRAM_SCRUB (R491): in S0 a word is read. `avg` names the entry (unit, number) whose spectral average the word holds,
if it does: that average restarts after an uncorrectable error (R259). -/
def execSramScrub (w : Nat) (found : Ecc) (avg : Option (Nat × Nat)) (s : State) : Host.Outcome State Fault Refusal := live s <|
  if s.power.cur ≠ .s0 ∨ 4194304 ≤ w then .next s
  else
    let s := sramFound w found s
    match avg, found with
    | some x, .uncorrectable => .next (restartAverage x.1 x.2 s)
    | _, _ => .next s

/-! ### The Tally journal (R463) -/

/-- What a read of a journal word finds: monitor 17 counts a correction; an uncorrectable word sets JECCF, counts in
monitor 18 and is journalled (R461). -/
def journalFound (w : Nat) (found : Ecc) (s : State) : State :=
  match found with
  | .clean => s
  | .corrected => { s with mgt := { s.mgt with jnlCorr := s.mgt.jnlCorr + 1 } }
  | .uncorrectable => memErr 3 0 w (raise mgtFlagsA 6 { s with mgt := { s.mgt with jnlUnc := s.mgt.jnlUnc + 1 } })

/-! ### Any memory word (R233, R259, R265) -/

/-- An engine's DRAM word has a parity error until it is written. -/
def dramParity (e w : Nat) (s : State) : State :=
  if s.poisoned.contains (dramA e w) then s else { s with poisoned := dramA e w :: s.poisoned }

/-- What the check of a memory word finds when the word at a device address is read. -/
def memFound (a : Nat) (found : Ecc) (s : State) : State :=
  if found = .clean then s
  else
    let bad := decide (found = .uncorrectable)
    if 0x0020_0000 ≤ a ∧ a < 0x0030_0000 then
      let e := (a - 0x0020_0000) / 0x1_0000
      let w := a % 0x8000 / 8
      if a % 0x1_0000 < 0x8000 then (if bad then iramPoison e w s else iramCorrected e s) else dramParity e w s
    else if 0x0030_0000 ≤ a ∧ a < 0x0038_0000 then
      let u := (a - 0x0030_0000) / 0x4_0000
      let mask := decide (0x2_0000 ≤ a % 0x4_0000)
      if bad then spuUncorrectable u mask (a % 0x2_0000 / 8) s else raise (spuA u + 4) 5 (bump (spuA u + 0x28) s)
    else if 0x0040_0000 ≤ a ∧ a < 0x0060_0000 then
      let e := (a - 0x0040_0000) / 0x4_0000
      if bad then coefUncorrectable e (a % 0x4_0000 / 8) s else raise (feA e) 5 (bump (feA e + 0x10) s)
    else if 0x0100_0000 ≤ a ∧ a < 0x0300_0000 then sramFound ((a - 0x0100_0000) / 8) found s
    else if 0x0400_0000 ≤ a ∧ a < 0x0440_0000 then journalFound ((a - 0x0400_0000) / 8) found s
    else s

/-- A host's or Ranger's read of a DRAM word with a parity error is counted (R265). -/
def countParity (a : Nat) (s : State) : State :=
  if 0x0020_0000 ≤ a ∧ a < 0x0030_0000 ∧ 0x8000 ≤ a % 0x1_0000 ∧ s.poisoned.contains a then
    bump (eeA ((a - 0x0020_0000) / 0x1_0000) + 0x34) s
  else s

/-! ### The fabric (R490) -/

/-- FABRIC_PARITY_FAILURE (R490): a word of stream k fails at a receiver: 0 FE, 1 SPU, 2 EE, 3 stager. It is repeated
once; where the repeat fails too (`again`), the word is taken as received, counted and journalled. -/
def execFabricParityFailure (block k : Nat) (again : Bool) (s : State) : Host.Outcome State Fault Refusal := live s <|
  if s.power.cur ≠ .s0 ∨ 4 ≤ block then .next s
  else
    let s := bump 0x100 s
    .next (if again then memErr 4 block k (bump 0x104 s) else s)

end Sys2Proof.Machine
end

