-- ==== Sys2Proof/Machine/Cause.lean ====
section
/-! DEFINITION. The cause tree: leaves, groups, SYS_SUMMARY and what follows it (R382, R384, R400, R404–R413). -/

namespace Sys2Proof.Machine
open Sys2Proof

/-- A leaf is raised while any of its W1C flags is 1 (R404). -/
def leafUp (s : State) (a : Nat) : Bool := flagR s a ≠ 0

/-- A register whose bit i is `f i`, for i below n. -/
def bitMap (n : Nat) (f : Nat → Bool) : W32 :=
  BitVec.ofNat 32 ((List.range n).foldl (fun acc i => acc + b2n (f i) * 2 ^ i) 0)

/-- SYS_C_RNGi (R405). -/
def groupRng (s : State) (i : Nat) : W32 := bitMap 32 (fun j => leafUp s (rngA (32 * i + j) + 4))
/-- SYS_C_CHLi (R405). -/
def groupChl (s : State) (i : Nat) : W32 := bitMap 32 (fun j => leafUp s (limFA (32 * i + j)))

/-- The leaf of a trunk port is in its three status registers (R406). -/
def hwsLeafUp (s : State) (n : Nat) : Bool := leafUp s (hwsA n + 4) || leafUp s (hwsA n + 0x24) || leafUp s (hwsA n + 0x104)
/-- The leaf of a spectral unit is in its status register and those of its eight sets (R406). -/
def spuLeafUp (s : State) (u : Nat) : Bool :=
  leafUp s (spuA u + 4) || (List.range 8).any (fun k => leafUp s (spuSetA u k + 0x1C))

/-- SYS_C_PORT (R406): ports 8–15 are TWC0–TWC3 and SSP0–SSP3. -/
def groupPort (s : State) : W32 := bitMap 24 (fun i =>
  if i < 8 then leafUp s (cvpA i + 4) else if i < 16 then leafUp s (sbpA (i - 8) + 4) else hwsLeafUp s (i - 16))
/-- SYS_C_ENG (R406). -/
def groupEng (s : State) : W32 := bitMap 26 (fun i =>
  if i < 8 then leafUp s (feA i) else if i < 10 then spuLeafUp s (i - 8) else leafUp s (eeA (i - 10) + 4))

/-- The enables of a group: all ones where the summary is raw (R406). -/
def groupEn (s : State) (raw : Bool) (a : Nat) : W32 := if raw then BitVec.allOnes 32 else cfgR s a

/-- Bit b of the summary, before SYS_SUMEN (R406). -/
def summaryBit (s : State) (raw : Bool) (b : Nat) : Bool :=
  match b with
  | 0 => (List.range 4).any (fun i => groupRng s i &&& groupEn s raw (0x40 + 4 * i) ≠ 0)
  | 1 => (List.range 2).any (fun i => groupChl s i &&& groupEn s raw (0x50 + 4 * i) ≠ 0)
  | 2 => groupPort s &&& groupEn s raw 0x58 ≠ 0
  | 3 => groupEng s &&& groupEn s raw 0x5C ≠ 0
  | 4 => leafUp s tbLeafA
  | 5 => leafUp s admFlagsA
  | 6 => leafUp s (hlA + 8)
  | 7 => leafUp s cfgStatA
  | 8 => leafUp s mgtFlagsA
  | 9 => leafUp s bgtFlagsA
  | 10 => leafUp s pwrFlagsA
  | 11 => leafUp s sysFlagsA
  | b => decide (25 ≤ b) && isPrimary s && bit s.bgt.secs (b - 24)

/-- SYS_RAW (R406). -/
def sysRaw (s : State) : W32 := bitMap 32 (summaryBit s true)
/-- SYS_SUMMARY (R406). -/
def sysSummary (s : State) : W32 := bitMap 32 (summaryBit s false) &&& cfgR s sysSumEnA

/-! ### The pin and its mirrors -/

/-- INT_N is low (R410). It follows the summary as SUMMARY_CHANGE has carried it (R407). -/
def intLow (s : State) : Bool := s.hl.summary ≠ 0

/-- HL_MSI. -/
def hlMsiA : Nat := hlA + 0x50

/-- The link leaves L1 and its substates to send (R383, R401). -/
def linkExit (s : State) : State := { s with hl := { s.hl with busyAt := ticks s, lpm := if s.hl.lpm ≤ 3 then 0 else s.hl.lpm } }

/-- The message address and data of the MSI capability at 0x50 (R379). Its layout is the PCI specification's: PRESUMED. -/
def msiMsg (s : State) : LinkMsg :=
  let w := fun a => Mem.read (fun _ => 0) s.hl.space a
  .msi ((w 0x58).setWidth 64 <<< 32 ||| (w 0x54).setWidth 64) (w 0x5C)

/-- A message leaves on the link. -/
def linkSend (m : LinkMsg) (s : State) : State :=
  let s := linkExit s
  { s with hl := { s.hl with sent := m :: s.hl.sent } }

/-- An MSI falls due: it is held without Bus Master Enable, and none is sent in D3hot (R382, R384). A link that is down carries
none either; the MSI is held as without Bus Master Enable (DEDUCED). -/
def msiDue (s : State) : State :=
  if !s.hl.msiEn || s.hl.d3 then s
  else if !s.hl.bme || s.hl.linkGen = 0 then { s with hl := { s.hl with msiHeld := true } }
  else bumpWrap hlMsiA (linkSend (msiMsg s) s)

/-- Assert_INTA or Deassert_INTA, as the summary and the enables ask (R382). -/
def intxFollow (s : State) : State :=
  let want := !s.hl.msiEn && !s.hl.intDis && intLow s
  if want = s.hl.inta || s.hl.linkGen = 0 then s
  else linkSend (if want then .assertInta else .deassertInta) { s with hl := { s.hl with inta := want } }

/-- PME_Status rises in D3hot or D3cold with PME_En (R384). -/
def pmeRise (s : State) : State :=
  if (s.hl.d3 || s.hl.perst) && s.hl.pmeEn then
    let s := { s with hl := { s.hl with pmeStatus := true } }
    if s.hl.linkGen ≠ 0 && decide (s.hl.lpm ≤ 3) && !s.hl.perst then linkSend .pmPme s
    else { s with hl := { s.hl with hostWake := true } }
  else s

/-- TWT_ALERT_N follows INT_N while ALERT_EN and TWT_EN are set (R375, R400, R410). -/
def alertFollow (low : Bool) (s : State) : State :=
  { s with hl := { s.hl with alert := low && bit (cfgR s (hlA + 4)) 3 && bit (cfgR s (hlA + 4)) 2 } }

/-- A CAUSE frame's [0]: the summary is non-zero. The spec lists what a CAUSE frame carries, not its coding: a DESIGN CHOICE. -/
def causeFrame (s : State) (up : Bool) : BFrame := { kind := 7, src := myPos s, dst := 0, info := BitVec.ofNat 32 (b2n up) }

/-- A secondary forwards a change of its summary between zero and non-zero (R412). -/
def forwardCause (s : State) : State := if isSecondary s then bgtSend (causeFrame s (intLow s)) s else s

/-- What follows a change of the summary between zero and non-zero (R382, R384, R400, R412). -/
def summaryTurned (s : State) : State :=
  let up := intLow s
  let s := alertFollow up (forwardCause s)
  intxFollow (if up then pmeRise (msiDue s) else s)

/-- SYS_SUMMARY is carried forward to INT_N and its mirrors. -/
def carrySummary (s : State) : State :=
  let new := sysSummary s
  let turned := decide (new ≠ 0) != intLow s
  let s := { s with hl := { s.hl with summary := new } }
  if turned then summaryTurned s else s

/-- SUMMARY_CHANGE (R407). -/
def execSummaryChange (s : State) : Host.Outcome State Fault Refusal := live s <| .next (carrySummary s)

/-- A host write to a cause register that leaves SYS_SUMMARY non-zero sends the MSI again (R382). -/
def causeWritten (s : State) : State := if sysSummary s ≠ 0 then msiDue s else s

end Sys2Proof.Machine
end

