-- ==== Sys2Proof/Machine/Rates.lean ====
section
/-! DEFINITION. Nominal rates and times of the sources, stages and engines, as configured (R61, R103, R123, R194, R204, R285, R318, R324). -/

namespace Sys2Proof.Machine
open Sys2Proof

/-! ### Timers (R61, R64, R103, R285) -/

/-- Touch scan period in crystal cycles. -/
def touchScan (s : State) : Nat := bits (cfgR s (opiA + 0x10)) 15 0
/-- Debounce of a pin in crystal cycles, at least 1 (R137). -/
def pinCycles (s : State) (n : Nat) : Nat := max 1 (bits (cfgR s (evpA n)) 19 8)

/-- Rate of a clock source that has one of its own (R61); `wide` adds pins and the touch scan (R285). -/
def clockRate (s : State) (wide : Bool) (src idx : Nat) : Option Rat :=
  match src with
  | 0 => some 400000000
  | 1 => some 100000000
  | 2 => some 16000000
  | 3 => some 32768
  | 4 => some 10000000
  | 5 => some 1
  | 6 => if wide then some (32768 / (pinCycles s idx : Rat)) else none
  | 7 => some 25000000
  | 10 => some (1000000 / (5.76 : Rat))
  | 11 => some 1000
  | 15 => if wide then some (32768 / (max 1 (touchScan s) : Nat)) else none
  | _ => none

/-- Ticks of a timer per second, directly or through a chain of sources 8, 9 and 12; none where no rate can be derived. -/
def tickRate (s : State) (wide : Bool) : Nat → Nat → Option Rat
  | 0, _ => none
  | fuel + 1, n =>
    let idx := tmrIdx s n
    let overflows := fun m => (tickRate s wide fuel m).map (fun r : Rat => r / (((tmrTop s m).toNat + 1 : Nat) : Rat))
    let src : Option Rat := match tmrSrc s n with
      | 8 => overflows idx
      | 9 => if (tmrCmp s idx false).toNat ≤ (tmrTop s idx).toNat then overflows idx else none
      | 12 =>
        let f := cvpFstmr s idx
        (match tmrOutMode s f with
        | 1 => if tmrCmp s f false ≠ tmrCmp s f true ∧ (tmrCmp s f false).toNat ≤ (tmrTop s f).toNat ∧
                  (tmrCmp s f true).toNat ≤ (tmrTop s f).toNat then overflows f else none
        | 2 => (overflows f).map (· / 2)
        | _ => none)
      | c => clockRate s wide c idx
    src.map (fun r => r * 2 ^ 24 / (tmrDq s n : Nat))

/-- Rate of an event of a timer: 0 CMP_A match, 1 CMP_B match, 2 overflow. -/
def timerEventRate (s : State) (wide : Bool) (n evt : Nat) : Option Rat :=
  (tickRate s wide cascade n).bind (fun r =>
    if evt = 2 ∨ (tmrCmp s n (evt == 1)).toNat ≤ (tmrTop s n).toNat then some (r / ((tmrTop s n).toNat + 1 : Nat)) else none)

/-- SYNC rate of a converter port; none where R103 derives no SYNC period. -/
def syncRate (s : State) (n : Nat) : Option Rat :=
  let f := cvpFstmr s n
  match tmrOutMode s f with
  | 1 => if tmrCmp s f false ≠ tmrCmp s f true ∧ (tmrCmp s f false).toNat ≤ (tmrTop s f).toNat ∧
            (tmrCmp s f true).toNat ≤ (tmrTop s f).toNat then timerEventRate s false f 2 else none
  | 2 => (timerEventRate s false f 2).map (· / 2)
  | _ => none

/-- The deepest state in which a clock source runs (R61). -/
def srcDeepest (src : Nat) : PState :=
  if srcRuns src .s3 then .s3 else if srcRuns src .s2 then .s2 else if srcRuns src .s1 then .s1 else .s0

/-- The deepest state in which a timer's effective source runs (R67). -/
def timerDeepest (s : State) (n : Nat) : PState := srcDeepest (effectiveSource s 32 n)

/-- The nominal ticks in a second (R318). -/
def secTicks : Rat := 400000000

/-! ### Poll lists (R108, R109, R111, R123) -/

/-- Serial SCK period in ticks. -/
def sckTicks (s : State) (p : Nat) : Nat := 2 * bits (cfgR s (sbpA p)) 27 16

/-- tLOW + tHIGH of a two-wire mode, in ticks (R108). -/
def sclTicks (s : State) (p : Nat) : Nat :=
  (match bits (cfgR s (sbpA p)) 17 16 with | 0 => 4000 | 1 => 1000 | _ => 400) + bits (cfgR s (sbpA p + 8)) 15 0

/-- A of R123: attempts on a SHARED port. -/
def busTries (s : State) (p : Nat) : Nat := if twcShared s p then 1 + twcRetry s p else 1
/-- H of R123, in ticks. -/
def busHold (s : State) (p : Nat) : Nat := if twcShared s p then 400 * bits (cfgR s (sbpA p + 0xC)) 23 0 else 0

/-- Two-wire time for B bytes and K conditions with a stretch allowance (R123). -/
def twoWireTime (s : State) (p b k stretch : Nat) : Nat :=
  busTries s p * ((9 * b + k + 1) * sclTicks s p + stretch + busHold s p)

/-- T_E of an entry, in ticks (R123). -/
def entryTime (s : State) (e : Nat) : Rat :=
  let w := pollW s e 0
  let p := pollPort s e
  let nc := pollNc s e
  let nr := pollNr s e
  if sbpTwoWire p then
    let rep := decide (nc ≠ 0 ∧ nr ≠ 0)
    let b := (if rep then 2 else 1) + nc + nr + b2n (pollChk s e)
    let str := bits w 3 0
    twoWireTime s p b (if rep then 3 else 2) (if str = 0 then 0 else 400 * 2 ^ (str - 1))
  else
    let l := if bit w 4 then max nc nr else nc + nr
    let t := cfgR s (sbpA p + 8)
    8 * l * sckTicks s p + ((bits t 7 0 + bits t 15 8 + bits t 23 16 : Nat) : Rat) * sckTicks s p / 2

/-- T_L of a list, in ticks. -/
def listTime (s : State) (head : Nat) : Rat := ((entriesOf s head).map (fun e => entryTime s e + 64)).sum

/-- HEAD entries of a port's lists. -/
def portHeads (s : State) (p : Nat) : List Nat := (pollHeads s).filter (fun e => pollPort s e = p)

/-- ALERT entries of a port. -/
def alertEntries (s : State) (p : Nat) : List Nat :=
  ((s.tab.filterMap (fun kv => pollOfA kv.1)).filter (fun e => pollAlert s e && pollPort s e = p))

/-- Time of the alert list; 0 where the port services no alerts (R123). -/
def alertTime (s : State) (p : Nat) : Rat :=
  if sbpTwoWire p && twcAlertEn s p then
    let es := alertEntries s p
    (twoWireTime s p (if es.any (pollChk s) then 3 else 2) 2 0 : Nat) + (es.map (entryTime s)).foldl max 0
  else 0

/-- W of a port: the time of all its lists (R123). -/
def portTime (s : State) (p : Nat) : Rat := ((portHeads s p).map (listTime s)).sum + alertTime s p

/-- P_L of a list, in ticks; none where no rate can be derived. -/
def listPeriod (s : State) (head : Nat) : Option Rat :=
  (timerEventRate s false (pollTmr s head) (pollEvt s head)).map (secTicks / ·)

/-- The port condition of R123 over the lists that have a period. -/
def pollPortOk (s : State) (p : Nat) : Bool :=
  let w := portTime s p
  let ls := (portHeads s p).filterMap (fun h => (listPeriod s h).map (fun t => (listTime s h, t)))
  let alert := alertTime s p
  let amin : Rat := 400 * (bits (cfgR s (sbpA p + 0x10)) 23 0 : Nat)
  decide ((ls.map (fun x => x.1 / x.2)).sum + (if alert = 0 then 0 else alert / amin) ≤ 9 / 10) &&
  ls.all (fun x => decide (w ≤ x.2)) && (alert = 0 || decide (w ≤ amin))

/-- The HEAD entry of the list that holds an entry. -/
def headOf (s : State) (e : Nat) : Option Nat := (pollHeads s).find? (fun h => (entriesOf s h).contains e)

/-! ### Channels (R137, R201, R204, R318) -/

/-- Values of a channel per second (R137, R318). -/
def chanRate (s : State) (c : Nat) : Rat :=
  match chKind s c with
  | 5 => 32768 / (pinCycles s (chAddr s c % 16) : Rat)
  | 6 => 32768 / ((max 1 (bits (cfgR s (tchA (chAddr s c % 16))) 11 8) * max 1 (touchScan s) : Nat) : Rat)
  | 7 => 32768
  | _ => if chNomper s c = 0 then 0 else 102400000000 / (chNomper s c : Rat)

/-- Port, node and node channel of a generation 2 source (R201). -/
def trunkSrc (a : Nat) : Nat × Nat × Nat := (a / 1024 % 8, a / 32 % 32, a % 32)
/-- Port, address and channel of a generation 1 source. -/
def trunk1Src (a : Nat) : Nat × Nat × Nat := (a / 256 % 8, a / 32 % 8, a % 32)

/-- The grant that carries a node channel. -/
def grantOf (s : State) (n m ch : Nat) : Option Nat :=
  (List.range (bookGrants s n m)).find? (fun g => (grantChans s n m g).contains ch)

/-- a_c of a channel: its values that one arrival delivers together (R323). -/
def multiplicity (s : State) (c : Nat) : Nat :=
  if chKind s c = 3 then
    let (n, m, ch) := trunkSrc (chAddr s c)
    match grantOf s n m ch with
    | some g => max 1 (grantSamples s n m ch (bookPer s n m g))
    | none => 1
  else 1

/-- NCH and p of a generation 1 node's booking (R436). -/
def book1Nch (s : State) (n a : Nat) : Nat := beNat (((book1 s n a).drop 9).take 1)
def book1Per (s : State) (n a : Nat) : Nat := beNat (((book1 s n a).drop 8).take 1)
/-- k of R188 for a node's READ. -/
def book1K (s : State) (n a : Nat) : Nat := (784 + 32 * (4 + 3 * book1Nch s n a) + 999) / 1000

/-- A monitor's sampling period in ticks (R456). -/
def monitorTicks (s : State) : Rat := (bits (cfgR s (mgtA + 0x10)) 17 0 : Nat) * (390625 / 32 : Rat)

/-- Stages of a channel on the path to stage `num`. -/
def pathOf (s : State) (c num : Nat) : List StageDesc := stagePath (chainStages s (chFe s c) (chChain s c)) 17 num

/-- Input rate of a stage instance of a channel. -/
def stageInRate (s : State) (c : Nat) (d : StageDesc) : Rat :=
  (pathOf s c d.inp).foldl (fun r x => r / (decimation s (chFe s c) x : Nat)) (chanRate s c)

/-- Outputs of a stage instance per second; a TRIG event needs NQ inputs at least (R219, R227). -/
def stageOutRate (s : State) (c : Nat) (d : StageDesc) : Rat :=
  if d.type = 7 then 0
  else if d.type = 8 then stageInRate s c d / (max 1 (d.param / 2 ^ 6 % 2 ^ 8) : Nat)
  else stageInRate s c d / (decimation s (chFe s c) d : Nat)

/-! ### Spectral sets (R243, R247, R256) -/

/-- Frames of an entry per second. -/
def frameRate (s : State) (u k i : Nat) : Rat := entryRate s u i / (setHop s u k : Nat)
/-- Frames of a set's entries per second: they share one rate (R242). -/
def setFrameRate (s : State) (u k : Nat) : Rat := match setEntries s u k with | i :: _ => frameRate s u k i | [] => 0
/-- Evaluations of a set per second. -/
def evalRate (s : State) (u k : Nat) : Rat :=
  if setExp s u k then setFrameRate s u k else setFrameRate s u k / (setNavg s u k : Nat)
/-- Output instants of a set per second. -/
def outputRate (s : State) (u k : Nat) : Rat :=
  if setExp s u k then setFrameRate s u k / (setOutdiv s u k : Nat) else evalRate s u k
/-- Spectra each evaluation checks (R323). -/
def checkedSpectra (s : State) (u k : Nat) : Nat := if setCtrl s u k ≠ 0 then 1 else (setEntries s u k).length
/-- Enabled rules of a set. -/
def setRules (s : State) (u k : Nat) : List Nat := (List.range 4).filter (fun r => ruleType s u k r ≠ 0)

/-! ### Streams and engine entries (R285, R323, R324) -/

/-- The channel and stage path that feed a stream; the path is empty for a direct stream (R209, R322). -/
def feedOf (s : State) (k : Nat) : Option (Nat × List StageDesc) :=
  match stKind s k with
  | 0 => (chanOfStream s k).map (fun c => (c, []))
  | 1 => (outputOwner s (stUnit s k) (stOutput s k)).map (fun p => (p.1, pathOf s p.1 p.2.num))
  | 4 =>
    match (if stUnit s k = 0 ∧ stOutput s k = 0 then chanOfStream s k else none) with
    | some c => some (c, [])
    | none => (outputOwner s (stUnit s k) (stOutput s k)).map (fun p => (p.1, pathOf s p.1 p.2.num))
  | 5 => (slotOwner s (stOutput s k)).map (fun p => (p.1, pathOf s p.1 p.2.num))
  | _ => none

/-- Channels that hook an engine (R198). -/
def hookedChans (s : State) (e : Nat) : List Nat := (enabledChans s).filter (fun c => (chHooks s c).testBit e)

/-- Enabled sources whose TARGET or ALT names an engine (R285). -/
def icuSources (s : State) (e : Nat) : List Nat :=
  (List.range 128).filter (fun n =>
    let c := cfgR s (icuCfgA n)
    bit c 5 && (decide (bits c 4 0 = e) || bit (cfgR s (icuAltA n)) e))

/-- MININT of a source, µs. -/
def icuMinint (s : State) (n : Nat) : Nat := bits (cfgR s (icuCfgA n)) 31 16

/-- Used entries of an engine, INIT left out. -/
def liveEntries (s : State) (e : Nat) : List Nat := (List.range 32).filter (fun k => decide (2 ≤ entryKind s e k))

/-- r of R285 for an entry, with the rate of each stream. -/
def entryRateBy (s : State) (sr : Nat → Rat) (e i : Nat) : Rat :=
  match entryKind s e i with
  | 2 => sr (entryIndex s e i)
  | 3 => ((hookedChans s e).map (chanRate s)).sum
  | 4 => (timerEventRate s true (entryIndex s e i % 32) (entryEvt s e i)).getD 0
  | 5 => ((icuSources s e).map (fun n => (1000000 : Rat) / (max 1 (icuMinint s n) : Nat))).sum
  | _ => 0

/-- Records per second of a spectral unit's output (R247, R255). -/
def spectralRate (s : State) (u out : Nat) : Rat :=
  let j := out / 2
  if out % 2 = 0 then
    outputRate s u j * (((if setPsdOut s u j then (setEntries s u j).length else 0) + (if setCtrl s u j ≠ 0 then 1 else 0) : Nat) : Rat)
  else evalRate s u j * (((setRules s u j).length * checkedSpectra s u j : Nat) : Rat)

/-- Rate of a stream's samples or records (R285); an engine's derived streams are taken at one record an invocation. -/
def streamRate (s : State) : Nat → Nat → Rat
  | 0, _ => 0
  | fuel + 1, k =>
    if stKind s k = 2 then
      ((liveEntries s (stUnit s k)).map (fun i => entryRateBy s (streamRate s fuel) (stUnit s k) i)).sum
    else if stKind s k = 3 then spectralRate s (stUnit s k) (stOutput s k)
    else
      match feedOf s k with
      | some (c, ds) =>
        (match ds.getLast? with
        | some d => if stKind s k = 5 then stageInRate s c d / (max 1 (rfNsnap s (chFe s c) d) : Nat) else stageOutRate s c d
        | none => chanRate s c)
      | none => 0

/-- r of R285 for an entry of an engine. -/
def triggerRate (s : State) (e i : Nat) : Rat := entryRateBy s (streamRate s 17) e i

/-- A TIMER entry for which R285 derives no rate fails signal_work. -/
def entryRateless (s : State) (e i : Nat) : Bool :=
  decide (entryKind s e i = 4) && (timerEventRate s true (entryIndex s e i % 32) (entryEvt s e i)).isNone

/-- q of R323 for an entry. -/
def entryQ (s : State) (e i : Nat) : Nat :=
  match entryKind s e i with
  | 2 => (match feedOf s (entryIndex s e i) with | some (c, []) => multiplicity s c | _ => 1)
  | 3 => ((hookedChans s e).map (multiplicity s)).sum
  | 4 => 1
  | 5 => (icuSources s e).length
  | _ => 0

end Sys2Proof.Machine
end

