-- ==== Sys2Proof/Machine/RegMap.lean ====
section
/-! DEFINITION. The address map: what each 32-bit location of the device space is (R10, R508–R510),
and which values its writable fields reserve (R14). -/

namespace Sys2Proof.Machine
open Sys2Proof

/-- What a location is to an access (R10, R11). Masks leave out the reserved bits. -/
inductive Access where
  /-- No register: reads zero and ignores writes (R14). -/
  | reserved
  | ro
  /-- A write has an effect of its own. -/
  | own
  /-- The W1C flags under the mask; the other bits are RO or reserved. -/
  | w1c (mask : Nat)
  | lk (mask : Nat)
  | rw (mask : Nat)
  /-- _LO of a RO quantity, of a LK quantity, and of TB_SET. -/
  | loRo
  | loLk (mask : Nat)
  | loRw
  /-- _HI of the quantity 4 below. -/
  | hi
  deriving DecidableEq, Repr, Inhabited

def all32 : Nat := 0xFFFF_FFFF
def all48 : Nat := 0xFFFF_FFFF_FFFF
def all64 : Nat := 0xFFFF_FFFF_FFFF_FFFF

/-- A slot of 64 bits: its _LO is as given, its _HI follows. -/
def slotAcc (o : Nat) (lo : Access) : Access := if o % 8 = 0 then lo else .hi

/-- SYS (R415, R495, R515). -/
def accSys (o : Nat) : Access :=
  match o with
  | 0x00 | 0x04 | 0x08 | 0x0C | 0x20 | 0x24 | 0x28 | 0x2C | 0x30 | 0x34 | 0x38 | 0x3C | 0x60 | 0x100 | 0x104 | 0x108 => .ro
  | 0x10 => .lk 0xFE00_0FFF
  | 0x14 => .w1c 0x3
  | 0x18 => .w1c 0xF
  | 0x40 | 0x44 | 0x48 | 0x4C | 0x50 | 0x54 => .lk all32
  | 0x58 => .lk 0x00FF_FFFF
  | 0x5C => .lk 0x03FF_FFFF
  | _ => .reserved

/-- TB (R58, R59). -/
def accTb (o : Nat) : Access :=
  match o with
  | 0x00 => .loRo
  | 0x04 | 0x34 => .hi
  | 0x08 | 0x14 | 0x1C | 0x20 | 0x28 | 0x2C | 0x40 | 0x44 | 0x48 => .ro
  | 0x10 => .lk 0x00FF_FFF7
  | 0x18 => .lk 0x1FFF_FFFF
  | 0x24 => .lk 0x00FF_FFFF
  | 0x30 => .loRw
  | 0x38 | 0x3C => .own
  | _ => .reserved

/-- TMR (R79–R82). -/
def accTmr (o : Nat) : Access :=
  if o < 0x100 then
    match o with
    | 0x00 => .own
    | 0x04 | 0x08 | 0x0C | 0x10 => .ro
    | 0x14 => .w1c 1
    | _ => .reserved
  else if o < 0x1100 then
    match o % 0x80 with
    | 0x00 => .lk 0x0003_1FFF
    | 0x04 | 0x08 => .lk 0x00FF_FFFF
    | 0x0C => .lk 0x1F00_0FFF
    | 0x10 | 0x18 | 0x20 => .loLk all48
    | 0x28 | 0x30 | 0x38 | 0x40 | 0x48 | 0x50 => .loRo
    | 0x14 | 0x1C | 0x24 | 0x2C | 0x34 | 0x3C | 0x44 | 0x4C | 0x54 => .hi
    | 0x58 => .lk 0x1F0F_1F0F
    | 0x5C => .w1c 0x1F
    | _ => .reserved
  else .reserved

/-- CVP (R104, R105). -/
def accCvp (o : Nat) : Access :=
  if o < 0x100 then (if o = 0 ∨ o = 4 then .ro else .reserved)
  else if o < 0x900 then
    match o % 0x100 with
    | 0x00 => .lk 0xFFFF_1F11
    | 0x04 => .w1c 0xF00
    | 0x08 | 0x0C => .lk 0xFFFF
    | 0x10 | 0x14 | 0x18 | 0x1C | 0x20 | 0x24 | 0x28 | 0x2C => .lk all32
    | 0x40 | 0x44 | 0x48 | 0x4C | 0x50 | 0x54 | 0x58 | 0x5C | 0x60 | 0x64 | 0x68 | 0x84 | 0x88 => .ro
    | 0x80 => .own
    | _ => .reserved
  else .reserved

/-- SBP (R111–R113, R124, R125). -/
def accSbp (o : Nat) : Access :=
  if o < 0x100 then (if o = 0 then .ro else .reserved)
  else if o < 0x500 then
    let x := o % 0x100
    match x with
    | 0x00 => .lk 0x00FB_0001
    | 0x04 => .w1c 0x38
    | 0x08 => .lk 0xFFFF
    | 0x0C | 0x10 => .lk 0x00FF_FFFF
    | _ => if 0x40 ≤ x ∧ x ≤ 0x6C then .ro else .reserved
  else if o < 0x900 then
    match o % 0x100 with
    | 0x00 => .lk 0x0FFF_E0FF
    | 0x04 => .w1c 0xC
    | 0x08 => .lk 0x00FF_FFFF
    | 0x40 | 0x44 | 0x48 => .ro
    | _ => .reserved
  else if 0x2000 ≤ o ∧ o < 0x2800 then .ro
  else if 0x4000 ≤ o ∧ o < 0x8000 then slotAcc o (.loLk (if o % 0x20 < 0x10 then all48 else 0xFFFF_FFFF_F000))
  else .reserved

/-- HWS (R165, R166, R195, R196). -/
def accHws (o : Nat) : Access :=
  match o with
  | 0x00 => .lk 0x0FFF_FF03
  | 0x04 => .w1c 0x1C
  | 0x08 => .lk 0xFFFF_00FF
  | 0x0C => .lk 0x3F3F
  | 0x10 | 0x14 | 0x28 | 0x108 | 0x114 | 0x118 => .ro
  | 0x20 => .lk 0x000F_FF01
  | 0x24 => .w1c 0x60
  | 0x2C => .lk 0xFFFF
  | 0x30 => .lk 0x03FF_03FF
  | 0x34 => .lk all32
  | 0x100 => .lk 0x07F8_FFF1
  | 0x104 => .w1c 0xF8
  | 0x10C => .lk 0xFFFF_00FF
  | 0x110 => .lk 0xFFFF_0FFF
  | _ =>
    if 0x40 ≤ o ∧ o ≤ 0x70 ∨ 0x140 ≤ o ∧ o ≤ 0x184 ∨ 0x208 ≤ o ∧ o < 0x340 ∨ 0x800 ≤ o ∧ o < 0xA40 then .ro
    else if 0x400 ≤ o ∧ o < 0x640 then .lk 0xBF
    else if 0x1000 ≤ o ∧ o < 0x1800 ∧ o % 0x80 < 0x50 then slotAcc o .loRo
    else .reserved

/-- Words of a channel (R198–R203): the reserved bits of words 0 and 7 left out. -/
def accChan (o : Nat) : Access :=
  slotAcc o (.loLk (match o / 8 % 8 with | 0 => 0xFFFF_FF0F_FFFF | 7 => 0xFFFF_FFFC_1FFF | _ => all48))

/-- Words of a stream (R208–R210). -/
def accStream (o : Nat) : Access :=
  slotAcc o (match o / 8 % 4 with
    | 0 => .loLk 0xFFFF_FFFF_F000 | 1 => .loLk 0x3FFF_FFFF_FFFF | 2 => .loLk 0x3FFF_FFFF_FFFF | _ => .loRo)

/-- FE (R239, R240). -/
def accFe (o : Nat) : Access :=
  if o = 0 ∨ o = 4 then .ro
  else if 0x100 ≤ o ∧ o < 0x300 then
    (let x := o % 0x40
    if x = 0 then .w1c 0x78 else if x ≤ 0x20 then .ro else .reserved)
  else if 0x800 ≤ o ∧ o < 0x900 then .ro
  else if 0x1000 ≤ o ∧ o < 0x5000 then slotAcc o (.loLk 0xFFFF_FFF0_7FFF)
  else if 0x6000 ≤ o ∧ o < 0x6800 then
    (match o % 0x10 with | 8 => .loRo | 0xC => .hi | _ => .ro)
  else if 0x6800 ≤ o ∧ o < 0x6A00 then .ro
  else .reserved

/-- SPU (R262, R263). -/
def accSpu (o : Nat) : Access :=
  if o = 0 ∨ o = 4 then .ro
  else if 0x1000 ≤ o ∧ o < 0x3000 then
    let x := o % 0x1000
    if x = 0 then .lk 3
    else if x = 4 then .w1c 0x7C
    else if x = 8 ∨ x = 0xC ∨ 0x10 ≤ x ∧ x ≤ 0x38 then .ro
    else if 0x100 ≤ x ∧ x < 0x200 then
      (match x % 0x20 with
      | 0x00 => .lk 0xFFFB_FC00
      | 0x04 => .lk 0xFFFF_FFF0
      | 0x08 => .lk 0x1FFF_1FFF
      | 0x0C => .lk 0x3FFF_3FFF
      | 0x10 => .lk 0xFFF
      | 0x14 => .loRo
      | 0x18 => .hi
      | _ => .w1c 0x1C0)
    else if 0x200 ≤ x ∧ x < 0x400 then
      (match x % 0x10 with | 0 => .lk 0xFFFF_FF80 | 4 => .lk 0x1FFF_1FFF | 8 => .lk 0xFFF | _ => .reserved)
    else if 0x400 ≤ x ∧ x < 0x800 then .lk 0xF7FF_0000
    else .reserved
  else .reserved

/-- EE and the ICU (R287, R288). -/
def accEe (o : Nat) : Access :=
  if o = 0 ∨ o = 4 then .ro
  else if 0x100 ≤ o ∧ o < 0x900 then
    (match o % 0x80 with
    | 0x00 => .lk 0xF1
    | 0x04 => .w1c 0x3C
    | 0x08 => .own
    | 0x10 => .loRo
    | 0x14 => .hi
    | x => if x ≤ 0x40 then .ro else .reserved)
  else if 0x2000 ≤ o ∧ o < 0x3000 then (if o % 8 = 0 then .lk 0xF8FF_FFFF else .lk 0xF_FFFF)
  else if 0x4000 ≤ o ∧ o < 0x4200 then .lk 0xFFFF_003F
  else if 0x4200 ≤ o ∧ o < 0x4400 then .lk 0x1_FFFF
  else if 0x4400 ≤ o ∧ o < 0x4410 then .ro
  else if o = 0x4410 then .own
  else if 0x5000 ≤ o ∧ o < 0x5440 then
    (match o % 0x40 with
    | 0x24 | 0x28 => .own
    | 0x2C => .lk 1
    | x => if x ≤ 0x20 ∨ x = 0x30 then .ro else .reserved)
  else .reserved

/-- ADM (R334). -/
def accAdm (o : Nat) : Access :=
  if o = 0x18 then .w1c 0xF
  else if o = 0x20 then .own
  else if o < 0x38 then .ro
  else if 0x40 ≤ o ∧ o < 0x60 ∨ 0x100 ≤ o ∧ o < 0x300 ∨ 0x400 ≤ o ∧ o < 0x1400 then .ro
  else if 0x2000 ≤ o ∧ o < 0xA000 then slotAcc o .loRo
  else if 0xA000 ≤ o ∧ o < 0xA800 ∧ o % 0x10 < 0xC then .ro
  else .reserved

/-- RNG (R372, R373). -/
def accRng (o : Nat) : Access :=
  if o = 0 then .own
  else if o = 4 ∨ 0x10 ≤ o ∧ o < 0x30 then .ro
  else if 0x100 ≤ o ∧ o < 0x2100 then
    match o % 0x40 with
    | 0x00 => .lk 0xFFF0_0000
    | 0x04 => .w1c 0x38
    | 0x08 | 0x10 | 0x2C | 0x30 | 0x34 | 0x38 => .ro
    | 0x0C => .own
    | 0x14 => .lk all32
    | 0x18 | 0x20 => .loLk all64
    | 0x1C | 0x24 => .hi
    | 0x28 => .lk 0x7F
    | _ => .reserved
  else .reserved

/-- HL (R402, R403). -/
def accHl (o : Nat) : Access :=
  match o with
  | 0x00 => .ro
  | 0x04 => .lk 0x1F
  | 0x08 => .w1c 0x1F
  | 0x0C => .lk 0x9FFF
  | 0x10 => .lk 0x07FF_8000
  | 0x14 => .lk all32
  | 0x18 => .w1c 0x7D
  | 0x1C => .w1c 0xE
  | _ => if 0x40 ≤ o ∧ o ≤ 0x88 then .ro else .reserved

/-- PWR, the freeze registers and the operator inputs (R138, R139, R428, R429, R506, R507). -/
def accPwr (o : Nat) : Access :=
  if o < 0x4000 then
    match o with
    | 0x00 | 0x1C | 0x24 | 0x30 => .ro
    | 0x04 => .lk 7
    | 0x08 | 0x0C | 0x10 | 0x14 => .lk 0x00FF_FFFF
    | 0x18 => .lk all32
    | 0x20 => .w1c 3
    | 0x28 => .loRo
    | 0x2C => .hi
    | _ => if 0x40 ≤ o ∧ o < 0x50 ∨ 0x60 ≤ o ∧ o ≤ 0x80 then .ro else .reserved
  else if o < 0x8000 then
    match o with
    | 0x4000 => .lk 0xFFFF_003B
    | 0x4004 => .lk 0x1FFE
    | 0x4008 | 0x400C | 0x4018 => .ro
    | 0x4010 => .loRo
    | 0x4014 => .hi
    | _ => .reserved
  else if o < 0x8100 then
    match o with
    | 0x8000 | 0x8004 | 0x8008 | 0x8018 => .ro
    | 0x800C => .own
    | 0x8010 | 0x8014 => .lk 0xFFFF
    | _ => .reserved
  else if o < 0x8200 then (if o % 0x10 = 0 then .lk 0x000F_FFF7 else .ro)
  else if o < 0x8300 then
    (match o % 0x10 with | 0 => .lk 0xFFFF_FFFD | 4 | 8 => .ro | _ => .reserved)
  else if o < 0x8320 then .lk 0xFFFF_1FFF
  else .reserved

/-- CFG (R449, R450). -/
def accCfg (o : Nat) : Access :=
  match o with
  | 0x00 => .w1c 0xF
  | 0x04 | 0x08 | 0x0C | 0x18 | 0x1C | 0x48 => .ro
  | 0x10 => .loRo
  | 0x14 => .hi
  | 0x20 | 0x40 => .own
  | 0x44 => .rw 0x00FF_FFFF
  | _ => if 0x100 ≤ o ∧ o < 0x200 then .rw all32 else .reserved

/-- MGT (R468, R469). -/
def accMgt (o : Nat) : Access :=
  match o with
  | 0x00 | 0x08 | 0x18 | 0x1C | 0x20 | 0x24 | 0x28 | 0x2C | 0x30 | 0x408 => .ro
  | 0x04 => .w1c 0x1FF
  | 0x0C => .lk 0xFFFF
  | 0x10 => .lk 0x3_FFFF
  | 0x14 => .lk 1
  | 0x400 => .own
  | 0x404 => .rw all32
  | _ =>
    if 0x100 ≤ o ∧ o < 0x230 then
      (match o % 0x10 with | 0 => .loRo | 4 => .hi | 8 => .lk all32 | _ => .reserved)
    else if 0x500 ≤ o ∧ o < 0x600 then .rw all32
    else .reserved

/-- BGT (R487, R488). -/
def accBgt (o : Nat) : Access :=
  match o with
  | 0x00 | 0x0C | 0x10 => .ro
  | 0x04 => .lk 0xF0FF
  | 0x08 => .w1c 0x3F
  | 0xA0 => .loRo
  | 0xA4 => .hi
  | _ =>
    if 0x20 ≤ o ∧ o < 0x40 ∨ 0x40 ≤ o ∧ o < 0x68 then .ro
    else if 0x80 ≤ o ∧ o < 0xA0 then .lk 0x1F0F
    else .reserved

/-- The memories above the register blocks (R508, R509). -/
def accMem (a : Nat) : Access :=
  if 0x0016_0000 ≤ a ∧ a < 0x0018_0000 then slotAcc a .loRo
  else if 0x0020_0000 ≤ a ∧ a < 0x0030_0000 then slotAcc a (.loLk all48)
  else if 0x0030_0000 ≤ a ∧ a < 0x0038_0000 then slotAcc a (.loLk (if a / 0x2_0000 % 2 = 0 then 0x00FF_FFFF else all48))
  else if 0x0038_0000 ≤ a ∧ a < 0x0038_1000 then
    (if a % 0x40 < 0x28 then slotAcc a (.loLk (if a % 0x40 < 8 then 0xF800_0000_0000 else all48)) else .reserved)
  else if 0x0040_0000 ≤ a ∧ a < 0x0060_0000 then slotAcc a (.loLk all48)
  else if 0x0100_0000 ≤ a ∧ a < 0x0300_0000 then slotAcc a .loRo
  else if 0x0400_0000 ≤ a ∧ a < 0x0440_0000 then slotAcc a .loRo
  else .reserved

/-- What the location at a device address is (R508). -/
def accessAt (a : Nat) : Access :=
  if a % 4 ≠ 0 then .reserved
  else
    let o := a % 0x1_0000
    match a / 0x1_0000 with
    | 0x00 => accSys o
    | 0x01 => accTb o
    | 0x02 => accTmr o
    | 0x03 => accCvp o
    | 0x04 => accSbp o
    | 0x05 => accHws (o % 0x2000)
    | 0x06 | 0x12 => accChan o
    | 0x07 | 0x13 => accStream o
    | 0x08 => accFe o
    | 0x09 => accSpu o
    | 0x0A => accEe o
    | 0x0B => accAdm o
    | 0x0C => accRng o
    | 0x0D => accHl o
    | 0x0E => accPwr o
    | 0x0F => accCfg o
    | 0x10 => accMgt o
    | 0x11 => accBgt o
    | 0x14 => if o < 0x100 then .w1c all32 else if o < 0x200 then .ro else .reserved
    | _ => accMem a

/-! ### Reserved values (R14) -/

/-- Bits [hi:lo] of a number. -/
def fld (v hi lo : Nat) : Nat := v / 2 ^ lo % 2 ^ (hi + 1 - lo)

/-- The value places a reserved value in some field of a 32-bit register. -/
def badValue (a v : Nat) : Bool :=
  let o := a % 0x1_0000
  match a / 0x1_0000 with
  | 0x01 =>
    (o == 0x10 && (decide (11 ≤ fld v 23 20) || fld v 19 16 == 0 || fld v 15 12 == 0 || decide (11 ≤ fld v 11 8) ||
      decide (13 ≤ fld v 7 4) || decide (6 ≤ fld v 2 0))) ||
    (o == 0x18 && decide (400000000 ≤ v))
  | 0x02 =>
    decide (0x100 ≤ o) &&
    (match o % 0x80 with
    | 0x00 => fld v 17 16 == 3 || fld v 10 9 == 3
    | 0x04 => v == 0
    | 0x58 => decide (8 ≤ fld v 19 16) || decide (8 ≤ fld v 3 0)
    | _ => false)
  | 0x03 =>
    decide (0x100 ≤ o) &&
    (match o % 0x100 with
    | 0x00 => fld v 31 24 == 0 || decide (128 ≤ fld v 31 24)
    | 0x08 => v == 0
    | 0x20 | 0x24 | 0x28 | 0x2C => v == 0 || decide (2 ^ 31 ≤ v)
    | _ => false)
  | 0x04 =>
    if o < 0x500 then (match o % 0x100 with | 0x00 => fld v 17 16 == 3 | 0x10 => v == 0 | _ => false)
    else if o < 0x900 then
      (match o % 0x100 with
      | 0x00 => decide (fld v 27 16 < 8)
      | 0x08 => fld v 23 16 == 0 || fld v 15 8 == 0 || fld v 7 0 == 0
      | _ => false)
    else false
  | 0x05 =>
    (match o % 0x2000 with
    | 0x00 => decide (fld v 27 24 < 3) || decide (12 < fld v 27 24)
    | 0x08 => fld v 31 16 == 0
    | 0x20 => fld v 19 16 == 0
    | 0x30 => fld v 25 16 == 0 || fld v 9 0 == 0
    | 0x34 => fld v 31 24 == 0 || fld v 23 16 == 0 || fld v 15 0 == 0
    | 0x100 => decide (4 < fld v 21 19) || fld v 15 8 == 0 || fld v 7 4 == 0
    | 0x10C => fld v 31 16 == 0 || fld v 7 0 == 0
    | 0x110 => fld v 31 16 == 0 || fld v 11 8 == 0
    | _ => false)
  | 0x09 =>
    decide (0x1000 ≤ o) &&
    (let x := o % 0x1000
    if 0x100 ≤ x ∧ x < 0x200 then
      (match x % 0x20 with
      | 0x00 => decide (fld v 30 27 < 8) || fld v 30 27 == 15 || fld v 21 20 == 3
      | 0x04 => decide (12 < fld v 19 16)
      | _ => false)
    else decide (0x200 ≤ x ∧ x < 0x400) && x % 0x10 == 0 && (fld v 31 30 == 3 || fld v 28 27 == 3 || fld v 26 23 == 0))
  | 0x0A =>
    if 0x2000 ≤ o ∧ o < 0x3000 then o % 8 == 0 && (decide (6 ≤ fld v 31 29) || fld v 28 27 == 3)
    else decide (0x4000 ≤ o ∧ o < 0x4200) && decide (16 < fld v 4 0)
  | 0x0C =>
    decide (0x100 ≤ o) && o % 0x40 == 0 && (fld v 30 29 == 3 || decide (17 < fld v 28 24) || decide (12 < fld v 23 20))
  | 0x0D => o == 0x0C && decide (6 ≤ fld v 12 10)
  | 0x0E =>
    if 0x8100 ≤ o ∧ o < 0x8200 then o % 0x10 == 0 && (fld v 5 4 == 3 || fld v 2 1 == 3)
    else if 0x8200 ≤ o ∧ o < 0x8300 then
      o % 0x10 == 0 && (fld v 31 20 == 0 || decide (fld v 31 20 ≤ fld v 19 12) || fld v 11 8 == 0)
    else decide (0x8300 ≤ o) && (fld v 31 16 == 0 || decide (5 ≤ fld v 7 5) || fld v 4 3 == 3)
  | 0x10 => (o == 0x0C && v == 0) || (o == 0x10 && (decide (v < 328) || decide (131072 < v)))
  | 0x11 => (o == 0x04 && fld v 15 12 == 0) || (decide (0x80 ≤ o) && decide (6 ≤ fld v 3 1))
  | _ => false

/-- The value places a reserved value in some field of a split quantity or table word. -/
def badWord (a v : Nat) : Bool :=
  let o := a % 0x1_0000
  match a / 0x1_0000 with
  | 0x04 =>
    (match o / 8 % 4 with
    | 0 => fld v 46 45 == 3 || fld v 26 25 == 3 || fld v 13 11 == 7 || decide (32 < fld v 10 5) ||
      (if fld v 39 39 = 0 then fld v 22 21 != 0 || fld v 4 4 != 0 else fld v 20 14 != 0)
    | 1 => false
    | _ => decide (24 < fld v 16 12))
  | 0x06 | 0x12 =>
    (match o / 8 % 8 with
    | 0 => decide (10 ≤ fld v 46 43) || decide (48 ≤ fld v 42 37) || decide (25 ≤ fld v 36 32) ||
      decide (24 ≤ fld v 31 24 ∧ fld v 31 24 < 128)
    | 7 => fld v 19 18 == 3
    | _ => false)
  | 0x07 | 0x13 => (match o / 8 % 4 with | 0 => decide (6 ≤ fld v 46 44) | 1 => v == 0 | _ => false)
  | _ => false

end Sys2Proof.Machine
end

