-- ==== Sys2Proof/Machine/Image.lean ====
section
/-! DEFINITION. The configuration image: its format, its checks, the validity rules that span entries, and the
factory defaults (R432–R442, R447). -/

namespace Sys2Proof.Machine
open Sys2Proof

/-- Why a load ends, with CFG_OFS and CFG_SECT (R441). -/
structure Bad where
  code : Nat
  ofs : Nat := 0
  sect : Nat := 0
  deriving DecidableEq, Repr, Inhabited

/-- A load under way: the hub as far as it is configured, and for each address written its item's offset and section. -/
structure Load where
  s : State
  at_ : Mem (Option (Nat × Nat)) := []
  /-- Where the header of SIGNATURE lies. -/
  sign : Option Nat := none
  deriving DecidableEq, Repr, Inhabited

/-! ### Sections and lists (R434, R436) -/

/-- An item of a section may write an address (R434). -/
def inSection (t a : Nat) : Bool :=
  match t with
  | 0x01 => decide (0x0010_0000 ≤ a ∧ a < 0x0011_0000)
  | 0x02 => decide (0x0001_0000 ≤ a ∧ a < 0x0001_0100)
  | 0x03 => decide (0x0002_0000 ≤ a ∧ a < 0x0003_0000)
  | 0x04 => decide (0x0003_0000 ≤ a ∧ a < 0x0004_0000)
  | 0x05 => decide (0x0004_0000 ≤ a ∧ a < 0x0004_2000)
  | 0x06 => decide (0x0004_4000 ≤ a ∧ a < 0x0004_8000)
  | 0x07 => decide (0x0005_0000 ≤ a ∧ a < 0x0006_0000)
  | 0x08 => decide (0x0006_0000 ≤ a ∧ a < 0x0007_0000 ∨ 0x0012_0000 ≤ a ∧ a < 0x0013_0000)
  | 0x09 => decide (0x0007_0000 ≤ a ∧ a < 0x0008_0000 ∨ 0x0013_0000 ≤ a ∧ a < 0x0014_0000)
  | 0x0A => decide (0x0008_0000 ≤ a ∧ a < 0x0009_0000 ∨ 0x0040_0000 ≤ a ∧ a < 0x0060_0000)
  | 0x0B => decide (0x0009_0000 ≤ a ∧ a < 0x000A_0000 ∨ 0x0030_0000 ≤ a ∧ a < 0x0038_0000)
  | 0x0C => decide (0x000A_0000 ≤ a ∧ a < 0x000B_0000 ∨ 0x0020_0000 ≤ a ∧ a < 0x0030_0000)
  | 0x0D => decide (0x0038_0000 ≤ a ∧ a < 0x0038_1000)
  | 0x0E => decide (0x000C_0000 ≤ a ∧ a < 0x000D_0000)
  | 0x0F => decide (0x000D_0000 ≤ a ∧ a < 0x000D_0100 ∨ 0x0000_0010 ≤ a ∧ a < 0x0000_0060)
  | 0x10 => decide (0x0011_0000 ≤ a ∧ a < 0x0012_0000)
  | 0x11 => decide (0x000E_0000 ≤ a ∧ a < 0x000F_0000)
  | _ => false

/-- Section, entry bytes and entry limit of a list kind (R436). -/
def listKind (k : Nat) : Option (Nat × Nat × Nat) :=
  match k with
  | 1 => some (0x04, 4, 32)
  | 2 => some (0x07, 40, 1)
  | 3 => some (0x07, 7, 32)
  | 4 => some (0x07, 12, 1)
  | 5 => some (0x07, 6, 32)
  | 6 => some (0x0C, 6, 1)
  | 7 => some (0x10, 1, 8388608)
  | _ => none

/-- A list index within its kind's range (R436, R447). -/
def listIndexOk (hubs k i : Nat) : Bool :=
  match k with
  | 1 => decide (i < 32)
  | 2 | 3 => decide (i < 256) && i % 32 != 0
  | 4 | 5 => decide (i < 64)
  | 6 => decide (i < 4096)
  | _ => decide (1 ≤ i ∧ i < hubs)

/-- Byte i of a list entry, as a number. -/
def eByte (e : List (BitVec 8)) (i : Nat) : Nat := (e.getD i 0).toNat

/-- The entry holds a reserved value or a non-zero reserved byte (R96, R151, R177, R186, R436). -/
def entryBad (k : Nat) (e : List (BitVec 8)) : Bool :=
  match k with
  | 1 => decide (192 ≤ eByte e 0)
  | 2 =>
    decide (eByte e 12 < 1 ∨ 4 < eByte e 12 ∨ 3 < eByte e 13 ∨ eByte e 14 < 1 ∨ 4 < eByte e 14 ∨ eByte e 15 ≠ 0) ||
    (List.range (eByte e 14)).any (fun g => decide (10 < eByte e (16 + 6 * g) ∨ 1 < eByte e (17 + 6 * g)))
  | 3 => decide (1 < eByte e 0)
  | 4 => decide (eByte e 9 < 1 ∨ 20 < eByte e 9 ∨ eByte e 10 ≠ 0 ∨ eByte e 11 ≠ 0)
  | _ => false

/-! ### Writing values (R435) -/

/-- The halves of the split registers of TMR and RNG are 32-bit registers of their own to an item (R81, R372). -/
def splitBlock (a : Nat) : Bool := decide (a / 0x1_0000 = 2 ∨ a / 0x1_0000 = 0xC)

/-- A value has no bit outside a mask. -/
def within (v m : Nat) : Bool := decide (v &&& m = v)

/-- The code with which a 32-bit value at an address fails, 0 when it may be written (R14, R434). -/
def badReg (a v : Nat) : Nat :=
  match accessAt a with
  | .lk m => if !within v m || badValue a v then 8 else 0
  | .own => if a / 0x1_0000 = 3 then 0 else 7
  | .loLk m => if !splitBlock a then 7 else if within v (m % 2 ^ 32) then 0 else 8
  | .hi =>
    (match accessAt (a - 4) with
    | .loLk m => if !splitBlock a then 7 else if within v (m / 2 ^ 32) then 0 else 8
    | _ => 7)
  | _ => 7

/-- The code with which a 48-bit word at an address fails. The 64-bit quantities of RNG are no words. -/
def badSlot (a v : Nat) : Nat :=
  match accessAt a with
  | .loLk m => if a / 0x1_0000 = 0xC then 7 else if !within v m || badWord a v then 8 else 0
  | _ => 7

/-- A register takes a value of the image. TB_TRIM lies in the time base; CVPn_CMD_TX holds the word, and no port runs. -/
def putReg (a v : Nat) (s : State) : State :=
  match accessAt a with
  | .own =>
    let n := (a - 0x0003_0100) / 0x100
    setCvp n { getCvp s n with cmdTx := BitVec.ofNat 32 v } s
  | .loLk _ => setTab a (BitVec.ofNat 64 ((tabR s a).toNat / 2 ^ 32 * 2 ^ 32 + v)) s
  | .hi => setTab (a - 4) (BitVec.ofNat 64 (v * 2 ^ 32 + (tabR s (a - 4)).toNat % 2 ^ 32)) s
  | _ =>
    if a = 0x0001_0024 then { s with tb := { s.tb with trim := BitVec.ofNat 24 v } }
    else setCfg a (BitVec.ofNat 32 v) s

/-- One value of an item. -/
def putValue (t ofs : Nat) (wide : Bool) (a v : Nat) (l : Load) : Except Bad Load :=
  let seen := fun x => (Mem.read (fun _ => none) l.at_ x).isSome
  if !inSection t a || seen a || (wide && seen (a + 4)) then .error ⟨7, ofs, t⟩
  else
    let c := if wide then badSlot a v else badReg a v
    if c ≠ 0 then .error ⟨c, ofs, t⟩
    else
      let at_ := Mem.insert l.at_ a (some (ofs, t))
      if wide then .ok { l with s := setWord a (BitVec.ofNat 48 v) l.s, at_ := Mem.insert at_ (a + 4) (some (ofs, t)) }
      else .ok { l with s := putReg a v l.s, at_ := at_ }

/-- The values of an item, n of them, from their bytes. -/
def putValues (t ofs : Nat) (wide : Bool) : Nat → Nat → List (BitVec 8) → Load → Except Bad Load
  | 0, _, _, l => .ok l
  | n + 1, a, bs, l =>
    let k := if wide then 6 else 4
    match putValue t ofs wide a (beVal (bs.take k)) l with
    | .error b => .error b
    | .ok l => putValues t ofs wide n (a + if wide then 8 else 4) (bs.drop k) l

/-- n entries of k bytes each. -/
def entriesFrom (k : Nat) : Nat → List (BitVec 8) → List (List (BitVec 8))
  | 0, _ => []
  | n + 1, bs => bs.take k :: entriesFrom k n (bs.drop k)

/-- A list item: its entries join those of its index (R436). -/
def putList (t ofs kind idx size limit : Nat) (es : List (List (BitVec 8))) (l : Load) : Except Bad Load :=
  let key := kind * 2 ^ 24 + idx
  let old := listBytes l.s kind idx
  if !listIndexOk l.s.config.hubs kind idx || decide (limit < old.length / size + es.length) then .error ⟨7, ofs, t⟩
  else if es.any (entryBad kind) then .error ⟨8, ofs, t⟩
  else
    .ok { l with s := { l.s with config :=
      { l.s.config with lists := Mem.write (fun _ => []) l.s.config.lists key (old ++ es.flatten) } } }

/-- One item, with the bytes that follow it; the count bounds the item by its section's body (R435). -/
def putItem (t ofs : Nat) (bs : List (BitVec 8)) (l : Load) : Except Bad (Load × Nat) :=
  let target := beVal (bs.take 4)
  let count := beVal ((bs.drop 4).take 2)
  let width := eByte bs 6
  let body := bs.drop 8
  if bs.length < 8 ∨ count = 0 ∨ 2 < width then .error ⟨6, ofs, t⟩
  else if eByte bs 7 ≠ 0 then .error ⟨8, ofs, t⟩
  else if 2 ^ 31 ≤ target then
    match listKind (target / 2 ^ 24 % 128) with
    | none => .error ⟨6, ofs, t⟩
    | some (sect, size, limit) =>
      if width ≠ 2 ∨ sect ≠ t ∨ body.length < count * size then .error ⟨6, ofs, t⟩
      else
        (putList t ofs (target / 2 ^ 24 % 128) (target % 2 ^ 24) size limit (entriesFrom size count body) l).map
          (fun l => (l, 8 + count * size))
  else
    let wide := decide (width = 1)
    let size := if wide then 6 else 4
    if width = 2 ∨ body.length < count * size then .error ⟨6, ofs, t⟩
    else if target % (if wide then 8 else 4) ≠ 0 then .error ⟨7, ofs, t⟩
    else (putValues t ofs wide count target body l).map (fun l => (l, 8 + count * size))

/-- The items of a body. The fuel is the body's length: an item has 8 bytes at least. -/
def putItems (t : Nat) : Nat → Nat → List (BitVec 8) → Load → Except Bad Load
  | 0, _, _, l => .ok l
  | fuel + 1, ofs, bs, l =>
    if bs = [] then .ok l
    else
      match putItem t ofs bs l with
      | .error b => .error b
      | .ok (l, n) => putItems t fuel (ofs + n) (bs.drop n) l

/-- The fixed part of DEVICE (R437, R470). -/
def putDevice (ofs : Nat) (bs : List (BitVec 8)) (l : Load) : Except Bad Load :=
  let role := eByte bs 4
  let hubs := eByte bs 6
  if bs.length < 24 then .error ⟨6, ofs, 1⟩
  else if eByte bs 7 ≠ 0 ∨ beVal ((bs.drop 16).take 8) ≠ 0 then .error ⟨8, ofs, 1⟩
  else if beVal (bs.take 4) ≠ 0x4896_00A1 ∨ 3 ≤ l.s.straps.role ∨ role ≠ l.s.straps.role ∨
      eByte bs 5 ≠ (if role = 2 then myPos l.s else 0) ∨ (role = 2 ∧ (eByte bs 5 < 1 ∨ 7 < eByte bs 5)) ∨
      (if role = 0 then hubs ≠ 1 else hubs < 2 ∨ 8 < hubs) then .error ⟨9, ofs, 1⟩
  else
    .ok { l with s := { l.s with config :=
      { l.s.config with id := BitVec.ofNat 64 (beVal ((bs.drop 8).take 8)), hubs := hubs } } }

/-- One section from its header, and the bytes it takes. `prev` is the TYPE before it (R433). -/
def putSection (sub : Bool) (prev ofs : Nat) (bs : List (BitVec 8)) (l : Load) : Except Bad (Load × Nat) :=
  let t := beVal (bs.take 2)
  let blen := beVal ((bs.drop 4).take 4)
  let body := (bs.drop 8).take blen
  if bs.length < 8 then .error ⟨6, ofs, 0⟩
  else if t = 0 ∨ 0x12 < t then .error ⟨6, ofs, t⟩
  else if beVal ((bs.drop 2).take 2) ≠ 0 then .error ⟨8, ofs, t⟩
  else if t ≤ prev ∨ (prev = 0 ∧ t ≠ 1) then .error ⟨5, ofs, t⟩
  else if bs.length < 8 + blen then .error ⟨6, ofs, t⟩
  else if t = 0x12 then
    if sub then .error ⟨13, 0, 0⟩ else if blen = 128 then .ok ({ l with sign := some ofs }, 8 + blen) else .error ⟨6, ofs, t⟩
  else if t = 1 then
    match putDevice ofs body l with
    | .error b => .error b
    | .ok l => (putItems t blen (ofs + 32) (body.drop 24) l).map (fun l => (l, 8 + blen))
  else (putItems t blen (ofs + 8) body l).map (fun l => (l, 8 + blen))

/-- n sections, which must end where the check word begins. -/
def putSections (sub : Bool) : Nat → Nat → Nat → List (BitVec 8) → Load → Except Bad Load
  | 0, _, ofs, bs, l => if bs = [] then .ok l else .error ⟨6, ofs, 0⟩
  | n + 1, prev, ofs, bs, l =>
    match putSection sub prev ofs bs l with
    | .error b => .error b
    | .ok (l, k) => putSections sub n (beVal (bs.take 2)) (ofs + k) (bs.drop k) l

/-! ### Validity across entries and sections (R440 step 6) -/

/-- Timers chained through sources 8 and 9 end somewhere (R62). -/
def timerEnds (s : State) : Nat → Nat → Bool
  | 0, _ => false
  | fuel + 1, n => if tmrSrc s n = 8 ∨ tmrSrc s n = 9 then timerEnds s fuel (tmrIdx s n) else true

/-- SRCIDX fits its source (R61). -/
def srcIdxOk (src idx : Nat) : Bool :=
  match src with | 6 | 14 => decide (idx ≤ 15) | 10 | 11 | 12 => decide (idx ≤ 7) | _ => true

/-- R62 and R69. -/
def timersOk (s : State) : Bool :=
  (List.range 32).all (fun n =>
    srcIdxOk (tmrSrc s n) (tmrIdx s n) && timerEnds s 33 n &&
    decide ((tmrCmp s n false).toNat ≤ (tmrTop s n).toNat) && decide ((tmrCmp s n true).toNat ≤ (tmrTop s n).toNat))

/-- An enabled converter port has a completion limit for each frame (R104). -/
def convertersOk (s : State) : Bool :=
  (List.range 8).all (fun n =>
    !bit (cvpCtrl s n) 0 || (List.range (cvpFrames s n)).all (fun d => decide (cvpLat s n d ≠ 0)))

/-- A parse rule keeps its limits (R112). -/
def parseOk (w : W48) (nr : Nat) : Bool :=
  !bit w 47 ||
  decide (bits w 35 31 + bits w 30 29 + 1 ≤ nr ∧ bits w 27 23 + bits w 22 18 + 1 ≤ 8 * (bits w 30 29 + 1) ∧ bits w 16 12 ≤ 24)

/-- A list ends, keeps to one port, and reaches no other HEAD (R110). -/
def pollListOk (s : State) (h : Nat) : Bool :=
  let es := entriesOf s h
  es.Nodup && (es.getLast?.map (pollLast s)).getD false && (es.drop 1).all (fun e => !pollHead s e) &&
  es.all (fun e => pollPort s e = pollPort s h && decide (pollNc s e + pollNr s e ≠ 0))

/-- R110 to R112. -/
def pollOk (s : State) : Bool :=
  (pollHeads s).all (pollListOk s) && ((pollHeads s).flatMap (entriesOf s)).Nodup &&
  (s.tab.filterMap (fun kv => if 0x0004_4000 ≤ kv.1 ∧ kv.1 < 0x0004_8000 then some ((kv.1 - 0x0004_4000) / 0x20) else none)).all
    (fun e => parseOk (pollW s e 2) (pollNr s e) && parseOk (pollW s e 3) (pollNr s e))

/-- The touch scan has time for every key (R131). -/
def touchOk (s : State) : Bool := decide (2 * ((List.range 16).filter (tchEn s)).length ≤ touchScan s)

/-- The cycle timer of an enabled link, and the carriers set OFF (R152, R167). -/
def trunksOk (s : State) : Bool :=
  (List.range 8).all (fun n =>
    let t := linkCycTmr s n
    decide (((List.range 144).filter (fun i => hwsOff s n (i + 10))).length ≤ 32) &&
    (!linkEn s n || decide (tmrSrc s t = 0 ∧ tmrDq s t = 2 ^ 24 ∧ (tmrTop s t).toNat = 399999)))

/-- SRCADDR is within its block (R201, R212). -/
def srcAddrOk (s : State) (c : Nat) : Bool :=
  let a := chAddr s c
  match chKind s c with
  | 1 => decide (a < 2048 ∧ a % 256 % 64 < cvpN s (a / 256) ∧ a % 256 / 64 < cvpFrames s (a / 256))
  | 2 => decide (a < 1024) && bit (pollW s (a / 2) (2 + a % 2)) 47 && decide (bits (pollW s (a / 2) (2 + a % 2)) 46 36 = c)
  | 3 => decide (a < 8192 ∧ a / 32 % 32 ≠ 0)
  | 4 => decide (a < 2048 ∧ a % 32 < 20)
  | 5 | 6 | 7 => decide (a < 16)
  | 8 => decide (a < 4096)
  | 9 => decide (a < 19)
  | _ => false

/-- The declared period of an engine output, ticks, Q40.8 (R204, R436). -/
def declaredPeriod (s : State) (a : Nat) : Option Nat :=
  match listBytes s 6 a with | [] => none | bs => some (beNat bs)

/-- NOMPER is within 2^−8 tick of a period in ticks. -/
def nomperIs (s : State) (c : Nat) (ticks : Rat) : Bool :=
  decide ((chNomper s c : Rat) - 256 * ticks ≤ 1 ∧ 256 * ticks - (chNomper s c : Rat) ≤ 1)

/-- NOMPER equals the period of the source's chapter (R204). -/
def nomperOk (s : State) (c : Nat) : Bool :=
  let a := chAddr s c
  match chKind s c with
  | 1 => (match syncRate s (a / 256) with | some r => nomperIs s c (secTicks / r) | none => true)
  | 2 => (match (headOf s (a / 2)).bind (listPeriod s) with | some p => nomperIs s c p | none => true)
  | 8 => (match declaredPeriod s a with | some p => nomperIs s c ((p : Rat) / 256) | none => false)
  | 9 => nomperIs s c (monitorTicks s)
  | _ => decide (chNomper s c ≠ 0)

/-- The direct stream of a channel fits it (R209, R212). -/
def directOk (s : State) (c : Nat) : Bool :=
  let k := chStream s c
  !chStrEn s c ||
  (stEn s k && stKind s k = (if chIsEvent s c then 4 else 0) && stUnit s k = 0 && stOutput s k = 0 &&
    (stStamped s k || decide (chKind s c = 1 ∨ chKind s c = 3 ∨ chKind s c = 9)) &&
    decide (((enabledChans s).filter (fun x => chStrEn s x && chStream s x = k)).length = 1))

/-- The channels of R212. -/
def channelsOk (s : State) : Bool :=
  ((enabledChans s).map (fun c => (chKind s c, chAddr s c))).Nodup &&
  (enabledChans s).all (fun c =>
    srcAddrOk s c && directOk s c &&
    (if chIsEvent s c then
      (List.range 6).all (fun i => chW s c (i + 1) = 0) && chFe s c = 0 && chChain s c = 0 && !chChainEn s c && chLimMode s c = 0
    else nomperOk s c) &&
    (chLimMode s c = 0 || decide (signed 24 (bits (chW s c 6) 23 0) ≤ signed 24 (bits (chW s c 6) 47 24))) &&
    (chLimMode s c != 2 || chStrEn s c))

/-- The nominal period of a paced stream in ticks, Q40.8. -/
def pacedPeriod (s : State) (k : Nat) : Nat :=
  match feedOf s k with
  | some (c, ds) => chNomper s c * (ds.map (decimation s (chFe s c))).prod
  | none => 0

/-- What feeds a stream is configured (R209, R212, R237, R261). -/
def producerOk (s : State) (k : Nat) : Bool :=
  let u := stUnit s k
  let o := stOutput s k
  match stKind s k with
  | 0 => (chanOfStream s k).isSome && u = 0 && o = 0
  | 1 => (match outputOwner s u o with | some p => p.2.type != 8 | none => false)
  | 2 => decide (u < 16) && engineEn s u
  | 3 => decide (u < 2 ∧ o < 16) && bit (cfgR s (spuA u)) 0 && setEn s u (o / 2)
  | 4 => (decide (u = 0 ∧ o = 0) && (chanOfStream s k).isSome) || (match outputOwner s u o with | some p => p.2.type == 8 | none => false)
  | 5 => (match slotOwner s o with | some p => decide (chFe s p.1 = u) | none => false)
  | _ => false

/-- What a stream names, so that no two streams name one output (R237, R286). -/
def producerKey (s : State) (k : Nat) : Nat × Nat × Nat :=
  match stKind s k with
  | 0 => (0, k, 0)
  | 4 => if stUnit s k = 0 ∧ stOutput s k = 0 ∧ (chanOfStream s k).isSome then (0, k, 0) else (4, stUnit s k, stOutput s k)
  | 3 => (3, k, 0)
  | n => (n, stUnit s k, stOutput s k)

/-- The streams of R208, R209, R212 and R371. -/
def streamsOk (s : State) : Bool :=
  ((enabledStreams s).map (producerKey s)).Nodup &&
  (enabledStreams s).all (fun k =>
    producerOk s k && ringEn s (stRing s k) && decide (stFlush s k ≠ 0) &&
    (stStamped s k || (decide (stKind s k ≤ 1) && decide (pacedPeriod s k < 2 ^ 40))))

/-- An enabled ring of R371. -/
def ringOk (s : State) (r : Nat) : Bool :=
  match ringMode s r with
  | 0 => decide (ringWmark s r ≤ bodySize s r)
  | 1 =>
    decide (ringWmark s r ≤ bodySize s r ∧ bits (cfgR s (rngA r)) 23 20 ≤ bits (cfgR s (rngA r)) 28 24) &&
    (ringHbase s r).toNat % 4096 = 0 && (ringHidx s r).toNat % 8 = 0
  | 2 => decide (ringWmark s r ≤ bodySize s r) && isSecondary s
  | _ => false

/-- A stage descriptor breaks R217, R218 or R222. -/
def stageBad (s : State) (e : Nat) (d : StageDesc) : Bool :=
  let w := fun i => coef s e (d.addr + i)
  let fir := w 2
  let half := fun n => decide (d.len ≠ 3 + (n + 1) / 2)
  decide (bits (w 0) 14 0 ≠ 0 ∨ d.num ≤ d.inp ∨ 0 < d.tsadj) ||
  match d.type with
  | 1 =>
    let r := decRcic d * decDf d
    decide (5 < decN d ∨ d.param % 4 = 3 ∨ firNt fir < 1 ∨ 255 < firNt fir ∨ bits fir 25 0 ≠ 0 ∨
      r < 2 ∨ 4096 < r ∨ ¬ (decN d = 0 ↔ decRcic d = 1)) || half (firK fir)
  | 2 => decide (d.param % 2 ^ 12 ≠ 0 ∨ firSh fir ≠ 0 ∨ firNt fir < 1 ∨ 1024 < firNt fir ∨ bits fir 25 0 ≠ 0) || half (firK fir)
  | 3 =>
    let n := d.param / 2 ^ 12 + 1
    let hp := decide (d.param / 2 ^ 11 % 2 = 1)
    decide (23 < d.param / 2 ^ 6 % 32 ∨ d.param % 2 ^ 6 ≠ 0) ||
    (if hp then decide (d.len ≠ 2 + 4 * n) || (List.range n).any (fun i => decide (bits (w (3 + 4 * i)) 23 0 ≠ 0))
    else decide (d.len ≠ 2 + 3 * n) || (List.range n).any (fun i => decide (bits (w (4 + 3 * i)) 23 0 ≠ 0)))
  | 4 => decide (d.len ≠ 4 ∨ 23 < d.param / 2 ^ 10 % 32 ∨ d.param % 2 ^ 10 ≠ 0 ∨ bits (w 3) 17 0 ≠ 0) || bit (w 2) 47
  | 5 => decide (d.len ≠ 3 ∨ d.param ≠ 0 ∨ (w 2).toNat = 0 ∨ 2 ^ 20 < (w 2).toNat)
  | 6 => decide (d.len ≠ 3 ∨ d.param % 2 ^ 14 ≠ 0 ∨ (w 2).toNat = 0 ∨ 2 ^ 20 < (w 2).toNat)
  | 7 =>
    decide (d.len ≠ 5 ∨ 128 ≤ d.out ∨ rfGate d = 0 ∨ d.param % 2 ^ 11 ≠ 0 ∨ rfK s e d = 0 ∨ bits (w 3) 23 0 ≠ 0 ∨
      rfNsnap s e d = 0 ∨ bits (w 4) 47 40 ≠ 0)
  | 8 => decide (d.len ≠ 4 ∨ 3 ≤ d.param / 2 ^ 14 ∨ d.param / 2 ^ 6 % 2 ^ 8 = 0 ∨ sval (w 2) < sval (w 3))
  | _ => true

/-- Chains in use of an engine. -/
def validChains (s : State) (e : Nat) : List Nat := (List.range 256).filter (chainValid s e)

/-- The state area of a chain's instances (R216): first word and length. -/
def stateArea (s : State) (e c : Nat) : Nat × Nat := (chainSbase s e c, chainNuse s e c * chainStateWords s e c)

/-- The descriptors of a chain: first word and length. -/
def descArea (s : State) (e c : Nat) : Nat × Nat := (bits (chainW s e c) 14 0, ((chainStages s e c).map StageDesc.len).sum)

/-- Two areas share no word. -/
def apart (x y : Nat × Nat) : Bool := decide (x.2 = 0 ∨ y.2 = 0 ∨ x.1 + x.2 ≤ y.1 ∨ y.1 + y.2 ≤ x.1)

/-- No two areas of a list share a word. -/
def allApart : List (Nat × Nat) → Bool
  | [] => true
  | x :: xs => xs.all (apart x) && allApart xs

/-- Outputs that an engine's instances produce, and the rainflow slots they own (R217). -/
def outputsOf (s : State) (e : Nat) (slots : Bool) : List Nat :=
  (validChains s e).flatMap (fun c => (chainStages s e c).flatMap (fun d =>
    if slots then (if d.type = 7 then (List.range (chainNuse s e c)).map (d.out % 128 + ·) else [])
    else if d.tap && d.type != 7 then (List.range (chainNuse s e c)).map (d.out + ·) else []))

/-- The filter engines of R237, the state areas written by an item left out. -/
def filtersOk (s : State) : Bool :=
  let slots := (List.range 8).flatMap (fun e => outputsOf s e true)
  slots.Nodup && slots.all (· < 128) &&
  (enabledChans s).all (fun ch => !chChainEn s ch || chainValid s (chFe s ch) (chChain s ch)) &&
  (List.range 8).all (fun e =>
    let cs := validChains s e
    let areas := cs.flatMap (fun c => [descArea s e c, stateArea s e c])
    let outs := outputsOf s e false
    cs.all (fun c =>
      (chainStages s e c).all (fun d => !stageBad s e d) &&
      ((chainChans s e c).isEmpty || decide ((chainChans s e c).length = chainNuse s e c))) &&
    areas.all (fun x => x.2 = 0 || decide (x.1 + x.2 ≤ 32768)) && allApart areas && outs.Nodup && outs.all (· < 256))

/-- The item that wrote a word of an instance state area, if one did (R237). -/
def stateWritten (l : Load) : Option (Nat × Nat) :=
  (List.range 8).findSome? (fun e => (validChains l.s e).findSome? (fun c =>
    let x := stateArea l.s e c
    (l.at_.find? (fun kv => decide (coefA e x.1 ≤ kv.1 ∧ kv.1 < coefA e (x.1 + x.2)))).bind (·.2)))

/-- A set and its rules (R242, R252, R261). -/
def setOk (s : State) (u k : Nat) : Bool :=
  let la := setLa s u k
  let lb := setLb s u k
  let es := setEntries s u k
  let rules := setRules s u k
  !setEn s u k ||
  (decide (la ≤ lb ∧ lb ≤ setN s u k / 2 - 1 ∧ setMbase s u k + lb - la ≤ 16383) &&
    (setWin s u k != 3 || decide (bits (cfgR s (spuSetA u k + 0xC)) 29 16 + setN s u k ≤ 16384)) &&
    es.all (fun i => decide (entryRate s u i = entryRate s u (es.headD 0))) &&
    rules.all (fun r => decide (la ≤ ruleLa s u k r ∧ ruleLa s u k r ≤ ruleLb s u k r ∧ ruleLb s u k r ≤ lb) &&
      (ruleType s u k r != 1 || decide (ruleK s u k r ≤ ruleM s u k r ∧ ruleM s u k r ≤ ruleLb s u k r + 1 - ruleLa s u k r))) &&
    (rules.isEmpty || (streamOf s 3 u (2 * k + 1)).isSome) &&
    (setCtrl s u k = 0 || decide (setCmin s u k ≤ es.length)))

/-- Watch entries in use, by the output they name. -/
def watched (s : State) (u : Nat) : List (Nat × Nat) :=
  ((List.range 256).filter (wlEn s u)).map (fun i => (wlFe s u i, wlOut s u i))

/-- The spectral units of R261. -/
def spectralOk (s : State) : Bool :=
  let ws := watched s 0 ++ watched s 1
  ws.Nodup && ws.all (fun w => (outputOwner s w.1 w.2).isSome) &&
  (List.range 2).all (fun u => (List.range 8).all (setOk s u))

/-- Engines that a channel's value has passed through. -/
def chanEngine (s : State) (c : Nat) : List Nat := if chKind s c = 8 then [chAddr s c / 256] else []

/-- Engines that the trigger paths of an engine pass through at once (R286). -/
def feedEngines (s : State) (e : Nat) : List Nat :=
  (liveEntries s e).flatMap (fun i =>
    match entryKind s e i with
    | 2 =>
      let k := entryIndex s e i
      (match stKind s k with
      | 2 => [stUnit s k]
      | 3 => (setEntries s (stUnit s k) (stOutput s k / 2)).flatMap (fun w =>
          match outputOwner s (wlFe s (stUnit s k) w) (wlOut s (stUnit s k) w) with
          | some p => chanEngine s p.1
          | none => [])
      | _ => match feedOf s k with | some (c, _) => chanEngine s c | none => [])
    | 3 => (hookedChans s e).flatMap (chanEngine s)
    | _ => [])

/-- Engines reached from a set of engines within n steps. -/
def reachEngines (s : State) : Nat → List Nat → List Nat
  | 0, es => es
  | n + 1, es => reachEngines s n (es ++ (es.flatMap (feedEngines s)).filter (fun e => !es.contains e)).eraseDups

/-- An entry of R286. -/
def entryOk (s : State) (e i : Nat) : Bool :=
  decide (entryBudget s e i ≠ 0) &&
  match entryKind s e i with
  | 1 | 3 | 5 => decide (((List.range 32).filter (fun j => entryKind s e j = entryKind s e i)).length = 1)
  | 2 =>
    let k := entryIndex s e i
    stEn s k && decide (stKind s k = 0 ∨ stKind s k = 1 ∨ stKind s k = 2 ∨ stKind s k = 4 ∨ (stKind s k = 3 ∧ stOutput s k % 2 = 1))
  | 4 => decide (entryIndex s e i < 32)
  | _ => false

/-- The engines and the ICU (R285, R286). -/
def enginesOk (s : State) : Bool :=
  (List.range 16).all (fun e =>
    ((List.range 32).filter (fun i => entryKind s e i ≠ 0)).all (entryOk s e) &&
    ((hookedChans s e).isEmpty || (entryOfKind s e 3).isSome) &&
    ((icuSources s e).isEmpty || (entryOfKind s e 5).isSome) && (icuSources s e).all (fun n => decide (icuMinint s n ≠ 0)) &&
    !(reachEngines s 16 (feedEngines s e)).contains e)

/-- The fields that a micro-operation uses (R315). -/
def uopFields (op : Nat) : Nat :=
  match op with
  | 0x00 => 0
  | 0x01 | 0x03 | 0x20 | 0x21 | 0x22 => 0x30
  | 0x02 => 0x0C
  | 0x04 | 0x0D | 0x0E | 0x14 | 0x1E | 0x23 | 0x24 | 0x25 => 0x3C
  | 0x1F => 0x0F
  | _ => 0x3F

/-- The splices of R316. -/
def splicesOk (s : State) : Bool :=
  (List.range 64).all (fun j =>
    let w0 := spliceW s j 0
    let n := if bit w0 47 then bits w0 46 43 + 1 else 0
    (bit w0 47 || w0 = 0) &&
    (List.range 16).all (fun i =>
      let u := uopOf s j i
      u = 0 || decide (i < n ∧ u / 64 < 0x28 ∧ u % 64 - (u % 64 &&& uopFields (u / 64)) = 0)))

/-- SRC = 5 is for a secondary (R48). -/
def clocksOk (s : State) : Bool := bits (cfgR s tbCtrlA) 2 0 != 5 || isSecondary s

/-- Every validity rule that one hub's image can break, the state areas left out. -/
def imageOk (s : State) : Bool :=
  clocksOk s && timersOk s && convertersOk s && pollOk s && touchOk s && trunksOk s && channelsOk s && filtersOk s &&
  streamsOk s && ((List.range 128).filter (ringEn s)).all (ringOk s) && spectralOk s && enginesOk s && splicesOk s

/-! ### Loading (R440, R442, R444) -/

/-- Every register and table that an image may write, at its reset value (R433, R442). -/
def clearConfig (s : State) : State :=
  { s with
    cfg := [], tab := [], poisoned := s.poisoned.filter (fun a => decide (0x0100_0000 ≤ a)),
    tb := { s.tb with trim := 0 }, icu := [],
    config := { s.config with lists := [], id := 0, hubs := 1 } }

/-- The time base at 0x0001_0000 and the subsystem IDs and LTR values of the host link (R380, R444). -/
def waitsForReset (a : Nat) : Bool := decide (a / 0x1_0000 = 1 ∨ a = hlA + 0x0C ∨ a = hlA + 0x14)

/-- The registers under `keep` as they stand in another state, and the trim with them. -/
def keepRegs (keep : Nat → Bool) (old s : State) : State :=
  { s with
    cfg := (old.cfg.filter (fun kv => keep kv.1)).foldl (fun m kv => Mem.write cfgReset m kv.1 kv.2)
      (s.cfg.filter (fun kv => !keep kv.1)),
    tb := { s.tb with trim := old.tb.trim } }

/-- Steps 2 to 6 of R440 over the bytes of an image. `sub` marks a sub-image (R447). -/
def readImage (sub : Bool) (bs : List (BitVec 8)) (s : State) : Except Bad State :=
  let len := beVal ((bs.drop 8).take 4)
  let nsect := beVal ((bs.drop 12).take 2)
  let img := bs.take len
  if beVal (bs.take 4) ≠ 0x5554_4346 then .error ⟨2, 0, 0⟩
  else if beVal ((bs.drop 4).take 2) ≠ 0x0100 then .error ⟨3, 0, 0⟩
  else if beVal ((bs.drop 6).take 2) ≠ 0 ∨ beVal ((bs.drop 14).take 2) ≠ 0 ∨ len < 52 ∨ 8388608 < len ∨ nsect < 1 ∨ 18 < nsect ∨
      bs.length < len then .error ⟨4, 0, 0⟩
  else
    match putSections sub nsect 0 16 ((img.take (len - 4)).drop 16) { s := clearConfig s } with
    | .error b => .error b
    | .ok l =>
      let crc := crc32c (img.take (len - 4))
      if crc.toNat ≠ beVal (img.drop (len - 4)) then .error ⟨10, 0, 0⟩
      else
        let signed := match l.sign with
          | some n =>
            let block := (img.drop (n + 8)).take 128
            decide (keyHash block = s.mgt.cfgHash) && signatureOk (sha256 (img.take n)) block
          | none => false
        if s.mgt.cfgKey && !sub && l.sign.isNone then .error ⟨11, 0, 0⟩
        else if s.mgt.cfgKey && !sub && !signed then .error ⟨12, 0, 0⟩
        else if !imageOk l.s then .error ⟨13, 0, 0⟩
        else
          match stateWritten l with
          | some (o, t) => .error ⟨13, o, t⟩
          | none =>
            .ok { l.s with config :=
              { l.s.config with len := BitVec.ofNat 32 len, crc := crc, sigOk := s.mgt.cfgKey && !sub } }

/-- LENGTH and the check word computed of an image whose header passes, for CFG_LEN and CFG_CRC. -/
def headerLength (bs : List (BitVec 8)) : Nat :=
  let len := beVal ((bs.drop 8).take 4)
  if beVal (bs.take 4) = 0x5554_4346 ∧ beVal ((bs.drop 4).take 2) = 0x0100 ∧ 52 ≤ len ∧ len ≤ 8388608 then len else 0

/-- The default set of R442: channels and streams 0–14 on the monitors, and RNG0. -/
def defaultSet (s : State) : State :=
  let s := forEach (List.range 15) (fun c s =>
    setWord (chanA c 0) (pack [(1, 47), (9, 43), (c, 0)]) <|
    setWord (chanA c 1) (BitVec.ofNat 48 (400000000 * 2 ^ 8)) <|
    setWord (chanA c 3) (BitVec.ofNat 48 (2 ^ 40)) <|
    setWord (chanA c 7) (pack [(1, 12), (c, 0)]) <|
    setWord (streamA c 0) (pack [(1, 47), (1, 36)]) <|
    setWord (streamA c 1) 400000000 s) s
  setCfg (rngA 0) 0x8040_0000 s

/-- The CFGLOAD entry (R461). -/
def journalLoad (s : State) : State :=
  journal 0x02 (stampNow s)
    [pack [(s.config.reason, 24), (s.config.ofs.toNat, 0)], pack [(s.config.sect.toNat, 0)],
      pack [(bits s.config.id 63 32, 0)], pack [(bits s.config.id 31 0, 0)]] s

/-- The factory defaults, for a failed load (R442). The time base and the host link stay as they are. -/
def loadDefaults (b : Bad) (old s : State) : State :=
  let s := defaultSet (keepRegs (fun a => decide (a / 0x1_0000 = 1 ∨ a / 0x1_0000 = 0xD)) old (clearConfig s))
  let s := { s with config :=
    { s.config with
      defaults := true, reason := b.code, ofs := BitVec.ofNat 32 (b.ofs % 2 ^ 23), sect := BitVec.ofNat 32 b.sect,
      sigOk := false, hubs := old.config.hubs } }
  journalLoad (raise cfgStatA 0 s)

/-- Steps 3 and 4 of the start-up with the bytes of an image; no bytes for a flash that does not answer (R440). The
first load gives the discipline loop its source and its first state (R51). -/
def loadImage (sub : Bool) (img : Option (List (BitVec 8))) (s : State) : State :=
  let s := { s with config := { s.config with loads := s.config.loads + 1, sigReq := s.mgt.cfgKey, bootRing := s.straps.bootRing } }
  let result : Except Bad State := match img with | none => .error ⟨1, 0, 0⟩ | some bs => readImage sub bs s
  let s := match result with
    | .ok t =>
      let t := if s.config.firstDone then keepRegs waitsForReset s t else t
      { t with config := { t.config with defaults := false, reason := 0, ofs := 0, sect := 0 } }
    | .error b =>
      let bs := img.getD []
      let n := if b.code ≤ 4 then 0 else headerLength bs
      let s := { s with config := { s.config with len := BitVec.ofNat 32 n, crc := if b.code < 10 then 0 else crc32c ((bs.take n).take (n - 4)) } }
      loadDefaults (if sub then ⟨14, 0, 0⟩ else b) s s
  let s := forEach ((List.range 8).filter (fun n => (getHws s n).pstate ≠ 0 && !bit (pwrCtrl s n) 0)) feedOff s
  let s := if s.config.firstDone then s else setTb { s.tb with loop := if tbSrc s = 0 then .none else .acquiring } s
  { s with phase := .loaded, config := { s.config with firstDone := true } }

/-- The image a load reads from the flash: its header, then LENGTH bytes of it. -/
def flashImage (s : State) : Option (List (BitVec 8)) :=
  if s.flashId = 0 ∨ s.flashId = BitVec.allOnes 24 then none
  else some (flashBytes s 0 (max 16 (headerLength (flashBytes s 0 16))))

/-- IMAGE_LOAD (R440, R447): a hub with BOOT_SRC FLASH reads its flash. A RING secondary takes the bytes that the
primary sends it; none leave it the defaults with RINGBOOT. -/
def execImageLoad (received : List (BitVec 8)) (s : State) : Host.Outcome State Fault Refusal := live s <|
  if s.phase ≠ .started ∨ !s.mgt.running then .next s
  else if isSecondary s && s.straps.bootRing then .next (loadImage true (if received = [] then none else some received) s)
  else .next (loadImage false (flashImage s) s)

end Sys2Proof.Machine
end

