-- ==== Sys2Proof/Machine/Admission.lean ====
section
/-! DEFINITION. Admission: the booked units, the ceilings, the bounds and the verdicts, over every hub of a ring (R318–R330). -/

namespace Sys2Proof.Machine
open Sys2Proof

/-- A work unit of one hub (R319, R322). -/
inductive AUnit where
  /-- A channel's source value. -/
  | src (c : Nat)
  /-- Frames of a converter port with one DEV; packets of a trunk grant; responses of a generation 1 node. -/
  | frame (port dev : Nat)
  | packet (port node grant : Nat)
  | resp (port a : Nat)
  /-- Copies of a channel's value: to its direct stream, to its hooked engines, into its chain. -/
  | direct (c : Nat)
  | hook (c : Nat)
  | into (c : Nat)
  | cal (c : Nat)
  /-- A stage of a channel's instance, by number. -/
  | stage (c num : Nat)
  | slot (k : Nat)
  /-- A spectral set with its watch entries. -/
  | set (u k : Nat)
  | entry (e i : Nat)
  | ring (r : Nat)
  deriving DecidableEq, Repr, Inhabited

/-- What is booked: units and admitted streams, each with its hub's position. -/
structure Book where
  units : List (Nat × AUnit) := []
  streams : List (Nat × Nat) := []
  deriving DecidableEq, Repr, Inhabited

/-- The hubs that one admission covers, with their configurations, and the positions missing or excluded (R330). -/
structure Plan where
  hubs : List (Nat × State)
  missing : List Nat := []
  deriving DecidableEq, Repr, Inhabited

/-! ### Units of streams and signals (R321, R322) -/

/-- Units of a channel's source. -/
def srcUnits (s : State) (c : Nat) : List AUnit :=
  let a := chAddr s c
  .src c ::
  (match chKind s c with
  | 1 => [.frame (a / 256) (a % 256 / 64)]
  | 3 => let (n, m, ch) := trunkSrc a; (match grantOf s n m ch with | some g => [.packet n m g] | none => [])
  | 4 => [.resp (trunk1Src a).1 (trunk1Src a).2.1]
  | _ => [])

/-- Source and CAL of a channel. -/
def calUnits (s : State) (c : Nat) : List AUnit := srcUnits s c ++ if chIsEvent s c then [] else [.cal c]

/-- Every unit from a channel's source to the last stage of a path. -/
def pathUnits (s : State) (c : Nat) (ds : List StageDesc) : List AUnit :=
  calUnits s c ++ if ds.isEmpty then [] else .into c :: ds.map (fun d => .stage c d.num)

/-- Channel and stage path of a watch entry. -/
def watchFeed (s : State) (u i : Nat) : Option (Nat × List StageDesc) :=
  (outputOwner s (wlFe s u i) (wlOut s u i)).map (fun p => (p.1, pathOf s p.1 p.2.num))

/-- Units of a stream beyond its ring (R322). -/
def streamUnits (s : State) (k : Nat) : List AUnit :=
  match stKind s k with
  | 2 => []
  | 3 =>
    let u := stUnit s k
    let j := stOutput s k / 2
    (setEntries s u j).flatMap (fun i => match watchFeed s u i with | some (c, ds) => pathUnits s c ds | none => []) ++ [.set u j]
  | n =>
    match feedOf s k with
    | some (c, ds) =>
      pathUnits s c ds ++ (if ds.isEmpty then [.direct c] else []) ++ (if n = 5 then [.slot (stOutput s k)] else [])
    | none => []

/-- Engines that are enabled. -/
def liveEngines (s : State) : List Nat := (List.range 16).filter (engineEn s)

/-- TRIG stages with LINE_EN = 1, by channel (R228). -/
def lineStages (s : State) : List (Nat × StageDesc) :=
  ((enabledChans s).filter (chChainEn s)).flatMap (fun c =>
    ((chainStages s (chFe s c) (chChain s c)).filter (fun d => d.type = 8 && trigLineEn d)).map (fun d => (c, d)))

/-- Units of signal_work (R321). -/
def signalUnits (s : State) : List AUnit :=
  ((liveEngines s).flatMap (fun e => (liveEntries s e).flatMap (fun i =>
    .entry e i :: if entryKind s e i = 3 then (hookedChans s e).flatMap (fun c => calUnits s c ++ [.hook c]) else []))) ++
  ((lineStages s).flatMap (fun p => pathUnits s p.1 (pathOf s p.1 p.2.num))) ++
  (enabledRings s).map .ring

/-! ### Costs (R103, R123, R137, R194, R213, R238, R256, R285) -/

/-- Source payload of a unit in bit/s (R24). -/
def payloadOf (s : State) : AUnit → Rat
  | .src c => chanRate s c * (match chKind s c with | 1 | 3 | 4 => (24 : Rat) | 2 | 5 | 6 | 7 => 48 | _ => 0)
  | _ => 0

/-- The stage of a channel's chain with a number. -/
def stageOfChan (s : State) (c num : Nat) : Option StageDesc := (chainStages s (chFe s c) (chChain s c)).find? (fun d => d.num = num)

/-- Fabric words of a unit per second. -/
def fabricOf (s : State) : AUnit → Rat
  | .src c | .direct c | .into c => chanRate s c
  | .hook c => chanRate s c * ((List.range 16).filter (fun e => (chHooks s c).testBit e)).length
  | .frame n _ => (syncRate s n).getD 0
  | .packet n m g => 1000 / (2 ^ bookPer s n m g : Nat)
  | .resp n a => 1000 / (2 ^ book1Per s n a : Nat)
  | .stage c num =>
    (match stageOfChan s c num with
    | some d =>
      if d.type = 7 then stageInRate s c d / (max 1 (rfNsnap s (chFe s c) d) : Nat) * 4226 else stageOutRate s c d
    | none => 0)
  | .set u k => spectralRate s u (2 * k) * ((3 + setLb s u k - setLa s u k : Nat) : Rat) + spectralRate s u (2 * k + 1) * 2
  | .entry e i => triggerRate s e i
  | _ => 0

/-- d of R221: the highest degree with a coefficient. -/
def calDegree (s : State) (c : Nat) : Nat :=
  if chW s c 5 ≠ 0 then 3 else if chW s c 4 ≠ 0 then 2 else if chW s c 3 ≠ 0 then 1 else 0

/-- Lane cycles of a stage per input, averaged and at its peak (R238). -/
def stageCost (s : State) (e : Nat) (d : StageDesc) : Rat × Nat :=
  let k := firK (coef s e (d.addr + 2))
  match d.type with
  | 1 => ((decN d : Rat) + (decN d : Rat) / (decRcic d : Nat) + (k : Rat) / (decimation s e d : Nat), 2 * decN d + k)
  | 2 => ((k : Rat) / (decimation s e d : Nat), k)
  | 3 =>
    let n : Nat := (d.param / 2 ^ 12 + 1) * if d.param / 2 ^ 11 % 2 = 1 then 7 else 5
    ((n : Rat), n)
  | 4 => let n : Nat := 4 * (d.param / 2 ^ 15 % 2 + 1); ((n : Rat), n)
  | 5 => (2 + 16 / (winN s e d : Rat), 18)
  | 7 => (6, 128)
  | _ => (1, 1)

/-- Lane cycles of an engine per second that a unit costs. -/
def laneRate (s : State) (e : Nat) : AUnit → Rat
  | .cal c => if chFe s c = e then 2 * (calDegree s c : Rat) * chanRate s c else 0
  | .stage c num =>
    if chFe s c = e then (match stageOfChan s c num with | some d => (stageCost s e d).1 * stageInRate s c d | none => 0) else 0
  | _ => 0

/-- The part of B_FE that a unit adds (R323). -/
def laneBurst (s : State) (e : Nat) : AUnit → Nat
  | .cal c => if chFe s c = e then multiplicity s c * 2 * calDegree s c else 0
  | .stage c num =>
    if chFe s c = e then (match stageOfChan s c num with | some d => multiplicity s c * (stageCost s e d).2 | none => 0) else 0
  | _ => 0

/-- Channels whose CAL an engine has booked. -/
def servedChans (s : State) (e : Nat) (us : List AUnit) : List Nat :=
  us.filterMap (fun u => match u with | .cal c => if chFe s c = e then some c else none | _ => none)

/-- The interval between a channel's arrivals, in ticks (R323): a grant's period where several values arrive together. -/
def arrivalTicks (s : State) (c : Nat) : Rat :=
  let (n, m, ch) := trunkSrc (chAddr s c)
  match (if chKind s c = 3 then grantOf s n m ch else none) with
  | some g => (2 ^ bookPer s n m g * 400000 : Nat)
  | none => if chIsEvent s c then secTicks / chanRate s c else (chNomper s c : Rat) / 256

def cFft (n : Nat) : Nat := n * (Nat.log2 n + 3) / 16 + 96
def cAvg (n : Nat) : Nat := n / 4 + 32

/-- Sets of a unit that are booked. -/
def bookedSets (u : Nat) (us : List AUnit) : List Nat :=
  us.filterMap (fun x => match x with | .set v k => if v = u then some k else none | _ => none)

/-- Cycles per second of a set (R256). -/
def setRate (s : State) (u k : Nat) : Rat :=
  let n := setN s u k
  (setEntries s u k).length * setFrameRate s u k * ((cFft n + cAvg n : Nat) : Rat) +
    evalRate s u k * ((checkedSpectra s u k * cAvg n : Nat) : Rat)

/-- The part of B_SPU that a set adds (R323). -/
def setBurst (s : State) (u k : Nat) : Nat :=
  let n := setN s u k
  (setEntries s u k).length * (cFft n + cAvg n) + checkedSpectra s u k * cAvg n

/-- Batch SRAM pages of a set (R256). -/
def setPages (s : State) (u k : Nat) : Nat :=
  let n := setN s u k
  (setEntries s u k).length * ((n + 511) / 512 + (n + 1023) / 1024) + if setCtrl s u k ≠ 0 then (n + 1023) / 1024 else 0

/-- Σ of a cost over units. -/
def sumRat (us : List AUnit) (f : AUnit → Rat) : Rat := (us.map f).sum
def sumNat (us : List AUnit) (f : AUnit → Nat) : Nat := (us.map f).sum

/-- B_FE and T_FE (R238, R323). -/
def bFe (s : State) (us : List AUnit) (e : Nat) : Nat := sumNat us (laneBurst s e)
def service (burst lanes : Nat) : Nat := ((1.0002 : Rat) * burst / lanes).ceil.toNat + 64
def tFe (s : State) (us : List AUnit) (e : Nat) : Nat := service (bFe s us e) 8
/-- B_SPU and T_SPU (R256). -/
def bSpu (s : State) (us : List AUnit) (u : Nat) : Nat := ((bookedSets u us).map (setBurst s u)).sum
def tSpu (s : State) (us : List AUnit) (u : Nat) : Nat := service (bSpu s us u) 1
/-- B_EE and T_EE (R285). -/
def bEe (s : State) (e : Nat) : Nat := ((liveEntries s e).map (fun i => (entryBudget s e i + 6) * entryQ s e i)).sum
def tEe (s : State) (e : Nat) : Nat := service (bEe s e) 1
/-- Engine cycles per second (R285). -/
def eeRate (s : State) (e : Nat) : Rat := ((liveEntries s e).map (fun i => triggerRate s e i * ((entryBudget s e i + 6 : Nat) : Rat))).sum

/-! ### Traffic (R324, R325, R370) -/

/-- w of R324. -/
def wordsPer (s : State) (k : Nat) : Nat := if stStamped s k then 2 else 1
/-- Payload words of the records of a stream that is no batch stream. -/
def payloadWords (s : State) (k : Nat) : Nat :=
  match stKind s k with
  | 3 => if stOutput s k % 2 = 0 then 3 + setLb s (stUnit s k) (stOutput s k / 2) - setLa s (stUnit s k) (stOutput s k / 2) else 2
  | 4 => (match feedOf s k with | some (_, []) => 1 | _ => 2)
  | 5 => 4226
  | _ => 16

/-- The stream carries batches. -/
def isBatch (s : State) (k : Nat) : Bool := decide (stKind s k ≤ 1)

/-- Σ r × BUDGET over an engine's entries (R324). -/
def budgetRate (s : State) (e : Nat) : Rat := ((liveEntries s e).map (fun i => triggerRate s e i * (entryBudget s e i : Rat))).sum

/-- FLUSH in seconds. -/
def flushSecs (s : State) (k : Nat) : Rat := (stFlush s k : Rat) / secTicks

/-- Limit events of a stream's channel per second. -/
def limitRate (s : State) (k : Nat) : Rat :=
  match (if stKind s k = 0 then chanOfStream s k else none) with
  | some c => if chLimMode s c = 2 then chanRate s c else 0
  | none => 0

/-- Words and records of a stream per second (R324). -/
def traffic (s : State) (k : Nat) : Rat × Rat :=
  let f := flushSecs s k
  let r := streamRate s 17 k
  if isBatch s k then
    let n : Rat := (stBatchM1 s k + 1 : Nat)
    let l := limitRate s k
    (r * wordsPer s k + 4 * (r / n + 1 / f) + 4 / f + 4 * l, r / n + 2 / f + l)
  else if stKind s k = 2 then (budgetRate s (stUnit s k) + 4 / f, budgetRate s (stUnit s k) / 3 + 1 / f)
  else (r * ((2 + payloadWords s k : Nat) : Rat) + 4 / f, r + 1 / f)

/-- The largest record of a stream. -/
def streamRec (s : State) (k : Nat) : Nat := if isBatch s k then 4 + wordsPer s k * (stBatchM1 s k + 1) else 2 + payloadWords s k

/-- Assembly pages of a stream (R370). -/
def asmPages (s : State) (k : Nat) : Nat := if isBatch s k then (streamRec s k + 511) / 512 else 0

/-! ### Several hubs (R326, R330) -/

/-- A hub's configuration. -/
def Plan.hub (p : Plan) (h : Nat) : State := ((p.hubs.find? (fun x => x.1 = h)).map (·.2)).getD State.reset
/-- Units and streams of one hub. -/
def Book.unitsOf (b : Book) (h : Nat) : List AUnit := b.units.filterMap (fun x => if x.1 = h then some x.2 else none)
def Book.streamsOf (b : Book) (h : Nat) : List Nat := b.streams.filterMap (fun x => if x.1 = h then some x.2 else none)

/-- Streams of secondaries that a RELAY ring delivers into ring r of the primary. -/
def relayedInto (p : Plan) (b : Book) (r : Nat) : List (Nat × Nat) :=
  b.streams.filter (fun x => let s := p.hub x.1; decide (x.1 ≠ 0) && ringMode s (stRing s x.2) = 2 && ringDest s (stRing s x.2) = r)

/-- A ring's largest record, never less than the 6 words of a status record (R325). -/
def largestRec (p : Plan) (b : Book) (h r : Nat) : Nat :=
  let s := p.hub h
  (((b.streamsOf h).filter (fun k => stRing s k = r)).map (streamRec s) ++
    (if h = 0 then (relayedInto p b r).map (fun x => streamRec (p.hub x.1) x.2) else [])).foldl max 6

/-- The raw rate of a trained link in bit/s (R326). -/
def rawRate (s : State) : Rat :=
  (match s.hl.linkGen with | 1 => (16 : Rat) | 2 => 32 | 3 => 63 | _ => 0) * 1000000000 * (2 ^ s.hl.linkW / 16 : Rat)

/-- C_BOOK (R326). -/
def cBook (s : State) : Rat := if s.hl.linkGen = 0 then 0 else rawRate s * 40 / 63

/-- T_STAGE of a hub: its rings in use are the enabled ones. -/
def tStage (p : Plan) (b : Book) (h : Nat) : Nat :=
  ((1.0002 : Rat) * (((enabledRings (p.hub h)).map (fun r => largestRec p b h r + 4)).sum : Nat)).ceil.toNat + 96

/-- T_LINK of a hub. -/
def tLink (p : Plan) (b : Book) (h : Nat) : Nat :=
  let s := p.hub h
  let bl := (((enabledRings s).filter (fun r => ringMode s r = 1)).map (fun r => largestRec p b h r + 1)).sum
  if s.hl.linkGen = 0 then 2000
  else ((1.0002 : Rat) * (bl : Nat) * 64 * secTicks / (rawRate s * 17 / 20)).ceil.toNat + 2000

/-- The way from position h to the primary: whether it goes downstream, and its hops. -/
def relayRoute (p : Plan) (h : Nat) : Bool × List Nat :=
  let s := p.hub 0
  match takesDown s h 0 with
  | some true => (true, downHops s h 0)
  | _ => (false, upHops s h 0)

/-- Streams whose relayed records cross a hop in a direction. -/
def overHop (p : Plan) (b : Book) (down : Bool) (hop : Nat) : List (Nat × Nat) :=
  b.streams.filter (fun x =>
    let s := p.hub x.1
    let w := relayRoute p x.1
    decide (x.1 ≠ 0) && ringMode s (stRing s x.2) = 2 && w.1 = down && w.2.contains hop)

/-- T_HOP of a hop in a direction (R326). -/
def tHop (p : Plan) (b : Book) (down : Bool) (hop : Nat) : Nat :=
  let rings := ((overHop p b down hop).map (fun x => (x.1, stRing (p.hub x.1) x.2))).eraseDups
  ((1.0002 : Rat) * ((rings.map (fun x => largestRec p b x.1 x.2)).sum : Nat) * 64 * 400 / 31500).ceil.toNat + 400

/-- Words per second over a hop in a direction. -/
def hopWords (p : Plan) (b : Book) (down : Bool) (hop : Nat) : Rat :=
  ((overHop p b down hop).map (fun x => (traffic (p.hub x.1) x.2).1)).sum

/-- Words per second booked on a hub's host link (R324). -/
def linkWords (p : Plan) (b : Book) (h : Nat) : Rat :=
  let s := p.hub h
  let words := fun (x : Nat × Nat) => let t := traffic (p.hub x.1) x.2; t.1 + t.2
  (((b.streams.filter (fun x => x.1 = h && ringMode s (stRing s x.2) = 1)) ++
    (if h = 0 then ((enabledRings s).filter (fun r => ringMode s r = 1)).flatMap (relayedInto p b) else [])).map words).sum

/-- Fabric words per second of a hub. -/
def fabricWords (p : Plan) (b : Book) (h : Nat) : Rat :=
  let s := p.hub h
  sumRat (b.unitsOf h) (fabricOf s) + ((b.streamsOf h).map (fun k => (traffic s k).1)).sum +
  (if h = 0 then ((b.streams.filter (fun x => x.1 ≠ 0 && ringMode (p.hub x.1) (stRing (p.hub x.1) x.2) = 2)).map
    (fun x => (traffic (p.hub x.1) x.2).1)).sum else 0)

/-- Pages of a hub: bodies and assembly pages; and reserved ones (R322, R370). -/
def bodyPages (s : State) (b : Book) (h : Nat) : Nat := ((enabledRings s).map (ringBodyPages s)).sum + ((b.streamsOf h).map (asmPages s)).sum
def slotPages (us : List AUnit) : Nat := 9 * (us.filter (fun u => match u with | .slot _ => true | _ => false)).length
def spectralPages (s : State) (us : List AUnit) : Nat :=
  sumNat us (fun x => match x with | .set u k => setPages s u k | _ => 0)

/-- Filter engines in use: a CAL is booked on them. -/
def feInUse (s : State) (us : List AUnit) : List Nat := (List.range 8).filter (fun e => (servedChans s e us) ≠ [])
/-- W of R236: descriptor and chain words of an engine. -/
def chainWords (s : State) (e : Nat) : Nat := ((validChains s e).map (fun c => 1 + (descArea s e c).2)).sum
/-- Pages of the copies that S3 needs, in the order in which they are assigned (R236, R284). -/
def copyPages (s : State) (us : List AUnit) : List Nat :=
  (feInUse s us).map (fun e => (chainWords s e + 511) / 512) ++ (liveEngines s).map (fun _ => 16)

/-! ### plan_sources (R321) -/

/-- The port line of R103. -/
def lineOk (s : State) (n : Nat) : Bool :=
  match syncRate s n with
  | some r => decide (((cvpFrames s n * (40 + 24 * cvpN s n) : Nat) : Rat) ≤ 8 * (400000000 / (2 * (max 1 (cvpCkdiv s n) : Nat) : Rat)) / r)
  | none => false

/-- Nodes of a port whose booking needs more than tone map 0 (R185). -/
def mappedNodes (s : State) (n : Nat) : List Nat := (expectedNodes s n).filter (fun m => bookMod s n m ≠ 2 ∨ bookRate s n m ≠ 0)

/-- Σ 2k / 2^p of a port (R194). -/
def pollLoad1 (s : State) (n : Nat) : Rat :=
  (((List.range 8).filter (expected1 s n)).map (fun a => (2 * book1K s n a : Rat) / (2 ^ book1Per s n a : Nat))).sum

/-- The source of a channel is marked failed. -/
def srcFailed (s : State) (c : Nat) : Bool :=
  let a := chAddr s c
  match chKind s c with
  | 1 => !lineOk s (a / 256)
  | 2 => (match headOf s (a / 2) with | some h => !pollPortOk s (pollPort s h) || (listPeriod s h).isNone | none => true)
  | 3 =>
    let (n, m, ch) := trunkSrc a
    (match grantOf s n m ch with
    | some g => !(placements s n).any (fun q => q.node = m && q.g = g) || !(((mappedNodes s n).take 14).contains m || !(mappedNodes s n).contains m)
    | none => true)
  | 4 =>
    let (n, x, ch) := trunk1Src a
    !expected1 s n x || decide (book1Nch s n x ≤ ch) || decide (1 < pollLoad1 s n)
  | _ => false

/-- Some unit is a failed source. -/
def anyFailed (s : State) (us : List AUnit) : Bool := us.any (fun u => match u with | .src c => srcFailed s c | _ => false)

/-! ### Bounds (R325, R326) -/

/-- Units after the retry slot, or the primary slot, of a grant, less its START. -/
def grantSpan (q : Placed) : Nat := (if q.rstart = 255 then q.start + q.len else q.rstart + 6 + q.len) - q.start

/-- T_SRC, with the terms of the engines. -/
def srcTerm (s : State) (eng : Nat → Rat) (c : Nat) : Rat :=
  let a := chAddr s c
  match chKind s c with
  | 1 => ((cvpLat s (a / 256) (a % 256 / 64) - cvpGdly s (a / 256) (a % 256 / 64) + 48 : Int) : Rat)
  | 2 => portTime s (pollPort s (a / 2)) + 48
  | 3 =>
    let (n, m, ch) := trunkSrc a
    (match (placements s n).find? (fun q => q.node = m && some q.g = grantOf s n m ch) with
    | some q => ((bookLat s n m + 2 ^ q.per * 400080 + grantSpan q * 2500 + 4048 : Nat) : Rat)
    | none => 0)
  | 4 => let (n, x, _) := trunk1Src a; ((2 * book1K s n x * 400080 + 4048 : Nat) : Rat)
  | 5 => (bits (cfgR s (evpA (a % 16))) 19 8 : Nat) * (390625 / 32 : Rat) + 48
  | 6 => ((bits (cfgR s (tchA (a % 16))) 11 8 + 1 : Nat) : Rat) * (touchScan s : Nat) * (390625 / 32 : Rat) + 48
  | 7 => 48
  | 8 => eng (a / 256)
  | _ => monitorTicks s + 48

/-- T_SRC with CAL and its engine's service; an event channel has neither. -/
def chanTerm (s : State) (us : List AUnit) (eng : Nat → Rat) (c : Nat) : Rat :=
  srcTerm s eng c + if chIsEvent s c then 0 else ((24 + tFe s us (chFe s c) : Nat) : Rat)

/-- The path term to the end of a stage path. -/
def pathTerm (s : State) (us : List AUnit) (eng : Nat → Rat) (c : Nat) (ds : List StageDesc) : Rat :=
  chanTerm s us eng c + ((24 * ds.length : Nat) : Rat) +
  (match ds.getLast? with | some d => -(d.tsadj : Rat) + (if d.type = 7 then 2114 else 0) | none => 0)

/-- T_PATH of a stream. -/
def streamTerm (s : State) (us : List AUnit) (eng : Nat → Rat) (k : Nat) : Rat :=
  match stKind s k with
  | 2 => eng (stUnit s k)
  | 3 =>
    let u := stUnit s k
    ((setEntries s u (stOutput s k / 2)).map (fun i =>
      match watchFeed s u i with | some (c, ds) => pathTerm s us eng c ds | none => 0)).foldl max 0 + ((24 + tSpu s us u : Nat) : Rat)
  | _ => match feedOf s k with | some (c, ds) => pathTerm s us eng c ds | none => 0

/-- The trigger path of an entry. -/
def triggerTerm (s : State) (us : List AUnit) (eng : Nat → Rat) (e i : Nat) : Rat :=
  match entryKind s e i with
  | 2 => streamTerm s us eng (entryIndex s e i)
  | 3 => ((hookedChans s e).map (chanTerm s us eng)).foldl max 0
  | 4 => 48
  | 5 => ((48 + 400 * ((icuSources s e).map (icuMinint s)).foldl max 0 : Nat) : Rat)
  | _ => 0

/-- An engine's DERIVED term; R286 lets no path run in a circle. -/
def engineTerm (s : State) (us : List AUnit) : Nat → Nat → Rat
  | 0, _ => 0
  | fuel + 1, e =>
    ((liveEntries s e).map (triggerTerm s us (engineTerm s us fuel) e)).foldl max 0 + ((24 + tEe s e : Nat) : Rat)

/-- T_PATH of a stream of a hub. -/
def tPath (s : State) (us : List AUnit) (k : Nat) : Rat := streamTerm s us (engineTerm s us 17) k

/-- T_DEST of a ring. -/
def tDest (p : Plan) (b : Book) (h r : Nat) : Nat :=
  let s := p.hub h
  match ringMode s r with
  | 1 => tLink p b h
  | 2 =>
    let w := relayRoute p h
    2 + (w.2.map (tHop p b w.1)).sum + tStage p b 0 + (if ringMode (p.hub 0) (ringDest s r) = 1 then tLink p b 0 else 0)
  | _ => 0

/-- The deepest state of a channel's source (R327, R457). -/
def chanDeepest (s : State) (eng : Nat → Nat) (c : Nat) : Nat :=
  match chKind s c with
  | 2 => (match headOf s (chAddr s c / 2) with | some h => pcode (timerDeepest s (pollTmr s h)) | none => 0)
  | 5 | 6 | 7 => 3
  | 8 => eng (chAddr s c / 256)
  | 9 => 2
  | _ => 0

/-- The deepest state in which an ICU source asserts (R279). -/
def icuDeepest (s : State) (n : Nat) : Nat :=
  if 34 ≤ n ∧ n ≤ 65 ∨ 106 ≤ n ∧ n ≤ 113 then 3
  else if 66 ≤ n ∧ n ≤ 97 then pcode (timerDeepest s (n - 66))
  else if 114 ≤ n ∧ n ≤ 121 then 2
  else if 122 ≤ n ∧ n ≤ 124 then 1 else 0

/-- The deepest state of a stream. -/
def streamDeepest (s : State) (eng : Nat → Nat) (k : Nat) : Nat :=
  match stKind s k with
  | 2 => eng (stUnit s k)
  | 3 => ((setEntries s (stUnit s k) (stOutput s k / 2)).map (fun i =>
      match watchFeed s (stUnit s k) i with | some (c, _) => chanDeepest s eng c | none => 0)).foldl max 0
  | _ => match feedOf s k with | some (c, _) => chanDeepest s eng c | none => 0

/-- The deepest state of an engine's triggers. -/
def engineDeepest (s : State) : Nat → Nat → Nat
  | 0, _ => 0
  | fuel + 1, e =>
    ((liveEntries s e).map (fun i =>
      match entryKind s e i with
      | 2 => streamDeepest s (engineDeepest s fuel) (entryIndex s e i)
      | 3 => ((hookedChans s e).map (chanDeepest s (engineDeepest s fuel))).foldl max 0
      | 4 => pcode (timerDeepest s (entryIndex s e i))
      | _ => ((icuSources s e).map (icuDeepest s)).foldl max 0)).foldl max 0

/-- d(k) (R327). -/
def deepestOf (s : State) (k : Nat) : Nat := streamDeepest s (engineDeepest s 17) k

/-- W of a state, ticks (R325). -/
def wakeTicks (n : Nat) : Nat := match n with | 0 => 0 | 1 => 200 | 2 => 10000 | _ => 600000

/-- bound(k, σ) of a stream of hub h. -/
def boundIn (p : Plan) (b : Book) (h k sigma : Nat) : Rat :=
  let s := p.hub h
  tPath s (b.unitsOf h) k + (if isBatch s k then (stFlush s k : Rat) else 0) +
  ((tStage p b h + tDest p b h (stRing s k) + wakeTicks (min sigma (deepestOf s k)) : Nat) : Rat)

/-- The bound exceeds the horizon, or BOUND_REQ. -/
def pastHorizon (x : Rat) : Bool := decide (2 ^ 46 ≤ x)
def pastReq (s : State) (k : Nat) (x : Rat) : Bool := decide (0 < stBoundReq s k) && decide ((stBoundReq s k : Rat) < x)

/-! ### Ceilings (R322) -/

/-- A filter engine is within its rate, queue and service. -/
def feFits (s : State) (us : List AUnit) (e : Nat) : Bool :=
  let cs := servedChans s e us
  decide (sumRat us (laneRate s e) ≤ 2720000000) && decide ((cs.map (multiplicity s)).sum ≤ 4096) &&
  cs.all (fun c => decide ((tFe s us e : Rat) ≤ arrivalTicks s c))

/-- A spectral unit is within its rate, queue and service. -/
def spuFits (s : State) (us : List AUnit) (u : Nat) : Bool :=
  let ks := bookedSets u us
  decide ((ks.map (setRate s u)).sum ≤ 3400000000 / 10) && decide ((ks.map (fun k => (setEntries s u k).length)).sum ≤ 512) &&
  ks.all (fun k => let r := setFrameRate s u k; decide (r = 0) || decide ((tSpu s us u : Rat) ≤ secTicks / r))

/-- Every hop in each direction is within 25 × 10^9 bit/s. -/
def hopsFit (p : Plan) (b : Book) : Bool :=
  (List.range 8).all (fun h => [true, false].all (fun d => decide (64 * hopWords p b d h ≤ 25000000000)))

/-- The first ceiling that a book breaks, in the order of R320, 0 for none. `h` is the hub whose work was added. -/
def brokenCeiling (p : Plan) (b : Book) (h : Nat) : Nat :=
  let hs := if h = 0 then [0] else [h, 0].filter (fun x => p.hubs.any (fun y => y.1 = x))
  let bad := fun (f : Nat → State → List AUnit → Bool) => hs.any (fun x => !f x (p.hub x) (b.unitsOf x))
  if bad (fun _ s us => decide (sumRat us (payloadOf s) ≤ 12800000000)) then 2
  else if bad (fun x _ _ => decide (fabricWords p b x ≤ 680000000)) then 3
  else if bad (fun _ s us => (List.range 8).all (feFits s us)) then 4
  else if bad (fun _ s us => (List.range 2).all (spuFits s us)) then 5
  else if bad (fun x s us => decide (bodyPages s b x + slotPages us + spectralPages s us ≤ 8192)) then 6
  else if bad (fun x s _ => (enabledRings s).all (fun r => decide (8 + largestRec p b x r ≤ bodySize s r))) then 7
  else if bad (fun x s _ => let w := linkWords p b x; decide (w = 0) || (decide (s.hl.linkGen ≠ 0) && decide (64 * w ≤ cBook s))) then 8
  else if !hopsFit p b || (p.missing.contains h && decide (h ≠ 0)) then 9 else 0

/-! ### The procedure (R320) -/

/-- Units join a book once. -/
def bookUnits (h : Nat) (us : List AUnit) (b : Book) : Book :=
  { b with units := us.foldl (fun l u => if l.contains (h, u) then l else (h, u) :: l) b.units }

/-- The signal work of a hub alone, and whether it fits (R321, R322). -/
def signalFits (p : Plan) (h : Nat) : Bool :=
  let s := p.hub h
  let us := signalUnits s
  !anyFailed s us && brokenCeiling p (bookUnits h us {}) h % 9 = 0 &&
  (liveEngines s).all (fun e =>
    (liveEntries s e).all (fun i =>
      !entryRateless s e i &&
      (let iv : Rat := match entryKind s e i with
        | 3 => ((hookedChans s e).map (arrivalTicks s)).foldl min (2 ^ 46)
        | 5 => ((icuSources s e).map (fun n => ((400 * icuMinint s n : Nat) : Rat))).foldl min (2 ^ 46)
        | 2 => (match feedOf s (entryIndex s e i) with
          | some (c, []) => arrivalTicks s c
          | _ => let r := triggerRate s e i; if r = 0 then 2 ^ 46 else secTicks / r)
        | _ => let r := triggerRate s e i; if r = 0 then 2 ^ 46 else secTicks / r
      decide ((tEe s e : Rat) ≤ iv))) &&
    decide (eeRate s e ≤ 340000000) && decide (((liveEntries s e).map (entryQ s e)).sum ≤ 256))

/-- try(k): the reason, 0 when the stream is admitted, and the book it leaves. -/
def tryStream (p : Plan) (b : Book) (h k : Nat) : Nat × Book :=
  let s := p.hub h
  let us := streamUnits s k
  let trial := bookUnits h us { b with streams := b.streams ++ [(h, k)] }
  let ceiling := brokenCeiling p trial h
  let code :=
    if anyFailed s us then 1
    else if ceiling ≠ 0 then ceiling
    else
      (trial.streams.findSome? (fun x =>
        let v := boundIn p trial x.1 x.2 0
        if pastHorizon v then some (if x = (h, k) then 11 else 12)
        else if pastReq (p.hub x.1) x.2 v then some (if x = (h, k) then 10 else 12)
        else none)).getD 0
  if code = 0 then (0, trial) else (code, b)

/-- Every enabled stream of every hub, in the order of R319. -/
def planStreams (p : Plan) : List (Nat × Nat) := p.hubs.flatMap (fun x => (enabledStreams x.2).map (fun k => (x.1, k)))

/-- The verdicts in order, with the final book. -/
def verdicts (p : Plan) : List (Nat × Nat × Nat) × Book :=
  (planStreams p).foldl (fun acc x =>
    let r := tryStream p acc.2 x.1 x.2
    (acc.1 ++ [(x.1, x.2, r.1)], r.2))
    ([], p.hubs.foldl (fun b x => bookUnits x.1 (signalUnits x.2) b) {})

/-- choose_state over the final book. -/
def chooseState (p : Plan) (b : Book) : Nat :=
  ([3, 2, 1].find? (fun sigma =>
    p.hubs.all (fun x =>
      let us := b.unitsOf x.1
      decide (bodyPages x.2 b x.1 + slotPages us + spectralPages x.2 us +
        (if sigma = 3 then (copyPages x.2 us).sum else 0) ≤ 8192)) &&
    b.streams.all (fun x =>
      deepestOf (p.hub x.1) x.2 = 0 ||
      (let v := boundIn p b x.1 x.2 sigma; !pastHorizon v && !pastReq (p.hub x.1) x.2 v)))).getD 0

/-! ### publish (R321, R334) -/

/-- The slots booked, ascending, with their first pages: 9 pages each, downward from page 8,191 (R338). -/
def slotPlaces (us : List AUnit) : List (Nat × Nat) :=
  (((List.range 128).filter (fun k => us.contains (.slot k))).zipIdx).map (fun x => (x.1, 8192 - 9 * (x.2 + 1)))

/-- Whether a 64-page block of the batch SRAM holds a page of a span. -/
def inBlock (i : Nat) (span : Nat × Nat) : Bool := decide (span.2 ≠ 0 ∧ span.1 < 64 * i + 64 ∧ 64 * i < span.1 + span.2)

/-- PWR_RETAIN0–3 (R424). -/
def retainMarks (spans : List (Nat × Nat)) : List W32 :=
  (List.range 4).map (fun w => bitMap 32 (fun i => spans.any (inBlock (32 * w + i))))

/-- Bodies from page 0 upward, in ascending ring number (R338). -/
def bodyPlaces (s : State) : List (Nat × Nat) :=
  ((enabledRings s).foldl (fun acc r => (acc.1 ++ [(r, acc.2)], acc.2 + ringBodyPages s r)) (([] : List (Nat × Nat)), 0)).1

/-- A booked figure as a register holds it. -/
def figure (q : Rat) (s : State) : Nat × State := let r := roundFree q s; (r.1.toNat, r.2)

/-- A rainflow slot that starts keeps its matrix only across a reload that leaves it as it was (R229). -/
def startSlot (slot page : Nat) (s : State) : State :=
  match slotOwner s slot with
  | none => s
  | some (c, d) =>
    let e := chFe s c
    let old := getSlot s slot
    let fresh : RfSlot :=
      { inUse := true, page := BitVec.ofNat 13 page, owner := (e, c, d.num), params := (rfMin s e d, rfK s e d, rfGate d) }
    if 1 < s.config.loads.toNat && !s.config.defaults && old.inUse && old.page = fresh.page && old.owner = fresh.owner &&
        old.params = fresh.params then s
    else
      setSlot slot fresh (clearSram (512 * page) 4608 s)

/-- FEe_LOAD and _BURST, SPUu_LOAD, _BURST and ABOUND, EEe_LOAD and _BURST (R239, R257, R262, R287). -/
def publishLoads (us : List AUnit) (s : State) : State :=
  let eng := engineTerm s us 17
  let s := forEach (List.range 8) (fun e s =>
    let f := figure (sumRat us (laneRate s e) * 65536 / 3200000000) s
    setFe e { getFe f.2 e with load := BitVec.ofNat 32 f.1, burst := BitVec.ofNat 32 (bFe s us e) } f.2) s
  let s := forEach (List.range 2) (fun u s =>
    let ks := bookedSets u us
    let f := figure ((ks.map (setRate s u)).sum * 65536 / 400000000) s
    let about := ks.filter (fun k => setRules s u k ≠ [] && (match streamOf s 3 u (2 * k + 1) with | some j => admReason s j = 0 | none => false))
    setSpu u { getSpu f.2 u with
      load := BitVec.ofNat 32 f.1, burst := BitVec.ofNat 32 (bSpu s us u),
      abound := about.foldl (fun m k => Mem.write (fun _ => 0) m k (BitVec.ofNat 64
        ((((setEntries s u k).map (fun i => match watchFeed s u i with | some (c, ds) => pathTerm s us eng c ds | none => 0)).foldl max 0 +
          ((24 + tSpu s us u + 8 : Nat) : Rat)).ceil.toNat))) [] } f.2) s
  forEach (List.range 16) (fun e s =>
    let on := engineEn s e
    let f := figure (if on then eeRate s e * 65536 / 400000000 else 0) s
    setEngine e { getEngine f.2 e with load := BitVec.ofNat 32 f.1, burst := BitVec.ofNat 32 (if on then bEe s e else 0) } f.2) s

/-- Mbit/s of words per second, 16 bits. -/
def mbits (w : Rat) (s : State) : Nat × State := figure (64 * w / 1000000) s

/-- ADM_HOPh of the primary (R334). -/
def hopFigures (p : Plan) (b : Book) (s : State) : List W32 × State :=
  (List.range 8).foldl (fun acc h =>
    let d := mbits (hopWords p b true h) acc.2
    let u := mbits (hopWords p b false h) d.2
    (acc.1 ++ [BitVec.ofNat 32 (d.1 % 2 ^ 16 * 2 ^ 16 + u.1 % 2 ^ 16)], u.2)) ([], s)

/-- Admitted streams of the secondaries in RELAY rings, each with its destination ring (R351). -/
def relayedOf (p : Plan) (vs : List (Nat × Nat × Nat)) : List (Nat × Nat) :=
  vs.filterMap (fun v =>
    let x := p.hub v.1
    let r := stRing x v.2.1
    if v.1 ≠ 0 ∧ v.2.2 = 0 ∧ ringMode x r = 2 then some (ringDest x r, v.2.1) else none)

/-- publish for the hub at position h. -/
def publish (p : Plan) (h : Nat) (s : State) : State :=
  let (vs, b) := verdicts p
  let deep := chooseState p b
  let us := b.unitsOf h
  let mine := vs.filterMap (fun v => if v.1 = h then some v.2 else none)
  let refused := mine.filter (fun v => v.2 ≠ 0)
  let slots := slotPlaces us
  let copies := if deep = 3 then (copyPages s us).sum else 0
  let bodies := bodyPlaces s
  let spans := if deep ≠ 3 then [] else
    slots.map (fun x => (x.2, 9)) ++ [(8192 - slotPages us - copies, copies)] ++
    ((bodies.filter (fun x => ringMode s x.1 = 0)).map (fun x => (x.2, ringBodyPages s x.1)))
  let rsv := slotPages us + copies + spectralPages s us
  let ing := figure (sumRat us (payloadOf s) / 1000) s
  let fab := figure (fabricWords p b h * 65536 / 800000000) ing.2
  let cb := figure (cBook s / 1000000) fab.2
  let lk := mbits (linkWords p b h) cb.2
  let hops := if isPrimary s then hopFigures p b lk.2 else ([], lk.2)
  let s := hops.2
  let s := { s with
    adm :=
      { s.adm with
        done := true, defaults := s.config.defaults, deepest := pstate deep, linkGen := s.hl.linkGen,
        linkW := if s.hl.linkGen = 0 then 0 else s.hl.linkW,
        hubsM1 := if onRing s then (if s.bgt.hubs = 0 then s.config.hubs else s.bgt.hubs) - 1 else 0,
        admitted := mine.length - refused.length, refusedN := refused.length,
        ingest := BitVec.ofNat 32 ing.1, fabric := BitVec.ofNat 32 (fab.1 % 2 ^ 16),
        link := BitVec.ofNat 32 (cb.1 % 2 ^ 16 * 2 ^ 16 + lk.1 % 2 ^ 16),
        pages := BitVec.ofNat 32 (rsv * 2 ^ 16 + bodyPages s b h), hops := hops.1,
        reason := refused.foldl (fun m v => Mem.write (fun _ => 0) m v.1 v.2) [],
        bound := (mine.filter (fun v => v.2 = 0)).foldl (fun m v =>
          Mem.write (fun _ => 0) m v.1 (BitVec.ofNat 64 (boundIn p b h v.1 deep).ceil.toNat)) [],
        ringPages := ((enabledRings s).map (ringBodyPages s)).sum, rsvPages := rsv,
        copies := (8192 - slotPages us - copies, copies), tStage := tStage p b h,
        relayed := if isPrimary s then relayedOf p vs else [] },
    power := { s.power with retain := if spans.isEmpty then [0, 0, 0, 0] else retainMarks spans },
    slots := s.slots.filter (fun kv => slots.any (fun x => x.1 = kv.1)) }
  let s := bodies.foldl (fun s x => setRing x.1 { getRing s x.1 with base := BitVec.ofNat 13 x.2 } s) s
  let s := slots.foldl (fun s x => startSlot x.1 x.2 s) s
  let s := publishLoads us s
  let s := refused.foldl (fun s v => journal 0x30 (stampNow s) [pack [(v.1, 8), (v.2, 0)]] s) s
  if refused.isEmpty then s else raise admFlagsA 3 s

/-! ### One hub's admission over the ring -/

/-- Another hub of the ring as this admission sees it: its host link, and its image; no image stands for the defaults. -/
def otherHub (me : State) (x : HubView) : Nat × State :=
  let base : State := { straps := { role := if x.pos = 0 then 1 else 2, pos := x.pos }, bgt := { me.bgt with secs := 0 } }
  let s := match readImage false x.image base with | .ok s => s | .error _ => defaultSet base
  (x.pos, { s with hl := { s.hl with linkGen := x.linkGen, linkW := x.linkW } })

/-- The RELAY rings of the secondaries with their destinations. -/
def relays (hs : List (Nat × State)) : List (Nat × Nat) :=
  hs.flatMap (fun x => if x.1 = 0 then [] else
    ((enabledRings x.2).filter (fun r => ringMode x.2 r = 2)).map (fun r => (x.1, ringDest x.2 r)))

/-- The rules that an image set can break: destinations (R371) and trigger channels (R479). -/
def setValid (hs : List (Nat × State)) : Bool :=
  match hs.find? (fun x => x.1 = 0) with
  | none => true
  | some (_, prim) =>
    let rs := relays hs
    rs.all (fun x =>
      ringEn prim x.2 && ringMode prim x.2 ≠ 2 && !(enabledStreams prim).any (fun k => stRing prim k = x.2) &&
      rs.all (fun y => y.2 ≠ x.2 || y.1 = x.1)) &&
    (List.range 8).all (fun k => decide ((hs.filter (fun x => bit (cfgR x.2 (bgtA + 0x80 + 4 * k)) 0)).length ≤ 1))

/-- A hub's configuration replaced by the factory defaults. -/
def asDefault (x : Nat × State) : Nat × State := (x.1, defaultSet (clearConfig x.2))

/-- Why the hub's own load fails at admission, 0 when it does not: the ring's rules at the primary (R371, R472, R479), then signal_work. -/
def admissionFault (p : Plan) (h : Nat) : Nat :=
  let s := p.hub h
  if isPrimary s && s.bgt.rstate = 2 && s.bgt.hubs ≠ s.config.hubs then 9
  else if h = 0 && !setValid p.hubs then 13
  else if !signalFits p h then 15 else 0

/-- The plan with every hub whose load fails running the defaults. -/
def settledPlan (p : Plan) : Plan :=
  { p with hubs := p.hubs.map (fun x => if admissionFault p x.1 ≠ 0 then asDefault x else x) }

/-- The plan of a hub with the other hubs of its ring. -/
def planOf (others : List HubView) (missing : List Nat) (s : State) : Plan :=
  let me := if onRing s then myPos s else 0
  let others := if onRing s then (others.filter (fun x => decide (x.pos ≠ me ∧ x.pos < 8))).map (otherHub s) else []
  { hubs := (List.range 8).filterMap (fun i => if i = me then some (me, s) else others.find? (fun x => x.1 = i)), missing := missing }

/-- Step 6 of the start-up: verdicts and bounds, over the defaults where the load fails (R320, R321). -/
def runAdmission (others : List HubView) (missing : List Nat) (s : State) : State :=
  let me := if onRing s then myPos s else 0
  let p := planOf others missing s
  let f := admissionFault p me
  let s := if f = 0 then s else loadDefaults ⟨f, 0, 0⟩ s s
  let q := settledPlan p
  publish { q with hubs := q.hubs.map (fun x => if x.1 = me then (me, s) else x) } me s

end Sys2Proof.Machine
end

