-- ==== Sys2Proof/Machine/Start.lean ====
section
/-! DEFINITION. Admission's end: the lock and the start of every block (R31, R66, R100, R127, R162, R284, R368, R443);
the reload's drain and restart (R35, R191, R444); the ledger's snapshots and audits (R331–R333). -/

namespace Sys2Proof.Machine
open Sys2Proof

/-! ### The lock (R443, R444, R466) -/

/-- The configuration lock: a load without defaults is journalled, a reload sets RELOADF, a trial slot is confirmed.
At reset it is the first HOST reference (R49). The hops broken now are those that admission booked around (R473). -/
def lockConfig (s : State) : State :=
  let s := if s.config.reloading then s else setTb { s.tb with hostRef := ticks s } s
  let s := { s with bgt := { s.bgt with booked := s.bgt.broken }, hl := { s.hl with failing := false } }
  let s := if s.config.defaults then s else journalLoad s
  let s := if s.config.reloading then raise cfgStatA 1 s else s
  confirmTrial { s with config := { s.config with locked := true, reloading := false, closed := false } }

/-! ### Step 8: the blocks start (R31) -/

/-- The host ring a MIRROR ring is configured for. -/
def hostRing (s : State) (r : Nat) : W64 × Nat × W64 := (ringHbase s r, bits (cfgR s (rngA r)) 28 24, ringHidx s r)

/-- A ring starts, or stays OFF: a MIRROR ring whose host ring is unchanged continues in it (R368). -/
def startRing (r : Nat) (s : State) : State :=
  if !ringEn s r then setRing r {} s
  else
    let g := getRing s r
    let mirror := decide (ringMode s r = 1)
    let cont := mirror && decide (g.host = some (hostRing s r))
    let h := if mirror then some (hostRing s r) else none
    let s := if cont then setRing r { base := g.base, state := .on, prod := g.prod, cons := g.cons, stg := g.prod, host := h } s
      else setCnt (rngA r + 0x30) 0 (setCnt (rngA r + 0x34) 0 (setCnt (rngA r + 0x38) 0
        (setRing r { base := g.base, state := .on, host := h } s)))
    let s := makeReady r (epochRec s r 2 (ticks s)) s
    makeReady r (statusRec s r 0) s

/-- A spectral unit with EN and an admitted set is ON (R260). -/
def startSpu (u : Nat) (s : State) : State :=
  let on := bit (cfgR s (spuA u)) 0 && (List.range 8).any (fun k => setEn s u k && setBooked s u k)
  setSpu u { getSpu s u with state := if on then .on else .off } s

/-- An enabled engine is ON, with its INIT trigger first in its queue (R277, R284). -/
def startEngine (e : Nat) (s : State) : State :=
  if engineEn s e then
    initTrigger e (setEngine e { getEngine s e with state := .on, run := .idle, restLeft := restarts s e } s)
  else s

/-- A filter engine that an enabled channel names is ON (R236). -/
def startFe (e : Nat) (s : State) : State :=
  let on := (enabledChans s).any (fun c => !chIsEvent s c && decide (chFe s c = e))
  setFe e { getFe s e with state := if on then .on else .off } s

/-- AUTOSTART (R66). -/
def autostarts (s : State) : List Nat := (List.range 32).filter (fun n => bit (cfgR s (tmrA n)) 11)

/-- Step 8 in its order. -/
def startBlocks (s : State) : State :=
  let s := forEach (List.range 128) startRing s
  let s := forEach (List.range 2) startSpu s
  let s := forEach (List.range 16) startEngine s
  let s := forEach (List.range 8) startFe s
  forEach (autostarts s) startTimer (evoStart s)

/-! ### Step 9: the sources start (R31) -/

/-- Debouncing starts from the pin's level (R127). -/
def startPin (pins : Nat) (n : Nat) (s : State) : State :=
  if evpEn s n then setEvp n { level := pins.testBit n, started := true } s else s

/-- A trunk port's power feed and link start; a feed that a reload left on stays as it is (R162, R175). -/
def startTrunk (n : Nat) (s : State) : State :=
  let s := if bit (pwrCtrl s n) 0 && decide ((getHws s n).pstate = 0) then feedStart n s else s
  linkStart n s

/-- Step 9: a converter port without a presence pin is taken as just inserted; the others wait for their debounce (R100). -/
def startSources (pins : Nat) (s : State) : State :=
  let s := { s with phase := .running }
  let s := forEach ((List.range 8).filter (fun n => cvpEn s n && !cvpPresEn s n)) confirmPort s
  let s := forEach ((List.range 8).filter (sbpEn s)) (fun p s => setSbp p { getSbp s p with state := .on } s) s
  let s := forEach (List.range 16) (startPin pins) s
  evoRefresh (forEach (List.range 8) startTrunk s)

/-- ADMISSION (R320, R31): steps 6 to 9. `others` and `missing` are the other hubs of the ring; `pins` are the event
pins' levels at step 9. -/
def execAdmission (others : List HubView) (missing : List Nat) (pins : Nat) (s : State) : Host.Outcome State Fault Refusal := live s <|
  if s.phase ≠ .loaded ∨ !s.mgt.running then .next s
  else .next (startSources pins (startBlocks (lockConfig (runAdmission others missing s))))

/-! ### CFG_RELOAD (R35, R444) -/

/-- Step 1 of R35 at one port of each kind; the trunks send LEAVE to every node in their last cycle (R191). -/
def stopSources (s : State) : State :=
  let s := forEach ((List.range 8).filter (fun n => (getCvp s n).state ≠ .off)) (fun n s =>
    let s := stopPort n s
    setCvp n { getCvp s n with period := false, tfs := none } s) s
  let s := forEach ((List.range 8).filter (fun p => (getSbp s p).state = .on)) (fun p s =>
    setSbp p { getSbp s p with state := .off, queue := [], running := none } s) s
  let s := forEach (List.range 16) (fun n s =>
    setEvp n { getEvp s n with started := false, candidate := none } s) s
  forEach ((List.range 8).filter (fun n => (getHws s n).cycling)) (fun n s =>
    setHws n { getHws s n with ctl := { type := 8, node := 63 } :: (getHws s n).ctl } s) s

/-- No engine and no spectral unit holds work (R260, R284). A halted or faulted engine runs nothing to wait for. -/
def blocksQuiet (s : State) : Bool :=
  (List.range 16).all (fun e =>
    let g := getEngine s e
    g.state ≠ .on || g.run = .faulted || g.run = .halted || (g.run = .idle && g.queue.isEmpty)) &&
  (List.range 2).all (fun u => !spuVetoes s u)

/-- The rings close for a reload: gap notices are given, pending refusals are reported, open batches close with STOP, and where it has room a
ring writes a status STOP record (R368). -/
def closeRings (s : State) : State :=
  let s := forEach (noticed s) giveNotice s
  let s := forEach ((s.streams.filter (fun kv => kv.2.run.isSome)).map Prod.fst) closeRun s
  let s := closeAllBatches 7 s
  let s := forEach (ringsOn s) (fun r s =>
    let x := statusRec s r 2
    if !(getRing s r).full && fits s r (recLen x) then makeReady r x s else s) s
  { s with config := { s.config with closed := true } }

/-- The rings close once nothing upstream of them holds work. -/
def drainRings (s : State) : State := if s.phase = .draining && !s.config.closed && blocksQuiet s then closeRings s else s

/-- A reload begins: steps 1 and 2 of R35. What event queues hold goes on to its streams. Every running rainflow instance writes a snapshot (R231). -/
def beginReload (s : State) : State :=
  let s := forEach (List.range 16) (fun n s => drainAll 6 n (drainAll 5 n s)) s
  let s := { s with phase := .draining, config := { s.config with reloadDue := false, closed := false } }
  let s := stopSources s
  let s := forEach ((s.slots.filter (fun kv => kv.2.inUse)).map Prod.fst) takeSnapshot s
  drainRings s

/-- An accepted reload begins as soon as the hub is in S0 and no pass-through operation runs (R427, R448). -/
def reloadWhenReady (s : State) : State :=
  if s.config.reloadDue && s.phase = .running && s.power.cur = .s0 && !s.config.cfpBusy then beginReload s else s

/-- A write to CFG_CMD (R444, R448). The primary carries it to every hub (R484). -/
def writeCfgCmd (path : Path) (v : W32) (s : State) : State :=
  if bits v 31 16 ≠ 0x524C || !bit v 0 || isSecondary s || s.phase ≠ .running || s.config.reloadDue then werr s
  else
    let s := bgtSendAll (ctrlFrame s 7 ctrlReload 0 []) (pathWake path s)
    reloadWhenReady { s with config := { s.config with reloadDue := true } }

/-- CFG_RELOAD (R444). -/
def execCfgReload (path : Path) (v : W32) (s : State) : Host.Outcome State Fault Refusal := live s <| .next (writeCfgCmd path v s)

/-- Everything granted has been delivered (R35 steps 2 and 3), every trunk has sent its LEAVE, and no pass-through
operation holds the flash (R446, R448). -/
def drained (s : State) : Bool :=
  s.config.closed && !s.config.cfpBusy && blocksQuiet s &&
  (List.range 128).all (fun r => (getRing s r).front.isEmpty && (getRing s r).ready.isEmpty && (getRing s r).inflight.isEmpty) &&
  (List.range 8).all (fun n => !(getHws s n).cycling || !(getHws s n).ctl.any (fun c => c.type = 8 && c.node = 63))

/-- What a trunk port keeps across a reload: its power feed (R162). SHORTLOCK is cleared (R163). -/
def keepFeed (g : Hws) : Hws :=
  { pstate := g.pstate, pwren := g.pwren, onSince := g.onSince, code := g.code, armed := g.armed, base := g.base,
    stepRun := g.stepRun, stepStamp := g.stepStamp }

/-- Step 4 of R35: every block but the host link and the time base is stopped and back at its start. Leaf flags and
event counters stay (R409), those of the timers apart (R66); event outputs hold (R135); rainflow slots wait for the
admission (R229), and MIRROR rings for their start (R368). -/
def restartBlocks (s : State) : State :=
  let s := forEach (List.range 8) leaveAll s
  let s := { s with phase := .started, config := { s.config with locked := false, reloading := true, closed := false } }
  let s := forEach (List.range 32) (fun n => setFlags (tmrA n + 0x5C) 0) (setFlags tmrGstatA 0 (setCnt tmrGstatA 0 s))
  let s := forEach (List.range 64) (fun i => setCnt (feBrkA (i / 8) (i % 8)) 0) s
  let s := setCfg (hlA + 4) 0x7 s
  let s :=
    { s with
      timers := [], chans := [], streams := [], stagerTurn := 0, stages := [], trigLines := 0, spus := [], icu := [], icuViews := [],
      rings := Mem.mapVals (fun _ => {}) (fun v => { base := v.base, prod := v.prod, cons := v.cons, stg := v.prod, host := v.host }) s.rings
      fes := Mem.mapVals (fun _ => {}) (fun v => { qmax := v.qmax }) s.fes
      engines := Mem.mapVals (fun _ => {}) (fun v => { qmax := v.qmax, cycMax := v.cycMax, fault := v.fault, ftime := v.ftime }) s.engines
      cvps := Mem.mapVals (fun _ => {}) (fun v => { pres := v.pres, pin := v.pin, goneAt := v.goneAt }) s.cvps
      sbps := [], polls := [], evps := Mem.mapVals (fun _ => {}) (fun v => { level := v.level }) s.evps, tchs := [],
      hws := Mem.mapVals (fun _ => {}) keepFeed s.hws
      adm := { s.adm with done := false, reason := [], bound := [] }
      bgt := { s.bgt with credit := [], creditUsed := [], taken := [], assembly := [], relayIdx := [] } }
  if isSecondary s then bgtSend (causeFrame s (intLow s)) s else s

/-- RELOAD_RESTART (R35): with everything delivered, the blocks restart from the image load. Where the engines ended
their last work after the command, the rings close here first. -/
def execReloadRestart (s : State) : Host.Outcome State Fault Refusal := live s <|
  if s.phase ≠ .draining then .next s
  else
    let s := drainRings s
    if drained s then .next (restartBlocks s) else .next s

/-! ### The ledger (R331–R333) -/

/-- Records of a stream granted and not yet delivered, oldest first: time and count. -/
def inFlightOf (s : State) (k : Nat) : List (W64 × Nat) :=
  let g := getRing s (stRing s k)
  (g.inflight.filter (fun f => f.stream = some k && f.samples ≠ 0)).map (fun f => (f.stamp, f.samples)) ++
  ((g.front ++ g.ready).filter (fun x => recStream x = some k && recCount x ≠ 0)).map (fun x => (x.time, recCount x)) ++
  (match (getStream s k).batch with | some b => [(b.t0, b.samples.length)] | none => [])

/-- Samples and records in flight. -/
def inFlightCount (s : State) (k : Nat) : W48 := BitVec.ofNat 48 ((inFlightOf s k).map Prod.snd).sum

/-- Pages in transit: the model moves a page in one step, so none. -/
def transitPages : Nat := 0

/-- The page identity of R331. -/
def pagesBalance (s : State) : Bool :=
  decide (freePages s + (s.adm.ringPages + assemblyPages s) + s.adm.rsvPages + transitPages = 8192)

/-- SIZE of a ring, words: the host ring of a MIRROR ring, else the body. -/
def ringSize (s : State) (r : Nat) : Nat := if ringMode s r = 1 then hostSize s r else bodySize s r

/-- The index identity of R331. -/
def ringBalance (s : State) (r : Nat) : Bool := decide (((getRing s r).prod - (getRing s r).cons).toNat ≤ ringSize s r)

/-- The counters of a stream balance (R331). -/
def streamBalance (s : State) (k : Nat) : Bool :=
  let st := getStream s k
  decide (st.offered - st.refused = st.delivered + inFlightCount s k)

/-- A ledger snapshot in one cycle (R332). Ring-owned pages are the bodies and the assembly pages held (R339). -/
def takeLedger (s : State) : State :=
  let rs := enabledRings s
  let ks := enabledStreams s
  { s with adm :=
    { s.adm with
      snapSeq := s.adm.snapSeq + 1, snapBusy := false,
      snapBal := pagesBalance s && rs.all (ringBalance s) && ks.all (streamBalance s),
      snapFree := freePages s, snapRing := s.adm.ringPages + assemblyPages s, snapRsv := s.adm.rsvPages, snapTransit := transitPages,
      snapRings := rs.foldl (fun m r => Mem.write (fun _ => (0, 0, 0)) m r
        ((getRing s r).prod, (getRing s r).cons, BitVec.ofNat 32 (ringSize s r))) [],
      snapStreams := ks.foldl (fun m k => Mem.write (fun _ => (0, 0, 0, 0)) m k
        ((getStream s k).offered, (getStream s k).refused, (getStream s k).delivered, inFlightCount s k)) [] } }

/-- A write to ADM_LCMD (R332): in sleep a SNAP waits for S0 and wakes nothing. -/
def writeLcmd (v : W32) (s : State) : State :=
  if !bit v 0 then s
  else if s.power.cur = .s0 then takeLedger s
  else { s with adm := { s.adm with snapBusy := true } }

/-- SNAP (R332). -/
def execSnap (_path : Path) (v : W32) (s : State) : Host.Outcome State Fault Refusal := live s <| .next (writeLcmd v s)

/-- DEFERRED_SNAP (R332): the next S0 cycle. -/
def execDeferredSnap (s : State) : Host.Outcome State Fault Refusal := live s <|
  if s.adm.snapBusy ∧ s.power.cur = .s0 then .next (takeLedger s) else .next s

/-- A failed audit: its flag, ADM_AUDITERR and its journal entry (R333, R461). -/
def auditFailed (flag unit : Nat) (s : State) : State :=
  journal 0x31 (stampNow s) [pack [(flag, 32), (unit, 0)]] (bump admAuditErrA (raise admFlagsA flag s))

/-- The audit of one admitted stream: a late oldest sample is reported once (R333). -/
def auditStream (k : Nat) (s : State) : State :=
  let st := getStream s k
  match inFlightOf s k with
  | [] => s
  | (t, _) :: _ =>
    if decide ((t + boundOf s k : W64) < ticks s) && st.lateStamp ≠ some t then
      formFault k 2 0 0 (short t) (auditFailed 2 k (setStream k { st with lateStamp := some t } s))
    else s

/-- AUDIT (R333): in S0 and S1, while Ranger runs. -/
def execAudit (s : State) : Host.Outcome State Fault Refusal := live s <|
  if !s.mgt.running ∨ !blocksRun s ∨ (s.power.cur ≠ .s0 ∧ s.power.cur ≠ .s1) then .next s
  else
    let s := if pagesBalance s then s else auditFailed 0 0 s
    let s := forEach ((enabledRings s).filter (fun r => !ringBalance s r)) (auditFailed 1) s
    .next (forEach ((enabledStreams s).filter (admitted s)) auditStream s)

end Sys2Proof.Machine
end

