-- ==== Sys2Proof/Machine/Power.lean ====
section
/-! DEFINITION. The power controller: vetoes, the choice of a state, preparation, entry, and the hub's part of a wake
(R30, R39, R40, R417–R425, R428). -/

namespace Sys2Proof.Machine
open Sys2Proof

/-! ### Vetoes (R419) -/

/-- A ring with work for the stager, or a MIRROR or RELAY ring with an undelivered record (R369). -/
def ringVetoes (s : State) (r : Nat) : Bool :=
  let g := getRing s r
  !g.front.isEmpty || !g.ready.isEmpty || !g.inflight.isEmpty || (ringMode s r != 0 && !g.deferred.isEmpty)

/-- A block is STARTING or STOPPING: a converter port in its start-up, or every block in a reload (R15). -/
def blockMoves (s : State) : Bool :=
  s.phase ≠ .running || (List.range 8).any (fun n => (getCvp s n).state = .starting)

/-- Kind i of R419 vetoes a state deeper than S0. -/
def vetoes (s : State) (p : PState) (i : Nat) : Bool :=
  let deep := decide (p = .s2 ∨ p = .s3)
  match i with
  | 0 => (List.range 32).any (timerVetoes s p)
  | 1 => (List.range 8).any (fun n => cvpEn s n && (getCvp s n).state ≠ .off)
  | 2 => (List.range 8).any (fun n => !(getSbp s n).queue.isEmpty || (getSbp s n).running.isSome)
  | 3 => (List.range 8).any (linkVetoes s)
  | 4 => (List.range 8).any (fun e => (getFe s e).queued ≠ 0)
  | 5 => (List.range 2).any (spuVetoes s)
  | 6 => (List.range 16).any (fun e => (getEngine s e).run = .busy || !(getEngine s e).queue.isEmpty)
  | 7 => (List.range 128).any (ringVetoes s)
  | 8 => deep && s.tb.step.isSome
  | 9 => p = .s3 && !s.mgt.idle
  | 10 => deep && onRing s && s.bgt.sleep ≠ 1
  | 11 => blockMoves s
  | _ => false

/-- Some kind vetoes a state. -/
def vetoed (s : State) (p : PState) : Bool := p ≠ .s0 && (List.range 12).any (vetoes s p)

/-- Some kind other than the ring's own hold vetoes a state. -/
def vetoedButRing (s : State) (p : PState) : Bool := p ≠ .s0 && (List.range 12).any (fun i => i ≠ 10 && vetoes s p i)

/-! ### The choice (R418) -/

/-- The permitted state; S0 with PWR_CTRL.EN = 0. -/
def permitted (s : State) : PState :=
  let c := cfgR s (pwrA + 4)
  if bit c 2 then pstate (min (pcode s.adm.deepest) (bits c 1 0)) else .s0

/-- Ticks of a timer to its event: 0 CMP_A match, 1 CMP_B match, 2 overflow; none where it never comes. -/
def ticksTo (s : State) (n evt : Nat) : Option Nat :=
  let top := (tmrTop s n).toNat
  let c := (getTimer s n).count.toNat
  if evt = 2 then some (top + 1 - c)
  else
    let v := (tmrCmp s n (evt == 1)).toNat
    if top < v then none else some (if c < v then v - c else top + 1 - c + v)

/-- Device time, in nominal ticks, until a timer has ticked k times, through a chain of sources 8 and 9; none where its
effective source is not WOSC or the crystal. -/
def timeToTick (s : State) : Nat → Nat → Nat → Option Rat
  | 0, _, _ => none
  | fuel + 1, n, k =>
    let edges : Nat := (k * tmrDq s n - (getTimer s n).acc + 2 ^ 24 - 1) / 2 ^ 24
    let m := tmrIdx s n
    let lap : Nat := (tmrTop s m).toNat + 1
    let via := fun evt => match ticksTo s m evt with
      | some t => timeToTick s fuel m (t + (edges - 1) * lap)
      | none => none
    if !(getTimer s n).running then none
    else match tmrSrc s n with
      | 2 => some ((edges : Rat) * 25)
      | 3 => some ((edges : Rat) * (390625 / 32))
      | 8 => via 2
      | 9 => via 0
      | _ => none

/-- When the next wake event of a running timer on WOSC or the crystal comes, in ticks from now (R418, R421). -/
def timerWakes (s : State) (n : Nat) : List Rat :=
  (List.range 3).filterMap (fun evt =>
    if pacesSomething s n evt || bit (cfgR s (pwrA + 0x18)) n then (ticksTo s n evt).bind (timeToTick s cascade n) else none)

/-- W of the shallower of DEEPEST and a stream's own deepest state (R325). -/
def wakeTerm (s : State) (k : Nat) : Nat := wakeTicks (min (pcode s.adm.deepest) (deepestOf s k))

/-- The wake that an event stamped t arms for its stream (R130). -/
def armedAt (s : State) (k : Nat) (t : W64) : W64 :=
  t + boundOf s k - BitVec.ofNat 64 (s.adm.tStage + wakeTerm s k)

/-- Wakes for the records that became ready in sleep and that the stager writes only in S0 (R369): each is in time for its
stream's bound, which every accepted sample keeps (R8). -/
def readyWakes (s : State) : List W64 :=
  s.rings.flatMap (fun kv =>
    (kv.2.ready.filter (fun x => !ringLevel x && x.type ≠ 4 && admitted s x.num)).map (fun x => armedAt s x.num x.time))

/-- Wakes armed by queued events of pins and keys and by their closed runs of refused events (R130, R132). -/
def armedWakes (s : State) : List W64 :=
  let one := fun (kind n : Nat) (q : List OpEvent) => match eventStream s kind n with
    | some k => if admitted s k then q.map (fun e => armedAt s k e.sample.stamp) else []
    | none => []
  (List.range 16).flatMap (fun n => one 5 n (getEvp s n).queue ++ one 6 n (getTch s n).queue) ++ readyWakes s

/-- Deadlines of the open batches (R359). -/
def flushWakes (s : State) : List W64 :=
  s.streams.filterMap (fun kv => kv.2.batch.map (fun b => b.t0 + BitVec.ofNat 64 (stFlush s kv.1)))

/-- Ticks from now to the earliest scheduled wake (R418). -/
def earliestWake (s : State) : Option Rat :=
  let now := ticks s
  let ts : List Rat := ((armedWakes s ++ flushWakes s).map (fun t => (((t - now).toInt : Int) : Rat))) ++
    (List.range 32).flatMap (timerWakes s)
  ts.foldl (fun m t => match m with | none => some t | some x => some (min x t)) none

/-- PWR_MINDWELLp in ticks. -/
def minDwell (s : State) (p : Nat) : Nat := 400 * bits (cfgR s (pwrA + 8 + 4 * p)) 23 0

/-- Step 2 of R418: a state whose dwell would be too short is raised. -/
def raiseState (wake : Option Rat) (s : State) : Nat → PState
  | 0 => .s0
  | p + 1 =>
    match wake with
    | some t => if t < (minDwell s (p + 1) : Rat) then raiseState wake s p else pstate (p + 1)
    | none => pstate (p + 1)

/-- s of R418. -/
def choice (s : State) : PState :=
  let p := ((List.range (pcode (permitted s) + 1)).reverse.find? (fun p => !vetoed s (pstate p))).getD 0
  raiseState (earliestWake s) s p

/-- What a hub tells the primary it chooses (R483): the choice without the hold of the ring itself, which waits for it. -/
def choiceForRing (s : State) : PState :=
  let p := ((List.range (pcode (permitted s) + 1)).reverse.find? (fun p => !vetoedButRing s (pstate p))).getD 0
  raiseState (earliestWake s) s p

/-- PWR_VETO: the kinds that veto the permitted state. -/
def vetoMap (s : State) : W32 := bitMap 12 (fun i => permitted s ≠ .s0 && vetoes s (permitted s) i)

/-! ### Preparation (R418, R420) -/

/-- The cycle's evaluation in S0: how long the choice has been deeper than S0. -/
def watchIdle (s : State) : State :=
  if s.power.cur ≠ .s0 then s
  else if choice s = .s0 then { s with power := { s.power with idleSince := none } }
  else if s.power.idleSince.isSome then s
  else { s with power := { s.power with idleSince := some (ticks s) } }

/-- A preparation is cancelled and counted; the hub stays in S0 (R420). -/
def cancelSleep (s : State) : State :=
  bump pwrCancelA { s with power := { s.power with phase := .awake, idleSince := none } }

/-- A new veto of the state in preparation; what the preparation itself makes ready for the stager does not count. -/
def newVeto (s : State) (p : PState) : Bool := (List.range 12).any (fun i => i ≠ 7 && vetoes s p i)

/-- Preparation for S3: batches close with STOP, the engines' copies and the hibernate image are written (R420). -/
def prepareS3 (s : State) : State :=
  let s := closeAllBatches 7 s
  { s with power := { s.power with images := s.power.images + 1 } }

/-- PWR_IDLE µs have passed with the choice deeper than S0. -/
def idleLong (s : State) : Bool :=
  match s.power.idleSince with
  | some t => reached s (t + BitVec.ofNat 64 (400 * bits (cfgR s (pwrA + 8)) 23 0))
  | none => false

/-- SLEEP_PREPARATION (R420): preparation begins for the state chosen now, or a new veto cancels the one under way. -/
def execSleepPreparation (s : State) : Host.Outcome State Fault Refusal := live s <|
  match s.power.cur, s.power.phase with
  | .s0, .preparing p => if newVeto s p then .next (cancelSleep s) else .next s
  | .s0, .awake =>
    let p := choice s
    if p = .s0 then .next s
    else if !idleLong s then .next (watchIdle s)
    else
      let s := { s with power := { s.power with phase := .preparing p, idleSince := none } }
      .next (if p = .s3 then prepareS3 s else s)
  | _, _ => .next s

/-! ### Entry (R39, R40, R420, R424) -/

/-- PWR_ENTp. -/
def pwrEntA (p : Nat) : Nat := pwrA + 0x5C + 4 * p
/-- PWR_RESp. -/
def pwrResA (p : Nat) : Nat := pwrA + 0x74 + 4 * p

/-- The accumulator keeps its value of the last crystal edge, `d` eighths of a tick ago, and T_ent is latched (R40). -/
def latchTime (d : Nat) (s : State) : State :=
  let a := (s.tb.fast >>> 29) <<< 29
  let e := a - BitVec.ofNat 96 (d * 2 ^ 29)
  setTb { s.tb with acc := e, edge := e, tEnt := ticks s, handed := false, woscN := 0 } s

/-- S3 takes away the contents of every block that is not retained, and the error marks with them (R424). -/
def loseSram (s : State) : State :=
  let d := draw s
  let lost := (List.range 128).filter (fun i => !bit (d.2.power.retain.getD (i / 32) 0) (i % 32))
  { d.2 with
    sramLost := lost.foldl (fun m i => Mem.write (fun _ => 0) m i (d.1 + 1)) d.2.sramLost
    sram := d.2.sram.filter (fun kv => !lost.contains (kv.1 / 32768))
    poisoned := d.2.poisoned.filter (fun a => decide (a < sramA 0 ∨ sramA 4194304 ≤ a) || !lost.contains ((a - sramA 0) / 8 / 32768)) }

/-- The hub enters a sleep state. -/
def enterSleep (p : PState) (d : Nat) (s : State) : State :=
  let s := bump (pwrEntA (pcode p)) s
  let now := ticks s
  let s := if p = .s1 then s else latchTime d s
  let s := { s with power :=
    { s.power with
      cur := p, last := p, phase := .awake, idleSince := none, wakeReq := 0, entered := now } }
  if p = .s3 then loseSram s else s

/-- SLEEP_ENTRY (R420): the commit point of the preparation. `d` is the time since the last crystal edge, in 1/8 ticks. -/
def execSleepEntry (d : Nat) (s : State) : Host.Outcome State Fault Refusal := live s <|
  match s.power.cur, s.power.phase with
  | .s0, .preparing p =>
    if newVeto s p then .next (cancelSleep s) else if vetoed s p then .next s else .next (enterSleep p d s)
  | _, _ => .next s

/-! ### The wake (R422, R423, R425, R428) -/

/-- An armed wake or a FLUSH deadline that has come asks for a wake (R130, R359). -/
def watchArmed (s : State) : State :=
  if s.power.cur ≠ .s0 && (armedWakes s ++ flushWakes s).any (reached s) then requestWake 6 s else s

/-- A wake can complete: a source asserted, and the fast counter runs (R43). -/
def wakeReady (s : State) : Bool := s.power.cur ≠ .s0 && s.power.wakeReq ≠ 0 && fastRuns s

/-- The time in a sleep state counts in units of 1,024 crystal cycles, 12,500,000 ticks (R428). -/
def countResidency (s : State) : State :=
  let p := pcode s.power.cur
  let t := s.power.resLeft.getD (p - 1) 0 + (ticks s - s.power.entered).toNat
  bumpBy (pwrResA p) (t / 12500000)
    { s with power := { s.power with resLeft := s.power.resLeft.set (p - 1) (t % 12500000) } }

/-- A late wake or a failed restore is journalled (R423). -/
def journalPower (what dur : Nat) (s : State) : State := journal 0x32 (stampNow s) [BitVec.ofNat 48 what, BitVec.ofNat 48 dur] s

/-- What S3 restarts: every filter stage under RESTART, rainflow slots apart, with no TRIG event; the spectral units (R236, R260). -/
def afterS3 (s : State) : State :=
  let t := stampNow s
  let run : RefRun := { first := t.stamp, last := t.stamp, count := 0, reason := 4, qual := t.qual, era := t.era }
  let s := forEach (enabledChans s) (fun ch s =>
    if chChainEn s ch then
      let e := chFe s ch
      let c := chChain s ch
      let inst := instanceOf s ch
      (chainStages s e c).foldl (fun s d =>
        if d.type = 7 then s
        else if d.type = 8 then setStage (stageKey e c inst d.num) {} s
        else (stageRestart e c inst d run s).1) s
    else s) s
  forEach ((List.range 2).filter (fun u => (getSpu s u).state = .on)) spuClear (refreshLines s)

/-- The ring's ports are up again after a release (R483); a secondary is not aligned until it has measured again. -/
def wakeRing (s : State) : State :=
  if onRing s ∧ s.bgt.sleep ≠ 0 then
    { s with
      tb := { s.tb with aligned := if isSecondary s then false else s.tb.aligned }
      bgt := { s.bgt with sleep := 0, dport := 2, uport := 2, alignGood := 0, lastTime := none } }
  else s

/-- The gap records of the monitor readings that fell due in S3 are written after the wake (R457). -/
def reportUnread (s : State) : State :=
  forEach (List.range 19) (fun m s =>
    match chanOfSource s 9 m with
    | some c => giveNotice c (if chStrEn s c then closeRun (chStream s c) s else s)
    | none => s) s

/-- The hub is in S0 again after `dur` ticks; `image` tells whether the hibernate image read back without error. -/
def wakeUp (dur : Nat) (image : Bool) (s : State) : State :=
  let from3 := decide (s.power.cur = .s3)
  let late := decide (wakeTicks (pcode s.power.cur) < dur)
  let s := countResidency s
  let s := { s with power :=
    { s.power with
      cur := .s0, wakeSrc := s.power.wakeReq, wakeT := s.power.wakeBegan, wakeReq := 0, wakeDur := BitVec.ofNat 32 dur,
      idleSince := none, phase := .awake } }
  let s := setTb
    { s.tb with
      handed := false, expect := none, hostRef := ticks s, stepInInterval := false
      step := s.tb.step.map (fun p => { p with tApply := ticks s + 4096 }) } s
  let s := wakeRing s
  let s := match s.tb.epochDue with | some t => recordEpoch t s | none => s
  let s := if late then journalPower 0 dur (bump (pwrA + 0x70) (raise pwrFlagsA 0 s)) else s
  let s :=
    if !from3 then s
    else if image then reportUnread (afterS3 s)
    else reportUnread (restartBlocks (journalPower 1 dur (bump (pwrA + 0x74) (raise pwrFlagsA 1 s))))
  seeAlerts s

end Sys2Proof.Machine
end

