-- ==== Sys2Proof/Machine/RegRead.lean ====
section
/-! DEFINITION. What every register, table and memory word of the device space reads as (R10, R11, R13, R14, R34, R508–R511). -/

namespace Sys2Proof.Machine
open Sys2Proof

/-! ### Parts of status registers -/

/-- STATE fields of n blocks, two bits each from bit 0. -/
def stateMap (n : Nat) (f : Nat → Nat) : W32 :=
  BitVec.ofNat 32 ((List.range n).foldl (fun acc i => acc + f i % 4 * 4 ^ i) 0)

/-- A 32-bit register from fields given as (value, low bit). -/
def reg (fs : List (Nat × Nat)) : W32 := BitVec.ofNat 32 (fs.foldl (fun a f => a + f.1 * 2 ^ f.2) 0)

/-- TB_DSTAT, and TB_NOW_Q's field layout (R60). -/
def tbDstat (s : State) : W32 :=
  reg [(b2n s.tb.refMiss, 7), (b2n (!isSecondary s || s.tb.aligned), 6), (b2n s.tb.trimLim, 5), (b2n s.tb.slewLim, 4),
    (loopCode s.tb.loop, 2), (qcode (qualFast s), 0)]
/-- TB_NOW_Q at the instant latched (R58, R60). -/
def tbNowQ (s : State) : W32 := reg [(loopCode s.tb.loop, 2), (qcode (qualNow s), 0)]

/-- SYS_HUB (R515). -/
def sysHub (s : State) : W32 := reg [(s.bgt.hubs - 1, 9), (b2n s.bgt.excl, 8), (s.straps.pos, 2), (s.straps.role, 0)]

/-- A wait for the first converter frames, a list or a transmission is no block state of its own: the STATE of a port. -/
def cvpState (s : State) (n : Nat) : Nat := bcode (getCvp s n).state
def sbpState (s : State) (p : Nat) : Nat := bcode (getSbp s p).state

/-- A list runs on a sensor port. -/
def sbpBusy (s : State) (p : Nat) : Bool := (getSbp s p).running.isSome

/-- Generation 2 packets leave the port now. -/
def hwsTxAct (s : State) (n : Nat) : Bool := decide (0 < ((getHws s n).txEnd - ticks s).toInt)

/-- HWSn_NODEm_STAT (R196). -/
def nodeStat (s : State) (n m : Nat) : W32 :=
  let x := getNode s n m
  reg [(x.tmap, 20), (b2n x.degraded, 19), ((BitVec.ofInt 12 x.dly).toNat, 4), (x.nstate, 0)]
/-- HWSn_NODEm_ERR (R195). -/
def nodeErr (s : State) (n m : Nat) : W32 := reg [(min 65535 (getNode s n m).lost, 16), (min 65535 (getNode s n m).nacks, 0)]
/-- HWSn_G1a_STAT (R195). -/
def g1Stat (s : State) (n a : Nat) : W32 :=
  let x := getNode1 s n a
  reg [(x.lat % 65536, 16), (x.nch % 32, 3), (x.nstate, 0)]
/-- HWSn_G1a_ERR (R195). -/
def g1Err (s : State) (n a : Nat) : W32 := reg [(min 65535 (getNode1 s n a).lost, 16), (min 65535 (getNode1 s n a).retries, 0)]

/-- Word w of tone map m (R165). -/
def toneWord (s : State) (n m w : Nat) : W48 :=
  let t := portMap s n m
  if w = 0 then pack [(t.rate, 46), (b2n (mapValid s n t), 45), (mapNcbps s n t, 32)]
  else pack ((List.range 16).map (fun i => (t.codes.getD (16 * (w - 1) + i) 0, 3 * i)))

/-- ADM_STAT (R335). -/
def admStat (s : State) : W32 :=
  reg [(b2n s.adm.done, 31), (b2n s.adm.defaults, 30), (pcode s.adm.deepest, 28), (s.adm.linkGen, 26), (s.adm.linkW, 23), (s.adm.hubsM1, 0)]

/-- CLKREQ_N is held asserted (R383). -/
def clkReq (s : State) : Bool :=
  !bit (cfgR s (hlA + 4)) 0 || (List.range 128).any (fun r => (getRing s r).state = .on && ringMode s r = 1)

/-- HL_STAT (R403). -/
def hlStat (s : State) : W32 :=
  reg [(b2n s.hl.bme, 12), (b2n s.hl.msiEn, 11), (if s.hl.d3 then 3 else 0, 9), (b2n (clkReq s), 8), (if clkReq s ∧ (s.hl.lpm = 2 ∨ s.hl.lpm = 3) then 1 else s.hl.lpm, 5), (s.hl.linkW, 2),
    (s.hl.linkGen, 0)]

/-- BGT_STAT (R488). -/
def bgtStat (s : State) : W32 :=
  reg [(s.bgt.hubs - 1, 21), (s.straps.pos, 18), (s.straps.role, 16), (s.bgt.sleep, 12), (s.bgt.rstate, 10), (s.bgt.dport, 8),
    (s.bgt.uport, 6), (b2n s.bgt.excl, 2), (bcode s.bgt.state, 0)]

/-- Four bytes of a buffer, byte i in bits [31 − 8 i : 24 − 8 i] (R445). -/
def bufWord (m : Mem (BitVec 8)) (w : Nat) : W32 :=
  BitVec.ofNat 32 (beVal ((List.range 4).map (fun i => Mem.read (fun _ => 0) m (4 * w + i))))

/-! ### Registers by block -/

/-- SYS (R405, R406, R415, R495, R515). -/
def readSys (s : State) (o : Nat) : W32 :=
  match o with
  | 0x00 => 0x4896_00A1
  | 0x08 => sysSummary s
  | 0x0C => sysRaw s
  | 0x20 | 0x24 | 0x28 | 0x2C => groupRng s ((o - 0x20) / 4)
  | 0x30 | 0x34 => groupChl s ((o - 0x30) / 4)
  | 0x38 => groupPort s
  | 0x3C => groupEng s
  | 0x60 => sysHub s
  | _ => cntR s o

/-- TB (R58). TB_NOW_Q is the path's own latch. -/
def readTb (s : State) (p : Path) (o : Nat) : W32 :=
  match o with
  | 0x08 => (getHold s p).nowQ
  | 0x14 => tbDstat s
  | 0x1C => s.tb.err
  | 0x20 => s.tb.steer
  | 0x28 => s.tb.woscPer
  | 0x2C => s.tb.handover.setWidth 32
  | 0x40 => s.tb.stepCnt
  | _ => cntR s (0x0001_0000 + o)

/-- TMR (R79). -/
def readTmr (s : State) (o : Nat) : W32 :=
  match o with
  | 0x04 => bitMap 32 (fun n => (getTimer s n).running)
  | 0x08 => timerVetoMap s .s1
  | 0x0C => timerVetoMap s .s2
  | 0x10 => timerVetoMap s .s3
  | _ => 0

/-- CVP (R104). -/
def readCvp (s : State) (o : Nat) : W32 :=
  match o with
  | 0x00 => bitMap 8 (cvpPresent s)
  | 0x04 => stateMap 8 (cvpState s)
  | _ =>
    let n := o / 0x100 - 1
    match o % 0x100 with
    | 0x84 => (getCvp s n).cmdRx.setWidth 32
    | 0x88 => reg [(b2n (getCvp s n).cmdBusy, 3), ((getCvp s n).cmdRes, 0)]
    | _ => cntR s (0x0003_0000 + o)

/-- SBP (R124). -/
def readSbp (s : State) (o : Nat) : W32 :=
  if o = 0 then stateMap 8 (sbpState s)
  else if 0x2000 ≤ o then
    let x := Mem.read (fun _ => (0, 9)) s.polls ((o - 0x2000) / 4)
    reg [(min 65535 x.1, 16), (x.2, 0)]
  else cntR s (0x0004_0000 + o)

/-- HWS, one port (R165, R195). -/
def readHws (s : State) (n o : Nat) : W32 :=
  let g := getHws s n
  match o with
  | 0x10 => reg [(g.rssiNode % 64, 16), (g.rssi.toNat, 0)]
  | 0x14 => g.nfWb.setWidth 32
  | 0x28 => reg [(min 65535 (isnsMa s n), 16), (g.code % 1024, 0)]
  | 0x108 => g.cycle
  | 0x114 => bitMap 32 (fun m => decide (1 ≤ m) && decide ((getNode s n m).nstate ≠ 0))
  | 0x118 => bitMap 8 (fun a => decide ((getNode1 s n a).nstate ≠ 0))
  | _ =>
    if 0x208 ≤ o ∧ o < 0x300 then (if o % 8 = 0 then nodeStat s n ((o - 0x200) / 8) else nodeErr s n ((o - 0x200) / 8))
    else if 0x300 ≤ o ∧ o < 0x340 then (if o % 8 = 0 then g1Stat s n ((o - 0x300) / 8) else g1Err s n ((o - 0x300) / 8))
    else if 0x800 ≤ o then (Mem.read (fun _ => 0) g.nf ((o - 0x800) / 4)).setWidth 32
    else cntR s (hwsA n + o)

/-- FE (R239). -/
def readFe (s : State) (o : Nat) : W32 :=
  if o = 0 then stateMap 8 (fun e => bcode (getFe s e).state)
  else if o = 4 then s.trigLines
  else if o < 0x300 then
    let g := getFe s ((o - 0x100) / 0x40)
    match o % 0x40 with
    | 0x04 => g.load
    | 0x08 => g.burst
    | 0x20 => BitVec.ofNat 32 g.qmax
    | _ => cntR s (0x0008_0000 + o)
  else if 0x6000 ≤ o ∧ o < 0x6800 then
    let g := getSlot s ((o - 0x6000) / 0x10)
    if o % 0x10 = 0 then reg [(b2n g.inUse, 31), (g.page.toNat, 0)] else g.clip
  else if 0x6800 ≤ o then (getSlot s ((o - 0x6800) / 4)).gaps
  else cntR s (0x0008_0000 + o)

/-- SPU (R262). -/
def readSpu (s : State) (o : Nat) : W32 :=
  if o = 0 then stateMap 2 (fun u => bcode (getSpu s u).state)
  else if o = 4 then bitMap 2 (fun u => (getSpu s u).abort)
  else
    let g := getSpu s (o / 0x1000 - 1)
    match o % 0x1000 with
    | 0x08 => g.load
    | 0x0C => g.burst
    | _ => cntR s (0x0009_0000 + o)

/-- EEe_STAT's RUN (R288). -/
def runCode (r : Run) : Nat := match r with | .idle => 0 | .busy => 1 | .halted => 2 | .faulted => 3

/-- Word i of a 128-bit view. -/
def view32 (v : BitVec 128) (i : Nat) : W32 := (v >>> (32 * i)).setWidth 32

/-- EE and the ICU (R287). -/
def readEe (s : State) (o : Nat) : W32 :=
  if o = 0 then stateMap 16 (fun e => bcode (getEngine s e).state)
  else if o = 4 then stateMap 16 (fun e => runCode (getEngine s e).run)
  else if o < 0x900 then
    let g := getEngine s ((o - 0x100) / 0x80)
    match o % 0x80 with
    | 0x0C => g.fault
    | 0x18 => g.load
    | 0x1C => g.burst
    | 0x3C => BitVec.ofNat 32 g.cycMax
    | 0x40 => BitVec.ofNat 32 g.qmax
    | _ => cntR s (0x000A_0000 + o)
  else if 0x4400 ≤ o ∧ o < 0x4410 then bitMap 32 (fun b => icuAsserted s (8 * (o - 0x4400) + b))
  else
    let p := (o - 0x5000) / 0x40
    let x := o % 0x40
    if x < 0x10 then view32 (icuView s p) (x / 4)
    else if x < 0x20 then view32 (icuActive s p) (x / 4 - 4)
    else if x = 0x20 then
      match icuFirst (icuView s p) with
      | some n => BitVec.ofNat 32 n
      | none => 0x8000_0000
    else cntR s (0x000A_0000 + o)

/-- ADM (R334, R335). -/
def readAdm (s : State) (o : Nat) : W32 :=
  match o with
  | 0x00 => admStat s
  | 0x04 => reg [(s.adm.refusedN, 16), (s.adm.admitted, 0)]
  | 0x08 => s.adm.ingest
  | 0x0C => s.adm.fabric
  | 0x10 => s.adm.link
  | 0x14 => s.adm.pages
  | 0x24 => reg [(s.adm.snapSeq.toNat, 16), (b2n s.adm.snapBal, 1), (b2n s.adm.snapBusy, 0)]
  | 0x28 => BitVec.ofNat 32 s.adm.snapFree
  | 0x2C => BitVec.ofNat 32 s.adm.snapRing
  | 0x30 => BitVec.ofNat 32 s.adm.snapRsv
  | 0x34 => BitVec.ofNat 32 s.adm.snapTransit
  | _ =>
    if 0x40 ≤ o ∧ o < 0x60 then s.adm.hops.getD ((o - 0x40) / 4) 0
    else if 0x100 ≤ o ∧ o < 0x300 then bitMap 32 (fun b => decide (stAdm s (8 * (o - 0x100) + b) = 2))
    else if 0x400 ≤ o ∧ o < 0x1400 then reg ((List.range 4).map (fun j => (admReason s (o - 0x400 + j), 8 * j)))
    else if 0xA000 ≤ o then
      let x := Mem.read (fun _ => (0, 0, 0)) s.adm.snapRings ((o - 0xA000) / 0x10)
      match o % 0x10 with | 0 => x.1 | 4 => x.2.1 | _ => x.2.2
    else cntR s (0x000B_0000 + o)

/-- RNG (R372). -/
def readRng (s : State) (o : Nat) : W32 :=
  if o = 4 then reg [(assemblyPages s, 16), (freePages s, 0)]
  else if o < 0x100 then stateMap 16 (fun j => bcode (getRing s (4 * (o - 0x10) + j)).state)
  else
    let g := getRing s ((o - 0x100) / 0x40)
    match o % 0x40 with
    | 0x08 => g.prod
    | 0x0C => g.cons
    | 0x10 => g.stg
    | 0x2C => g.base.setWidth 32
    | _ => cntR s (0x000C_0000 + o)

/-- PWR, the freeze registers and the operator inputs (R138, R428, R506). -/
def readPwr (s : State) (o : Nat) : W32 :=
  match o with
  | 0x00 => reg [(pcode s.power.last, 4), (pcode (choice s), 2), (pcode s.power.cur, 0)]
  | 0x1C => vetoMap s
  | 0x24 => s.power.wakeSrc.setWidth 32
  | 0x30 => s.power.wakeDur
  | 0x40 | 0x44 | 0x48 | 0x4C => s.power.retain.getD ((o - 0x40) / 4) 0
  | 0x4008 => s.frz.cause
  | 0x400C => s.frz.fault
  | 0x4018 => s.frz.count
  | 0x8000 => bitMap 16 (fun n => (getEvp s n).level)
  | 0x8004 => bitMap 16 (fun n => (getTch s n).touched)
  | 0x8008 => bitMap 8 (fun n => (getEvo s n).active)
  | _ =>
    if 0x8200 ≤ o ∧ o < 0x8300 ∧ o % 0x10 = 4 then
      let g := getTch s ((o - 0x8200) / 0x10)
      reg [((g.base.getD 0) / 256 % 65536, 16), (g.last.toNat, 0)]
    else cntR s (0x000E_0000 + o)

/-- CFG (R449, R450). -/
def readCfg (s : State) (o : Nat) : W32 :=
  let c := s.config
  match o with
  | 0x04 => c.ofs
  | 0x08 => c.sect
  | 0x0C => c.loads
  | 0x18 => c.len
  | 0x1C => c.crc
  | 0x44 => c.cfpAddr.setWidth 32
  | 0x48 => reg [(c.cfpReason, 4), (c.cfpLast, 1), (b2n c.cfpBusy, 0)]
  | _ => if 0x100 ≤ o then bufWord c.cfpBuf ((o - 0x100) / 4) else 0

/-- MGT (R468). -/
def readMgt (s : State) (o : Nat) : W32 :=
  let g := s.mgt
  match o with
  | 0x00 => reg [(b2n g.recovery, 9), (b2n (runsTrial s), 8), (b2n g.slot, 7), (g.rollback, 0)]
  | 0x08 => reg [(b2n g.cfgKey, 9), (b2n g.fwKey, 8), (g.rollbackOtp, 0)]
  | 0x28 => BitVec.ofNat 32 g.jnlHead
  | 0x2C => g.jnlSeq
  | 0x30 => reg [(g.jqMax, 16), (s.journalQ.length, 0)]
  | 0x404 => g.mbxArg
  | 0x408 => reg [(g.mbxResult, 4), (b2n g.mbxBusy, 0)]
  | _ => if 0x500 ≤ o then bufWord g.mbxBuf ((o - 0x500) / 4) else cntR s (0x0010_0000 + o)

/-- BGT (R487). -/
def readBgt (s : State) (o : Nat) : W32 :=
  match o with
  | 0x00 => bgtStat s
  | 0x0C => reg [(s.bgt.reachExcl.toNat, 8), (s.bgt.reach.toNat, 0)]
  | 0x10 => s.bgt.ofs
  | _ =>
    if 0x20 ≤ o ∧ o < 0x40 then (Mem.read (fun _ => 0) s.bgt.hopDly ((o - 0x20) / 4)).setWidth 32
    else cntR s (0x0011_0000 + o)

/-- CHT_LIMSg (R205): the channels of a group that are out of limits. -/
def limState (s : State) (g : Nat) : W32 := bitMap 32 (fun b => (getChan s (32 * g + b)).out)

/-- A RO register of 32 bits. -/
def readRo (s : State) (p : Path) (a : Nat) : W32 :=
  let o := a % 0x1_0000
  match a / 0x1_0000 with
  | 0x00 => readSys s o
  | 0x01 => readTb s p o
  | 0x02 => readTmr s o
  | 0x03 => readCvp s o
  | 0x04 => readSbp s o
  | 0x05 => readHws s (o / 0x2000) (o % 0x2000)
  | 0x08 => readFe s o
  | 0x09 => readSpu s o
  | 0x0A => readEe s o
  | 0x0B => readAdm s o
  | 0x0C => readRng s o
  | 0x0D => if o = 0 then hlStat s else cntR s a
  | 0x0E => readPwr s o
  | 0x0F => readCfg s o
  | 0x10 => readMgt s o
  | 0x11 => readBgt s o
  | 0x14 => limState s ((o - 0x100) / 4)
  | _ => 0

/-- A register whose writes have an effect of their own reads zero where it is WO, else as it stands (R79, R104, R372). -/
def readOwn (s : State) (a : Nat) : W32 :=
  let o := a % 0x1_0000
  match a / 0x1_0000 with
  | 0x03 => (getCvp s (o / 0x100 - 1)).cmdTx
  | 0x0C => if o = 0 then 0 else readRng s o
  | _ => 0

/-- The RO fields that share a register with W1C flags. -/
def flagRo (s : State) (a : Nat) : W32 :=
  let o := a % 0x1_0000
  match a / 0x1_0000 with
  | 0x02 =>
    if o = 0x14 then reg [((cntR s a).toNat, 16)] else reg [(b2n (getTimer s ((o - 0x100) / 0x80)).running, 7)]
  | 0x03 =>
    let g := getCvp s (o / 0x100 - 1)
    reg [(b2n (cvpPresent s (o / 0x100 - 1)), 5), (b2n g.synced, 4), (bcode g.state, 0)]
  | 0x04 =>
    let p := o / 0x100 - 1
    if p < 4 then reg [(b2n (sbpBusy s p), 7), (b2n (getSbp s p).alertLevel, 6), (sbpState s p, 0)]
    else reg [(b2n (sbpBusy s p), 4), (sbpState s p, 0)]
  | 0x05 =>
    let n := o / 0x2000
    let g := getHws s n
    match o % 0x2000 with
    | 0x04 => reg [(b2n g.lock.isSome, 1), (b2n (hwsTxAct s n), 0)]
    | 0x24 => reg [(b2n g.shortLock, 7), (g.pstate, 2), (b2n g.pwren, 0)]
    | _ => reg [(b2n g.tmchg.isSome, 2), (bcode g.state, 0)]
  | 0x08 =>
    let e := (o - 0x100) / 0x40
    reg [(b2n ((List.range 8).any (fun i => cntR s (feBrkA e i) ≠ 0)), 2), (bcode (getFe s e).state, 0)]
  | 0x09 =>
    let u := o / 0x1000 - 1
    let x := o % 0x1000
    if x = 4 then reg [(bcode (getSpu s u).state, 0)]
    else
      let k := (x - 0x100) / 0x20
      reg [(b2n ((getSpu s u).broken.contains k), 9), ((setFiring s u k), 0)]
  | 0x0A =>
    let g := getEngine s ((o - 0x100) / 0x80)
    reg [(g.restLeft, 8), (runCode g.run, 6), (bcode g.state, 0)]
  | 0x0C =>
    let g := getRing s ((o - 0x100) / 0x40)
    reg [(b2n g.full, 2), (bcode g.state, 0)]
  | 0x0F =>
    let c := s.config
    reg [(b2n c.defaults, 31), (b2n c.locked, 30), (b2n s.mgt.cfgKey, 29), (b2n c.sigOk, 28), (b2n c.bootRing, 27), (c.reason, 8)]
  | _ => 0

/-- A configuration register; TB_TRIM is kept by the hardware (R40, R58). -/
def readLk (s : State) (a : Nat) : W32 := if a = 0x0001_0024 then s.tb.trim.setWidth 32 else cfgR s a

/-- A 32-bit register that stands alone. -/
def readReg (s : State) (p : Path) (a : Nat) : W32 :=
  match accessAt a with
  | .ro => readRo s p a
  | .own => readOwn s a
  | .w1c _ => flagR s a ||| flagRo s a
  | .lk _ => readLk s a
  | .rw _ => if a / 0x1_0000 = 0xF then readCfg s (a % 0x1_0000) else readMgt s (a % 0x1_0000)
  | _ => 0

/-! ### Split quantities and memory words -/

/-- The page belongs to a ring body or a rainflow slot, whose layout the spec gives (R229, R338). -/
def pageKnown (s : State) (p : Nat) : Bool :=
  (enabledRings s).any (fun r => decide ((getRing s r).base.toNat ≤ p ∧ p < (getRing s r).base.toNat + ringBodyPages s r)) ||
  s.slots.any (fun kv => kv.2.inUse && decide (kv.2.page.toNat ≤ p ∧ p < kv.2.page.toNat + 9))

/-- A word of batch SRAM as read. In pages whose layout the spec does not give it is an open value. -/
def sramRead (s : State) (w : Nat) : W48 :=
  if pageKnown s (w / 512) then sramR s w else (Config.innerWord (sramA w) s.fresh).setWidth 48

/-- The fields of a boot record copy, in one number. -/
def bootFields (r : BootRec) : Nat :=
  b2n r.valid + 2 * b2n r.active + 4 * b2n r.trial + 8 * b2n r.prev + 16 * r.gen

/-- A journal word as stored (R459, R463). -/
def journalRead (s : State) (w : Nat) : W64 :=
  if w < 4 then Config.bootWord w (bootFields (if w < 2 then s.mgt.bootA else s.mgt.bootB))
  else if 0x1000 ≤ w ∧ w < 0x2_1000 then
    (if s.power.images = 0 then 0 else Config.innerWord (journalA w) s.power.images)
  else Mem.read (fun _ => 0) s.journal w

/-- A coefficient memory word; the layout of state words is not specified (R239). -/
def coefRead (s : State) (e w : Nat) : W48 :=
  match coefUse s e w with
  | .state _ _ => (Config.innerWord (coefA e w) s.fresh).setWidth 48
  | _ => coef s e w

/-- A short time with a quality in [17:16] of its _HI. -/
def withQual (t : W48) (q : Quality) : W64 := t.setWidth 64 ||| BitVec.ofNat 64 (qcode q * 2 ^ 48)

/-- Quantities of a timer (R79). -/
def timerQuantity (s : State) (n o : Nat) : W64 :=
  let t := getTimer s n
  match o with
  | 0x28 => t.count.setWidth 64
  | 0x30 => t.capA.setWidth 64
  | 0x38 => t.capB.setWidth 64
  | 0x40 => withQual t.capTA t.capQA
  | 0x48 => withQual t.capTB t.capQB
  | _ => t.phase.setWidth 64

/-- Quantities of the blocks that keep them outside the tables. -/
def roQuantity (s : State) (a : Nat) : W64 :=
  let o := a % 0x1_0000
  match a / 0x1_0000 with
  | 0x01 => ticks s
  | 0x02 => timerQuantity s ((o - 0x100) / 0x80) (o % 0x80)
  | 0x05 => (toneWord s (o / 0x2000) ((o % 0x2000 - 0x1000) / 0x80) (o % 0x80 / 8)).setWidth 64
  | 0x07 | 0x13 => match streamOfA (a - 0x18) with | some k => (stWord3 s k).setWidth 64 | none => 0
  | 0x08 => (getSlot s ((o - 0x6000) / 0x10)).total.setWidth 64
  | 0x09 => Mem.read (fun _ => 0) (getSpu s (o / 0x1000 - 1)).abound ((o % 0x1000 - 0x100) / 0x20)
  | 0x0A => (getEngine s ((o - 0x100) / 0x80)).ftime.setWidth 64
  | 0x0B => boundOf s ((o - 0x2000) / 8)
  | 0x0E => if o < 0x4000 then s.power.wakeT.setWidth 64 else s.frz.time
  | 0x0F => s.config.id
  | 0x10 =>
    let m := Mem.read (fun _ => {}) s.mgt.monitors ((o - 0x100) / 0x10)
    withQual m.reading m.qual
  | 0x11 =>
    let g := s.bgt.trigLog
    g.time.setWidth 64 ||| BitVec.ofNat 64 (g.chan % 8 * 2 ^ 56 + g.origin % 8 * 2 ^ 52)
  | 0x16 | 0x17 =>
    let x := Mem.read (fun _ => (0, 0, 0, 0)) s.adm.snapStreams ((a - 0x0016_0000) / 0x20)
    match a % 0x20 with
    | 0x00 => x.1.setWidth 64
    | 0x08 => x.2.1.setWidth 64
    | 0x10 => x.2.2.1.setWidth 64
    | _ => x.2.2.2.setWidth 64
  | _ =>
    if 0x0100_0000 ≤ a ∧ a < 0x0300_0000 then (sramRead s ((a - 0x0100_0000) / 8)).setWidth 64
    else if 0x0400_0000 ≤ a then journalRead s ((a - 0x0400_0000) / 8)
    else 0

/-- The whole of a split quantity or table word, by the address of its _LO. -/
def quantity (s : State) (a : Nat) : W64 :=
  match accessAt a with
  | .loRo => roQuantity s a
  | .loRw => s.tb.setValue
  | .loLk _ =>
    if 0x0040_0000 ≤ a ∧ a < 0x0060_0000 then (coefRead s ((a - 0x0040_0000) / 0x4_0000) (a % 0x4_0000 / 8)).setWidth 64
    else tabR s a
  | _ => 0

/-! ### Reads through a path -/

/-- A path reads _LO: it holds the upper part for _HI; TB_NOW_LO holds TB_NOW_Q with it (R11, R58). -/
def latchLo (p : Path) (a : Nat) (s : State) : State :=
  let h := { getHold s p with rd := (quantity s a >>> 32).setWidth 32 }
  setHold p (if a = 0x0001_0000 then { h with nowQ := tbNowQ s } else h) s

/-- What a 32-bit read at a device address gives. -/
def readValue (s : State) (p : Path) (a : Nat) : W32 :=
  match accessAt a with
  | .loRo | .loLk _ | .loRw => (quantity s a).setWidth 32
  | .hi => (getHold s p).rd
  | _ => readReg s p a

/-- What a 32-bit read leaves behind (R34, R265). -/
def readEffect (p : Path) (a : Nat) (s : State) : State :=
  match accessAt a with
  | .loRo | .loLk _ | .loRw => countParity a (latchLo p a s)
  | _ => s

/-- A 32-bit read of the hub's own device space. -/
def read32 (p : Path) (a : Nat) (s : State) : W32 × State := (readValue s p a, readEffect p a s)

/-- SPLIT_LO_READ (R11): the read of a register or of a quantity's _LO; in sleep it asks for a wake (R34). `found` is
what the check of a memory word finds (R233, R259, R265, R463, R491). -/
def execSplitLoRead (path : Path) (a : Nat) (found : Ecc) (s : State) : Host.Outcome State Fault Refusal := live s <|
  let r := read32 path a (memFound a found (pathWake path s))
  .next { r.2 with answer := [r.1.setWidth 64] }

end Sys2Proof.Machine
end

