-- ==== Sys2Proof/Machine/FlashPort.lean ====
section
/-! DEFINITION. The flash pass-through (R445, R446, R448) and the firmware mailbox (R466, R467). -/

namespace Sys2Proof.Machine
open Sys2Proof

/-! ### The flash -/

/-- n flash bytes from a read as erased (R430). -/
def eraseFlash (a n : Nat) (s : State) : State :=
  { s with flash := s.flash.filter (fun kv => decide (kv.1 < a ∨ a + n ≤ kv.1)) }

/-- Bytes are programmed from a. A NOR cell can only be cleared: PRESUMED. -/
def programFlash (a : Nat) : List (BitVec 8) → State → State
  | [], s => s
  | b :: bs, s => programFlash (a + 1) bs (setFlash a (flashByte s a &&& b) s)

/-- What a failed program or erase leaves in n bytes from a: open values. -/
def spoilFlash (a n : Nat) (s : State) : State :=
  let d := draw s
  programFlash a ((List.range n).map (fun i => (Config.innerWord (a + i) d.1).setWidth 8)) (eraseFlash a n d.2)

/-- Bytes 0 to n − 1 of a buffer. -/
def bufBytes (m : Mem (BitVec 8)) (n : Nat) : List (BitVec 8) := Mem.slice (fun _ => 0) m 0 n
/-- Bytes written into a buffer from byte i. -/
def putBytes (i : Nat) (bs : List (BitVec 8)) (m : Mem (BitVec 8)) : Mem (BitVec 8) := Mem.writeList (fun _ => 0) m i bs

/-- Word w of a buffer takes a value (R445). -/
def putBufWord (w : Nat) (v : W32) (m : Mem (BitVec 8)) : Mem (BitVec 8) :=
  putBytes (4 * w) ((List.range 4).map (fun i => BitVec.ofNat 8 (bits v (31 - 8 * i) (24 - 8 * i)))) m

/-! ### The pass-through (R445, R446) -/

/-- Bytes that an operation of the flash covers. -/
def cfpSpan (op len : Nat) : Nat := match op with | 1 | 2 => len | 3 => 0x1000 | 4 => 0x1_0000 | _ => 0

/-- A load is in progress: from step 4 of R35, or from reset, to the lock (R440, R448). -/
def loading (s : State) : Bool := !s.config.locked

/-- Why an operation is refused: 1 PROT, 2 ALIGN, 3 BUSY; 0 when it is not. -/
def cfpRefusal (s : State) (op len : Nat) : Nat :=
  let a := s.config.cfpAddr.toNat
  let n := cfpSpan op len
  if 2 ≤ op ∧ op ≤ 4 ∧ 0x80_0000 < a + n then 1
  else if (op = 1 ∧ 0x100_0000 < a + n) ∨ (op = 2 ∧ 256 < a % 256 + n) ∨ (op = 3 ∧ a % 0x1000 ≠ 0) ∨ (op = 4 ∧ a % 0x1_0000 ≠ 0) then 2
  else if s.config.cfpBusy || loading s then 3
  else 0

/-- A write to CFP_CTRL (R445, R446, R450). Without KEY it starts nothing; OP 7 is reserved (R14). -/
def writeCfpCtrl (v : W32) (s : State) : State :=
  let op := bits v 2 0
  if op = 7 then werr s
  else if bits v 31 24 ≠ 0xC5 ∨ op = 0 then s
  else
    let len := bits v 15 8 + 1
    let r := cfpRefusal s op len
    if r ≠ 0 then raise cfgStatA 2 { s with config := { s.config with cfpReason := r } }
    else { s with config := { s.config with cfpBusy := true, cfpLast := op, cfpOp := (op, s.config.cfpAddr.toNat, len) } }

/-- One row of R445: a CFP_CTRL write that asks for the row's operation. -/
def cfpRow (op : Nat) (path : Path) (v : W32) (s : State) : Host.Outcome State Fault Refusal := live s <|
  if bits v 2 0 = op then .next (writeCfpCtrl v (pathWake path s)) else .next s

/-- READ (R445). -/
def execCfpRead (path : Path) (v : W32) (s : State) : Host.Outcome State Fault Refusal := cfpRow 1 path v s
/-- PROGRAM (R445). -/
def execCfpProgram (path : Path) (v : W32) (s : State) : Host.Outcome State Fault Refusal := cfpRow 2 path v s
/-- ERASE4K (R445). -/
def execCfpErase4k (path : Path) (v : W32) (s : State) : Host.Outcome State Fault Refusal := cfpRow 3 path v s
/-- ERASE64K (R445). -/
def execCfpErase64k (path : Path) (v : W32) (s : State) : Host.Outcome State Fault Refusal := cfpRow 4 path v s
/-- READID (R445). -/
def execCfpReadid (path : Path) (v : W32) (s : State) : Host.Outcome State Fault Refusal := cfpRow 5 path v s
/-- READSR (R445). -/
def execCfpReadsr (path : Path) (v : W32) (s : State) : Host.Outcome State Fault Refusal := cfpRow 6 path v s

/-- What the operation under way does to the flash and to CFP_BUF when it ends well. -/
def cfpDone (s : State) : State :=
  let c := s.config
  let a := c.cfpOp.2.1
  let n := c.cfpOp.2.2
  let put := fun bs (s : State) => { s with config := { s.config with cfpBuf := putBytes 0 bs s.config.cfpBuf } }
  match c.cfpOp.1 with
  | 1 => put (flashBytes s a n) s
  | 2 => programFlash a (bufBytes c.cfpBuf n) s
  | 3 => eraseFlash a 0x1000 s
  | 4 => eraseFlash a 0x1_0000 s
  | 5 => put ((List.range 3).map (fun i => BitVec.ofNat 8 (bits s.flashId (23 - 8 * i) (16 - 8 * i)))) s
  | 6 => let d := draw s; put [(Config.freeWord d.1).setWidth 8] d.2
  | _ => s

/-- A program or erase that times out or reports an error: CFPERRF with TIMEOUT (R446). -/
def cfpFailed (s : State) : State :=
  let op := s.config.cfpOp
  raise cfgStatA 3 { spoilFlash op.2.1 (cfpSpan op.1 op.2.2) s with config := { s.config with cfpReason := 4 } }

/-- CFP_OPERATION_END (R446): `ok` tells whether the flash finished in time and without an error bit; a read always does. -/
def execCfpOperationEnd (ok : Bool) (s : State) : Host.Outcome State Fault Refusal := live s <|
  if !s.config.cfpBusy then .next s
  else
    let writes := decide (2 ≤ s.config.cfpOp.1 ∧ s.config.cfpOp.1 ≤ 4)
    let s := if ok || !writes then cfpDone s else cfpFailed s
    .next (reloadWhenReady { s with config := { s.config with cfpBusy := false } })

/-! ### The mailbox (R466, R467) -/

/-- A write to MGT_MBX_CMD: reserved values and writes while BUSY are ignored and counted; one that is taken ends
Ranger's IDLE (R453). While Ranger resets it is held. -/
def writeMbxCmd (v : W32) (s : State) : State :=
  let op := bits v 3 0
  if op = 0 ∨ 7 ≤ op ∨ s.mgt.mbxBusy then werr s
  else { s with mgt := { s.mgt with mbxBusy := true, mbxOp := op, idle := false } }

/-- The inactive slot: the one that does not run. -/
def inactiveSlot (s : State) : Bool := if s.mgt.recovery then !(bootRead s).active else !s.mgt.slot

/-- The contents of INFO's four words. The spec names them and gives no layout: open values of these fields. -/
def infoWord (s : State) (i : Nat) : W32 :=
  let f := match i with
    | 0 => bootFields s.mgt.bootA
    | 1 => bootFields s.mgt.bootB
    | 2 => b2n s.mgt.slot + 2 * s.mgt.rollback
    | _ => s.mgt.rollbackOtp
  (Config.innerWord (mgtA + 0x500 + 4 * i) f).setWidth 32

/-- BEGIN: the result and the state. -/
def mbxBegin (ok : Bool) (s : State) : Nat × State :=
  let b := slotBase (inactiveSlot s)
  let s := if ok then eraseFlash b 0x40_0000 s else spoilFlash b 0x40_0000 s
  (if ok then 0 else 2, { s with mgt := { s.mgt with begun := ok, verified := false } })

/-- WRITE: one 256-byte page. An offset that is not as R466 asks is taken as BADSEQ. -/
def mbxWrite (ok : Bool) (s : State) : Nat × State :=
  let a := s.mgt.mbxArg.toNat
  if !s.mgt.begun ∨ a % 256 ≠ 0 ∨ 0x40_0000 ≤ a then (1, s)
  else
    let b := slotBase (inactiveSlot s) + a
    let s := if ok then programFlash b (bufBytes s.mgt.mbxBuf 256) s else spoilFlash b 256 s
    (if ok then 0 else 2, { s with mgt := { s.mgt with verified := false } })

/-- VERIFY: the check of R465 on the inactive slot. -/
def mbxVerify (s : State) : Nat × State :=
  let r := slotCheck s (inactiveSlot s)
  (r, { s with mgt := { s.mgt with verified := decide (r = 0) } })

/-- COMMIT: the inactive slot becomes ACTIVE on trial, at the next RESET_N. -/
def mbxCommit (s : State) : Nat × State :=
  if !s.mgt.begun ∨ !s.mgt.verified then (1, s)
  else
    let b := inactiveSlot s
    (0, bootWrite { bootRead s with active := b, prev := !b, trial := true, tried := false } s)

/-- A mailbox command as Ranger carries it out. -/
def mbxServe (ok : Bool) (s : State) : Nat × State :=
  match s.mgt.mbxOp with
  | 1 => (0, { s with mgt := { s.mgt with mbxBuf := (List.range 4).foldl (fun m i => putBufWord i (infoWord s i) m) s.mgt.mbxBuf } })
  | 2 => mbxBegin ok s
  | 3 => mbxWrite ok s
  | 4 => mbxVerify s
  | 5 => mbxCommit s
  | _ => (0, { s with mgt := { s.mgt with begun := false, verified := false } })

/-- Ranger ends a mailbox command: RESULT, MBXF and an FWSTAGE entry (R466). -/
def mbxEnd (ok : Bool) (s : State) : State :=
  let op := s.mgt.mbxOp
  let r := mbxServe ok s
  let s := { r.2 with mgt := { r.2.mgt with mbxBusy := false, mbxResult := r.1 } }
  journal 0x03 (stampNow s) [pack [(r.1, 4), (op, 0)]] (raise mgtFlagsA 7 s)

/-- Ranger's use of the flash waits for a pass-through operation (R446). -/
def mbxReady (s : State) (op : Nat) : Bool :=
  s.mgt.mbxBusy && decide (s.mgt.mbxOp = op) && procRuns s rangerP && !(decide (2 ≤ op ∧ op ≤ 4) && s.config.cfpBusy)

/-- One row of R466: the write of the command, unless that command already waits, and its service once Ranger can. -/
def mbxRow (op : Nat) (ok : Bool) (path : Path) (s : State) : Host.Outcome State Fault Refusal := live s <|
  let s := if s.mgt.mbxBusy && decide (s.mgt.mbxOp = op) then s else writeMbxCmd (BitVec.ofNat 32 op) (pathWake path s)
  .next (if mbxReady s op then mbxEnd ok s else s)

/-- INFO (R466). -/
def execMbxInfo (path : Path) (s : State) : Host.Outcome State Fault Refusal := mbxRow 1 true path s
/-- BEGIN (R466): `ok` tells whether the flash reported no error. -/
def execMbxBegin (path : Path) (ok : Bool) (s : State) : Host.Outcome State Fault Refusal := mbxRow 2 ok path s
/-- WRITE (R466). -/
def execMbxWrite (path : Path) (ok : Bool) (s : State) : Host.Outcome State Fault Refusal := mbxRow 3 ok path s
/-- VERIFY (R466). -/
def execMbxVerify (path : Path) (s : State) : Host.Outcome State Fault Refusal := mbxRow 4 true path s
/-- COMMIT (R466). -/
def execMbxCommit (path : Path) (s : State) : Host.Outcome State Fault Refusal := mbxRow 5 true path s
/-- ABORT (R466). -/
def execMbxAbort (path : Path) (s : State) : Host.Outcome State Fault Refusal := mbxRow 6 true path s

end Sys2Proof.Machine
end

