-- ==== Sys2Proof/Machine/RegWrite.lean ====
section
/-! DEFINITION. Writes to the device space (R10, R12, R14, R32, R33, R443, R511), and the doorbell rows (R350). -/

namespace Sys2Proof.Machine
open Sys2Proof

/-! ### Rights (R32, R69, R251, R266, R282, R443, R456) -/

/-- A 32-bit LK register that Ranger may write after the lock: SETs_LVL, MGT_MONPER and the monitor limits. -/
def rangerReg (a : Nat) : Bool :=
  let o := a % 0x1_0000
  (a / 0x1_0000 == 9 && (decide (0x1000 ≤ o ∧ o < 0x3000) && (decide (0x100 ≤ o % 0x1000 ∧ o % 0x1000 < 0x200) && o % 0x20 == 0x10))) ||
  (a / 0x1_0000 == 0x10 && (o == 0x10 || (decide (0x100 ≤ o ∧ o < 0x230) && o % 0x10 == 8)))

/-- A quantity that Ranger may write after the lock: a timer's compares, and DRAM words. -/
def rangerWord (a : Nat) : Bool :=
  (a / 0x1_0000 == 2 && (a % 0x80 == 0x18 || a % 0x80 == 0x20)) ||
  (decide (0x0020_0000 ≤ a ∧ a < 0x0030_0000) && decide (0x8000 ≤ a % 0x1_0000))

/-- Words that are RO to the host and Ranger's to write: journal words 4 to 0xFFF (R459), and batch SRAM (R508). -/
def rangerOwned (a : Nat) : Bool :=
  decide (0x0100_0000 ≤ a ∧ a < 0x0300_0000) || decide (0x0400_0020 ≤ a ∧ a < 0x0400_8000)

/-- A path may write a LK location: Ranger before the lock, and what stays its own after it. The host never. -/
def mayWrite (s : State) (p : Path) (own : Bool) : Bool := p = .ranger && (own || !s.config.locked)

/-! ### 32-bit registers -/

/-- A LK register takes the bits of its mask. TB_TRIM goes to the time base (R58). -/
def putLk (a m : Nat) (v : W32) (s : State) : State :=
  let w := v &&& BitVec.ofNat 32 m
  if a = 0x0001_0024 then setTb { s.tb with trim := w.setWidth 24 } s else setCfg a w s

/-- A write to a LK register. ICU_SRCn_CFG's TARGET stays Ranger's after the lock (R282). -/
def writeLk (p : Path) (a m : Nat) (v : W32) (s : State) : State :=
  if s.config.locked ∧ 0x000A_4000 ≤ a ∧ a < 0x000A_4200 then retarget p ((a - 0x000A_4000) / 4) v s
  else if !mayWrite s p (rangerReg a) || badValue a (v.toNat &&& m) then werr s
  else putLk a m v s

/-- The host's clear of a leaf flag may send the MSI again (R382); HSP_ERR and TWT_ERR are no leaves. -/
def writeW1c (p : Path) (a m : Nat) (v : W32) (s : State) : State :=
  let s := clearFlags a (v &&& BitVec.ofNat 32 m) s
  if p = .ranger ∨ a = hlA + 0x18 ∨ a = hlA + 0x1C then s else causeWritten s

/-- TB_CMD (R52, R58). -/
def writeTbCmd (p : Path) (v : W32) (s : State) : State :=
  match bits v 1 0 with
  | 0 => s
  | 1 => requestStep p false s
  | 2 => requestStep p true s
  | _ => werr s

/-- TMR_CMD (R80); OP 7 is reserved. -/
def writeTmr (p : Path) (v : W32) (s : State) : State :=
  if bits v 2 0 = 7 then werr s else writeTmrCmd p (bits v 2 0) (bits v 12 8) (bits v 21 16) s

/-- EEe_CMD (R278, R288); OP 6 and 7 are reserved. -/
def writeEeCmd (p : Path) (e : Nat) (v : W32) (s : State) : State :=
  if 6 ≤ bits v 2 0 then werr s else engineCmd p e (bits v 2 0) s

/-- ICU_Pp_CLAIM and _COMPLETE: effective from the view's own processor; the host's are counted (R281). -/
def writeView (p : Path) (proc : Nat) (claim : Bool) (v : W32) (s : State) : State :=
  if p ≠ .ranger then werr s
  else if proc ≠ rangerP then s
  else if claim then icuClaim rangerP (bits v 6 0) s
  else icuComplete rangerP (bits v 6 0) s

/-- A write to a register with an effect of its own. -/
def writeOwn (p : Path) (a : Nat) (v : W32) (s : State) : State :=
  let o := a % 0x1_0000
  match a / 0x1_0000 with
  | 0x01 => if o = 0x38 then writeTbCmd p v s else writeTbAdj v s
  | 0x02 => writeTmr p v s
  | 0x03 => writeCmdTx p (o / 0x100 - 1) v s
  | 0x0A =>
    if o < 0x1000 then writeEeCmd p ((o - 0x100) / 0x80) v s
    else if o = 0x4410 then writeSwset p v s
    else writeView p ((o - 0x5000) / 0x40) (o % 0x40 == 0x24) v s
  | 0x0B => writeLcmd v s
  | 0x0C => if o = 0 then ringDoorbell v s else writeCons ((o - 0x100) / 0x40) v s
  | 0x0E => if p = .ranger then evoClear (bits v 7 0) s else werr s
  | 0x0F => if o = 0x20 then writeCfgCmd p v s else writeCfpCtrl v s
  | 0x10 => writeMbxCmd v s
  | _ => s

/-- A write to a RW register: the buffers and arguments of the pass-through and the mailbox. -/
def writeRw (a : Nat) (v : W32) (s : State) : State :=
  let o := a % 0x1_0000
  if a / 0x1_0000 = 0xF then
    if o = 0x44 then { s with config := { s.config with cfpAddr := v.setWidth 24 } }
    else { s with config := { s.config with cfpBuf := putBufWord ((o - 0x100) / 4) v s.config.cfpBuf } }
  else if o = 0x404 then { s with mgt := { s.mgt with mbxArg := v } }
  else { s with mgt := { s.mgt with mbxBuf := putBufWord ((o - 0x500) / 4) v s.mgt.mbxBuf } }

/-! ### Split quantities (R12) -/

/-- A path may write a quantity. -/
def mayWriteWord (s : State) (p : Path) (a : Nat) : Bool :=
  match accessAt a with
  | .loRw => true
  | .loLk _ => mayWrite s p (rangerWord a)
  | .loRo => p = .ranger && rangerOwned a
  | _ => false

/-- A whole quantity takes a value (R68, R463). -/
def putWord (a : Nat) (v : W64) (s : State) : State :=
  match accessAt a with
  | .loRw => setTb { s.tb with setValue := v } s
  | .loLk m =>
    let w := v &&& BitVec.ofNat 64 m
    if a / 0x1_0000 = 2 ∧ a % 0x80 ≠ 0x10 then writeCompare ((a % 0x1_0000 - 0x100) / 0x80) (a % 0x80 == 0x20) (w.setWidth 48) s
    else if 0x0020_0000 ≤ a ∧ a < 0x0030_0000 then setClean a (w.setWidth 48) s
    else setTab a w s
  | _ =>
    if a < 0x0400_0000 then setSram ((a - 0x0100_0000) / 8) (v.setWidth 48) s
    else { s with journal := Mem.write (fun _ => 0) s.journal ((a - 0x0400_0000) / 8) v }

/-- A whole quantity is written: reserved values are refused as a whole (R14). -/
def commitWord (a : Nat) (v : W64) (s : State) : State := if badWord a v.toNat then werr s else putWord a v s

/-- A write to _LO is held; where the path may not write the quantity it is ignored and counted. -/
def writeLo (p : Path) (a : Nat) (v : W32) (s : State) : State :=
  if mayWriteWord s p a then setHold p { getHold s p with wr := some (a, v) } s else werr s

/-- A write to _HI commits with the same quantity's held _LO, else it is ignored and counted (R12). -/
def writeHi (p : Path) (a : Nat) (v : W32) (s : State) : State :=
  match (getHold s p).wr with
  | some (lo, w) =>
    if lo + 4 = a && mayWriteWord s p lo then
      commitWord lo (v.setWidth 64 <<< 32 ||| w.setWidth 64) (setHold p { getHold s p with wr := none } s)
    else werr s
  | none => werr s

/-! ### Any location -/

/-- A 32-bit write to the hub's own device space. -/
def write32 (p : Path) (a : Nat) (v : W32) (s : State) : State :=
  match accessAt a with
  | .reserved => s
  | .ro => werr s
  | .own => writeOwn p a v s
  | .w1c m => writeW1c p a m v s
  | .lk m => writeLk p a m v s
  | .rw m => writeRw a (v &&& BitVec.ofNat 32 m) s
  | .loRo | .loLk _ | .loRw => writeLo p a v s
  | .hi => writeHi p a v s

/-- The location is the _LO of a quantity. -/
def isLo (a : Nat) : Bool := match accessAt a with | .loRo | .loLk _ | .loRw => true | _ => false

/-- SPLIT_LO_WRITE (R12). -/
def execSplitLoWrite (path : Path) (a : Nat) (v : W32) (s : State) : Host.Outcome State Fault Refusal := live s <|
  if isLo a then .next (writeLo path a v (pathWake path s)) else .next s

/-- SPLIT_HI_WRITE (R12). -/
def execSplitHiWrite (path : Path) (a : Nat) (v : W32) (s : State) : Host.Outcome State Fault Refusal := live s <|
  if accessAt a = .hi then .next (writeHi path a v (pathWake path s)) else .next s

/-- REGISTER_WRITE (R14): a 32-bit write to any location. -/
def execRegisterWrite (path : Path) (a : Nat) (v : W32) (s : State) : Host.Outcome State Fault Refusal := live s <|
  .next (write32 path a v (pathWake path s))

/-! ### The doorbell (R350) -/

/-- DOORBELL: the whole write to RNG_DB. -/
def execDoorbell (path : Path) (v : W32) (s : State) : Host.Outcome State Fault Refusal := live s <|
  .next (ringDoorbell v (pathWake path s))

/-- The ring a doorbell names is ON. -/
def doorbellOn (v : W32) (s : State) : Bool := (getRing s (bits v 6 0)).state = .on

/-- DOORBELL_FLUSH: a doorbell with FLUSH alone. -/
def execDoorbellFlush (path : Path) (v : W32) (s : State) : Host.Outcome State Fault Refusal := live s <|
  let s := pathWake path s
  .next (if doorbellOn v s then doorbellFlush v s else werr s)

/-- DOORBELL_STATUS: a doorbell with STATUS alone. -/
def execDoorbellStatus (path : Path) (v : W32) (s : State) : Host.Outcome State Fault Refusal := live s <|
  let s := pathWake path s
  .next (if doorbellOn v s then doorbellStatus v s else werr s)

end Sys2Proof.Machine
end

