-- ==== Sys2Proof/Machine/Bight.lean ====
section
/-! DEFINITION. The Bight ring of one hub: start-up, frames, time, triggers, relay, windows, breaks and sleep (R470–R488). -/

namespace Sys2Proof.Machine
open Sys2Proof

/-! ### Hops and ports -/

/-- The hop at the BGD port, and the one at the BGU port (R471). -/
def downHop (s : State) : Nat := myPos s
def upHop (s : State) : Nat := (myPos s + ringHubs s - 1) % ringHubs s

/-- BGT counters in the order of R487. -/
def bgtCnt (i : Nat) : Nat := bgtA + 0x40 + 4 * i

/-- The ring has ports at all: role 3 keeps them off (R470). -/
def hasRing (s : State) : Bool := onRing s

/-- A frame passes on out of the port opposite to the one it came in by (R475). -/
def passOn (atD : Bool) (f : BFrame) (s : State) : State := sendOut (!atD) f s

/-- A journal entry for which R461 has no TYPE: its type and its data are open values. -/
def journalOpen (s : State) : State :=
  let d := draw s
  let e := draw d.2
  journal ((Config.freeWord d.1).toNat % 256) (stampNow e.2) [Config.freeWord e.1] e.2

/-- The positions that the primary reaches (R485). -/
def reachNow (s : State) : BitVec 8 :=
  BitVec.ofNat 8 ((List.range (ringHubs s)).foldl (fun acc p => acc + b2n ((takesDown s 0 p).isSome) * 2 ^ p) 0)

/-- TB_DSTAT.ALIGNED changes, with its leaf flag (R57, R416). -/
def setAligned (v : Bool) (s : State) : State :=
  if s.tb.aligned = v then s else raise tbLeafA 3 (setTb { s.tb with aligned := v } s)

/-- A change of the direction that time comes from ends the alignment (R477). -/
def checkDirection (old s : State) : State :=
  if isSecondary s ∧ takesDown old 0 (myPos old) ≠ takesDown s 0 (myPos s) then
    setAligned false { s with bgt := { s.bgt with alignGood := 0 } }
  else s

/-! ### Breaks and repairs (R473, R485, R486) -/

/-- Admitted streams of this hub whose RELAY ring is ON. -/
def relayedStreams (s : State) : List Nat :=
  (enabledStreams s).filter (fun k => admitted s k && ringMode s (stRing s k) = 2 && (getRing s (stRing s k)).state = .on)

/-- One BIGHT fault record on each of the streams (R365). -/
def bightRecords (h : Nat) (ks : List Nat) (s : State) : State :=
  forEach ks (fun k s => formFault k 3 h 0 (short (ticks s)) s) s

/-- The records at a break of hop h; the streams that get one are kept for its repair (R486). -/
def recordBreak (h : Nat) (s : State) : State :=
  let ks := if isSecondary s then relayedStreams s else []
  bightRecords h ks { s with bgt := { s.bgt with reported := (h, ks) :: s.bgt.reported } }

/-- The port at a broken hop of this hub's own trains on; the frames that waited there take the other way (R485). -/
def dropPort (h : Nat) (s : State) : State :=
  let down := decide (h = downHop s)
  let fs := (if down then s.bgt.replayD else s.bgt.replayU).filter (fun f => f.kind ≠ 1 ∧ f.kind ≠ 9)
  let s := { s with bgt := if down then { s.bgt with dport := 1, replayD := [], failsD := 0 } else { s.bgt with uport := 1, replayU := [], failsU := 0 } }
  let s := bump (bgtCnt 4) s
  let s := sendOut (!down) (ctrlFrame s 7 ctrlBreak h []) s
  fs.foldl (fun s f => if f.kind = 8 ∧ f.dst = 7 then sendOut (!down) f s else bgtSend f s) s

/-- Hop h is broken, as this hub finds (`own`) or hears. -/
def breakHop (own : Bool) (h : Nat) (s : State) : State :=
  if !hopUp s h then s
  else
    let old := s
    let s := { s with bgt := { s.bgt with broken := h :: s.bgt.broken, rstate := 3 } }
    let s := if own then dropPort h s else s
    let s := checkDirection old s
    let s := recordBreak h s
    if isPrimary s then
      let lost := reachNow s ≠ reachNow old
      let s := { s with bgt := { s.bgt with reach := reachNow s } }
      let s := journalOpen (raise bgtFlagsA 0 s)
      if lost then raise bgtFlagsA 2 s else s
    else s

/-- Every RELAY ring tries to send again. -/
def relayAll (s : State) : State := forEach (enabledRings s) relayPending s

/-- Hop h has trained and calibrated again. -/
def repairHop (own : Bool) (h : Nat) (s : State) : State :=
  if hopUp s h then s
  else
    let old := s
    let left := s.bgt.broken.filter (· ≠ h)
    let s := { s with bgt := { s.bgt with broken := left, rstate := if left = [] then 2 else 3 } }
    let s := if own then
        let s := { s with bgt := if h = downHop s then { s.bgt with dport := 2 } else { s.bgt with uport := 2 } }
        bgtSendAll (ctrlFrame s 7 ctrlRepair h []) s
      else s
    let s := bump (bgtCnt 5) (raise bgtFlagsA 1 (checkDirection old s))
    let ks := (s.bgt.reported.filter (fun x => x.1 = h)).flatMap Prod.snd
    let s := bightRecords h ks { s with bgt := { s.bgt with reported := s.bgt.reported.filter (fun x => x.1 ≠ h) } }
    relayAll (if isPrimary s then { s with bgt := { s.bgt with reach := reachNow s } } else s)

/-- A hop at one of this hub's ports. -/
def ownHop (s : State) (h : Nat) : Bool := hasRing s && (decide (h = downHop s) || decide (h = upHop s))

/-- HOP_BREAK (R485): a lane loses block lock, or no block arrives for 10 µs, at a hop of this hub's own. -/
def execHopBreak (h : Nat) (s : State) : Host.Outcome State Fault Refusal := live s <|
  if ownHop s h then .next (breakHop true h s) else .next s

/-- The mean one-way delay of 64 round trips in 1/8 ticks, turnaround taken out; none where the two directions differ by
more than 2 ns, 0.8 tick (R476). -/
def hopDelay (trips : List Nat) (skew : Rat) (s : State) : Option (Nat × State) :=
  if trips.length ≠ 64 ∨ (4 / 5 : Rat) < skew then none
  else let r := roundFree ((trips.sum : Nat) / 128 : Rat) s; some (r.1.toNat % 65536, r.2)

/-- BGT_HOPDLYh takes a delay. -/
def setHopDelay (h d : Nat) (s : State) : State :=
  { s with bgt := { s.bgt with hopDly := Mem.write (fun _ => 0) s.bgt.hopDly h (BitVec.ofNat 16 d) } }

/-- HOP_CALIBRATION (R476): 64 round trips of hop h in 1/8 ticks, and the difference of its two directions in ticks. -/
def execHopCalibration (h : Nat) (trips : List Nat) (skew : Rat) (s : State) : Host.Outcome State Fault Refusal := live s <|
  if !hasRing s ∨ ringHubs s ≤ h ∨ trips.length ≠ 64 ∨ !hopUp s h then .next s
  else match hopDelay trips skew s with
  | some (d, s) => .next (setHopDelay h d s)
  | none => .next (breakHop (ownHop s h) h s)

/-- HOP_RETRAIN (R486): every 10 ms the ends of a broken hop train it; `trips` and `skew` are its new calibration. -/
def execHopRetrain (h : Nat) (trips : List Nat) (skew : Rat) (s : State) : Host.Outcome State Fault Refusal := live s <|
  if !ownHop s h ∨ hopUp s h then .next s
  else match hopDelay trips skew s with
  | some (d, s) => .next (repairHop true h (setHopDelay h d s))
  | none => .next s

/-! ### Retries (R475) -/

/-- A frame of the port's buffer has failed at the receiver: those before it are acknowledged, it goes out again, and a
frame that has failed RETRY_N times breaks the hop. -/
def retryFrame (down : Bool) (acked : Nat) (s : State) : State :=
  let fails := (if acked = 0 then (if down then s.bgt.failsD else s.bgt.failsU) else 0) + 1
  let s := { s with bgt :=
    if down then { s.bgt with replayD := s.bgt.replayD.drop acked, failsD := fails }
    else { s.bgt with replayU := s.bgt.replayU.drop acked, failsU := fails } }
  let s := bump (bgtCnt (if down then 3 else 1)) s
  let s := if 2 ≤ fails then raise bgtFlagsA 4 s else s
  if bits (cfgR s (bgtA + 4)) 15 12 ≤ fails then breakHop true (if down then downHop s else upHop s) s else s

/-- FRAME_RETRY (R475): at the receiver (`received`) a frame fails its CRC and is rejected; at the sender the frame
behind `acked` acknowledged ones is sent again. `down` names the port BGD. -/
def execFrameRetry (down received : Bool) (acked : Nat) (s : State) : Host.Outcome State Fault Refusal := live s <|
  if !hasRing s then .next s
  else if received then .next (bump (bgtCnt (if down then 2 else 0)) s)
  else if acked < (if down then s.bgt.replayD else s.bgt.replayU).length then .next (retryFrame down acked s)
  else .next s

/-! ### Start-up step 5 (R472, R473) -/

/-- The secondary takes no part in the ring but repeats frames, and tells the primary (R478). -/
def excludeSelf (s : State) : State :=
  if s.bgt.excl then s
  else bgtSend (ctrlFrame s 0 ctrlExclude (myPos s) []) { s with bgt := { s.bgt with excl := true } }

/-- The primary notes an excluded position (R478). -/
def noteExcluded (p : Nat) (s : State) : State :=
  if p = 0 ∨ 8 ≤ p ∨ bit s.bgt.reachExcl p then s
  else journalOpen (raise bgtFlagsA 3 { s with bgt := { s.bgt with reachExcl := s.bgt.reachExcl ||| (1#8 <<< p) } })

/-- LINK_TRAINING (R472 step 1, R473): which of the two ports trained within 2 ms, and whether this hub rejoins a ring
that has run on without it (R478). The primary then sends ENUM. -/
def execLinkTraining (dUp uUp rejoin : Bool) (s : State) : Host.Outcome State Fault Refusal := live s <|
  if !hasRing s ∨ s.phase ≠ .loaded then .next s
  else
    let s := { s with bgt := { s.bgt with state := .starting, rstate := 1, dport := 2, uport := 2, sleep := 0 } }
    let s := if dUp then s else breakHop true (downHop s) s
    let s := if uUp then s else breakHop true (upHop s) s
    let s := if rejoin && isSecondary s then excludeSelf s else s
    let e : BFrame := { kind := 9, src := 0, dst := 0, info := 0 }
    .next (if isPrimary s then (if s.bgt.broken = [] then sendOut true e s else sendOut true e (sendOut false e s)) else s)

/-- The count is known: every hub hears N and whether the hubs form a chain. -/
def ringCounted (n : Nat) (chain : Bool) (reach : BitVec 8) (s : State) : State :=
  let s := { s with bgt := { s.bgt with state := .on, hubs := n, rstate := if chain then 3 else 2, reach := reach } }
  bgtSendAll (ctrlFrame s 7 ctrlHubs (n + 16 * b2n chain) []) s

/-- The position follows its predecessor's, whichever way ENUM goes (R472, R473). -/
def enumFits (s : State) (atD : Bool) (pred : Nat) : Bool :=
  if atD then decide (myPos s + 1 = (if pred = 0 then ringHubs s else pred)) else decide (myPos s = pred + 1)

/-- ENUM (R472 step 2): a frame at a port, or none where it did not return; `reached` are then the positions that the
primary reached. -/
def execEnum (atD : Bool) (f : Option BFrame) (reached : List Nat) (s : State) : Host.Outcome State Fault Refusal := live s <|
  if !hasRing s ∨ s.phase ≠ .loaded then .next s
  else match f with
  | some f =>
    if isPrimary s then
      (if s.bgt.broken = [] ∧ !atD then .next (ringCounted (f.info.toNat % 8 + 1) false (BitVec.ofNat 8 (2 ^ (f.info.toNat % 8 + 1) - 1)) s)
      else .next s)
    else if enumFits s atD (f.info.toNat % 8) then
      .next (passOn atD { f with info := BitVec.ofNat 32 (myPos s) } { s with bgt := { s.bgt with state := .on } })
    else .next (excludeSelf s)
  | none =>
    if isPrimary s then
      let m := (0 :: reached).foldl (fun (v : BitVec 8) p => v ||| (1#8 <<< p)) 0
      .next (ringCounted s.config.hubs true m s)
    else .next s

/-! ### Time (R477, R478) -/

/-- A TIME frame as the primary sends it: the coding of its fields is a DESIGN CHOICE. -/
def timeFrame (s : State) : BFrame :=
  { kind := 1, src := 0, dst := 0, info := tbNowQ s, payload := [short (ticks s)] }

/-- The calibrated delay of the path from the primary, in 1/8 ticks. -/
def pathDelay (s : State) (down : Bool) : Nat :=
  ((if down then downHops s 0 (myPos s) else upHops s 0 (myPos s)).map (fun h => (Mem.read (fun _ => 0) s.bgt.hopDly h).toNat)).sum

/-- The loop of R50 and R51 with Δ = 0.001 s; a measurement whose interval holds T_apply is discarded (R54). -/
def ringMeasured (e : Int) (s : State) : State :=
  if s.tb.stepInInterval then setTb { s.tb with stepInInterval := false } s
  else
    let s := steerBy e (1 / 1000) none s
    let s := setTb { s.tb with err := satErr e, lastMeas := some (ticks s) } s
    loopMeasured (fun n => decide (e.natAbs ≤ 2 ^ n)) s

/-- ALIGNED follows the measurements (R477). -/
def alignMeasured (e : Int) (s : State) : State :=
  if e.natAbs ≤ 2 then
    let n := min 8 (s.bgt.alignGood + 1)
    let s := { s with bgt := { s.bgt with alignGood := n } }
    if n = 8 then setAligned true s else s
  else setAligned false { s with bgt := { s.bgt with alignGood := 0 } }

/-- A secondary's measurement of one TIME frame. -/
def timeArrived (down : Bool) (f : BFrame) (s : State) : State :=
  let q : Rat := ((ticks s - fullOf (ticks s) (f.payload.getD 0 0)).toInt : Rat) - ((f.info.toNat / 16 + pathDelay s down : Nat) : Rat) / 8
  let r := roundFree q s
  let e := r.1
  let s := r.2
  let first := !s.bgt.measured
  let s := { s with bgt := { s.bgt with measured := true, lastTime := some (ticks s), ofs := satErr e, dirDown := down, primaryHold := bits f.info 3 2 = 3 } }
  let s := if first ∧ 400000 < e.natAbs then excludeSelf s else s
  let s := alignMeasured e (ringMeasured e s)
  if s.bgt.primaryHold then setLoop .holdover s else s

/-- TIME_FRAME (R477). The primary sends one both ways. A secondary passes a frame on with `res` eighths of a tick of
residence added, and measures the copy that came over fewer hops. -/
def execTimeFrame (atD : Bool) (f : BFrame) (res : Nat) (s : State) : Host.Outcome State Fault Refusal := live s <|
  if !hasRing s ∨ s.bgt.sleep = 1 ∨ !fastRuns s then .next s
  else if isPrimary s then .next (bgtSendAll (timeFrame s) s)
  else
    let s' := passOn atD { f with info := f.info + BitVec.ofNat 32 (16 * res) } s
    .next (if takesDown s 0 (myPos s) = some (!atD) then timeArrived (!atD) f s' else s')

/-- ALIGNMENT_TIMEOUT (R472 step 5, R478): `late` are the positions that the primary knows not aligned. -/
def execAlignmentTimeout (late : List Nat) (s : State) : Host.Outcome State Fault Refusal := live s <|
  if !hasRing s ∨ s.phase ≠ .loaded then .next s
  else if isPrimary s then .next (forEach late noteExcluded s)
  else if s.tb.aligned then .next s
  else .next (excludeSelf s)

/-! ### Broadcast triggers (R479, R480) -/

/-- A trigger acts at this hub (R480). -/
def takeTrigger (b : BTrig) (s : State) : State :=
  let s := bump (bgtCnt 7) { s with bgt := { s.bgt with trigLog := b, seen := b :: s.bgt.seen } }
  if bit (cfgR s (bgtA + 4)) b.chan then countSource 13 none (icuLatch 122 s) else s

/-- TRIGGER_ORIGIN (R479): the oldest source event that has a trigger to send; three copies leave both ports. In S2
and S3 it is not sent (R480). -/
def execTriggerOrigin (s : State) : Host.Outcome State Fault Refusal := live s <|
  match s.bgt.trigDue with
  | b :: rest =>
    if s.power.cur = .s2 ∨ s.power.cur = .s3 then .next { s with bgt := { s.bgt with trigDue := rest } }
    else .next (bump (bgtCnt 6) (takeTrigger b { s with bgt := { s.bgt with trigDue := rest, trigTx := [b, b, b] } }))
  | [] => .next s

/-- BROADCAST_TRIGGER (R480): a copy that arrives, with its CRC-8 right or not. -/
def execBroadcastTrigger (b : BTrig) (good : Bool) (s : State) : Host.Outcome State Fault Refusal := live s <|
  if !hasRing s ∨ !good ∨ s.bgt.seen.contains b then .next s
  else .next (takeTrigger b { s with bgt := { s.bgt with trigTx := [b, b, b] } })

/-! ### Relay (R481) -/

/-- The primary's record of a relayed one: its words as they came. -/
def relayedRec (src r : Nat) (idx : W32) (ws : List W48) : Record :=
  { payload := ws, relayed := some { pos := src, ring := r, idx := idx } }

/-- A fragment at the primary; with the last one the record enters the destination ring. -/
def takeRelay (f : BFrame) (s : State) : State :=
  let r := bits f.info 31 25
  let d := bits f.info 24 18
  let key := 128 * f.src + r
  let s := bump (bgtCnt 9) s
  let ws := (if bit f.info 17 then [] else Mem.read (fun _ => []) s.bgt.assembly key) ++ f.payload
  if !bit f.info 16 then { s with bgt := { s.bgt with assembly := Mem.write (fun _ => []) s.bgt.assembly key ws } }
  else
    let n := BitVec.ofNat 32 ws.length
    let idx := Mem.read (fun _ => 0) s.bgt.taken key + n
    let ck := 128 * f.src + d
    let s := { s with bgt :=
      { s.bgt with
        assembly := Mem.write (fun _ => []) s.bgt.assembly key []
        taken := Mem.write (fun _ => 0) s.bgt.taken key idx
        creditUsed := Mem.write (fun _ => 0) s.bgt.creditUsed ck (Mem.read (fun _ => 0) s.bgt.creditUsed ck + n) } }
    makeReady d (relayedRec f.src r idx ws) s

/-- A frame for this hub is taken by `take`, another passes on. -/
def forMe (atD : Bool) (f : BFrame) (kind : Nat) (take : State → State) (s : State) : Host.Outcome State Fault Refusal := live s <|
  if !hasRing s ∨ f.kind ≠ kind then .next s
  else if f.dst = myPos s then .next (take s)
  else .next (passOn atD f s)

/-- RELAY (R481). -/
def execRelay (atD : Bool) (f : BFrame) (s : State) : Host.Outcome State Fault Refusal :=
  forMe atD f 2 (fun s => if isPrimary s then takeRelay f s else s) s

/-- The primary grants a secondary a new running total for a destination ring, within its room. -/
def grantCredit (f : BFrame) (s : State) : State :=
  let r := (f.payload.getD 0 0).toNat % 128
  let key := 128 * f.dst + r
  let more := f.info - Mem.read (fun _ => 0) s.bgt.credit key
  if (getRing s r).state = .on && fits s r more.toNat && decide (more ≠ 0) then
    bgtSend { f with kind := 3, src := 0 } { s with bgt := { s.bgt with credit := Mem.write (fun _ => 0) s.bgt.credit key f.info } }
  else s

/-- A secondary's credit takes the total, and what waited for it goes out. -/
def takeCredit (f : BFrame) (s : State) : State :=
  let r := (f.payload.getD 0 0).toNat % 128
  relayAll { s with bgt := { s.bgt with credit := Mem.write (fun _ => 0) s.bgt.credit (128 * myPos s + r) f.info } }

/-- CREDIT (R481): at the primary the grant it makes; at a secondary the frame that arrives. The destination ring stands
in the payload: a DESIGN CHOICE. -/
def execCredit (atD : Bool) (f : BFrame) (s : State) : Host.Outcome State Fault Refusal :=
  if isPrimary s then live s (.next (grantCredit f s)) else forMe atD f 3 (takeCredit f) s

/-- Records up to an index are confirmed, at most n of them. -/
def confirmTo (r : Nat) (idx : W32) : Nat → State → State
  | 0, s => s
  | n + 1, s =>
    match (getRing s r).inflight with
    | f :: _ =>
      if f.sent ∧ f.endIdx - (getRing s r).prod ≤ idx - (getRing s r).prod then confirmTo r idx n (confirmOldest r s) else s
    | [] => s

/-- The primary's CONFIRM for a RELAY ring: every delivery since the last one. -/
def sendConfirm (f : BFrame) (s : State) : State :=
  let r := (f.payload.getD 0 0).toNat % 128
  let key := 128 * f.dst + r
  match Mem.read (fun _ => none) s.bgt.relayIdx key with
  | some idx =>
    bgtSend { kind := 4, src := 0, dst := f.dst, info := idx, payload := [BitVec.ofNat 48 r] }
      { s with bgt := { s.bgt with relayIdx := Mem.write (fun _ => none) s.bgt.relayIdx key none } }
  | none => s

/-- A CONFIRM at its secondary sets RNGr_PROD (R344). -/
def takeConfirm (f : BFrame) (s : State) : State :=
  let r := (f.payload.getD 0 0).toNat % 128
  if ringMode s r = 2 then confirmTo r f.info (getRing s r).inflight.length s else s

/-- CONFIRM (R481): at the primary the frame it sends for a RELAY ring; at a secondary the one that arrives. -/
def execConfirm (atD : Bool) (f : BFrame) (s : State) : Host.Outcome State Fault Refusal :=
  if isPrimary s then live s (.next (sendConfirm f s)) else forMe atD f 4 (takeConfirm f) s

/-! ### Windows (R381, R482) -/

/-- The code of a path in a REGREQ: a DESIGN CHOICE. -/
def pathCode (p : Path) : Nat := match p with | .pcie => 0 | .hsp => 1 | .twt => 2 | .ranger => 3
def pathOfCode (n : Nat) : Path := match n with | 0 => .pcie | 1 => .hsp | 2 => .twt | _ => .ranger

/-- A REGREQ: [31] write, [30:29] path; address and data in the payload. A DESIGN CHOICE. -/
def regReq (p : Path) (n a : Nat) (write : Bool) (v : W32) : BFrame :=
  { kind := 5, src := 0, dst := n, info := BitVec.ofNat 32 (b2n write * 2 ^ 31 + pathCode p * 2 ^ 29), payload := [BitVec.ofNat 48 a, v.setWidth 48] }

/-- An access to a window that cannot be made: WINLOST and WINF. -/
def windowLost (s : State) : State := raise bgtFlagsA 5 (bump (bgtCnt 8) s)

/-- The position has a window: on the primary, below N (R381). -/
def hasWindow (s : State) (n : Nat) : Bool := isPrimary s && decide (n < ringHubs s)

/-- A read through the window of position n; no value where a REGRSP is to bring it. -/
def windowRead (p : Path) (n a : Nat) (s : State) : Option W32 × State :=
  if !hasWindow s n then (some 0, s)
  else if (takesDown s 0 n).isNone then (some 0, windowLost s)
  else
    (none, bgtSend (regReq p n a false 0)
      { s with bgt := { s.bgt with waiting := s.bgt.waiting ++ [{ path := p, target := n, addr := a, since := ticks s }] } })

/-- A write through the window of position n. -/
def windowWrite (p : Path) (n a : Nat) (v : W32) (s : State) : State :=
  if !hasWindow s n then s
  else if (takesDown s 0 n).isNone then windowLost s
  else bgtSend (regReq p n a true v) s

/-- A 32-bit read at an address of BAR0: the hub's own space, or a window. -/
def busRead (p : Path) (a : Nat) (s : State) : Option W32 × State :=
  if a / 0x0800_0000 = 0 then let r := read32 p a s; (some r.1, r.2) else windowRead p (a / 0x0800_0000) (a % 0x0800_0000) s

/-- A 32-bit write at an address of BAR0. -/
def busWrite (p : Path) (a : Nat) (v : W32) (s : State) : State :=
  if a / 0x0800_0000 = 0 then write32 p a v s else windowWrite p (a / 0x0800_0000) (a % 0x0800_0000) v s

/-- The access of a REGREQ at its target, with the answer to a read. It wakes the target (R421, R482). -/
def serveReq (f : BFrame) (s : State) : State :=
  let s := requestWake 10 s
  let p := pathOfCode (bits f.info 30 29)
  let a := (f.payload.getD 0 0).toNat
  if bit f.info 31 then write32 p a ((f.payload.getD 1 0).setWidth 32) s
  else
    let r := read32 p a s
    bgtSend { kind := 6, src := myPos s, dst := f.src, info := r.1 } r.2

/-- REGREQ (R482). -/
def execRegreq (atD : Bool) (f : BFrame) (s : State) : Host.Outcome State Fault Refusal := forMe atD f 5 (serveReq f) s

/-- The value of a read replaces the top of Ranger's stack, and Ranger goes on. -/
def rangerGoes (v : W48) (s : State) : State :=
  let pr := procOf s rangerP
  let s := setProc rangerP { pr with stack := v :: pr.stack.drop 1 } s
  { s with mgt := { s.mgt with asked := 0 } }

/-- A 48-bit word from its halves. -/
def joinWord (lo hi : W32) : W48 := hi.setWidth 48 <<< 32 ||| lo.setWidth 48

/-- A secondary's word reaches Ranger: RD32 ends; RD48 asks for the upper half after the lower (R453, R482). -/
def rangerAnswer (q : BReq) (v : W32) (s : State) : State :=
  match s.mgt.asked with
  | 1 => rangerGoes (v.setWidth 48) s
  | 2 =>
    let r := windowRead .ranger q.target (q.addr + 4) { s with mgt := { s.mgt with asked := 3, askLo := v } }
    match r.1 with
    | some h => rangerGoes (joinWord v h) r.2
    | none => r.2
  | 3 => rangerGoes (joinWord s.mgt.askLo v) s
  | _ => s

/-- An access that waited ends with a value: to Ranger, or as a completion of the PCI Express port. A frame of the HSP
that asked is over. -/
def endWait (q : BReq) (v : W32) (s : State) : State :=
  let s := { s with bgt := { s.bgt with waiting := s.bgt.waiting.erase q } }
  match q.path with
  | .ranger => rangerAnswer q v s
  | .pcie => { s with answer := [0, v.setWidth 64] }
  | _ => s

/-- REGRSP (R482): the oldest access to the answering position ends. -/
def execRegrsp (atD : Bool) (f : BFrame) (s : State) : Host.Outcome State Fault Refusal :=
  forMe atD f 6 (fun s =>
    match s.bgt.waiting.find? (fun q => q.target = f.src) with
    | some q => endWait q f.info s
    | none => s) s

/-- WINDOW_TIMEOUT (R482): 2 ms have passed for the oldest access. -/
def execWindowTimeout (s : State) : Host.Outcome State Fault Refusal := live s <|
  match s.bgt.waiting with
  | q :: _ => if reached s (q.since + 800000) then .next (endWait q 0 (windowLost s)) else .next s
  | [] => .next s

/-! ### Causes and control (R412, R413, R484) -/

/-- CAUSE (R412): SECn takes the forwarded level. -/
def execCause (atD : Bool) (f : BFrame) (s : State) : Host.Outcome State Fault Refusal :=
  forMe atD f 7 (fun s =>
    if isPrimary s ∧ 1 ≤ f.src ∧ f.src < 8 then
      let m : W32 := 1#32 <<< f.src
      { s with bgt := { s.bgt with secs := if bit f.info 0 then s.bgt.secs ||| m else s.bgt.secs &&& ~~~m } }
    else s) s

/-- A step that the primary carries: the same value at the same T_apply (R52, R484). -/
def takeStep (f : BFrame) (s : State) : State :=
  let w := fun i => (f.payload.getD i 0).setWidth 64
  let v : W64 := w 1 <<< 48 ||| w 0
  let t : W64 := w 3 <<< 48 ||| w 2
  setTb { s.tb with step := some { relative := bit f.info 0, value := v, tApply := t } } s

/-- The ports enter electrical idle (R483). -/
def releaseRing (s : State) : State := { s with bgt := { s.bgt with sleep := 1, dport := 3, uport := 3 } }

/-- What a CTRL frame does at a hub it names. -/
def takeCtrl (f : BFrame) (s : State) : State :=
  let arg := bits f.info 27 0
  match bits f.info 31 28 with
  | 1 =>
    if s.phase = .running then
      let s := requestWake 10 s
      reloadWhenReady { s with config := { s.config with reloadDue := true } }
    else s
  | 2 => takeStep f s
  | 3 => breakHop false arg s
  | 4 => { s with bgt := { s.bgt with choices := Mem.write (fun _ => 0) s.bgt.choices f.src (arg % 4) } }
  | 6 => releaseRing s
  | 7 => repairHop false arg s
  | 8 => { s with bgt := { s.bgt with hubs := arg % 16, rstate := if 16 ≤ arg then 3 else 2, state := .on } }
  | 9 => noteExcluded f.src s
  | _ => s

/-- CTRL (R484, R485): a frame for every hub acts here and passes on, until it is back at its sender. -/
def execCtrl (atD : Bool) (f : BFrame) (s : State) : Host.Outcome State Fault Refusal := live s <|
  if !hasRing s ∨ f.kind ≠ 8 ∨ f.src = myPos s then .next s
  else if f.dst = 7 then .next (takeCtrl f (passOn atD f s))
  else if f.dst = myPos s then .next (takeCtrl f s)
  else .next (passOn atD f s)

/-! ### Sleep (R483) -/

/-- A hub tells the primary a changed choice. -/
def reportChoice (s : State) : State :=
  let c := pcode (choiceForRing s)
  if !isSecondary s ∨ s.bgt.sleep = 1 ∨ Mem.read (fun _ => 0) s.bgt.choices (myPos s) = c then s
  else
    bgtSend (ctrlFrame s 0 ctrlChoice c [])
      { s with bgt := { s.bgt with choices := Mem.write (fun _ => 0) s.bgt.choices (myPos s) c } }

/-- Every hub that is present and not excluded chooses S2 or S3. -/
def allChoose (s : State) : Bool :=
  decide (2 ≤ pcode (choiceForRing s)) &&
  (List.range (ringHubs s)).all (fun p =>
    p = 0 || !bit s.bgt.reach p || bit s.bgt.reachExcl p || decide (2 ≤ Mem.read (fun _ => 0) s.bgt.choices p))

/-- RING_RELEASE (R483): the primary releases the ring; a secondary reports a changed choice. -/
def execRingRelease (s : State) : Host.Outcome State Fault Refusal := live s <|
  if isPrimary s ∧ s.bgt.sleep = 0 ∧ allChoose s then .next (releaseRing (bgtSendAll (ctrlFrame s 7 ctrlRelease 0 []) s))
  else .next (reportChoice s)

/-- RING_WAKE (R483): a neighbour ends electrical idle; the hub wakes, and its ports train. -/
def execRingWake (s : State) : Host.Outcome State Fault Refusal := live s <|
  if !hasRing s ∨ s.bgt.sleep ≠ 1 then .next s
  else if s.power.cur = .s0 then .next (wakeRing s)
  else .next (requestWake 10 { s with bgt := { s.bgt with sleep := 2, dport := 1, uport := 1 } })

end Sys2Proof.Machine
end

