-- ==== Sys2Proof/Machine/PciPort.lean ====
section
/-! DEFINITION. The PCI Express port: the link and its booking, configuration space, requests to BAR0, link power
(R374, R376–R385). -/

namespace Sys2Proof.Machine
open Sys2Proof

/-! ### The link and its booking (R385) -/

/-- The port can carry traffic. -/
def linkUp (s : State) : Bool := s.hl.linkGen ≠ 0 && decide (s.hl.lpm ≤ 3) && !s.hl.perst

/-- The link is up and not below its booking. -/
def linkAsBooked (s : State) : Bool :=
  linkUp s && decide (s.adm.linkGen ≤ s.hl.linkGen) && decide (s.adm.linkW ≤ s.hl.linkW)

/-- The booking holds again: as booked, in D0, with Bus Master Enable. -/
def linkGood (s : State) : Bool := linkAsBooked s && s.hl.bme && !s.hl.d3

/-- What a LINK record says of the link (R365, R385). -/
def linkCode (s : State) : Nat :=
  if linkUp s && s.hl.bme && !s.hl.d3 then s.hl.linkW * 4 + s.hl.linkGen else 0

/-- The fault record that the primary writes on a relayed stream. -/
def relayedFault (k code : Nat) (s : State) : Record :=
  { faultRec s k 4 0 code (short (ticks s)) with relayed := some { pos := 0, ring := 0, idx := 0 } }

/-- One LINK fault record on every admitted stream of a MIRROR ring in STATE ON, relayed ones included. -/
def linkRecords (s : State) : State :=
  let code := linkCode s
  let on := fun r => ringMode s r = 1 && (getRing s r).state = .on
  let s := forEach ((enabledStreams s).filter (fun k => admitted s k && on (stRing s k)))
    (fun k s => formFault k 4 0 code (short (ticks s)) s) s
  (s.adm.relayed.filter (fun x => on x.1)).foldl (fun s x => keepRec x.1 (relayedFault x.2 code s) s) s

/-- HL_FLAGS. -/
def hlFlagsA : Nat := hlA + 0x08

/-- The first cycle of a failure. -/
def linkFails (s : State) : State :=
  let s := linkRecords { s with hl := { s.hl with failing := true } }
  if linkUp s && s.hl.bme && !s.hl.d3 then bump (hlA + 0x44) (raise hlFlagsA 1 s)
  else bump (hlA + 0x40) (raise hlFlagsA 0 s)

/-- What staged MIRROR records wait for has come: they go out. -/
def dmaAll (s : State) : State := forEach (enabledRings s) dmaPending s

/-- A change of the link or the function is one of R385's happenings. -/
def linkHappens (old s : State) : Bool :=
  (linkAsBooked old && !linkAsBooked s) || (old.hl.bme && !s.hl.bme) || (!old.hl.d3 && s.hl.d3)

/-- Writes on the wire are lost with the link: whatever is not confirmed goes out again (R401). -/
def loseWrites (s : State) : State :=
  forEach (enabledRings s) (fun r s =>
    if ringMode s r = 1 then setRing r { getRing s r with inflight := (getRing s r).inflight.map (fun f => { f with sent := false }) } s
    else s) s

/-- What follows a change of the link or of the function's state: the booking, the held MSI, INTx and the staged records. -/
def linkFollow (old s : State) : State :=
  let s := if linkUp old && !linkUp s then loseWrites s else s
  let s :=
    if s.adm.linkGen = 0 then s
    else if s.hl.failing then
      (if linkGood s then linkRecords { s with hl := { s.hl with failing := false } } else s)
    else if linkHappens old s then linkFails s else s
  let s := if s.hl.msiHeld && s.hl.bme && linkUp s then
      let s := { s with hl := { s.hl with msiHeld := false } }
      if sysSummary s ≠ 0 then msiDue s else s
    else s
  dmaAll (intxFollow s)

/-- The link as it trains, retrains or goes down: generation, width and power state; with generation 0 it is down. -/
def setLink (gen w lpm : Nat) (s : State) : State :=
  if gen = 0 ∨ 4 ≤ lpm then { s with hl := { s.hl with linkGen := 0, linkW := 0, lpm := 4, inta := false, held := [] } }
  else { s with hl := { s.hl with linkGen := gen, linkW := w, lpm := lpm } }

/-- A link state the port can have: codes of R335, no substate while CLKREQ_N is held (R376, R383). A secondary's link
does not train (R374), and none trains under PERST_N. -/
def linkPossible (gen w lpm : Nat) (s : State) : Bool :=
  !isSecondary s && decide (gen ≤ 3 ∧ w ≤ 4 ∧ lpm ≤ 4) && (decide (gen = 0) || (decide (w ≠ 0) && !s.hl.perst)) &&
  (decide (lpm < 2 ∨ lpm = 4) || !clkReq s)

/-- The port follows the link. -/
def linkBecomes (gen w lpm : Nat) (s : State) : State := linkFollow s (setLink gen w lpm s)

/-- LINK_FAILURE (R385): the change makes the link fail its booking. -/
def execLinkFailure (gen w lpm : Nat) (s : State) : Host.Outcome State Fault Refusal := live s <|
  let t := linkBecomes gen w lpm s
  .next (if linkPossible gen w lpm s && t.hl.failing then t else s)

/-- LINK_RECOVERY (R385): the change ends a failure. -/
def execLinkRecovery (gen w lpm : Nat) (s : State) : Host.Outcome State Fault Refusal := live s <|
  let t := linkBecomes gen w lpm s
  .next (if linkPossible gen w lpm s && s.hl.failing && !t.hl.failing then t else s)

/-- PCIE_LINK_CHANGE (R385): any other change. -/
def execPcieLinkChange (gen w lpm : Nat) (s : State) : Host.Outcome State Fault Refusal := live s <|
  .next (if linkPossible gen w lpm s then linkBecomes gen w lpm s else s)

/-- ASPM_L1_ENTRY (R383): 64 µs without a MIRROR record staged or an MSI due. -/
def execAspmL1Entry (s : State) : Host.Outcome State Fault Refusal := live s <|
  if s.hl.aspm && linkUp s && decide (s.hl.lpm = 0) && reached s (s.hl.busyAt + 25600) then
    .next { s with hl := { s.hl with lpm := 1 } }
  else .next s

/-- The PCI Express core and its configuration space at reset (R377). PME_En and PME_Status survive, as R384 needs them
in D3cold. -/
def resetPort (s : State) : State :=
  { s with hl :=
    { s.hl with
      linkGen := 0, linkW := 0, lpm := 4, bme := false, msiEn := false, intDis := false, d3 := false, space := [],
      aspm := false, msiHeld := false, inta := false, held := [] } }

/-- PERST_N (R377): it asserts (`low`), a Hot Reset or Link Disable comes (`hot`), or PERST_N is released. -/
def execPerstN (low hot : Bool) (s : State) : Host.Outcome State Fault Refusal := live s <|
  if low then
    let t := resetPort s
    .next (linkFollow s { t with hl := { t.hl with perst := true, hostWake := false } })
  else if hot then .next (linkFollow s (resetPort s))
  else .next { s with hl := { s.hl with perst := false } }

/-! ### Configuration space (R378–R380, R384)

Offsets and bit places within the standard structures are those of the PCI specifications: PRESUMED. -/

/-- A word that software writes and that has no behaviour of its own. -/
def spaceWord (s : State) (off : Nat) : W32 := Mem.read (fun _ => 0) s.hl.space off

/-- Writable bits of configuration space words without behaviour of their own. -/
def spaceMask (off : Nat) : W32 :=
  match off with
  | 0x04 => 0x0000_0142
  | 0x0C => 0x0000_00FF
  | 0x10 => 0xC000_0000
  | 0x14 => 0xFFFF_FFFF
  | 0x3C => 0x0000_00FF
  | 0x54 => 0xFFFF_FFFC
  | 0x58 => 0xFFFF_FFFF
  | 0x5C => 0x0000_FFFF
  | 0x78 => 0x0000_FDEF
  | 0x80 => 0x0000_01CB
  | 0x98 => 0x0000_0400
  | 0x108 | 0x10C | 0x114 => 0xFFFF_FFFF
  | 0x118 => 0x0000_0140
  | 0x144 => 0x1FFF_1FFF
  | 0x158 => 0xE3FF_FFFF
  | 0x15C => 0x0000_00FB
  | _ => 0

/-- A configuration space word. What the spec and the standard leave to the device, and no rule states, is a free value. -/
def spaceRead (s : State) (off : Nat) : W32 :=
  match off with
  | 0x00 => 0x4896_1EC7
  | 0x04 => spaceWord s 0x04 ||| reg [(1, 20), (b2n (!s.hl.msiEn && intLow s), 19), (b2n s.hl.intDis, 10), (b2n s.hl.bme, 2)]
  | 0x08 => 0x1180_00A1
  | 0x0C | 0x14 | 0x54 | 0x58 | 0x5C => spaceWord s off
  | 0x10 => spaceWord s 0x10 ||| 0x4
  | 0x18 | 0x1C | 0x20 | 0x24 | 0x28 | 0x30 | 0x38 => 0
  | 0x2C => cfgR s (hlA + 0x14)
  | 0x34 => 0x40
  | 0x3C => spaceWord s 0x3C ||| 0x100
  | 0x40 => 0xC003_5001
  | 0x44 => reg [(b2n s.hl.pmeStatus, 15), (b2n s.hl.pmeEn, 8), (1, 3), (if s.hl.d3 then 3 else 0, 0)]
  | 0x50 => reg [(1, 23), (b2n s.hl.msiEn, 16), (0x70, 8), (0x05, 0)]
  | 0x70 => 0x0002_0010
  | 0x74 => ((Config.innerWord 0x1_0000_0074 0).setWidth 32 &&& 0xFFFF_FFD8) ||| 0x22
  | 0x7C => 0x0005_0883
  | 0x80 => spaceWord s 0x80 ||| reg [(if s.hl.linkW = 0 then 0 else 2 ^ (s.hl.linkW - 1), 20), (s.hl.linkGen, 16), (b2n s.hl.aspm * 2, 0)]
  | 0x100 => 0x1402_0001
  | 0x104 => spaceWord s 0x104
  | 0x118 => spaceWord s 0x118 ||| 0xA0
  | 0x140 => 0x1501_0018
  | 0x144 => spaceWord s 0x144
  | 0x150 => 0x0001_001E
  | 0x158 => spaceWord s 0x158
  | 0x15C => spaceWord s 0x15C
  | _ =>
    if off < 0x40 then 0
    else spaceWord s off ||| ((Config.innerWord (0x1_0000_0000 + off) 0).setWidth 32 &&& ~~~(spaceMask off))

/-- The enabled bytes of a value. -/
def byteMask (be : BitVec 4) : W32 :=
  BitVec.ofNat 32 ((List.range 4).foldl (fun acc i => acc + b2n (bit be i) * (255 * 2 ^ (8 * i))) 0)

/-- A word without behaviour of its own takes the writable bits of the enabled bytes. -/
def putSpace (off : Nat) (m v : W32) (s : State) : State :=
  let w := m &&& spaceMask off
  { s with hl := { s.hl with space := Mem.write (fun _ => 0) s.hl.space off ((spaceWord s off &&& ~~~w) ||| (v &&& w)) } }

/-- The AER status bits are cleared by ones. -/
def clearSpace (off : Nat) (v : W32) (s : State) : State :=
  { s with hl := { s.hl with space := Mem.write (fun _ => 0) s.hl.space off (spaceWord s off &&& ~~~v) } }

/-- A field of Bool kind in a written word: its new value where its byte is enabled. -/
def writtenBit (m v : W32) (i : Nat) (old : Bool) : Bool := if bit m i then bit v i else old

/-- PMCSR (R379, R384): D0 and D3hot are supported, another state is not taken; PME_Status is cleared by a one, and
HOST_WAKE_N released with it. -/
def putPmcsr (m v : W32) (s : State) : State :=
  let d := bits v 1 0
  let clr := bit m 15 && bit v 15
  { s with hl :=
    { s.hl with
      d3 := if bit m 0 then (if d = 3 then true else if d = 0 then false else s.hl.d3) else s.hl.d3
      pmeEn := writtenBit m v 8 s.hl.pmeEn
      pmeStatus := s.hl.pmeStatus && !clr
      hostWake := s.hl.hostWake && !clr } }

/-- A configuration write: `m` masks the enabled bytes. -/
def spaceWrite (off : Nat) (m v : W32) (s : State) : State :=
  let s := putSpace off m v s
  match off with
  | 0x04 => { s with hl := { s.hl with bme := writtenBit m v 2 s.hl.bme, intDis := writtenBit m v 10 s.hl.intDis } }
  | 0x44 => putPmcsr m v s
  | 0x50 => { s with hl := { s.hl with msiEn := writtenBit m v 16 s.hl.msiEn } }
  | 0x80 => { s with hl := { s.hl with aspm := writtenBit m v 1 s.hl.aspm } }
  | 0x104 | 0x110 => clearSpace off (v &&& m) s
  | _ => s

/-! Completion status, the first entry of `answer` after a request: the PCI specification's codes. -/

def complSuccess : W64 := 0
def complUnsupported : W64 := 1
def complRetry : W64 := 2

/-- CONFIGURATION_REQUEST (R380): a read, or a write, of one word; retry status until the HOST section is applied. -/
def execConfigurationRequest (write : Bool) (off : Nat) (v : W32) (be : BitVec 4) (s : State) : Host.Outcome State Fault Refusal := live s <|
  if !linkUp s then .next s
  else if !s.config.firstDone then .next { s with answer := [complRetry] }
  else
    let old := s
    let s := { s with hl := { s.hl with lpm := 0 } }
    let off := off / 4 * 4 % 4096
    if write then .next (linkFollow old (spaceWrite off (byteMask be) v { s with answer := [complSuccess] }))
    else .next { s with answer := [complSuccess, (spaceRead s off).setWidth 64] }

/-! ### Requests to BAR0 (R381) -/

/-- An Unsupported Request: HL_UR counts it, and AER notes it. -/
def unsupported (s : State) : State :=
  let s := bump (hlA + 0x4C) s
  { s with
    answer := [complUnsupported]
    hl := { s.hl with space := Mem.write (fun _ => 0) s.hl.space 0x104 (spaceWord s 0x104 ||| 0x0010_0000) } }

/-- UNSUPPORTED_REQUEST (R381): longer than 16 DW, I/O, Type 1, or outside BAR0. -/
def execUnsupportedRequest (s : State) : Host.Outcome State Fault Refusal := live s <|
  .next (if linkUp s then unsupported { s with hl := { s.hl with lpm := 0 } } else s)

/-- A memory request of n DW at an offset in BAR0 has a form that is served. -/
def requestServed (s : State) (addr n : Nat) : Bool :=
  decide (1 ≤ n ∧ n ≤ 16 ∧ addr % 4 = 0 ∧ addr + 4 * n ≤ 0x4000_0000) && !s.hl.d3

/-- Each DW of a read is one 32-bit access, in ascending address; the enabled bytes are returned. A DW of a secondary's
window comes later, with its REGRSP (R482). -/
def readDws : Nat → List (BitVec 4) → List W64 → State → List W64 × State
  | _, [], acc, s => (acc, s)
  | a, be :: l, acc, s =>
    let r := busRead .pcie a s
    readDws (a + 4) l (match r.1 with | some v => acc ++ [(v &&& byteMask be).setWidth 64] | none => acc) r.2

/-- A read's completion. -/
def serveRead (addr : Nat) (enables : List (BitVec 4)) (s : State) : State :=
  let r := readDws addr enables [] s
  { r.2 with answer := complSuccess :: r.1 }

/-- Each DW of a write is one 32-bit access; one without all its byte enables is ignored and counted. -/
def serveWrite : Nat → List (W32 × BitVec 4) → State → State
  | _, [], s => s
  | a, (v, be) :: l, s => serveWrite (a + 4) l (if be = 0xF then busWrite .pcie a v s else werr s)

/-- A request that came in sleep, or is served now. -/
def serveHeld (q : HeldReq) (s : State) : State :=
  match q with
  | .read addr enables found => serveRead addr enables (memFound addr found s)
  | .write addr words => serveWrite addr words s

/-- In S0 a request is served; in sleep it waits, and is a wake source. -/
def takeRequest (q : HeldReq) (s : State) : State :=
  let s := requestWake 7 { s with hl := { s.hl with lpm := 0 } }
  if s.power.cur = .s0 then serveHeld q s else { s with hl := { s.hl with held := s.hl.held ++ [q] } }

/-- The host has enabled ECRC checking (R374, R379). -/
def ecrcChecked (s : State) : Bool := bit (spaceWord s 0x118) 8

/-- A request whose ECRC fails: ECRCF and HL_ECRCERR (R402, R403). That it is discarded is the PCI specification's: PRESUMED. -/
def ecrcError (s : State) : State :=
  let s := bump (hlA + 0x48) (raise hlFlagsA 2 s)
  { s with hl := { s.hl with space := Mem.write (fun _ => 0) s.hl.space 0x104 (spaceWord s 0x104 ||| 0x0008_0000) } }

/-- MEMORY_READ (R381): an offset in BAR0, the byte enables of each DW, what the check of a memory word at that offset
finds, and whether the request's ECRC is wrong. -/
def execMemoryRead (addr : Nat) (enables : List (BitVec 4)) (found : Ecc) (ecrcBad : Bool) (s : State) : Host.Outcome State Fault Refusal := live s <|
  if !linkUp s then .next s
  else if ecrcBad && ecrcChecked s then .next (ecrcError s)
  else if requestServed s addr enables.length then .next (takeRequest (.read addr enables found) s)
  else .next (unsupported { s with hl := { s.hl with lpm := 0 } })

/-- A poisoned write is discarded and reported through AER; HL_UR counts it. -/
def poisonedWrite (s : State) : State :=
  let s := bump (hlA + 0x4C) (requestWake 7 s)
  { s with hl := { s.hl with lpm := 0, space := Mem.write (fun _ => 0) s.hl.space 0x104 (spaceWord s 0x104 ||| 0x0000_1000) } }

/-- MEMORY_WRITE (R381): an offset in BAR0, each DW with its byte enables, whether the request is poisoned, and
whether its ECRC is wrong. -/
def execMemoryWrite (addr : Nat) (words : List (W32 × BitVec 4)) (poisoned ecrcBad : Bool) (s : State) : Host.Outcome State Fault Refusal := live s <|
  if !linkUp s then .next s
  else if ecrcBad && ecrcChecked s then .next (ecrcError s)
  else if !requestServed s addr words.length then .next (unsupported { s with hl := { s.hl with lpm := 0 } })
  else if poisoned then .next (poisonedWrite s)
  else .next (takeRequest (.write addr words) s)

end Sys2Proof.Machine
end

