-- ==== Sys2Proof/Machine/SmallPorts.lean ====
section
/-! DEFINITION. The host serial port and the two-wire target port, and the wake that lets waiting accesses through
(R375, R386–R400, R422). -/

namespace Sys2Proof.Machine
open Sys2Proof

/-! ### The host serial port (R386–R393) -/

/-- A flag of HSP_ERR, with HSPF (R403). -/
def hspErr (i : Nat) (s : State) : State := raise hlFlagsA 3 (raise (hlA + 0x18) i s)

/-- HSP_EN (R375). -/
def hspOn (s : State) : Bool := bit (cfgR s (hlA + 4)) 1

/-- The status byte (R388). -/
def hspStatus (s : State) : W64 :=
  BitVec.ofNat 64 (128 * b2n (s.power.cur = .s0) + 64 * b2n (intLow s) + 32 * b2n (flagR s (hlA + 0x18) ≠ 0) +
    16 * b2n s.config.defaults + 10)

/-- The check of the count of edges when HSP_CS_N rises (R393). -/
def hspEdges (bytes : List (BitVec 8)) (extra : Nat) (s : State) : State :=
  if bytes.length < 4 then bump (hlA + 0x58) (hspErr 0 s)
  else
    let s := bumpWrap (hlA + 0x54) s
    match extra % 8 with
    | 0 => s
    | 1 | 2 | 3 => bump (hlA + 0x5C) (hspErr 0 s)
    | _ => bump (hlA + 0x58) (hspErr 0 s)

/-- Byte i of a frame. -/
def byteAt (bs : List (BitVec 8)) (i : Nat) : BitVec 8 := bs.getD i 0

/-- The address of a frame: HUB × 0x0800_0000, and A[26:0] (R387). -/
def hspHub (bs : List (BitVec 8)) : Nat := bits (byteAt bs 0) 5 3 * 0x0800_0000
def hspAddr (bs : List (BitVec 8)) : Nat := bits (byteAt bs 0) 2 0 * 2 ^ 24 + beVal ((bs.drop 1).take 3)

/-- The frame's words carry CRC-16. -/
def hspCrc (bs : List (BitVec 8)) : Bool := bit (byteAt bs 0) 6

/-- A frame with a bad address is ignored as a whole (R387). -/
def hspBadAddr (bs : List (BitVec 8)) (s : State) : Bool :=
  decide (hspAddr bs % 4 ≠ 0) || (isSecondary s && decide (hspHub bs ≠ 0))

/-- HSP_CRCREQ refuses a frame without CRC (R392). -/
def hspNoCrc (bs : List (BitVec 8)) (s : State) : Bool := bit (cfgR s (hlA + 4)) 4 && !hspCrc bs

/-- The bytes the hub sends where it sends nothing but the status: zeros to the end of the frame. -/
def hspSilent (bytes : List (BitVec 8)) (s : State) : List W64 :=
  if bytes.isEmpty then [] else hspStatus s :: List.replicate (bytes.length - 1) 0

/-- A frame as far as its form and its header go (R387–R389, R392, R393): `serve` is the data phase of a frame the hub serves. -/
def hspFrame (bytes : List (BitVec 8)) (extra : Nat) (serve : State → State) (s : State) : State :=
  if !hspOn s then s
  else
    let s := requestWake 8 s
    let s := { s with answer := hspSilent bytes s }
    if s.power.cur ≠ .s0 then bump (hlA + 0x68) (hspErr 5 s)
    else if bytes.length < 4 then hspEdges bytes extra s
    else if hspBadAddr bytes s then hspEdges bytes extra (hspErr 4 s)
    else if hspNoCrc bytes s then hspEdges bytes extra (bump (hlA + 0x6C) (hspErr 6 s))
    else hspEdges bytes extra (serve s)

/-- The next word's address: it wraps within the hub's window (R387). -/
def hspNext (a : Nat) : Nat := (a + 4) % 0x0800_0000

/-- The words of a write frame commit in order; a CRC-16 that does not match ends it (R390, R392). -/
def hspCommit (crc : Bool) (hub : Nat) : Nat → Nat → List (BitVec 8) → List (BitVec 8) → State → State
  | 0, _, _, _, s => s
  | fuel + 1, a, sofar, rest, s =>
    let n := if crc then 6 else 4
    if rest.length < n then s
    else
      let w := rest.take 4
      let sofar := sofar ++ w
      if crc && decide ((crc16 sofar).toNat ≠ beVal ((rest.drop 4).take 2)) then bump (hlA + 0x60) (hspErr 3 s)
      else hspCommit crc hub fuel (hspNext a) sofar (rest.drop n) (busWrite .hsp (hub + a) (BitVec.ofNat 32 (beVal w)) s)

/-- A frame's command byte says write. -/
def hspWrites (bytes : List (BitVec 8)) : Bool := bit (byteAt bytes 0) 7

/-- HSP_WRITE_FRAME (R390): the whole bytes on HSP_MOSI, and the edges beyond them. -/
def execHspWriteFrame (bytes : List (BitVec 8)) (extra : Nat) (s : State) : Host.Outcome State Fault Refusal := live s <|
  if !bytes.isEmpty && !hspWrites bytes then .next s
  else .next (hspFrame bytes extra
    (hspCommit (hspCrc bytes) (hspHub bytes) bytes.length (hspAddr bytes) (bytes.take 4) (bytes.drop 4)) s)

/-- A 32-bit word as bytes, most significant first. -/
def wordBytes (v : W32) : List (BitVec 8) := (List.range 4).map (fun i => BitVec.ofNat 8 (v.toNat / 2 ^ (24 - 8 * i)))

/-- A CRC-16 as bytes. -/
def crcBytes (c : BitVec 16) : List (BitVec 8) := [BitVec.ofNat 8 (c.toNat / 256), BitVec.ofNat 8 c.toNat]

/-- A word of a read frame. One of a secondary's window is there only if its REGRSP has come while the frame runs: the
next of `late`. -/
def hspFetch (a : Nat) (late : List (Option W32)) (s : State) : Option W32 × List (Option W32) × State :=
  let r := busRead .hsp a s
  match r.1, late with
  | some v, _ => (some v, late, r.2)
  | none, some v :: l => (some v, l, { r.2 with bgt := { r.2.bgt with waiting := r.2.bgt.waiting.dropLast } })
  | none, _ => (none, late.drop 1, r.2)

/-- The n bytes after a run of busy bytes that ended without the word: zeros, each CRC-16 inverted (R391). -/
def hspStale (crc : Bool) (sofar : List (BitVec 8)) : Nat → Nat → List (BitVec 8)
  | 0, _ => []
  | fuel + 1, n =>
    let sofar := sofar ++ List.replicate 4 0
    let w := List.replicate 4 0 ++ (if crc then crcBytes (~~~(crc16 sofar)) else [])
    if n ≤ w.length then w.take n else w ++ hspStale crc sofar fuel (n - w.length)

/-- A run of busy bytes ended at 64 (R391). -/
def hspTimeout (s : State) : State := bump (hlA + 0x64) (hspErr 2 s)

/-- The data phase of a read frame: `n` whole bytes are left, and edges beyond them where `more`. `waits` gives, for each
run, the busy bytes that the word would need. -/
def hspRead (crc : Bool) (hub : Nat) (more : Bool) : Nat → Nat → Bool → Nat → List Nat → List (Option W32) → List (BitVec 8) →
    List (BitVec 8) → State → List (BitVec 8) × State
  | 0, _, _, _, _, _, _, out, s => (out, s)
  | fuel + 1, n, fresh, a, waits, late, sofar, out, s =>
    if n = 0 && !more then (out, s)
    else
      let r := hspFetch (hub + a) late s
      let s := r.2.2
      let need := if r.1.isNone then 65 else if fresh then waits.headD 0 else 0
      let busy := if fresh then min need 64 else 0
      let out := out ++ List.replicate (min n busy) (0x96 : BitVec 8)
      let s := if 64 < need ∧ busy ≤ n then hspTimeout s else s
      if n ≤ busy ∧ fresh then (out, s)
      else
        let out := if fresh then out ++ [0x69] else out
        let n := if fresh then n - busy - 1 else n
        match (if 64 < need then none else r.1) with
        | none => (out ++ hspStale crc sofar (n + 1) n, s)
        | some v =>
          let sofar := sofar ++ wordBytes v
          let w := wordBytes v ++ (if crc then crcBytes (crc16 sofar) else [])
          if n < w.length then (out ++ w.take n, s)
          else
            let a' := hspNext a
            hspRead crc hub more fuel (n - w.length) (decide (a' % 256 = 0)) a' (if fresh then waits.drop 1 else waits) r.2.1 sofar (out ++ w) s

/-- HSP_READ_FRAME (R391): the bytes clocked, the edges beyond them, the busy bytes each run needs, and the values that
REGRSPs bring meanwhile. The bytes on HSP_MISO are the answer. -/
def execHspReadFrame (bytes : List (BitVec 8)) (extra : Nat) (waits : List Nat) (late : List (Option W32)) (s : State) :
    Host.Outcome State Fault Refusal := live s <|
  if !bytes.isEmpty && hspWrites bytes then .next s
  else .next (hspFrame bytes extra (fun s =>
    let n := bytes.length - 4
    let r := hspRead (hspCrc bytes) (hspHub bytes) (extra % 8 ≠ 0) (n + 1) n true (hspAddr bytes) waits late (bytes.take 4) [] s
    { r.2 with answer := [hspStatus s, 0, 0, 0] ++ r.1.map (·.setWidth 64) }) s)

/-! ### The two-wire target port (R394–R400) -/

/-- A flag of TWT_ERR, with TWTF (R403). -/
def twtErr (i : Nat) (s : State) : State := raise hlFlagsA 4 (raise (hlA + 0x1C) i s)

/-- The device address of a window offset (R395). -/
def twtMap (s : State) (o : Nat) : Option Nat :=
  if o < 0x1000 then some o
  else if o < 0x1100 then some (0x0001_0000 + (o - 0x1000))
  else if o < 0x2000 then none
  else if o < 0x3000 then some (0x000B_0000 + (o - 0x2000))
  else if o < 0x6000 then some (0x000C_0000 + (o - 0x3000))
  else if o < 0x6100 then some (hlA + (o - 0x6000))
  else if o < 0x7000 then none
  else if o < 0x8000 then some (0x0010_0000 + (o - 0x7000))
  else some (bits (cfgR s (hlA + 0x10)) 26 15 * 0x8000 + (o - 0x8000))

/-- A register word of the window is read. -/
def twtWord (w : Nat) (s : State) : W32 × State :=
  match twtMap s (4 * w) with
  | some a => read32 .twt a s
  | none => (0, s)

/-- A register word of the window is written. -/
def twtPut (w : Nat) (v : W32) (s : State) : State :=
  match twtMap s (4 * w) with
  | some a => write32 .twt a v s
  | none => s

/-- The pointer after a byte written: it stays in its 32-byte page (R396). -/
def twtStep (p : Nat) : Nat := p / 32 * 32 + (p + 1) % 32

/-- Data bytes of one transaction: `got` holds, by word, which bytes have been written and their values. A word commits
with the acknowledge of its last byte, if all four came in this transaction (R397). -/
def twtBytes : List (BitVec 8) → Nat → Mem (BitVec 4 × W32) → State → Mem (BitVec 4 × W32) × State
  | [], p, got, s => (got, { s with hl := { s.hl with twtPtr := p } })
  | b :: l, p, got, s =>
    let w := p / 4
    let i := p % 4
    let x := Mem.read (fun _ => (0, 0)) got w
    let m := x.1 ||| (1#4 <<< i)
    let v := (x.2 &&& ~~~(0xFF#32 <<< (8 * i))) ||| ((b.setWidth 32) <<< (8 * i))
    if i = 3 ∧ m = 0xF then twtBytes l (twtStep p) (Mem.write (fun _ => (0, 0)) got w (0, 0)) (twtPut w v s)
    else twtBytes l (twtStep p) (Mem.write (fun _ => (0, 0)) got w (m, v)) s

/-- Each word left incomplete at the end of a transaction is discarded and counted (R397). -/
def twtPartial (got : Mem (BitVec 4 × W32)) (s : State) : State :=
  got.foldl (fun s _ => bump (hlA + 0x78) (twtErr 1 s)) s

/-- A write transaction; TWT_WRITES counts it. -/
def twtWrite (ptr : Option (BitVec 16)) (bytes : List (BitVec 8)) (again : Bool) (s : State) : State :=
  let s := bump (hlA + 0x70) s
  let s := match ptr with
    | some p => let r := twtBytes bytes p.toNat [] s; twtPartial r.1 r.2
    | none => s
  if again then bump (hlA + 0x7C) (twtErr 2 s) else s

/-- n bytes of a read from the pointer on. Each word is sampled once in a transaction (R397). -/
def twtRead : Nat → Nat → Mem (Option W32) → List (BitVec 8) → State → List (BitVec 8) × State
  | 0, p, _, out, s => (out, { s with hl := { s.hl with twtPtr := p } })
  | n + 1, p, got, out, s =>
    let r := match Mem.read (fun _ => none) got (p / 4) with
      | some v => (v, s)
      | none => twtWord (p / 4) s
    twtRead n ((p + 1) % 65536) (Mem.write (fun _ => none) got (p / 4) (some r.1))
      (out ++ [BitVec.ofNat 8 (r.1.toNat / 2 ^ (8 * (p % 4)))]) r.2

/-- The Alert Response Address is answered with the port's own address (R400): the lowest address wins the arbitration. -/
def twtAlert (won : Bool) (s : State) : State :=
  if won then
    bump (hlA + 0x84) { s with answer := [BitVec.ofNat 64 (2 * (0x58 + s.straps.twtA % 4))], hl := { s.hl with alert := false } }
  else bump (hlA + 0x88) { s with answer := [] }

/-- A transaction in S0. -/
def twtServe (x : TwtTx) (s : State) : State :=
  match x with
  | .write ptr bytes again => twtWrite ptr bytes again s
  | .read n =>
    let r := twtRead n s.hl.twtPtr [] [] (bump (hlA + 0x74) s)
    { r.2 with answer := r.1.map (·.setWidth 64) }
  | .alert won => twtAlert won s

/-- TWT_EN (R375). -/
def twtOn (s : State) : Bool := bit (cfgR s (hlA + 4)) 2

/-- An address match: in sleep it asks for a wake, and SCL is held low until S0 (R399). -/
def twtTake (x : TwtTx) (s : State) : State :=
  if !twtOn s || s.hl.twtHeld.isSome then s
  else
    let s := requestWake 9 s
    if s.power.cur = .s0 then twtServe x s
    else { s with hl := { s.hl with twtHeld := some (x, ticks s) } }

/-- TWT_POINTER_WRITE (R396). -/
def execTwtPointerWrite (ptr : BitVec 16) (s : State) : Host.Outcome State Fault Refusal := live s <|
  .next (twtTake (.write (some ptr) [] false) s)

/-- TWT_WRITE (R396, R397). -/
def execTwtWrite (ptr : BitVec 16) (bytes : List (BitVec 8)) (s : State) : Host.Outcome State Fault Refusal := live s <|
  .next (twtTake (.write (some ptr) bytes false) s)

/-- TWT_READ (R396, R397). -/
def execTwtRead (n : Nat) (s : State) : Host.Outcome State Fault Refusal := live s <| .next (twtTake (.read n) s)

/-- TWT_RSACK (R398): the bytes before the one whose acknowledge slot the repeated START took. -/
def execTwtRsack (ptr : Option (BitVec 16)) (bytes : List (BitVec 8)) (s : State) : Host.Outcome State Fault Refusal := live s <|
  .next (twtTake (.write ptr bytes true) s)

/-- TWT_STRETCH_TIMEOUT (R399): 2 ms of SCL held low end the transaction. -/
def execTwtStretchTimeout (s : State) : Host.Outcome State Fault Refusal := live s <|
  match s.hl.twtHeld with
  | some (x, t) =>
    if reached s (t + 800000) then
      let s := bump (hlA + 0x80) (twtErr 3 { s with hl := { s.hl with twtHeld := none } })
      .next (match x with | .read n => { s with answer := List.replicate n 0xFF } | _ => { s with answer := [] })
    else .next s
  | none => .next s

/-- ALERT_RESPONSE (R400). -/
def execAlertResponse (won : Bool) (s : State) : Host.Outcome State Fault Refusal := live s <|
  .next (if s.hl.alert then twtTake (.alert won) s else s)

/-! ### The wake (R422) -/

/-- What waited for S0 is served: PCI Express requests in order, the two-wire transaction, an accepted reload. -/
def serveWaiting (s : State) : State :=
  let qs := s.hl.held
  let s := qs.foldl (fun s q => serveHeld q s) { s with hl := { s.hl with held := [] } }
  let s := match s.hl.twtHeld with
    | some (x, _) => twtServe x { s with hl := { s.hl with twtHeld := none } }
    | none => s
  reloadWhenReady s

/-- WAKE (R422): `dur` ticks after its source the hub is in S0; `image` tells whether the hibernate image read back. -/
def execWake (dur : Nat) (image : Bool) (s : State) : Host.Outcome State Fault Refusal := live s <|
  .next (if wakeReady s then serveWaiting (wakeUp dur image s) else s)

end Sys2Proof.Machine
end

