-- ==== Sys2Proof/Machine/Ranger.lean ====
section
/-! DEFINITION. Ranger: its instructions of class 0xE, the repeats, undefined opcodes, the watchdog, code fetch from flash,
the monitors and the Tally journal (R451–R463). -/

namespace Sys2Proof.Machine
open Sys2Proof

/-! ### Class 0xE (R453) -/

/-- An instruction that only Ranger has. -/
def rangerOnly (p _ : Nat) (_ : State) : Bool := decide (p = rangerP)

/-- IDLE ends: the view holds a source, or a mailbox command waits. -/
def idleEnds (s : State) : Bool := decide (icuView s rangerP ≠ 0) || s.mgt.mbxBusy

def opIdle : EOp :=
  { lo := 0xE00, hi := 0xE00, defined := rangerOnly,
    run := fun _ s => .go (if idleEnds s then s else { s with mgt := { s.mgt with idle := true } }) }

/-- A 32-bit address is in the map (R453, R513). -/
def addrOk32 (a : W48) : Bool := decide (a.toNat % 4 = 0 ∧ a.toNat < 0x4000_0000)

/-- A slot address is in the map. R453 names alignment alone; outside the map of R513 there is no slot: DEDUCED. -/
def addrOk48 (a : W48) : Bool := decide (a.toNat % 8 = 0 ∧ a.toNat < 0x4000_0000)

/-- A read of a secondary has gone out: the stack holds a placeholder until its answer is there. -/
def askFor (kind : Nat) (s : State) : State := { replaceTop rangerP 1 [0] s with mgt := { (replaceTop rangerP 1 [0] s).mgt with asked := kind } }

def opRd32 : EOp :=
  { lo := 0xE01, hi := 0xE01, defined := rangerOnly, pops := fun _ _ => 1, pushes := fun _ _ => 1,
    run := fun x s =>
      let a := topOf s x.p 0
      if !addrOk32 a then .fault 7 x.addr s
      else
        let r := busRead .ranger a.toNat s
        match r.1 with
        | some v => .go (replaceTop x.p 1 [v.setWidth 48] r.2)
        | none => .go (askFor 1 r.2) }
def opWr32 : EOp :=
  { lo := 0xE02, hi := 0xE02, defined := rangerOnly, pops := fun _ _ => 2,
    run := fun x s =>
      let a := topOf s x.p 0
      if !addrOk32 a then .fault 7 x.addr s
      else .go (busWrite .ranger a.toNat ((topOf s x.p 1).setWidth 32) (popN x.p 2 s)) }

/-- The whole word of a slot of the hub's own space: a quantity or memory word, or two 32-bit registers side by side. -/
def slotRead (a : Nat) (s : State) : W48 :=
  if isLo a then (quantity s a).setWidth 48 else joinWord (readValue s .ranger a) (readValue s .ranger (a + 4))

/-- A whole word is written to a slot of the hub's own space with Ranger's rights. -/
def slotWrite (a : Nat) (v : W48) (s : State) : State :=
  if isLo a then (if mayWriteWord s .ranger a then commitWord a (v.setWidth 64) s else werr s)
  else write32 .ranger (a + 4) ((v >>> 32).setWidth 32) (write32 .ranger a (v.setWidth 32) s)

def opRd48 : EOp :=
  { lo := 0xE03, hi := 0xE03, defined := rangerOnly, pops := fun _ _ => 1, pushes := fun _ _ => 1,
    run := fun x s =>
      let a := topOf s x.p 0
      if !addrOk48 a then .fault 7 x.addr s
      else if a.toNat < 0x0800_0000 then .go (replaceTop x.p 1 [slotRead a.toNat s] (countParity a.toNat s))
      else
        let r := busRead .ranger a.toNat s
        match r.1 with
        | some v => .go (replaceTop x.p 1 [v.setWidth 48] r.2)
        | none => .go (askFor 2 r.2) }
def opWr48 : EOp :=
  { lo := 0xE04, hi := 0xE04, defined := rangerOnly, pops := fun _ _ => 2,
    run := fun x s =>
      let a := topOf s x.p 0
      let v := topOf s x.p 1
      if !addrOk48 a then .fault 7 x.addr s
      else
        let s := popN x.p 2 s
        if a.toNat < 0x0800_0000 then .go (slotWrite a.toNat v s)
        else .go (busWrite .ranger (a.toNat + 4) ((v >>> 32).setWidth 32) (busWrite .ranger a.toNat (v.setWidth 32) s)) }

/-- n of JNL, when n and t are in range. -/
def jnlN (pr : Proc) : Option Nat :=
  match pr.stack with
  | t :: n :: _ => if t.toNat < 256 ∧ 2 ≤ n.toNat ∧ n.toNat ≤ 7 then some n.toNat else none
  | _ => none

def opJnl : EOp :=
  { lo := 0xE05, hi := 0xE05, defined := rangerOnly,
    pops := fun _ pr => match jnlN pr with | some n => n + 1 | none => 2,
    run := fun x s =>
      let pr := procOf s x.p
      match jnlN pr with
      | some n =>
        .go (popN x.p (n + 1) (journal (pr.stack.getD 0 0).toNat (stampNow s) ((pr.stack.drop 2).take (n - 1)).reverse s))
      | none => .fault 11 x.addr s }
def opWdog : EOp :=
  { lo := 0xE06, hi := 0xE06, defined := rangerOnly, run := fun _ s => .go { s with mgt := { s.mgt with wdogAt := ticks s } } }

/-- An OTP word. The spec gives the words no layout: open values. -/
def otpWord (s : State) (i : Nat) : W48 :=
  match s.mgt.otp[i]? with
  | some w => w
  | none => (Config.innerWord (0x2_0000_0000 + i) s.mgt.rollbackOtp).setWidth 48

def opOtprd : EOp :=
  { lo := 0xE07, hi := 0xE07, defined := rangerOnly, pops := fun _ _ => 1, pushes := fun _ _ => 1,
    run := fun x s =>
      let i := (topOf s x.p 0).toNat
      if 15 < i then .fault 7 x.addr s else .go (replaceTop x.p 1 [otpWord s i] s) }
def opRollup : EOp :=
  { lo := 0xE08, hi := 0xE08, defined := rangerOnly, pops := fun _ _ => 1,
    run := fun x s =>
      let n := (topOf s x.p 0).toNat
      if 64 < n then .fault 7 x.addr s else .go (popN x.p 1 (rollUp n s)) }

/-- Every instruction of the two kinds of processor. -/
def allOps : List EOp := engineOps ++ [opIdle, opRd32, opWr32, opRd48, opWr48, opJnl, opWdog, opOtprd, opRollup]

/-! ### The commands: Ranger executes the instruction at its program counter -/

/-- IDLE (R453). -/
def execIdle (s : State) : Host.Outcome State Fault Refusal := runRow [] opIdle rangerP s
/-- RD32 (R453). -/
def execRd32 (s : State) : Host.Outcome State Fault Refusal := runRow [] opRd32 rangerP s
/-- WR32 (R453). -/
def execWr32 (s : State) : Host.Outcome State Fault Refusal := runRow [] opWr32 rangerP s
/-- RD48 (R453). -/
def execRd48 (s : State) : Host.Outcome State Fault Refusal := runRow [] opRd48 rangerP s
/-- WR48 (R453). -/
def execWr48 (s : State) : Host.Outcome State Fault Refusal := runRow [] opWr48 rangerP s
/-- JNL (R453). -/
def execJnl (s : State) : Host.Outcome State Fault Refusal := runRow [] opJnl rangerP s
/-- WDOG (R453). -/
def execWdog (s : State) : Host.Outcome State Fault Refusal := runRow [] opWdog rangerP s
/-- OTPRD (R453). -/
def execOtprd (s : State) : Host.Outcome State Fault Refusal := runRow [] opOtprd rangerP s
/-- ROLLUP (R453). -/
def execRollup (s : State) : Host.Outcome State Fault Refusal := runRow [] opRollup rangerP s

/-- REP (R307–R309) on any processor. -/
def execRep (p : Nat) (s : State) : Host.Outcome State Fault Refusal := runRow allOps opRep p s
/-- REPI (R307–R309). -/
def execRepi (p : Nat) (s : State) : Host.Outcome State Fault Refusal := runRow allOps opRepi p s

/-- UNDEFINED_OPCODE (R294, R310): the slot at the program counter has no row, or cannot be fetched. -/
def execUndefinedOpcode (p : Nat) (s : State) : Host.Outcome State Fault Refusal := live s <|
  if !procRuns s p then .next s
  else
    let a := (procOf s p).pc
    match fetchSlot s p a with
    | .got code => match findOp allOps p code s with
      | none => .next (procFault p 1 a s)
      | some _ => .next s
    | .unmapped => .next (procFault p 8 a s)
    | .poisoned => .next (procFault p 10 a s)
    | .absent => .next s

/-! ### The watchdog (R455) -/

/-- MGT_WDOG in ticks. -/
def wdogTime (s : State) : W64 := BitVec.ofNat 64 (400000 * bits (cfgR s (mgtA + 0x0C)) 15 0)

/-- WATCHDOG (R455): Ranger alone is reset, or the hub freezes (R497). -/
def execWatchdog (s : State) : Host.Outcome State Fault Refusal := live s <|
  if s.power.cur = .s3 ∨ !reached s (s.mgt.wdogAt + wdogTime s) then .next s
  else if bit (cfgR s frzA) 3 then .next (freezeNow 1 0 0 s)
  else .next (resetRanger 2 [] s)

/-! ### Code fetch from flash (R454) -/

/-- The program word is in the active slot and its line is not held. -/
def lineAbsent (s : State) (w : Nat) : Bool := fetchWord s rangerP w == .absent

/-- Program words that an instruction at a slot address needs beyond its own: a literal, or an operand slot. -/
def needsWord (s : State) (a : Nat) : List Nat :=
  match fetchSlot s rangerP a with
  | .got code => match findOp allOps rangerP code s with
    | some op => if op.literal then [a / 4 + 1] else if op.operand ≠ 0 then [(a + 1) / 4] else []
    | none => []
  | _ => []

/-- The words that the instruction at the program counter is fetched from, a repeat's follower with it. -/
def wordsNeeded (s : State) : List Nat :=
  let a := s.mgt.proc.pc
  let rep := match fetchSlot s rangerP a with
    | .got code => opRep.is rangerP code s || opRepi.is rangerP code s
    | _ => false
  (a / 4) :: (if rep then ((a + 1) / 4) :: needsWord s (a + 1) else needsWord s a)

/-- A line is filled, and the next one where it is absent; the least recently used ones make room. -/
def fillLine (w : Nat) (s : State) : State :=
  let l := lineOf w
  let more := if s.mgt.lines.contains (l + 1) then [] else [l + 1]
  { s with mgt := { s.mgt with lines := ((l :: more) ++ s.mgt.lines).take 64, filled := true } }

/-- PREFETCH_MISS (R454): a word that Ranger needs is absent; the fill waits while the flash is in use (R455). -/
def execPrefetchMiss (s : State) : Host.Outcome State Fault Refusal := live s <|
  if !procRuns s rangerP ∨ s.config.cfpBusy then .next s
  else match (wordsNeeded s).find? (lineAbsent s) with
  | some w => .next (bump (mgtA + 0x1C) (fillLine w s))
  | none => .next s

/-! ### Monitors (R456–R458) -/

/-- A count as a reading. -/
def countReading (n : Nat) : W48 := BitVec.ofNat 48 (min n (2 ^ 23 - 1) * 2 ^ 24)

/-- The reading of monitor m; `reading` is what an analog or clock monitor measures. -/
def monitorReading (m : Nat) (reading : W48) (s : State) : W48 :=
  match m with
  | 15 => countReading s.mgt.sramCorr
  | 16 => countReading s.mgt.sramUnc
  | 17 => countReading s.mgt.jnlCorr
  | 18 => countReading s.mgt.jnlUnc
  | _ => reading

/-- A reading is out of its limits (R458). -/
def outOfLimits (s : State) (m : Nat) (y : W48) : Bool :=
  let w := cfgR s (mgtA + 0x108 + 0x10 * m)
  decide (m ≤ 14 ∧ (signed 16 (bits w 31 16) * 65536 < sval y ∨ sval y < signed 16 (bits w 15 0) * 65536))

/-- The flag of a monitor's group. -/
def monitorFlag (m : Nat) : Nat := if m ≤ 3 then 0 else if m ≤ 10 then 1 else 2

/-- A reading is taken: it is kept, its limits are checked, and it is the raw value of its channel. -/
def takeReading (m : Nat) (y : W48) (s : State) : State :=
  let x := stampNow s
  let was := (Mem.read (fun _ => {}) s.mgt.monitors m).out
  let out := outOfLimits s m y
  let s := { s with mgt := { s.mgt with monitors := Mem.write (fun _ => {}) s.mgt.monitors m { reading := y, qual := x.qual, out := out } } }
  let s := if out && !was then
      journal 0x50 x [BitVec.ofNat 48 m, y] (raise mgtFlagsA (monitorFlag m) s)
    else s
  sourceValue 9 m y x s

/-- MONITOR_SAMPLE (R456, R457): a reading falls due; in S3 it is not taken, and counts as refused. -/
def execMonitorSample (m : Nat) (reading : W48) (s : State) : Host.Outcome State Fault Refusal := live s <|
  if 19 ≤ m then .next s
  else if s.power.cur = .s3 then .next (sourceRefused 9 m (oneRefused 1 (stampNow s)) s)
  else .next (takeReading m (monitorReading m reading s) s)

/-! ### The Tally journal (R29, R460–R462) -/

/-- The log word after one. -/
def logNext (i : Nat) : Nat := if i + 1 = 0x8_0000 then 0x2_1000 else i + 1

/-- The log word n places after one. -/
def logAfter (i n : Nat) : Nat := 0x2_1000 + (i - 0x2_1000 + n) % 389120

/-- The head word of an entry. -/
def journalHead (s : State) (j : JEntry) : W64 :=
  BitVec.ofNat 64 (2 * 2 ^ 62 + (j.words.length + 1) % 8 * 2 ^ 59 + qcode j.qual * 2 ^ 57 + b2n (j.era ≠ s.tb.stepCnt) * 2 ^ 56 +
    j.type % 256 * 2 ^ 48 + (short j.stamp).toNat)

/-- A continuation word. -/
def journalCont (seq : W32) (w : W48) : W64 := BitVec.ofNat 64 (2 ^ 62 + seq.toNat % 2 ^ 14 * 2 ^ 48 + w.toNat)

/-- The data of an entry's continuation words: the first holds the upper stamp and SEQ. -/
def journalData (s : State) (j : JEntry) : List W48 :=
  pack [(j.stamp.toNat / 2 ^ 48, 32), (s.mgt.jnlSeq.toNat, 0)] :: j.words

/-- A log word is written. -/
def putLog (i : Nat) (v : W64) (s : State) : State := { s with journal := Mem.write (fun _ => 0) s.journal i v }

/-- Consecutive log words are written from one on. -/
def putLogs : Nat → List W64 → State → State
  | _, [], s => s
  | i, v :: l, s => putLogs (logNext i) l (putLog i v s)

/-- An entry in the log: continuation words ascending, then the head word, then MGT_JNL_HEAD (R462). -/
def writeEntry (j : JEntry) (s : State) : State :=
  let h := s.mgt.jnlHead
  let ws := journalData s j
  let head := journalHead s j
  let s := putLogs (logNext h) (ws.map (journalCont s.mgt.jnlSeq)) s
  let s := putLog h head s
  let n := logAfter h (ws.length + 1)
  let s := if n < h then bumpWrap (mgtA + 0x24) s else s
  { s with mgt := { s.mgt with jnlHead := n, jnlSeq := s.mgt.jnlSeq + 1 } }

/-- The count of lost entries joins the queue behind the entries that were kept (R29). -/
def queueLost (s : State) : State :=
  if s.mgt.jqLostHeld = 0 then s
  else journal 0x05 (stampNow s) [BitVec.ofNat 48 s.mgt.jqLostHeld] { s with mgt := { s.mgt with jqLostHeld := 0 } }

/-- JOURNAL_WRITE (R462): Ranger takes the oldest entry of the queue. -/
def execJournalWrite (s : State) : Host.Outcome State Fault Refusal := live s <|
  if !s.mgt.running ∨ s.power.cur = .s3 then .next s
  else match s.journalQ with
  | j :: rest => .next (queueLost (writeEntry j { s with journalQ := rest }))
  | [] => .next s

end Sys2Proof.Machine
end

