-- ==== Sys2Proof/Machine/ResetUnit.lean ====
section
/-! DEFINITION. Power-up, RESET_N and the start of Ranger; the freeze, its stop cycle and the pins in it
(R448, R467, R496–R500, R504, R505, R526–R530). -/

namespace Sys2Proof.Machine
open Sys2Proof

/-! ### Reset (R504, R526–R530) -/

/-- A program or erase in progress runs on unsupervised: what it leaves is open (R446, R530). -/
def flashRunsOn (s : State) : State :=
  let op := s.config.cfpOp
  if s.config.cfpBusy ∧ 2 ≤ op.1 ∧ op.1 ≤ 4 then spoilFlash op.2.1 (cfpSpan op.1 op.2.2) s else s

/-- What a freeze leaves in its record; power-up clears it (R504, R529). -/
def frzKept (s : State) : Frz :=
  { cause := s.frz.cause, fault := s.frz.fault, time := s.frz.time, qual := s.frz.qual, count := s.frz.count }

/-- The management block's memory that no reset clears: OTP, the boot record, and where the journal stands. -/
def mgtKept (kind : Nat) (s : State) : Mgt :=
  { cfgKey := s.mgt.cfgKey, fwKey := s.mgt.fwKey, cfgHash := s.mgt.cfgHash, fwHash := s.mgt.fwHash, otp := s.mgt.otp,
    rollbackOtp := s.mgt.rollbackOtp, jnlHead := s.mgt.jnlHead, jnlSeq := s.mgt.jnlSeq, bootA := s.mgt.bootA,
    bootB := s.mgt.bootB, resetKind := kind }

/-- Every block of batch SRAM holds open values until it is written. -/
def sramOpen (n : Nat) : Mem Nat := (List.range 128).map (fun i => (i, n + 1))

/-- The internal reset holds: every block is at its reset values, with the straps as sampled (R470, R526, R528). Flash,
journal, OTP and boot record keep their contents; host memory, the pin PERST_N and the TAP lie outside the reset. -/
def resetHub (kind : Nat) (x : Straps) (frz : Frz) (s : State) : State :=
  let s := flashRunsOn s
  let d := draw s
  let s := d.2
  { State.reset with
    pending := s.pending, fresh := s.fresh, answer := s.answer, hostMem := s.hostMem, flash := s.flash, flashId := s.flashId,
    journal := s.journal, tap := s.tap, straps := x, sramLost := sramOpen d.1, mgt := mgtKept kind s, frz := frz,
    hl := { perst := s.hl.perst } }

/-- RESET_N (R528): a low pulse of `ns` nanoseconds, with the straps as they stand at its end. -/
def execResetN (ns : Nat) (x : Straps) (s : State) : Host.Outcome State Fault Refusal :=
  if ns ≤ 1000 then .next s
  else if 10000 ≤ ns then .next (resetHub 1 x (frzKept s) s)
  else
    let d := draw s
    .next (if bit (Config.freeWord d.1) 0 then resetHub 1 x (frzKept s) d.2 else d.2)

/-- POWER_UP (R526, R529): VDD_AON rises past the detector, which clears the freeze record too. -/
def execPowerUp (x : Straps) (s : State) : Host.Outcome State Fault Refusal :=
  .next { resetHub 0 x {} s with tap := {} }

/-- POWER_LOSS (R529, R530): VDD_AON falls below 0.72 V; the hub is held in reset. -/
def execPowerLoss (s : State) : Host.Outcome State Fault Refusal :=
  .next { resetHub 0 s.straps {} s with tap := {} }

/-- START_UP (R527, steps 1 and 2 of the start-up): the internal reset ends with device time zero, and Ranger starts. -/
def execStartUp (s : State) : Host.Outcome State Fault Refusal :=
  if s.phase ≠ .inReset ∨ s.frz.stopped then .next s
  else .next (startRanger s.mgt.resetKind [] { s with phase := .started })

/-! ### Freeze (R496–R499) -/

/-- FREEZE (R496): the synchronised FREEZE_N is first seen low. -/
def execFreeze (s : State) : Host.Outcome State Fault Refusal := live s <|
  if bit (cfgR s frzA) 0 then .next (freezeNow 0 0 0 s) else .next s

/-- STOP_CYCLE (R498, R504): the gate closes on every clock; JQLOST records the journal entries that the reset will lose. -/
def execStopCycle (s : State) : Host.Outcome State Fault Refusal := live s <|
  if !s.frz.pending then .next s
  else
    let n := min 511 s.journalQ.length
    .next { s with frz :=
      { s.frz with pending := false, stopped := true, cause := (s.frz.cause &&& ~~~(0x1FF#32)) ||| BitVec.ofNat 32 n } }

/-! ### Pins in a freeze (R500) -/

/-- TRKn_PWR_EN: forced low in FREEZE. -/
def pinPwrEn (s : State) (n : Nat) : Bool := (getHws s n).pwren && !s.frz.stopped
/-- TWT_ALERT_N is low: released in FREEZE. -/
def pinAlertLow (s : State) : Bool := s.hl.alert && !s.frz.stopped
/-- INT_N is low: it holds its level. -/
def pinIntLow (s : State) : Bool := intLow s
/-- HOST_WAKE_N is low: it holds its level. -/
def pinHostWakeLow (s : State) : Bool := s.hl.hostWake
/-- FREEZE_N is driven low: while this hub drives it. -/
def pinFreezeLow (s : State) : Bool := s.frz.driving
/-- The two-wire target holds SCL low: released in FREEZE. -/
def pinSclHeld (s : State) : Bool := s.hl.twtHeld.isSome && !s.frz.stopped
/-- The PCI Express lanes carry traffic: electrical idle in FREEZE. -/
def lanesActive (s : State) : Bool := linkUp s && !s.frz.stopped

end Sys2Proof.Machine
end

