-- ==== Sys2Proof/Machine/TapPort.lean ====
section
/-! DEFINITION. The test access port: the public instructions and the read-out of a frozen hub (R501–R503, R531). -/

namespace Sys2Proof.Machine
open Sys2Proof

/-- Bits as 64-bit words, the first bit in bit 0. -/
def packBits : Nat → List Bool → List W64
  | 0, _ => []
  | fuel + 1, bs =>
    if bs.isEmpty then []
    else BitVec.ofNat 64 ((bs.take 64).foldr (fun b a => 2 * a + b2n b) 0) :: packBits fuel (bs.drop 64)

/-- The TAP holds an instruction and gives data. -/
def tapAnswer (ir : BitVec 8) (ws : List W64) (s : State) : State := { s with tap := { s.tap with ir := ir }, answer := ws }

/-- A private instruction acts in FREEZE, and as BYPASS outside it: the one bit then captured is 0. -/
def privateTap (ir : BitVec 8) (f : State → State) (s : State) : Host.Outcome State Fault Refusal :=
  .next (if s.frz.stopped then f s else tapAnswer ir [0] s)

/-- FRZ_STATUS (R501). -/
def execFrzStatus (s : State) : Host.Outcome State Fault Refusal :=
  privateTap 0x80 (fun s => tapAnswer 0x80 [(s.frz.cause.setWidth 64 : W64) <<< 32 ||| s.frz.fault.setWidth 64] s) s

/-- CHAIN_SEL (R501): 0 to 9 select a chain, other values none. -/
def execChainSel (v : BitVec 8) (s : State) : Host.Outcome State Fault Refusal :=
  privateTap 0x81 (fun s =>
    let s := tapAnswer 0x81 [] s
    { s with tap := { s.tap with chain := v.toNat } }) s

/-! ### Chains (R501, R502) -/

/-- Bits of a chain. -/
def chainBits (c : Nat) : Nat :=
  match c with
  | 0 => 98304 | 1 => 4096 | 2 => 131072 | 3 => 65536 | 4 => 262144 | 5 => 65536 | 6 => 49152 | 7 => 196608 | 8 => 16384
  | 9 => 32768 | _ => 0

/-- The chain that holds a block's registers, by device address: R501 names the blocks. -/
def chainOf (a : Nat) : Nat :=
  match a / 0x1_0000 with
  | 0x00 | 0x0B | 0x0D | 0x0F | 0x11 => 9
  | 0x01 => 1
  | 0x02 => 0
  | 0x03 | 0x04 => 6
  | 0x05 => 7
  | 0x08 => 2
  | 0x09 => 3
  | 0x0A => if a % 0x1_0000 < 0x4000 then 4 else 0
  | 0x0C => 5
  | 0x0E => if a % 0x1_0000 < 0x8000 then 9 else 0
  | 0x10 => 8
  | _ => 10

/-- The addresses of a chain's architectural registers, ascending. -/
def chainRegs (c : Nat) : List Nat :=
  ((List.range (0x12_0000 / 4)).map (· * 4)).filter (fun a => decide (chainOf a = c) && decide (accessAt a ≠ .reserved))

/-- The 32 bits of a register as they stand. -/
def regBits (s : State) (a : Nat) : W32 :=
  match accessAt a with
  | .loRo | .loLk _ | .loRw => (quantity s a).setWidth 32
  | .hi => (quantity s (a - 4) >>> 32).setWidth 32
  | _ => readReg s .ranger a

/-- The state of a chain's block was lost before the stop cycle (R499). -/
def chainLost (s : State) (c : Nat) : Bool :=
  match s.power.cur with
  | .s2 => decide ((1 ≤ c ∧ c ≤ 7) ∨ c = 9)
  | .s3 => decide (1 ≤ c ∧ c ≤ 9)
  | _ => false

/-- The words of a chain: registers first, then internal state, whose layout the spec does not give. -/
def tapChainWords (s : State) (c : Nat) : List W32 :=
  if chainLost s c then []
  else
    let n := chainBits c / 32
    let rs := (chainRegs c).take n
    rs.map (regBits s) ++
      (List.range (n - rs.length)).map (fun i => (Config.innerWord (0x3_0000_0000 + 0x10_0000 * c + i) s.frz.count.toNat).setWidth 32)

/-- n bits of a chain shifted out from where it stands; the bits come round (R501). -/
def chainShift (s : State) (c n : Nat) : List Bool :=
  let len := chainBits c
  let ws := tapChainWords s c
  let off := Mem.read (fun _ => 0) s.tap.turned c
  (List.range n).map (fun i => let j := (off + i) % max 1 len; bit (ws.getD (j / 32) 0) (j % 32))

/-- CHAIN_SHIFT (R501): n shift edges. -/
def execChainShift (n : Nat) (s : State) : Host.Outcome State Fault Refusal :=
  privateTap 0x82 (fun s =>
    let c := s.tap.chain
    let off := (Mem.read (fun _ => 0) s.tap.turned c + n) % max 1 (chainBits c)
    let out := packBits (n + 1) (chainShift s c n)
    let s := tapAnswer 0x82 out s
    { s with tap := { s.tap with turned := Mem.write (fun _ => 0) s.tap.turned c off } }) s

/-! ### Memories (R503) -/

/-- MEM_ADDR (R501). -/
def execMemAddr (a : W32) (s : State) : Host.Outcome State Fault Refusal :=
  privateTap 0x83 (fun s =>
    let s := tapAnswer 0x83 [] s
    { s with tap := { s.tap with addr := a } }) s

/-- MEM_READ reaches an address. -/
def tapReaches (a : Nat) : Bool :=
  decide (a % 8 = 0 ∧
    ((0x0020_0000 ≤ a ∧ a < 0x0038_1000) ∨ (0x0040_0000 ≤ a ∧ a < 0x0060_0000) ∨ (0x0100_0000 ≤ a ∧ a < 0x0300_0000) ∨
     (0x0400_0000 ≤ a ∧ a < 0x0440_0000) ∨ (0x0500_0000 ≤ a ∧ a < 0x0504_0000)))

/-- A frozen memory word. In S3 the engine and table memories and Ranger's RAM are lost (R499): open values. -/
def frozenWord (s : State) (a : Nat) : W48 :=
  if 0x0100_0000 ≤ a ∧ a < 0x0300_0000 then sramR s ((a - 0x0100_0000) / 8)
  else if s.power.cur = .s3 then (Config.innerWord a s.frz.count.toNat).setWidth 48
  else if 0x0500_0000 ≤ a then ramR s ((a - 0x0500_0000) / 8)
  else (quantity s a).setWidth 48

/-- STATUS of a slot. -/
def slotStatus (s : State) (a : Nat) (found : Ecc) : Nat :=
  b2n (found = .corrected) + 2 * b2n (found = .uncorrectable) + 4 * b2n (s.poisoned.contains a)

/-- A slot as MEM_READ gives it; the check bits as stored are open values. -/
def tapSlot (s : State) (a : Nat) (found : Ecc) : W64 :=
  if !tapReaches a then BitVec.ofNat 64 (8 * 2 ^ 56)
  else if 0x0400_0000 ≤ a ∧ a < 0x0440_0000 then journalRead s ((a - 0x0400_0000) / 8)
  else
    let check := (Config.innerWord (0x4_0000_0000 + a) (frozenWord s a).toNat).toNat % 256
    BitVec.ofNat 64 (slotStatus s a found * 2 ^ 56 + check * 2 ^ 48 + (frozenWord s a).toNat)

/-- MEM_READ (R501, R503): the slots from the address on, one for each entry of `found`, which says what its check finds. -/
def execMemRead (found : List Ecc) (s : State) : Host.Outcome State Fault Refusal :=
  privateTap 0x84 (fun s =>
    tapAnswer 0x84 ((List.range found.length).map (fun i => tapSlot s (s.tap.addr.toNat + 8 * i) (found.getD i .clean))) s) s

/-! ### Public instructions (R531) -/

/-- What the boundary cells capture: the levels of the pins, open values. -/
def captured (n : Nat) (s : State) : List W64 × State :=
  let d := draw s
  ((List.range ((n + 63) / 64)).map (fun i => Config.innerWord (0x5_0000_0000 + i) d.1), d.2)

/-- EXTEST: the cells drive the pins, and `cells` are shifted in. -/
def execExtest (cells : List Bool) (s : State) : Host.Outcome State Fault Refusal :=
  let r := captured cells.length s
  let s := tapAnswer 0x00 r.1 r.2
  .next { s with tap := { s.tap with boundary := cells } }

/-- IDCODE. -/
def execIdcode (s : State) : Host.Outcome State Fault Refusal := .next (tapAnswer 0x01 [0x1489_6F2F] s)

/-- SAMPLE/PRELOAD: the cells capture, and are preloaded. -/
def execSamplePreload (cells : List Bool) (s : State) : Host.Outcome State Fault Refusal :=
  let r := captured cells.length s
  let s := tapAnswer 0x02 r.1 r.2
  .next { s with tap := { s.tap with boundary := cells } }

/-- BYPASS: what is shifted in comes out one bit later, after the captured 0. Every code not named acts so. -/
def execBypass (code : BitVec 8) (bs : List Bool) (s : State) : Host.Outcome State Fault Refusal :=
  let named := decide (code ≤ 0x02) || (decide (0x80 ≤ code ∧ code ≤ 0x84) && s.frz.stopped)
  .next (if named then s else tapAnswer code (packBits (bs.length + 1) ((false :: bs).take bs.length)) s)

/-- TEST_LOGIC_RESET: the instruction is IDCODE; a freeze does not end (R501). -/
def execTestLogicReset (s : State) : Host.Outcome State Fault Refusal := .next { s with tap := { s.tap with ir := 0x01 } }

end Sys2Proof.Machine
end

