-- ==== Sys2Proof/Machine/Dispatch.lean ====
section
/-! DEFINITION. One arm per command: its meaning, by name. -/

namespace Sys2Proof.Machine
open Sys2Proof

/-- The effect of a command on everything but the queue. -/
def exec (i : Instr) (s : State) : Host.Outcome State Fault Refusal :=
  match i with
  | .powerUp x => Sys2Proof.Machine.execPowerUp x s
  | .resetN ns x => Sys2Proof.Machine.execResetN ns x s
  | .startUp => Sys2Proof.Machine.execStartUp s
  | .imageLoad received => Sys2Proof.Machine.execImageLoad received s
  | .admission others missing pins => Sys2Proof.Machine.execAdmission others missing pins s
  | .cfgReload path v => Sys2Proof.Machine.execCfgReload path v s
  | .reloadRestart => Sys2Proof.Machine.execReloadRestart s
  | .trimRecomputation delta => Sys2Proof.Machine.execTrimRecomputation delta s
  | .woscCalibration n => Sys2Proof.Machine.execWoscCalibration n s
  | .handOver d => Sys2Proof.Machine.execHandOver d s
  | .ppsEdge rising w => Sys2Proof.Machine.execPpsEdge rising w s
  | .refInterval cycles present => Sys2Proof.Machine.execRefInterval cycles present s
  | .tbAdj path e => Sys2Proof.Machine.execTbAdj path e s
  | .miss => Sys2Proof.Machine.execMiss s
  | .stepAbs path => Sys2Proof.Machine.execStepAbs path s
  | .stepRel path => Sys2Proof.Machine.execStepRel path s
  | .stepApply => Sys2Proof.Machine.execStepApply s
  | .epoch => Sys2Proof.Machine.execEpoch s
  | .splitLoRead path a found => Sys2Proof.Machine.execSplitLoRead path a found s
  | .splitLoWrite path a v => Sys2Proof.Machine.execSplitLoWrite path a v s
  | .splitHiWrite path a v => Sys2Proof.Machine.execSplitHiWrite path a v s
  | .registerWrite path a v => Sys2Proof.Machine.execRegisterWrite path a v s
  | .prescalerTick n w => Sys2Proof.Machine.execPrescalerTick n w s
  | .overflow n w => Sys2Proof.Machine.execOverflow n w s
  | .cmpMatch n w => Sys2Proof.Machine.execCmpMatch n w s
  | .capture n b w => Sys2Proof.Machine.execCapture n b w s
  | .start path n => Sys2Proof.Machine.execStart path n s
  | .timerReset path n => Sys2Proof.Machine.execTimerReset path n s
  | .resetStart path n => Sys2Proof.Machine.execResetStart path n s
  | .stagger path base n => Sys2Proof.Machine.execStagger path base n s
  | .capA path n => Sys2Proof.Machine.execCapA path n s
  | .capB path n => Sys2Proof.Machine.execCapB path n s
  | .converterFrame n nibbles parity => Sys2Proof.Machine.execConverterFrame n nibbles parity s
  | .gapRunClose k => Sys2Proof.Machine.execGapRunClose k s
  | .presenceConfirmed n => Sys2Proof.Machine.execPresenceConfirmed n s
  | .initialisationList n => Sys2Proof.Machine.execInitialisationList n s
  | .cvpCommand path n w => Sys2Proof.Machine.execCvpCommand path n w s
  | .commandResponse n bits => Sys2Proof.Machine.execCommandResponse n bits s
  | .removal n => Sys2Proof.Machine.execRemoval n s
  | .listRun p => Sys2Proof.Machine.execListRun p s
  | .twoWireEntry p bus => Sys2Proof.Machine.execTwoWireEntry p bus s
  | .serialEntry p bytes => Sys2Proof.Machine.execSerialEntry p bytes s
  | .arbitrationLost p => Sys2Proof.Machine.execArbitrationLost p s
  | .strto p => Sys2Proof.Machine.execStrto p s
  | .alert p => Sys2Proof.Machine.execAlert p s
  | .alertList p answer => Sys2Proof.Machine.execAlertList p answer s
  | .candidate n w => Sys2Proof.Machine.execCandidate n w s
  | .evpConfirmed n w => Sys2Proof.Machine.execEvpConfirmed n w s
  | .eventQueueDrain touch n => Sys2Proof.Machine.execEventQueueDrain touch n s
  | .touchMeasurement n c => Sys2Proof.Machine.execTouchMeasurement n c s
  | .pulseEnd n => Sys2Proof.Machine.execPulseEnd n s
  | .opiEvoClr path v => Sys2Proof.Machine.execOpiEvoClr path v s
  | .lock n mq margin metric => Sys2Proof.Machine.execLock n mq margin metric s
  | .header n h rssi snr => Sys2Proof.Machine.execHeader n h rssi snr s
  | .receiverCapture n metric => Sys2Proof.Machine.execReceiverCapture n metric s
  | .packetReceived n data snr => Sys2Proof.Machine.execPacketReceived n data snr s
  | .packetTransmit n => Sys2Proof.Machine.execPacketTransmit n s
  | .noiseFloorWindow n bins gain => Sys2Proof.Machine.execNoiseFloorWindow n bins gain s
  | .g1FrameReceived n bytes => Sys2Proof.Machine.execG1FrameReceived n bytes s
  | .inrushEnd n code => Sys2Proof.Machine.execInrushEnd n code s
  | .stepDetectorArm n => Sys2Proof.Machine.execStepDetectorArm n s
  | .short n => Sys2Proof.Machine.execShort n s
  | .retryRestart n => Sys2Proof.Machine.execRetryRestart n s
  | .currentStep n x => Sys2Proof.Machine.execCurrentStep n x s
  | .controlSlot n => Sys2Proof.Machine.execControlSlot n s
  | .joinReq n => Sys2Proof.Machine.execJoinReq n s
  | .data n => Sys2Proof.Machine.execData n s
  | .nack n m g => Sys2Proof.Machine.execNack n m g s
  | .leave n => Sys2Proof.Machine.execLeave n s
  | .nodeTimeout n m => Sys2Proof.Machine.execNodeTimeout n m s
  | .joinfail n m => Sys2Proof.Machine.execJoinfail n m s
  | .tmfail n => Sys2Proof.Machine.execTmfail n s
  | .toneMapRebuild n m => Sys2Proof.Machine.execToneMapRebuild n m s
  | .g1Poll n a => Sys2Proof.Machine.execG1Poll n a s
  | .noresp n => Sys2Proof.Machine.execNoresp n s
  | .channelValue c raw x => Sys2Proof.Machine.execChannelValue c raw x s
  | .rainflowSnapshot slot => Sys2Proof.Machine.execRainflowSnapshot slot s
  | .gapNotice c => Sys2Proof.Machine.execGapNotice c s
  | .feScrub e w found => Sys2Proof.Machine.execFeScrub e w found s
  | .flushDeadline k => Sys2Proof.Machine.execFlushDeadline k s
  | .stagerWrite => Sys2Proof.Machine.execStagerWrite s
  | .persist r => Sys2Proof.Machine.execPersist r s
  | .leaveFull r => Sys2Proof.Machine.execLeaveFull r s
  | .dmaAcknowledge r => Sys2Proof.Machine.execDmaAcknowledge r s
  | .consumerWrite path r c => Sys2Proof.Machine.execConsumerWrite path r c s
  | .doorbell path v => Sys2Proof.Machine.execDoorbell path v s
  | .doorbellFlush path v => Sys2Proof.Machine.execDoorbellFlush path v s
  | .doorbellStatus path v => Sys2Proof.Machine.execDoorbellStatus path v s
  | .relay atD f => Sys2Proof.Machine.execRelay atD f s
  | .credit atD f => Sys2Proof.Machine.execCredit atD f s
  | .confirm atD f => Sys2Proof.Machine.execConfirm atD f s
  | .trigger e entry gap v0 v1 x => Sys2Proof.Machine.execTrigger e entry gap v0 v1 x s
  | .invocationStart e => Sys2Proof.Machine.execInvocationStart e s
  | .nop p => Sys2Proof.Machine.execNop p s
  | .dup p => Sys2Proof.Machine.execDup p s
  | .drop p => Sys2Proof.Machine.execDrop p s
  | .swap p => Sys2Proof.Machine.execSwap p s
  | .overOp p => Sys2Proof.Machine.execOverOp p s
  | .rot p => Sys2Proof.Machine.execRot p s
  | .nip p => Sys2Proof.Machine.execNip p s
  | .tuck p => Sys2Proof.Machine.execTuck p s
  | .depth p => Sys2Proof.Machine.execDepth p s
  | .lit8 p => Sys2Proof.Machine.execLit8 p s
  | .litw p => Sys2Proof.Machine.execLitw p s
  | .lits p => Sys2Proof.Machine.execLits p s
  | .pick p => Sys2Proof.Machine.execPick p s
  | .add p => Sys2Proof.Machine.execAdd p s
  | .sub p => Sys2Proof.Machine.execSub p s
  | .neg p => Sys2Proof.Machine.execNeg p s
  | .abs p => Sys2Proof.Machine.execAbs p s
  | .mul p => Sys2Proof.Machine.execMul p s
  | .mulh p => Sys2Proof.Machine.execMulh p s
  | .div p => Sys2Proof.Machine.execDiv p s
  | .mod p => Sys2Proof.Machine.execMod p s
  | .inc p => Sys2Proof.Machine.execInc p s
  | .dec p => Sys2Proof.Machine.execDec p s
  | .min p => Sys2Proof.Machine.execMin p s
  | .max p => Sys2Proof.Machine.execMax p s
  | .andOp p => Sys2Proof.Machine.execAndOp p s
  | .orOp p => Sys2Proof.Machine.execOrOp p s
  | .xorOp p => Sys2Proof.Machine.execXorOp p s
  | .notOp p => Sys2Proof.Machine.execNotOp p s
  | .shl p => Sys2Proof.Machine.execShl p s
  | .shr p => Sys2Proof.Machine.execShr p s
  | .sar p => Sys2Proof.Machine.execSar p s
  | .field p => Sys2Proof.Machine.execField p s
  | .popc p => Sys2Proof.Machine.execPopc p s
  | .clz p => Sys2Proof.Machine.execClz p s
  | .shlk p => Sys2Proof.Machine.execShlk p s
  | .shrk p => Sys2Proof.Machine.execShrk p s
  | .sark p => Sys2Proof.Machine.execSark p s
  | .eqOp p => Sys2Proof.Machine.execEqOp p s
  | .neOp p => Sys2Proof.Machine.execNeOp p s
  | .ltOp p => Sys2Proof.Machine.execLtOp p s
  | .leOp p => Sys2Proof.Machine.execLeOp p s
  | .gtOp p => Sys2Proof.Machine.execGtOp p s
  | .geOp p => Sys2Proof.Machine.execGeOp p s
  | .ult p => Sys2Proof.Machine.execUlt p s
  | .uge p => Sys2Proof.Machine.execUge p s
  | .zeq p => Sys2Proof.Machine.execZeq p s
  | .zlt p => Sys2Proof.Machine.execZlt p s
  | .within p => Sys2Proof.Machine.execWithin p s
  | .bra p => Sys2Proof.Machine.execBra p s
  | .bz p => Sys2Proof.Machine.execBz p s
  | .bnz p => Sys2Proof.Machine.execBnz p s
  | .call p => Sys2Proof.Machine.execCall p s
  | .jmpi p => Sys2Proof.Machine.execJmpi p s
  | .calli p => Sys2Proof.Machine.execCalli p s
  | .ret p => Sys2Proof.Machine.execRet p s
  | .endOp p => Sys2Proof.Machine.execEndOp p s
  | .ld p par => Sys2Proof.Machine.execLd p par s
  | .st p => Sys2Proof.Machine.execSt p s
  | .ldi p par => Sys2Proof.Machine.execLdi p par s
  | .sti p => Sys2Proof.Machine.execSti p s
  | .ldp p par => Sys2Proof.Machine.execLdp p par s
  | .stp p => Sys2Proof.Machine.execStp p s
  | .addm p par => Sys2Proof.Machine.execAddm p par s
  | .getOp p => Sys2Proof.Machine.execGetOp p s
  | .gett p => Sys2Proof.Machine.execGett p s
  | .put p => Sys2Proof.Machine.execPut p s
  | .emit p => Sys2Proof.Machine.execEmit p s
  | .evoa p => Sys2Proof.Machine.execEvoa p s
  | .evod p => Sys2Proof.Machine.execEvod p s
  | .evoclr p => Sys2Proof.Machine.execEvoclr p s
  | .swset p => Sys2Proof.Machine.execSwset p s
  | .setlvl p => Sys2Proof.Machine.execSetlvl p s
  | .now p => Sys2Proof.Machine.execNow p s
  | .nowf p => Sys2Proof.Machine.execNowf p s
  | .tick p => Sys2Proof.Machine.execTick p s
  | .tcmpa p => Sys2Proof.Machine.execTcmpa p s
  | .tcmpb p => Sys2Proof.Machine.execTcmpb p s
  | .tcnt p => Sys2Proof.Machine.execTcnt p s
  | .tcapa p => Sys2Proof.Machine.execTcapa p s
  | .tcapb p => Sys2Proof.Machine.execTcapb p s
  | .tstat p => Sys2Proof.Machine.execTstat p s
  | .tclr p => Sys2Proof.Machine.execTclr p s
  | .tcmd p => Sys2Proof.Machine.execTcmd p s
  | .adds p => Sys2Proof.Machine.execAdds p s
  | .subs p => Sys2Proof.Machine.execSubs p s
  | .negs p => Sys2Proof.Machine.execNegs p s
  | .abss p => Sys2Proof.Machine.execAbss p s
  | .mulq p => Sys2Proof.Machine.execMulq p s
  | .macq p => Sys2Proof.Machine.execMacq p s
  | .divq p => Sys2Proof.Machine.execDivq p s
  | .sqrtq p => Sys2Proof.Machine.execSqrtq p s
  | .clampOp p => Sys2Proof.Machine.execClampOp p s
  | .rep p => Sys2Proof.Machine.execRep p s
  | .setrc p => Sys2Proof.Machine.execSetrc p s
  | .getrc p => Sys2Proof.Machine.execGetrc p s
  | .loop p => Sys2Proof.Machine.execLoop p s
  | .repi p => Sys2Proof.Machine.execRepi p s
  | .splice p => Sys2Proof.Machine.execSplice p s
  | .undefinedOpcode p => Sys2Proof.Machine.execUndefinedOpcode p s
  | .idle => Sys2Proof.Machine.execIdle s
  | .rd32 => Sys2Proof.Machine.execRd32 s
  | .wr32 => Sys2Proof.Machine.execWr32 s
  | .rd48 => Sys2Proof.Machine.execRd48 s
  | .wr48 => Sys2Proof.Machine.execWr48 s
  | .jnl => Sys2Proof.Machine.execJnl s
  | .wdog => Sys2Proof.Machine.execWdog s
  | .otprd => Sys2Proof.Machine.execOtprd s
  | .rollup => Sys2Proof.Machine.execRollup s
  | .clear path e => Sys2Proof.Machine.execClear path e s
  | .halt path e => Sys2Proof.Machine.execHalt path e s
  | .resume path e => Sys2Proof.Machine.execResume path e s
  | .stepEngine path e => Sys2Proof.Machine.execStepEngine path e s
  | .reloadcnt path e => Sys2Proof.Machine.execReloadcnt path e s
  | .sourceAssert n => Sys2Proof.Machine.execSourceAssert n s
  | .presentation p => Sys2Proof.Machine.execPresentation p s
  | .claim p n => Sys2Proof.Machine.execClaim p n s
  | .complete p n => Sys2Proof.Machine.execComplete p n s
  | .retarget path n v => Sys2Proof.Machine.execRetarget path n v s
  | .icuSwset path v => Sys2Proof.Machine.execIcuSwset path v s
  | .iramScrub e w found => Sys2Proof.Machine.execIramScrub e w found s
  | .frameFormed u entry => Sys2Proof.Machine.execFrameFormed u entry s
  | .spectrum u => Sys2Proof.Machine.execSpectrum u s
  | .evaluation u set => Sys2Proof.Machine.execEvaluation u set s
  | .spuScrub u mask w found => Sys2Proof.Machine.execSpuScrub u mask w found s
  | .audit => Sys2Proof.Machine.execAudit s
  | .snap path v => Sys2Proof.Machine.execSnap path v s
  | .deferredSnap => Sys2Proof.Machine.execDeferredSnap s
  | .configurationRequest write off v be => Sys2Proof.Machine.execConfigurationRequest write off v be s
  | .memoryRead addr enables found ecrcBad => Sys2Proof.Machine.execMemoryRead addr enables found ecrcBad s
  | .memoryWrite addr words poisoned ecrcBad => Sys2Proof.Machine.execMemoryWrite addr words poisoned ecrcBad s
  | .unsupportedRequest => Sys2Proof.Machine.execUnsupportedRequest s
  | .perstN low hot => Sys2Proof.Machine.execPerstN low hot s
  | .linkFailure gen w lpm => Sys2Proof.Machine.execLinkFailure gen w lpm s
  | .linkRecovery gen w lpm => Sys2Proof.Machine.execLinkRecovery gen w lpm s
  | .aspmL1Entry => Sys2Proof.Machine.execAspmL1Entry s
  | .summaryChange => Sys2Proof.Machine.execSummaryChange s
  | .hspWriteFrame bytes extra => Sys2Proof.Machine.execHspWriteFrame bytes extra s
  | .hspReadFrame bytes extra waits late => Sys2Proof.Machine.execHspReadFrame bytes extra waits late s
  | .twtPointerWrite ptr => Sys2Proof.Machine.execTwtPointerWrite ptr s
  | .twtWrite ptr bytes => Sys2Proof.Machine.execTwtWrite ptr bytes s
  | .twtRead n => Sys2Proof.Machine.execTwtRead n s
  | .twtRsack ptr bytes => Sys2Proof.Machine.execTwtRsack ptr bytes s
  | .twtStretchTimeout => Sys2Proof.Machine.execTwtStretchTimeout s
  | .alertResponse won => Sys2Proof.Machine.execAlertResponse won s
  | .sleepPreparation => Sys2Proof.Machine.execSleepPreparation s
  | .sleepEntry d => Sys2Proof.Machine.execSleepEntry d s
  | .wake dur image => Sys2Proof.Machine.execWake dur image s
  | .cfpRead path v => Sys2Proof.Machine.execCfpRead path v s
  | .cfpProgram path v => Sys2Proof.Machine.execCfpProgram path v s
  | .cfpErase4k path v => Sys2Proof.Machine.execCfpErase4k path v s
  | .cfpErase64k path v => Sys2Proof.Machine.execCfpErase64k path v s
  | .cfpReadid path v => Sys2Proof.Machine.execCfpReadid path v s
  | .cfpReadsr path v => Sys2Proof.Machine.execCfpReadsr path v s
  | .cfpOperationEnd ok => Sys2Proof.Machine.execCfpOperationEnd ok s
  | .watchdog => Sys2Proof.Machine.execWatchdog s
  | .prefetchMiss => Sys2Proof.Machine.execPrefetchMiss s
  | .monitorSample m reading => Sys2Proof.Machine.execMonitorSample m reading s
  | .journalWrite => Sys2Proof.Machine.execJournalWrite s
  | .mbxInfo path => Sys2Proof.Machine.execMbxInfo path s
  | .mbxBegin path ok => Sys2Proof.Machine.execMbxBegin path ok s
  | .mbxWrite path ok => Sys2Proof.Machine.execMbxWrite path ok s
  | .mbxVerify path => Sys2Proof.Machine.execMbxVerify path s
  | .mbxCommit path => Sys2Proof.Machine.execMbxCommit path s
  | .mbxAbort path => Sys2Proof.Machine.execMbxAbort path s
  | .linkTraining dUp uUp rejoin => Sys2Proof.Machine.execLinkTraining dUp uUp rejoin s
  | .enum atD f reached => Sys2Proof.Machine.execEnum atD f reached s
  | .hopCalibration h trips skew => Sys2Proof.Machine.execHopCalibration h trips skew s
  | .timeFrame atD f res => Sys2Proof.Machine.execTimeFrame atD f res s
  | .alignmentTimeout late => Sys2Proof.Machine.execAlignmentTimeout late s
  | .triggerOrigin => Sys2Proof.Machine.execTriggerOrigin s
  | .broadcastTrigger b good => Sys2Proof.Machine.execBroadcastTrigger b good s
  | .regreq atD f => Sys2Proof.Machine.execRegreq atD f s
  | .regrsp atD f => Sys2Proof.Machine.execRegrsp atD f s
  | .windowTimeout => Sys2Proof.Machine.execWindowTimeout s
  | .cause atD f => Sys2Proof.Machine.execCause atD f s
  | .ctrl atD f => Sys2Proof.Machine.execCtrl atD f s
  | .frameRetry down received acked => Sys2Proof.Machine.execFrameRetry down received acked s
  | .hopBreak h => Sys2Proof.Machine.execHopBreak h s
  | .hopRetrain h trips skew => Sys2Proof.Machine.execHopRetrain h trips skew s
  | .ringRelease => Sys2Proof.Machine.execRingRelease s
  | .ringWake => Sys2Proof.Machine.execRingWake s
  | .freeze => Sys2Proof.Machine.execFreeze s
  | .stopCycle => Sys2Proof.Machine.execStopCycle s
  | .frzStatus => Sys2Proof.Machine.execFrzStatus s
  | .chainSel v => Sys2Proof.Machine.execChainSel v s
  | .chainShift n => Sys2Proof.Machine.execChainShift n s
  | .memAddr a => Sys2Proof.Machine.execMemAddr a s
  | .memRead found => Sys2Proof.Machine.execMemRead found s
  | .extest cells => Sys2Proof.Machine.execExtest cells s
  | .idcode => Sys2Proof.Machine.execIdcode s
  | .samplePreload cells => Sys2Proof.Machine.execSamplePreload cells s
  | .bypass code bs => Sys2Proof.Machine.execBypass code bs s
  | .testLogicReset => Sys2Proof.Machine.execTestLogicReset s
  | .fabricParityFailure block k again => Sys2Proof.Machine.execFabricParityFailure block k again s
  | .sramScrub w found avg => Sys2Proof.Machine.execSramScrub w found avg s
  | .pinReturn n => Sys2Proof.Machine.execPinReturn n s
  | .packetLost n m g => Sys2Proof.Machine.execPacketLost n m g s
  | .pcieLinkChange gen w lpm => Sys2Proof.Machine.execPcieLinkChange gen w lpm s
  | .powerLoss => Sys2Proof.Machine.execPowerLoss s

end Sys2Proof.Machine
end

