-- ==== Sys2Proof/Machine/Idle.lean ====
section
/-! DEFINITION. What the hub does by its own clock while no command waits. -/

namespace Sys2Proof.Machine
open Sys2Proof

/-- One control-clock cycle without a command: device time advances (R37, R39), in S0 the choice of power state and what
the primary is told of it are followed (R418, R483), in sleep the armed wakes are watched (R130, R359). -/
def idleCycle (s : State) : State :=
  if stopped s then s
  else if s.power.cur = .s0 then reportChoice (watchIdle (tickTime s))
  else watchArmed (tickTime s)

end Sys2Proof.Machine
end

