-- ==== Sys2Proof/Safety.lean ====
section
/-! DEFINITION. What claims about the hub are made in: a hub that stands still, a processor that is about to execute an
instruction, and the states its instructions lead to. -/

namespace Sys2Proof.Machine
open Sys2Proof

/-! ### A hub whose clocks stand still (R498, R504, R527) -/

/-- A command that can end a freeze (R504): RESET_N beyond the 1,000 ns it ignores, and the supply's two. -/
def endsFreeze (c : Instr) : Bool :=
  match c with
  | .powerUp _ | .powerLoss => true
  | .resetN ns _ => decide (1000 < ns)
  | _ => false

/-- A command that can end the internal reset: those, and the start-up (R527). -/
def endsReset (c : Instr) : Bool := endsFreeze c || c == .startUp

/-- The hub without what lies outside its clocks: the queue of commands, the TAP, and what a command last returned. -/
def hubCore (s : State) : State := { s with pending := [], tap := {}, answer := [], fresh := 0 }

/-- The hub is frozen at the core state `f`, and no waiting command can end it. -/
def Frozen (f s : State) : Prop := s.frz.stopped = true ∧ (∀ c ∈ s.pending, endsFreeze c = false) ∧ hubCore s = f

/-- The hub is held in reset at the core state `f`, and no waiting command can end it. -/
def HeldInReset (f s : State) : Prop := s.phase = .inReset ∧ (∀ c ∈ s.pending, endsReset c = false) ∧ hubCore s = f

/-! ### A processor about to execute (R289–R297, R310) -/

/-- Processor p runs, its clocks run, and the slot at its program counter holds `code`. -/
def At (p code : Nat) (s : State) : Prop :=
  stopped s = false ∧ procRuns s p = true ∧ fetchSlot s p (procOf s p).pc = .got code

/-- The budget covers n cycles more; Ranger has none (R274, R452). -/
def Affords (p n : Nat) (s : State) : Prop := p = rangerP ∨ (procOf s p).cycles + n ≤ (procOf s p).budget

/-- The operand stack, deepest item first. -/
def stackOf (s : State) (p : Nat) : List W48 := (procOf s p).stack.reverse

/-- What every instruction does before its own effect: its cycles are charged, and execution is to go on at slot `next`
(R274, R295). On Ranger the prefetch lines it came from are the most recently used (R454). -/
def entered (p next n : Nat) (s : State) : State :=
  let t := charge p n (touchLine p (next - 1) (touchLine p (procOf s p).pc s))
  setProc p { procOf t p with pc := next } t

/-- An instruction has put `out` (deepest item first) in the place of the top k items. -/
def leaves (p k : Nat) (out : List W48) (s : State) : State :=
  setProc p { procOf s p with stack := out.reverse ++ (procOf s p).stack.drop k } s

end Sys2Proof.Machine
end

