-- ==== Sys2Proof/Certificates/Slice0/Obligations.lean ====
section
/-! DEFINITION. The statements about the hub. Each cites the rules it formalises in OBLIGATIONS.json. -/

namespace Sys2Proof.Claims
open Sys2Proof Sys2Proof.Machine

/-! ### Tables of instructions: command, code, cycles, result -/

/-- One item in, one out (R299–R301). -/
def oneInOne : List ((Nat → Instr) × Nat × Nat × (W48 → W48)) :=
  [(.neg, 0x102, 1, fun a => -a),
   (.abs, 0x103, 1, fun a => if a.toInt < 0 then -a else a),
   (.inc, 0x108, 1, fun a => a + 1),
   (.dec, 0x109, 1, fun a => a - 1),
   (.notOp, 0x203, 1, fun a => ~~~a),
   (.popc, 0x208, 1, fun a => BitVec.ofNat 48 ((List.range 48).countP (fun i => a.getLsbD i))),
   (.clz, 0x209, 1, fun a => if a = 0 then 48 else BitVec.ofNat 48 (47 - a.toNat.log2)),
   (.zeq, 0x308, 1, fun a => if a = 0 then BitVec.allOnes 48 else 0),
   (.zlt, 0x309, 1, fun a => if a.toInt < 0 then BitVec.allOnes 48 else 0)]

/-- Two items in, one out: arithmetic and logic (R299, R300). -/
def twoInOne : List ((Nat → Instr) × Nat × Nat × (W48 → W48 → W48)) :=
  [(.add, 0x100, 1, fun a b => BitVec.ofInt 48 (a.toInt + b.toInt)),
   (.sub, 0x101, 1, fun a b => BitVec.ofInt 48 (a.toInt - b.toInt)),
   (.mul, 0x104, 2, fun a b => BitVec.ofInt 48 (a.toInt * b.toInt)),
   (.mulh, 0x105, 2, fun a b => BitVec.ofInt 48 (a.toInt * b.toInt / 2 ^ 48)),
   (.min, 0x10A, 1, fun a b => if b.toInt < a.toInt then b else a),
   (.max, 0x10B, 1, fun a b => if b.toInt < a.toInt then a else b),
   (.andOp, 0x200, 1, fun a b => a &&& b),
   (.orOp, 0x201, 1, fun a b => a ||| b),
   (.xorOp, 0x202, 1, fun a b => a ^^^ b),
   (.shl, 0x204, 1, fun a n => a <<< n.toNat),
   (.shr, 0x205, 1, fun a n => a >>> n.toNat),
   (.sar, 0x206, 1, fun a n => a.sshiftRight n.toNat)]

/-- Two items in, a flag out: the comparisons (R301). -/
def comparisons : List ((Nat → Instr) × Nat × (W48 → W48 → Bool)) :=
  [(.eqOp, 0x300, fun a b => a.toNat == b.toNat),
   (.neOp, 0x301, fun a b => a.toNat != b.toNat),
   (.ltOp, 0x302, fun a b => decide (a.toInt < b.toInt)),
   (.leOp, 0x303, fun a b => decide (a.toInt ≤ b.toInt)),
   (.gtOp, 0x304, fun a b => decide (b.toInt < a.toInt)),
   (.geOp, 0x305, fun a b => decide (b.toInt ≤ a.toInt)),
   (.ult, 0x306, fun a b => decide (a.toNat < b.toNat)),
   (.uge, 0x307, fun a b => decide (b.toNat ≤ a.toNat))]

/-- The stack instructions: command, code, items taken, and what they leave, deepest item first (R298). -/
def stackMoves : List ((Nat → Instr) × Nat × Nat × (List W48 → List W48)) :=
  [(.nop, 0x000, 0, fun _ => []),
   (.dup, 0x001, 1, fun | [a] => [a, a] | _ => []),
   (.drop, 0x002, 1, fun _ => []),
   (.swap, 0x003, 2, fun | [a, b] => [b, a] | _ => []),
   (.overOp, 0x004, 2, fun | [a, b] => [a, b, a] | _ => []),
   (.rot, 0x005, 3, fun | [a, b, c] => [b, c, a] | _ => []),
   (.nip, 0x006, 2, fun | [_, b] => [b] | _ => []),
   (.tuck, 0x007, 2, fun | [a, b] => [b, a, b] | _ => [])]

/-- Saturating instructions of two items: command, code, cycles, the exact result before saturation (R306). -/
def saturating : List ((Nat → Instr) × Nat × Nat × (Int → Int → Int)) :=
  [(.adds, 0x800, 1, fun a b => a + b),
   (.subs, 0x801, 1, fun a b => a - b),
   (.mulq, 0x804, 2, fun a b => roundDiv (a * b) (2 ^ 24))]

/-- The instructions that only Ranger has, and timer reads: command, code, what they push (R305). -/
def timerReads : List ((Nat → Instr) × Nat × Nat × (State → Nat → List W48)) :=
  [(.tcnt, 0x712, 2, fun s n => [(getTimer s n).count]),
   (.tcapa, 0x713, 2, fun s n => [(getTimer s n).capA, (getTimer s n).capTA]),
   (.tcapb, 0x714, 2, fun s n => [(getTimer s n).capB, (getTimer s n).capTB]),
   (.tstat, 0x715, 1, fun s n => [((tmrStat s n).setWidth 8).setWidth 48])]

/-- A result of Q23.24 arithmetic: saturated, and whether it had to be (R306). -/
def saturate (v : Int) : W48 × Bool :=
  (BitVec.ofInt 48 (max (-(2 ^ 47)) (min (2 ^ 47 - 1) v)), decide (v < -(2 ^ 47) ∨ 2 ^ 47 - 1 < v))

/-- Processor p's program counter takes a value. -/
def jump (p : Nat) (t : Nat) (s : State) : State := setProc p { procOf s p with pc := t } s

/-- The target of a branch at slot address a with operand v (R292). -/
def branchTo (a v : Nat) : Int := (a : Int) + 2 + (BitVec.ofNat 8 v).toInt

/-- What a fault leaves of an instruction: nothing of its own effect (R295, R310). -/
def withoutEffect (p next n : Nat) (s : State) : State := setProc p (procOf s p) (entered p next n s)

/-- The program counter of processor p. -/
def pcOf (s : State) (p : Nat) : Nat := (procOf s p).pc

end Sys2Proof.Claims

open Sys2Proof Sys2Proof.Machine Sys2Proof.Claims

/-! ### Event engines and Ranger: instructions (R289–R310) -/

/-- R298: the stack instructions leave what their rows name, at one cycle; nothing else of the hub changes. -/
def Sys2Proof.Claims.StackMoves : Prop :=
  ∀ (p : Nat) (s : State), ∀ r ∈ stackMoves, At p r.2.1 s → Affords p 1 s →
    ∀ items : List W48, items.length = r.2.2.1 → items.reverse <+: (procOf s p).stack →
    (procOf s p).stack.length - r.2.2.1 + (r.2.2.2 items).length ≤ 32 →
    exec (r.1 p) s = .next (leaves p r.2.2.1 (r.2.2.2 items) (entered p (pcOf s p + 1) 1 s))

/-- R298, R291, R290: DEPTH, LITS, PICK, LIT8 and LITW push one word; a PICK beyond the depth is OSUNF. -/
def Sys2Proof.Claims.Literals : Prop :=
  ∀ (p : Nat) (s : State), (procOf s p).stack.length < 32 →
    (At p 0x008 s → Affords p 1 s →
      exec (.depth p) s = .next (leaves p 0 [BitVec.ofNat 48 (procOf s p).stack.length] (entered p (pcOf s p + 1) 1 s))) ∧
    (∀ k < 32, At p (0x020 + k) s → Affords p 1 s →
      exec (.lits p) s = .next (leaves p 0 [BitVec.ofInt 48 ((k : Int) - 16)] (entered p (pcOf s p + 1) 1 s))) ∧
    (∀ k < 32, At p (0x040 + k) s → Affords p 1 s → ∀ x, (procOf s p).stack[k]? = some x →
      exec (.pick p) s = .next (leaves p 0 [x] (entered p (pcOf s p + 1) 1 s))) ∧
    (∀ k < 32, At p (0x040 + k) s → Affords p 1 s → (procOf s p).stack.length ≤ k →
      exec (.pick p) s = .next (procFault p 5 (pcOf s p) s)) ∧
    (∀ v < 256, At p 0x010 s → Affords p 1 s → fetchSlot s p (pcOf s p + 1) = .got v →
      exec (.lit8 p) s = .next (leaves p 0 [(BitVec.ofNat 8 v).signExtend 48] (entered p (pcOf s p + 2) 1 s))) ∧
    (∀ w, At p 0x011 s → Affords p 2 s → fetchWord s p (pcOf s p / 4 + 1) = .got w →
      exec (.litw p) s = .next (leaves p 0 [w] (entered p (4 * (pcOf s p / 4 + 2)) 2 s)))

/-- The statements StackMoves and Literals together. -/
def Obligations.StackAndLiterals : Prop := StackMoves ∧ Literals


/-- R299, R300, R301: the instructions of one item, each at the cycles of its row. -/
def Sys2Proof.Claims.OneItem : Prop :=
  ∀ (p : Nat) (s : State) (a : W48) (rest : List W48), (procOf s p).stack = a :: rest → rest.length < 32 →
    ∀ r ∈ oneInOne, At p r.2.1 s → Affords p r.2.2.1 s →
    exec (r.1 p) s = .next (leaves p 1 [r.2.2.2 a] (entered p (pcOf s p + 1) r.2.2.1 s))

/-- R299, R300: the instructions of two items, modulo 2^48; a shift count of 48 or more leaves 0 or the sign. -/
def Sys2Proof.Claims.TwoItems : Prop :=
  ∀ (p : Nat) (s : State) (a b : W48) (rest : List W48), (procOf s p).stack = b :: a :: rest → rest.length < 31 →
    ∀ r ∈ twoInOne, At p r.2.1 s → Affords p r.2.2.1 s →
    exec (r.1 p) s = .next (leaves p 2 [r.2.2.2 a b] (entered p (pcOf s p + 1) r.2.2.1 s))

/-- R301, R296: a comparison yields all ones for true and 0 for false. -/
def Sys2Proof.Claims.Comparisons : Prop :=
  ∀ (p : Nat) (s : State) (a b : W48) (rest : List W48), (procOf s p).stack = b :: a :: rest → rest.length < 31 →
    ∀ r ∈ comparisons, At p r.2.1 s → Affords p 1 s →
    exec (r.1 p) s = .next (leaves p 2 [if r.2.2 a b then BitVec.allOnes 48 else 0] (entered p (pcOf s p + 1) 1 s))

/-- R299: DIV truncates towards zero and MOD has the sign of its dividend, where b is not 0. FaultOrder states
DIVZ where it is. -/
def Sys2Proof.Claims.DivMod : Prop :=
  ∀ (p : Nat) (s : State) (a b : W48) (rest : List W48), (procOf s p).stack = b :: a :: rest → rest.length < 31 →
    Affords p 26 s →
    (At p 0x106 s → b ≠ 0 → exec (.div p) s =
      .next (leaves p 2 [BitVec.ofInt 48 (a.toInt.tdiv b.toInt)] (entered p (pcOf s p + 1) 26 s))) ∧
    (At p 0x107 s → b ≠ 0 → exec (.mod p) s =
      .next (leaves p 2 [BitVec.ofInt 48 (a.toInt.tmod b.toInt)] (entered p (pcOf s p + 1) 26 s)))

/-- R300, R301: FIELD shifts right by l and keeps w bits; WITHIN is true from lo to hi. -/
def Sys2Proof.Claims.ThreeItems : Prop :=
  ∀ (p : Nat) (s : State) (x l h : W48) (rest : List W48), (procOf s p).stack = h :: l :: x :: rest → rest.length < 30 →
    Affords p 1 s →
    (At p 0x207 s → exec (.field p) s =
      .next (leaves p 3 [BitVec.ofNat 48 ((x >>> l.toNat).toNat % 2 ^ h.toNat)] (entered p (pcOf s p + 1) 1 s))) ∧
    (At p 0x30A s → exec (.within p) s =
      .next (leaves p 3 [if l.toInt ≤ x.toInt ∧ x.toInt ≤ h.toInt then BitVec.allOnes 48 else 0] (entered p (pcOf s p + 1) 1 s)))

/-- R300: SHLK, SHRK and SARK shift by the k of their code. -/
def Sys2Proof.Claims.ConstantShifts : Prop :=
  ∀ (p : Nat) (s : State) (a : W48) (rest : List W48), (procOf s p).stack = a :: rest → rest.length < 32 → Affords p 1 s →
    ∀ k < 48,
      (At p (0x240 + k) s → exec (.shlk p) s = .next (leaves p 1 [a <<< k] (entered p (pcOf s p + 1) 1 s))) ∧
      (At p (0x270 + k) s → exec (.shrk p) s = .next (leaves p 1 [a >>> k] (entered p (pcOf s p + 1) 1 s))) ∧
      (At p (0x2A0 + k) s → exec (.sark p) s = .next (leaves p 1 [a.sshiftRight k] (entered p (pcOf s p + 1) 1 s)))

/-- The statements OneItem, TwoItems, Comparisons, ThreeItems and ConstantShifts together. -/
def Obligations.LogicAndComparisons : Prop := OneItem ∧ TwoItems ∧ Comparisons ∧ ThreeItems ∧ ConstantShifts


/-- R306: the saturating and fixed-point instructions saturate to 48 bits, and one that saturates sets the flag that the
invocation's records carry; CLAMP; DIVQ by 0 is DIVZ. -/
def Sys2Proof.Claims.FixedPoint : Prop :=
  ∀ (p : Nat) (s : State),
    (∀ (b : W48) (rest : List W48), (procOf s p).stack = b :: rest → rest.length < 32 →
      (At p 0x802 s → Affords p 1 s → exec (.negs p) s =
        .next (setSat p (saturate (-b.toInt)).2 (leaves p 1 [(saturate (-b.toInt)).1] (entered p (pcOf s p + 1) 1 s)))) ∧
      (At p 0x803 s → Affords p 1 s → exec (.abss p) s =
        .next (setSat p (saturate b.toInt.natAbs).2 (leaves p 1 [(saturate b.toInt.natAbs).1] (entered p (pcOf s p + 1) 1 s)))) ∧
      (At p 0x807 s → Affords p 26 s → exec (.sqrtq p) s =
        .next (leaves p 1 [BitVec.ofNat 48 (roundSqrt (b.toInt.toNat * 2 ^ 24) 1)] (entered p (pcOf s p + 1) 26 s)))) ∧
    (∀ (a b : W48) (rest : List W48), (procOf s p).stack = b :: a :: rest → rest.length < 31 →
      (∀ r ∈ saturating, At p r.2.1 s → Affords p r.2.2.1 s → exec (r.1 p) s =
        .next (setSat p (saturate (r.2.2.2 a.toInt b.toInt)).2
          (leaves p 2 [(saturate (r.2.2.2 a.toInt b.toInt)).1] (entered p (pcOf s p + 1) r.2.2.1 s)))) ∧
      (At p 0x806 s → Affords p 26 s → b ≠ 0 → exec (.divq p) s =
        .next (setSat p (saturate (roundDiv (a.toInt * 2 ^ 24 * b.toInt.sign) b.toInt.natAbs)).2
          (leaves p 2 [(saturate (roundDiv (a.toInt * 2 ^ 24 * b.toInt.sign) b.toInt.natAbs)).1] (entered p (pcOf s p + 1) 26 s)))) ∧
      (At p 0x806 s → Affords p 26 s → b = 0 →
        exec (.divq p) s = .next (procFault p 12 (pcOf s p) (withoutEffect p (pcOf s p + 1) 26 s)))) ∧
    (∀ (x a b : W48) (rest : List W48), (procOf s p).stack = b :: a :: x :: rest → rest.length < 30 →
      (At p 0x805 s → Affords p 2 s → exec (.macq p) s =
        .next (setSat p (saturate (x.toInt + roundDiv (a.toInt * b.toInt) (2 ^ 24))).2
          (leaves p 3 [(saturate (x.toInt + roundDiv (a.toInt * b.toInt) (2 ^ 24))).1] (entered p (pcOf s p + 1) 2 s)))) ∧
      (At p 0x808 s → Affords p 1 s → exec (.clampOp p) s =
        .next (leaves p 3 [BitVec.ofInt 48 (min (max x.toInt a.toInt) b.toInt)] (entered p (pcOf s p + 1) 1 s))))

/-- R306: a quotient is rounded to the nearest integer, a tie to the even one; a square root to the nearest, where no tie arises. -/
def Sys2Proof.Claims.RoundsToEven : Prop :=
  (∀ (n : Int) (d : Nat), 0 < d →
    2 * (n - d * roundDiv n d).natAbs ≤ d ∧ (2 * (n - d * roundDiv n d).natAbs = d → roundDiv n d % 2 = 0)) ∧
  (∀ m < 2 ^ 71, let r := roundSqrt m 1; (r = 0 ∨ (2 * r - 1) ^ 2 < 4 * m) ∧ 4 * m < (2 * r + 1) ^ 2)

/-- The statements DivMod, FixedPoint and RoundsToEven together. -/
def Obligations.DivisionAndFixedPoint : Prop := DivMod ∧ FixedPoint ∧ RoundsToEven


/-- R292, R302: branches, calls, jumps and returns that lead to a slot that exists. -/
def Sys2Proof.Claims.ControlFlow : Prop :=
  ∀ (p : Nat) (s : State) (v : Nat), v < 256 → Affords p 2 s → fetchSlot s p (pcOf s p + 1) = .got v →
    slotMapped s p (branchTo (pcOf s p) v) = true →
    (At p 0x400 s → exec (.bra p) s = .next (jump p (branchTo (pcOf s p) v).toNat (entered p (pcOf s p + 2) 2 s))) ∧
    (At p 0x403 s → (procOf s p).rets.length < 16 → exec (.call p) s =
      .next (let t := jump p (branchTo (pcOf s p) v).toNat (entered p (pcOf s p + 2) 2 s)
        setProc p { procOf t p with rets := (pcOf s p + 2) :: (procOf s p).rets } t)) ∧
    (∀ f rest, (procOf s p).stack = f :: rest → rest.length < 32 →
      (At p 0x401 s → f = 0 → exec (.bz p) s =
        .next (jump p (branchTo (pcOf s p) v).toNat (leaves p 1 [] (entered p (pcOf s p + 2) 2 s)))) ∧
      (At p 0x401 s → f ≠ 0 → exec (.bz p) s = .next (leaves p 1 [] (entered p (pcOf s p + 2) 1 s))) ∧
      (At p 0x402 s → f ≠ 0 → exec (.bnz p) s =
        .next (jump p (branchTo (pcOf s p) v).toNat (leaves p 1 [] (entered p (pcOf s p + 2) 2 s)))) ∧
      (At p 0x402 s → f = 0 → exec (.bnz p) s = .next (leaves p 1 [] (entered p (pcOf s p + 2) 1 s))))

/-- R302, R307: jumps to an address from the stack, returns, and the repeat count with its loop. -/
def Sys2Proof.Claims.JumpsAndLoops : Prop :=
  ∀ (p : Nat) (s : State), Affords p 2 s →
    (∀ t rest, (procOf s p).stack = t :: rest → rest.length < 32 → slotMapped s p t.toInt = true →
      (At p 0x404 s → exec (.jmpi p) s = .next (jump p t.toInt.toNat (leaves p 1 [] (entered p (pcOf s p + 1) 2 s)))) ∧
      (At p 0x405 s → (procOf s p).rets.length < 16 → exec (.calli p) s =
        .next (let u := jump p t.toInt.toNat (leaves p 1 [] (entered p (pcOf s p + 1) 2 s))
          setProc p { procOf u p with rets := (pcOf s p + 1) :: (procOf s p).rets } u))) ∧
    (∀ a rest, (procOf s p).rets = a :: rest → (procOf s p).stack.length ≤ 32 → At p 0x406 s → exec (.ret p) s =
      .next (setProc p { procOf (entered p (pcOf s p + 1) 2 s) p with rets := rest, pc := a } (entered p (pcOf s p + 1) 2 s))) ∧
    (∀ n rest, (procOf s p).stack = n :: rest → rest.length < 32 → At p 0x901 s → exec (.setrc p) s =
      .next (let u := leaves p 1 [] (entered p (pcOf s p + 1) 1 s)
        setProc p { procOf u p with rc := n.setWidth 16 } u)) ∧
    ((procOf s p).stack.length < 32 → At p 0x902 s → exec (.getrc p) s =
      .next (leaves p 0 [(procOf s p).rc.setWidth 48] (entered p (pcOf s p + 1) 1 s))) ∧
    (∀ v < 256, (procOf s p).stack.length ≤ 32 → fetchSlot s p (pcOf s p + 1) = .got v →
      slotMapped s p (branchTo (pcOf s p) v) = true → At p 0x903 s → exec (.loop p) s =
      .next (let u := entered p (pcOf s p + 2) (if 2 ≤ (procOf s p).rc.toNat then 2 else 1) s
        setProc p { procOf u p with
          rc := (procOf s p).rc - (if (procOf s p).rc = 0 then 0 else 1),
          pc := if 2 ≤ (procOf s p).rc.toNat then (branchTo (pcOf s p) v).toNat else pcOf s p + 2 } u))

/-- The statements ControlFlow and JumpsAndLoops together. -/
def Obligations.BranchesAndLoops : Prop := ControlFlow ∧ JumpsAndLoops


/-- R269, R270, R302: END, and RET with an empty return stack, end the invocation of an engine: it goes idle with its
stacks cleared, its largest cycle count is kept, and, after an ICU invocation, the next ICU trigger may arise; nothing else
of the hub changes. Readings it rests on: log entry 8. -/
def Obligations.InvocationEnds : Prop :=
  ∀ (p : Nat) (s : State), p < 16 → (procOf s p).stack.length ≤ 32 →
    let ended (n : Nat) : State := setEngine p { getEngine s p with
        run := .idle, kind := 0, cycMax := max (getEngine s p).cycMax ((procOf s p).cycles + n),
        proc := { procOf s p with pc := pcOf s p + 1, cycles := (procOf s p).cycles + n, stack := [], rets := [] } } s
    (At p 0x407 s → Affords p 1 s → exec (.endOp p) s =
      .next (if (getEngine s p).kind = 5 then icuTrigger p (ended 1) else ended 1)) ∧
    (At p 0x406 s → Affords p 2 s → (procOf s p).rets = [] → exec (.ret p) s =
      .next (if (getEngine s p).kind = 5 then icuTrigger p (ended 2) else ended 2))

/-- R303: loads and stores of the data space. A load takes the word, a store replaces it, and every other word of the
hub keeps its value. -/
def Sys2Proof.Claims.DataSpace : Prop :=
  ∀ (p : Nat) (s : State) (a : W48), a.toNat < dataSize p → dataBad s p a.toNat = false → Affords p 2 s →
    (∀ rest, (procOf s p).stack = a :: rest →
      (rest.length < 32 → At p 0x500 s → exec (.ld p false) s =
        .next (leaves p 1 [dataR s p a.toNat] (entered p (pcOf s p + 1) 2 s))) ∧
      (rest.length < 31 → At p 0x504 s → exec (.ldp p false) s =
        .next (leaves p 1 [a + 1, dataR s p a.toNat] (entered p (pcOf s p + 1) 2 s)))) ∧
    (∀ w rest, (procOf s p).stack = a :: w :: rest → rest.length < 31 →
      (At p 0x501 s → exec (.st p) s = .next (leaves p 2 [] (setData p a.toNat w (entered p (pcOf s p + 1) 1 s)))) ∧
      (At p 0x505 s → exec (.stp p) s = .next (leaves p 2 [a + 1] (setData p a.toNat w (entered p (pcOf s p + 1) 1 s)))) ∧
      (At p 0x506 s → Affords p 3 s → exec (.addm p false) s =
        .next (leaves p 2 [] (setData p a.toNat (dataR s p a.toNat + w) (entered p (pcOf s p + 1) 3 s))))) ∧
    (a.toNat < 4096 → fetchSlot s p (pcOf s p + 1) = .got a.toNat → (procOf s p).stack.length < 32 → At p 0x502 s →
      exec (.ldi p false) s = .next (leaves p 0 [dataR s p a.toNat] (entered p (pcOf s p + 2) 2 s))) ∧
    (∀ w rest, (procOf s p).stack = w :: rest → rest.length < 32 → a.toNat < 4096 →
      fetchSlot s p (pcOf s p + 1) = .got a.toNat → At p 0x503 s →
      exec (.sti p) s = .next (leaves p 1 [] (setData p a.toNat w (entered p (pcOf s p + 2) 1 s))))

/-- R266, R303: an engine loads its local registers, stores to CLAIM and COMPLETE, and any other store there is ignored. -/
def Obligations.LocalRegisters : Prop :=
  ∀ (p : Nat) (s : State) (a : W48), p < 16 → 0x1000 ≤ a.toNat → a.toNat < 0x1100 → Affords p 2 s →
    (∀ rest, (procOf s p).stack = a :: rest → rest.length < 32 → At p 0x500 s → exec (.ld p false) s =
      .next (leaves p 1 [
        if a = 0x1000 then (icuView s p).setWidth 48
        else if a = 0x1001 then ((icuView s p) >>> 48).setWidth 48
        else if a = 0x1002 then ((icuView s p) >>> 96).setWidth 48
        else if a = 0x1003 then ((icuFirst (icuView s p)).map (BitVec.ofNat 48)).getD (BitVec.allOnes 48)
        else if a = 0x1006 then (icuActive s p).setWidth 48
        else if a = 0x1007 then ((icuActive s p) >>> 48).setWidth 48
        else if a = 0x1008 then ((icuActive s p) >>> 96).setWidth 48
        else if a = 0x1009 then BitVec.ofNat 48 ((procOf s p).budget - (procOf s p).cycles)
        else if a = 0x100A then BitVec.ofNat 48 p
        else 0] (entered p (pcOf s p + 1) 2 s))) ∧
    (∀ w rest, (procOf s p).stack = a :: w :: rest → rest.length < 31 → At p 0x501 s → exec (.st p) s =
      .next (leaves p 2 [] (
        if a = 0x1004 then icuClaim p w.toNat (entered p (pcOf s p + 1) 1 s)
        else if a = 0x1005 then icuComplete p w.toNat (entered p (pcOf s p + 1) 1 s)
        else entered p (pcOf s p + 1) 1 s)))

/-- R265, R303: a read of a DRAM word whose parity check fails marks the word and raises DPAR at the load; a store to the
word clears the mark. Readings it rests on: log entry 5. -/
def Sys2Proof.Claims.DataParity : Prop :=
  ∀ (p : Nat) (s : State) (a : W48), p < 16 → a.toNat < 4096 → dataBad s p a.toNat = false → Affords p 3 s →
    let u : State := { s with poisoned := dramA p a.toNat :: s.poisoned }
    (∀ rest, (procOf s p).stack = a :: rest →
      (rest.length < 32 → At p 0x500 s → exec (.ld p true) s = .next (procFault p 9 (pcOf s p) (withoutEffect p (pcOf s p + 1) 2 u))) ∧
      (rest.length < 31 → At p 0x504 s → exec (.ldp p true) s = .next (procFault p 9 (pcOf s p) (withoutEffect p (pcOf s p + 1) 2 u)))) ∧
    (fetchSlot s p (pcOf s p + 1) = .got a.toNat → (procOf s p).stack.length < 32 → At p 0x502 s →
      exec (.ldi p true) s = .next (procFault p 9 (pcOf s p) (withoutEffect p (pcOf s p + 2) 2 u))) ∧
    (∀ w rest, (procOf s p).stack = a :: w :: rest → rest.length < 31 → At p 0x506 s →
      exec (.addm p true) s = .next (procFault p 9 (pcOf s p) (withoutEffect p (pcOf s p + 1) 3 u))) ∧
    (∀ w, dataBad (setData p a.toNat w u) p a.toNat = false)

/-- R303, R310: an address outside the data space raises DADDR at the load or store, and nothing of its own effect
takes place. -/
def Sys2Proof.Claims.DataAddressFault : Prop :=
  ∀ (p : Nat) (s : State) (a : W48), dataSize p ≤ a.toNat → (p ≠ rangerP → 0x1100 ≤ a.toNat) → Affords p 2 s →
    (∀ rest, (procOf s p).stack = a :: rest → rest.length < 31 →
      (At p 0x500 s → exec (.ld p false) s = .next (procFault p 7 (pcOf s p) (withoutEffect p (pcOf s p + 1) 2 s))) ∧
      (At p 0x504 s → exec (.ldp p false) s = .next (procFault p 7 (pcOf s p) (withoutEffect p (pcOf s p + 1) 2 s)))) ∧
    (∀ w rest, (procOf s p).stack = a :: w :: rest → rest.length < 31 →
      (At p 0x501 s → exec (.st p) s = .next (procFault p 7 (pcOf s p) (withoutEffect p (pcOf s p + 1) 1 s))) ∧
      (At p 0x505 s → exec (.stp p) s = .next (procFault p 7 (pcOf s p) (withoutEffect p (pcOf s p + 1) 1 s))))

/-- The statements DataSpace, DataParity and DataAddressFault together. -/
def Obligations.DataMemory : Prop := DataSpace ∧ DataParity ∧ DataAddressFault


namespace Sys2Proof.Claims
open Sys2Proof Sys2Proof.Machine

/-- The quality and the flags of a value that was read join the invocation's (R273, R304). -/
def withRead (p : Nat) (y : Sample) (s : State) : State :=
  let r := procOf s p
  setProc p { r with qual := qworse r.qual y.qual, sat := r.sat || y.sat, ovr := r.ovr || y.ovr, filled := r.filled || y.filled } s

/-- The codes that R293 and R453 define for a processor. -/
def definedCode (p code : Nat) (s : State) : Bool :=
  let between (l h : Nat) : Bool := decide (l ≤ code ∧ code ≤ h)
  between 0x000 0x008 || between 0x010 0x011 || between 0x020 0x05F || between 0x100 0x10B || between 0x200 0x209 ||
  between 0x240 0x2CF || between 0x300 0x30A || between 0x400 0x407 || between 0x500 0x506 || between 0x600 0x601 ||
  (between 0x602 0x605 && p != rangerP) || between 0x606 0x608 || between 0x700 0x701 || (between 0x702 0x702 && p != rangerP) ||
  between 0x710 0x717 || between 0x800 0x808 || between 0x900 0x903 || between 0x9C0 0x9FF ||
  (between 0xE00 0xE08 && p == rangerP) || (between 0xF00 0xF3F && bit (wordR s (spliceA (code - 0xF00) 0)) 47)

/-- Micro-operations that put a value made of TD, TA and TB into TD: UOP and the value (R315). -/
def microOps : List (Nat × (W48 → W48 → W48 → W48)) :=
  [(0x04, fun _ a _ => a), (0x06, fun _ a b => a + b), (0x07, fun _ a b => a - b),
   (0x0A, fun _ a b => BitVec.ofInt 48 (a.toInt * b.toInt)), (0x0B, fun _ a b => BitVec.ofInt 48 (a.toInt * b.toInt / 2 ^ 48)),
   (0x0D, fun _ a _ => -a), (0x0E, fun _ a _ => if a.toInt < 0 then -a else a),
   (0x0F, fun _ a b => if b.toInt < a.toInt then b else a), (0x10, fun _ a b => if b.toInt < a.toInt then a else b),
   (0x11, fun _ a b => a &&& b), (0x12, fun _ a b => a ||| b), (0x13, fun _ a b => a ^^^ b), (0x14, fun _ a _ => ~~~a),
   (0x15, fun _ a n => a <<< n.toNat), (0x16, fun _ a n => a >>> n.toNat), (0x17, fun _ a n => a.sshiftRight n.toNat),
   (0x1A, fun _ a b => if a = b then BitVec.allOnes 48 else 0), (0x1B, fun _ a b => if a.toInt < b.toInt then BitVec.allOnes 48 else 0),
   (0x1C, fun _ a b => if a.toNat < b.toNat then BitVec.allOnes 48 else 0), (0x1D, fun t a b => if t = 0 then b else a),
   (0x21, fun t _ _ => t + 1), (0x22, fun t _ _ => t - 1),
   (0x27, fun t a b => BitVec.ofInt 48 (min (max t.toInt a.toInt) b.toInt))]

/-- Micro-operations that saturate: UOP and the exact value (R306, R315). -/
def microSat : List (Nat × (Int → Int → Int)) :=
  [(0x08, fun a b => a + b), (0x09, fun a b => a - b), (0x0C, fun a b => roundDiv (a * b) (2 ^ 24)), (0x25, fun a _ => a.natAbs)]

/-- The state after micro-operations of which none faults. -/
def microRun (p : Nat) : List Nat → List W48 → State → Option State
  | [], _, s => some s
  | u :: us, t, s => match uopStep p u t s with
    | .inl r => microRun p us r.1 r.2
    | .inr _ => none

end Sys2Proof.Claims

open Sys2Proof Sys2Proof.Machine Sys2Proof.Claims

/-- R304, R273: GET and GETT push the channel's latest calibrated value, with its short time, and the invocation takes on
its quality and flags; a channel without one gives 0 with stamp 0, and the filled flag. -/
def Sys2Proof.Claims.FabricReads : Prop :=
  ∀ (p c : Nat) (s : State), c < 2048 → fetchSlot s p (pcOf s p + 1) = .got c → Affords p 4 s →
    (∀ y, chEn s c = true → chIsEvent s c = false → (getChan s c).last = some y →
      (At p 0x600 s → (procOf s p).stack.length < 32 → exec (.getOp p) s =
        .next (leaves p 0 [y.value] (withRead p y (entered p (pcOf s p + 2) 4 s)))) ∧
      (At p 0x601 s → (procOf s p).stack.length < 31 → exec (.gett p) s =
        .next (leaves p 0 [y.value, y.stamp.setWidth 48] (withRead p y (entered p (pcOf s p + 2) 4 s))))) ∧
    (chEn s c = false ∨ chIsEvent s c = true ∨ (getChan s c).last = none →
      (At p 0x600 s → (procOf s p).stack.length < 32 → exec (.getOp p) s =
        .next (leaves p 0 [0] (withRead p { filled := true } (entered p (pcOf s p + 2) 4 s)))) ∧
      (At p 0x601 s → (procOf s p).stack.length < 31 → exec (.gett p) s =
        .next (leaves p 0 [0, 0] (withRead p { filled := true } (entered p (pcOf s p + 2) 4 s)))))

/-- R273, R304: PUT gives its value to the channel that takes the output, and EMIT its words to the stream of the emit
channel, both with the invocation's stamp, quality and flags; where none takes them, both raise EMITBAD. -/
def Sys2Proof.Claims.FabricWrites : Prop :=
  ∀ (p v : Nat) (s : State), p < 16 → v < 256 → fetchSlot s p (pcOf s p + 1) = .got v →
    (∀ w rest, (procOf s p).stack = w :: rest → rest.length < 32 → At p 0x602 s → Affords p 2 s →
      (∀ c, chanOfSource s 8 (p * 256 + v) = some c → exec (.put p) s =
        .next (channelRaw c w (procSample (procOf s p) w) (leaves p 1 [] (entered p (pcOf s p + 2) 2 s)))) ∧
      (chanOfSource s 8 (p * 256 + v) = none → exec (.put p) s =
        .next (procFault p 11 (pcOf s p) (withoutEffect p (pcOf s p + 2) 2 s)))) ∧
    (∀ (n : W48) (ws rest : List W48), (procOf s p).stack = n :: (ws.reverse ++ rest) → n.toNat = ws.length → 1 ≤ ws.length →
      ws.length ≤ 16 → rest.length ≤ 32 → At p 0x603 s → Affords p (2 + ws.length) s →
      (∀ k, v ≠ 255 → streamOf s 2 p v = some k → exec (.emit p) s =
        .next (offerRec k (procSample (procOf s p) (ws.getD 0 0))
          { type := 11, sub := 0, num := k, flags := sampleFlags (procSample (procOf s p) (ws.getD 0 0)),
            time := (procOf s p).stamp, era := (procOf s p).era, payload := ws }
          (leaves p (ws.length + 1) [] (entered p (pcOf s p + 2) (2 + ws.length) s)))) ∧
      (v = 255 ∨ streamOf s 2 p v = none → exec (.emit p) s =
        .next (procFault p 11 (pcOf s p) (withoutEffect p (pcOf s p + 2) (2 + ws.length) s)))) ∧
    (∀ (n : W48) rest, (procOf s p).stack = n :: rest → rest.length < 32 → (n = 0 ∨ 17 ≤ n.toNat) → At p 0x603 s → Affords p 2 s →
      exec (.emit p) s = .next (procFault p 11 (pcOf s p) (withoutEffect p (pcOf s p + 2) 2 s)))

/-- The statements FabricReads and FabricWrites together. -/
def Obligations.FabricInstructions : Prop := FabricReads ∧ FabricWrites


/-- R304: EVOA and EVOD set and clear this engine's drive of a pin, which follows where its EVOn_CFG selects this engine and
is counted otherwise; EVOCLR, SWSET and SETLVL act on the event outputs, the software sources and a spectral level. -/
def Sys2Proof.Claims.SignalInstructions : Prop :=
  ∀ (p v : Nat) (s : State), fetchSlot s p (pcOf s p + 1) = .got v → (procOf s p).stack.length ≤ 32 → Affords p 1 s →
    (∀ on : Bool, v < 8 → p < 16 → At p (if on then 0x604 else 0x605) s →
      let e := entered p (pcOf s p + 2) 1 s
      let d := setEngine p { getEngine e p with
        evo := if on then (getEngine s p).evo ||| (1#8 <<< v) else (getEngine s p).evo &&& ~~~(1#8 <<< v) } e
      exec (if on then .evoa p else .evod p) s =
        .next (if bits (cfgR s (evoA v)) 7 5 = 2 ∧ bits (cfgR s (evoA v)) 12 8 = p then evoFollow v d else bump evoWerrA d)) ∧
    (v < 8 → At p 0x606 s → exec (.evoclr p) s = .next (evoClear (2 ^ v) (entered p (pcOf s p + 2) 1 s))) ∧
    (v < 8 → At p 0x607 s → exec (.swset p) s =
      .next (ringTrigger 5 v (setIcu (114 + v) { getIcu s (114 + v) with latch := true } (entered p (pcOf s p + 2) 1 s)))) ∧
    (∀ l rest, v < 16 → (procOf s p).stack = l :: rest → At p 0x608 s → exec (.setlvl p) s =
      .next (leaves p 1 [] (setCfg (setLvlA (v / 8) (v % 8)) (BitVec.ofInt 32 (max (-2048) (min 2047 l.toInt) % 4096))
        (entered p (pcOf s p + 2) 1 s))))

/-- R305: NOW and NOWF push the device time of the cycle; TICK gives an edge to every timer that selects this engine; TCMD acts as a write to
TMR_CMD; TCNT, TCAPA, TCAPB and TSTAT push what the timer holds, TCMPA and TCMPB set a compare value, and TCLR clears its flags. -/
def Sys2Proof.Claims.TimeInstructions : Prop :=
  ∀ (p : Nat) (s : State), Affords p 2 s →
    ((procOf s p).stack.length < 32 → At p 0x700 s → exec (.now p) s =
      .next (leaves p 0 [(ticks s).setWidth 48] (entered p (pcOf s p + 1) 1 s))) ∧
    ((procOf s p).stack.length < 31 → At p 0x701 s → exec (.nowf p) s =
      .next (leaves p 0 [(ticks s).setWidth 48, (ticks s >>> 48).setWidth 48] (entered p (pcOf s p + 1) 1 s))) ∧
    (p < 16 → (procOf s p).stack.length ≤ 32 → At p 0x702 s → exec (.tick p) s =
      .next (forEach ((List.range 32).filter (fun m => decide (bits (cfgR s (tmrA m)) 3 0 = 14 ∧ bits (cfgR s (tmrA m)) 8 4 = p))) edge
        (entered p (pcOf s p + 1) 1 s))) ∧
    (∀ c rest, (procOf s p).stack = c :: rest → rest.length < 32 → At p 0x717 s → exec (.tcmd p) s =
      .next (leaves p 1 [] (if bits c 2 0 = 7 then werr (entered p (pcOf s p + 1) 2 s)
        else timerCmd (bits c 2 0) (bits c 12 8) (bits c 21 16) (entered p (pcOf s p + 1) 2 s)))) ∧
    (∀ n, n < 32 → fetchSlot s p (pcOf s p + 1) = .got n →
      (∀ r ∈ timerReads, (procOf s p).stack.length < 31 → At p r.2.1 s → exec (r.1 p) s =
        .next (leaves p 0 (r.2.2.2 s n) (entered p (pcOf s p + 2) r.2.2.1 s))) ∧
      (∀ v rest, (procOf s p).stack = v :: rest → rest.length < 32 →
        (At p 0x710 s → exec (.tcmpa p) s =
          .next (leaves p 1 [] (let u := setWord (tmrA n + 0x18) v (entered p (pcOf s p + 2) 2 s)
            if (wordR u (tmrA n + 0x10)).toNat < v.toNat then raise (tmrStatA n) 4 u else u))) ∧
        (At p 0x711 s → exec (.tcmpb p) s =
          .next (leaves p 1 [] (let u := setWord (tmrA n + 0x20) v (entered p (pcOf s p + 2) 2 s)
            if (wordR u (tmrA n + 0x10)).toNat < v.toNat then raise (tmrStatA n) 4 u else u))) ∧
        (At p 0x716 s → exec (.tclr p) s =
          .next (leaves p 1 [] (setFlags (tmrStatA n) (flagR s (tmrStatA n) &&& ~~~(BitVec.ofNat 32 (v.toNat % 32)))
            (entered p (pcOf s p + 2) 1 s)))))) 

/-- The statements SignalInstructions and TimeInstructions together. -/
def Obligations.SignalAndTimeInstructions : Prop := SignalInstructions ∧ TimeInstructions


/-- R307, R308: REP and REPI run the next instruction as often as RC, latched, or the code says, each time at its cost; a
count of 0 skips it, and Ranger's registers do not change. Shown with INC, with SETRC and with a follower that has an operand. -/
def Sys2Proof.Claims.Repeats : Prop :=
  ∀ (p : Nat) (s : State),
    (∀ (a : W48) rest n, (procOf s p).stack = a :: rest → rest.length < 32 → fetchSlot s p (pcOf s p + 1) = .got 0x108 →
      Affords p (1 + n) s → (procOf s p).rep = none →
      let done (t : State) : Prop := procOf t p = { procOf s p with
          pc := pcOf s p + 2, cycles := if p = rangerP then (procOf s p).cycles else (procOf s p).cycles + (1 + n),
          stack := (a + BitVec.ofNat 48 n) :: rest } ∧ { t with engines := s.engines, mgt := s.mgt } = s
      (∀ k < 64, n = k + 1 → At p (0x9C0 + k) s → ∃ t, exec (.repi p) s = .next t ∧ done t) ∧
      ((procOf s p).rc.toNat = n → At p 0x900 s → ∃ t, exec (.rep p) s = .next t ∧ done t)) ∧
    ((procOf s p).rc = 0 → (procOf s p).rep = none → (procOf s p).stack.length ≤ 32 → Affords p 1 s → At p 0x900 s →
      (fetchSlot s p (pcOf s p + 1) = .got 0x108 → ∃ t, exec (.rep p) s = .next t ∧ pcOf t p = pcOf s p + 2) ∧
      (fetchSlot s p (pcOf s p + 1) = .got 0x502 → ∃ t, exec (.rep p) s = .next t ∧ pcOf t p = pcOf s p + 3)) ∧
    (∀ rest, (procOf s p).stack = 7 :: 8 :: 9 :: rest → rest.length < 29 → (procOf s p).rc = 3 → (procOf s p).rep = none →
      Affords p 4 s → At p 0x900 s → fetchSlot s p (pcOf s p + 1) = .got 0x901 →
      ∃ t, exec (.rep p) s = .next t ∧ (procOf t p).rc = 9 ∧ (procOf t p).stack = rest)

/-- R309: what the follower of a prefix may not be, in its order, even where the count is 0. -/
def Sys2Proof.Claims.RepeatFaults : Prop :=
  ∀ (p : Nat) (s : State) (i : Instr), i = .rep p ∧ At p 0x900 s ∨ i = .repi p ∧ (∃ k < 64, At p (0x9C0 + k) s) →
    (fetchSlot s p (pcOf s p + 1) = .unmapped → exec i s = .next (procFault p 8 (pcOf s p + 1) s)) ∧
    (fetchSlot s p (pcOf s p + 1) = .poisoned → exec i s = .next (procFault p 10 (pcOf s p + 1) s)) ∧
    (∀ code, fetchSlot s p (pcOf s p + 1) = .got code →
      (code / 256 = 4 ∨ code / 256 = 15 ∨ code = 0x903 ∨ code = 0x900 ∨ (0x9C0 ≤ code ∧ code ≤ 0x9FF) ∨ code = 0x011 →
        exec i s = .next (procFault p 2 (pcOf s p) s)) ∧
      (definedCode p code s = false → ¬(code / 256 = 4 ∨ code / 256 = 15) →
        exec i s = .next (procFault p 1 (pcOf s p + 1) s)))

/-- The statements Repeats and RepeatFaults together. -/
def Obligations.RepeatInstructions : Prop := Repeats ∧ RepeatFaults


/-- R313, R314, R315: a splice runs its micro-operations in order on four temporaries that start at 0, and costs the sum of
their cycles; each micro-operation puts its value into TD, moves the top of the stack, or moves a DRAM word. -/
def Obligations.Splices : Prop :=
  ∀ (p j : Nat) (s : State), j < 64 → (procOf s p).stack.length ≤ 32 →
    (At p (0xF00 + j) s → bit (wordR s (spliceA j 0)) 47 = true →
      let us := (List.range (bits (wordR s (spliceA j 0)) 46 43 + 1)).map
        (fun i => bits (wordR s (spliceA j (1 + i / 4))) (47 - 12 * (i % 4)) (36 - 12 * (i % 4)))
      let n := (us.map (fun u => if u / 64 ∈ [0x0A, 0x0B, 0x0C, 0x1E] then 2 else 1)).sum
      Affords p n s → ∀ t, microRun p us [0, 0, 0, 0] (entered p (pcOf s p + 1) n s) = some t → exec (.splice p) s = .next t) ∧
    (∀ (t : List W48) (d a b : Nat), t.length = 4 → d < 4 → a < 4 → b < 4 →
      let low := d * 16 + a * 4 + b
      let td := t.getD d 0
      let ta := t.getD a 0
      let tb := t.getD b 0
      (∀ r ∈ microOps, uopStep p (r.1 * 64 + low) t s = .inl (t.set d (r.2 td ta tb), s)) ∧
      (∀ r ∈ microSat, uopStep p (r.1 * 64 + low) t s =
        .inl (t.set d (saturate (r.2 ta.toInt tb.toInt)).1, setSat p (saturate (r.2 ta.toInt tb.toInt)).2 s)) ∧
      (∀ x rest, (procOf s p).stack = x :: rest →
        uopStep p (0x01 * 64 + low) t s = .inl (t.set d x, setProc p { procOf s p with stack := rest } s) ∧
        uopStep p (0x03 * 64 + low) t s = .inl (t.set d x, s)) ∧
      ((procOf s p).stack.length < 32 →
        uopStep p (0x02 * 64 + low) t s = .inl (t, setProc p { procOf s p with stack := ta :: (procOf s p).stack } s)) ∧
      uopStep p (0x05 * 64 + low) t s = .inl (t.set d ((BitVec.ofNat 4 (a * 4 + b)).signExtend 48), s) ∧
      uopStep p (0x18 * 64 + low) t s = .inl (t.set d (td <<< (a * 4 + b)), s) ∧
      uopStep p (0x19 * 64 + low) t s = .inl (t.set d (td.sshiftRight (a * 4 + b)), s) ∧
      uopStep p (0x26 * 64 + low) t s = .inl (t.set d (td + (BitVec.ofNat 4 (a * 4 + b)).signExtend 48), s) ∧
      uopStep p (0x20 * 64 + low) t s = .inl (t.set d ((ticks s).setWidth 48), s) ∧
      (ta.toNat < 4096 → dataBad s p ta.toNat = false → uopStep p (0x1E * 64 + low) t s = .inl (t.set d (dataR s p ta.toNat), s)) ∧
      (tb.toNat < 4096 → uopStep p (0x1F * 64 + low) t s = .inl (t, setData p tb.toNat ta s)) ∧
      (4096 ≤ ta.toNat → uopStep p (0x1E * 64 + low) t s = .inr (7, s)) ∧
      (4096 ≤ tb.toNat → uopStep p (0x1F * 64 + low) t s = .inr (7, s)) ∧
      ((procOf s p).stack = [] → uopStep p (0x01 * 64 + low) t s = .inr (5, s) ∧ uopStep p (0x03 * 64 + low) t s = .inr (5, s)) ∧
      (32 ≤ (procOf s p).stack.length → uopStep p (0x02 * 64 + low) t s = .inr (4, s)))

/-- R293, R294, R452, R453: a code that no class defines raises UNDEF at its slot when execution reaches it; a word that
cannot be fetched raises IADDR or IECC first, and a defined code raises nothing. -/
def Sys2Proof.Claims.UndefinedCodes : Prop :=
  ∀ (p code : Nat) (s : State), stopped s = false → procRuns s p = true →
    (fetchSlot s p (pcOf s p) = .got code → definedCode p code s = false →
      exec (.undefinedOpcode p) s = .next (procFault p 1 (pcOf s p) s)) ∧
    (fetchSlot s p (pcOf s p) = .got code → definedCode p code s = true → exec (.undefinedOpcode p) s = .next s) ∧
    (fetchSlot s p (pcOf s p) = .unmapped → exec (.undefinedOpcode p) s = .next (procFault p 8 (pcOf s p) s)) ∧
    (fetchSlot s p (pcOf s p) = .poisoned → exec (.undefinedOpcode p) s = .next (procFault p 10 (pcOf s p) s))

/-- R310: an instruction raises the first fault of the order that applies: the budget, then the operand stack's ends, then
the return stack's, then what execution itself finds; and nothing of its own effect takes place. -/
def Sys2Proof.Claims.FaultOrder : Prop :=
  ∀ (p : Nat) (s : State),
    (∀ r ∈ twoInOne, At p r.2.1 s →
      (¬Affords p r.2.2.1 s → exec (r.1 p) s = .next (procFault p 3 (pcOf s p) s)) ∧
      (Affords p r.2.2.1 s → (procOf s p).stack.length < 2 → exec (r.1 p) s = .next (procFault p 5 (pcOf s p) s))) ∧
    (At p 0x001 s → Affords p 1 s →
      ((procOf s p).stack = [] → exec (.dup p) s = .next (procFault p 5 (pcOf s p) s)) ∧
      ((procOf s p).stack.length = 32 → exec (.dup p) s = .next (procFault p 4 (pcOf s p) s))) ∧
    (∀ v < 256, At p 0x403 s → Affords p 2 s → fetchSlot s p (pcOf s p + 1) = .got v → (procOf s p).stack.length ≤ 32 →
      ((procOf s p).rets.length = 16 → exec (.call p) s = .next (procFault p 6 (pcOf s p) s)) ∧
      ((procOf s p).rets.length < 16 → slotMapped s p (branchTo (pcOf s p) v) = false →
        exec (.call p) s = .next (procFault p 8 (pcOf s p) (withoutEffect p (pcOf s p + 2) 2 s)))) ∧
    (∀ v, 256 ≤ v → fetchSlot s p (pcOf s p + 1) = .got v → At p 0x400 s → exec (.bra p) s = .next (procFault p 1 (pcOf s p) s)) ∧
    (∀ (a b : W48) rest, (procOf s p).stack = b :: a :: rest → rest.length < 31 → Affords p 26 s → b = 0 →
      (At p 0x106 s → exec (.div p) s = .next (procFault p 12 (pcOf s p) (withoutEffect p (pcOf s p + 1) 26 s))) ∧
      (At p 0x107 s → exec (.mod p) s = .next (procFault p 12 (pcOf s p) (withoutEffect p (pcOf s p + 1) 26 s))) ∧
      (At p 0x806 s → exec (.divq p) s = .next (procFault p 12 (pcOf s p) (withoutEffect p (pcOf s p + 1) 26 s))))

/-- The statements UndefinedCodes and FaultOrder together. -/
def Obligations.InstructionFaults : Prop := UndefinedCodes ∧ FaultOrder


/-- R453: Ranger's own instructions, on addresses of the hub's own space and operands in range. Readings it rests on: log entries 13 and 57. -/
def Obligations.RangerInstructions : Prop :=
  ∀ s : State,
    let e := entered rangerP (pcOf s rangerP + 1) 1 s
    (At rangerP 0xE00 s → (procOf s rangerP).stack.length ≤ 32 → exec .idle s =
      .next (if icuView s rangerP ≠ 0 ∨ s.mgt.mbxBusy = true then e else { e with mgt := { e.mgt with idle := true } })) ∧
    (At rangerP 0xE06 s → (procOf s rangerP).stack.length ≤ 32 → exec .wdog s =
      .next { e with mgt := { e.mgt with wdogAt := ticks s } }) ∧
    (∀ a rest, (procOf s rangerP).stack = a :: rest → rest.length < 32 →
      (At rangerP 0xE01 s → a.toNat % 4 = 0 → a.toNat < 0x0800_0000 → exec .rd32 s =
        .next (leaves rangerP 1 [(read32 .ranger a.toNat e).1.setWidth 48] (read32 .ranger a.toNat e).2)) ∧
      (At rangerP 0xE03 s → a.toNat % 8 = 0 → a.toNat < 0x0800_0000 → exec .rd48 s =
        .next (leaves rangerP 1 [slotRead a.toNat e] (countParity a.toNat e))) ∧
      (At rangerP 0xE07 s → a.toNat ≤ 15 → exec .otprd s = .next (leaves rangerP 1 [otpWord s a.toNat] e)) ∧
      (At rangerP 0xE08 s → a.toNat ≤ 64 → exec .rollup s =
        .next (leaves rangerP 1 [] { e with mgt := { e.mgt with rollbackOtp := max s.mgt.rollbackOtp a.toNat } })) ∧
      (At rangerP 0xE01 s → a.toNat % 4 ≠ 0 ∨ 0x4000_0000 ≤ a.toNat → exec .rd32 s =
        .next (procFault rangerP 7 (pcOf s rangerP) (withoutEffect rangerP (pcOf s rangerP + 1) 1 s))) ∧
      (At rangerP 0xE03 s → a.toNat % 8 ≠ 0 → exec .rd48 s =
        .next (procFault rangerP 7 (pcOf s rangerP) (withoutEffect rangerP (pcOf s rangerP + 1) 1 s)))) ∧
    (∀ a v rest, (procOf s rangerP).stack = a :: v :: rest → rest.length < 32 → a.toNat < 0x0800_0000 →
      (At rangerP 0xE02 s → a.toNat % 4 = 0 → exec .wr32 s =
        .next (write32 .ranger a.toNat (v.setWidth 32) (leaves rangerP 2 [] e))) ∧
      (At rangerP 0xE04 s → a.toNat % 8 = 0 → isLo a.toNat = true → mayWriteWord (leaves rangerP 2 [] e) .ranger a.toNat = true →
        exec .wr48 s = .next (commitWord a.toNat (v.setWidth 64) (leaves rangerP 2 [] e)))) ∧
    (∀ (t n : W48) (ws rest : List W48), (procOf s rangerP).stack = t :: n :: (ws.reverse ++ rest) → t.toNat < 256 →
      2 ≤ n.toNat → n.toNat ≤ 7 → ws.length = n.toNat - 1 → rest.length ≤ 32 → At rangerP 0xE05 s → exec .jnl s =
      .next (leaves rangerP (n.toNat + 1) [] (journal t.toNat (stampNow s) ws e)))

/-! ### The queue, the clock and device time (R37–R57) -/

namespace Sys2Proof.Claims
open Sys2Proof Sys2Proof.Machine

/-- INC_Q of R39: 12,207.03125 × TB_TRIM to the nearest integer, a tie away from zero, above its constant. -/
def incOf (trim : Int) : Int := 52428800000000 + trim.sign * ((390625 * trim.natAbs + 16) / 32 : Nat)

/-- v is an integer nearest to the fraction n / d. -/
def Nearest (v n : Int) (d : Nat) : Prop := 2 * (v * d - n).natAbs ≤ d

/-- v is an integer next to the fraction n / d, or that fraction. -/
def Beside (v n : Int) (d : Nat) : Prop := (v * d - n).natAbs < d

/-- A value limited to −m … m. -/
def limited (m v : Int) : Int := max (-m) (min m v)

/-- Where the loop goes at a valid measurement whose phase lies inside 2^n ticks as `inside n` says (R51). -/
def loopAfter (s : State) (inside : Nat → Bool) : Loop :=
  let lockw := bits (cfgR s tbCtrlA) 7 4
  let enough := decide (bits (cfgR s tbCtrlA) 19 16 ≤ s.tb.good + 1)
  match s.tb.loop with
  | .acquiring => if inside lockw && enough then .locked else .acquiring
  | .locked => if inside (lockw + 2) then .locked else .acquiring
  | .holdover => if enough then .acquiring else .holdover
  | .none => .none

/-- What SRC selects: TB_CTRL's field, and RING on a secondary (R48, R57). -/
def discipline (s : State) : Nat := if s.straps.role = 2 then 5 else bits (cfgR s tbCtrlA) 2 0

end Sys2Proof.Claims

open Sys2Proof Sys2Proof.Machine Sys2Proof.Claims

/-- The command at the front of the queue takes effect on the state with the queue's rest. -/
def Obligations.FirstInFirstOut : Prop :=
  ∀ (c : Instr) (cs : List Instr) (s : State), s.pending = c :: cs → step s = exec c { s with pending := cs }

/-- R37, R39, R55, with the model's own choice (log entry 2) that an empty queue is one cycle of the clock: the fast counter adds 1 + TB_STEER / 2^32
ticks, or the accumulator INC_Q; a boundary of bit 47 that passes in sleep waits for its epoch record. Without a clock
nothing happens. -/
def Sys2Proof.Claims.IdleCycleCounts : Prop :=
  ∀ s : State, s.pending = [] →
    (stopped s = true → step s = .next s) ∧
    (stopped s = false → s.power.cur = .s0 ∨ s.power.cur = .s1 →
      let b := { s.tb with fast := s.tb.fast + BitVec.ofInt 96 (2 ^ 32 + s.tb.steer.toInt), cycles := s.tb.cycles + 1 }
      bit (ticks { s with tb := b }) 47 = bit (ticks s) 47 →
      ∃ t, step s = .next t ∧ t.tb = b ∧ t.cfg = s.cfg ∧ t.tab = s.tab ∧ t.timers = s.timers ∧ t.rings = s.rings ∧ t.pending = []) ∧
    (stopped s = false → s.power.cur = .s2 ∨ s.power.cur = .s3 → s.tb.handed = false →
      let a := s.tb.acc + BitVec.ofInt 96 (incOf s.tb.trim.toInt)
      let b := { s.tb with acc := a, edge := a, woscN := 0 }
      let now := ticks { s with tb := b }
      ∃ t, step s = .next t ∧
        t.tb = { b with epochDue := if bit now 47 = bit (ticks s) 47 then s.tb.epochDue else some ((now >>> 47) <<< 47) } ∧
        t.cfg = s.cfg ∧ t.tab = s.tab ∧ t.timers = s.timers ∧ t.rings = s.rings ∧ t.pending = [])

/-- R40, R41, R43: the trim over 4,096 crystal edges, limited to ±8,388,607 with TRIMLIM; the wake oscillator's period; and
the fast counter loaded at a hand-over with round(A_E + D) + 32, the residual in TB_HANDOVER. Where R41 and R43 name no
rounding for the last digit, either neighbour may stand (the model's choice: a free value). -/
def Sys2Proof.Claims.TrimAndHandOver : Prop :=
  ∀ s : State, stopped s = false →
    (∀ delta : Nat, fastRuns s = true → ∃ t v, exec (.trimRecomputation delta) s = .next t ∧
      Nearest v (2 ^ 32 * ((delta : Int) - 400000000)) 400000000 ∧
      (let u := { s with fresh := t.fresh, tb := { s.tb with
          trim := BitVec.ofInt 24 (limited 8388607 v), trimLim := decide (limited 8388607 v ≠ v) } }
       t = if limited 8388607 v ≠ v then raise tbLeafA 1 u else u)) ∧
    (∀ n : Nat, n ≠ 0 → s.power.cur ≠ .s3 → ∃ t v, exec (.woscCalibration n) s = .next t ∧
      Beside v (4096 * incOf s.tb.trim.toInt * 2 ^ 24) (n * 2 ^ 32) ∧
      t = { s with fresh := t.fresh, tb := { s.tb with woscPer := BitVec.ofInt 32 v } }) ∧
    (∀ d : Nat, fastRuns s = false → s.power.wakeReq ≠ 0 → ∃ t r v, exec (.handOver d) s = .next t ∧
      Nearest r (8 * (s.tb.edge.toNat : Int) + d * 2 ^ 32) (2 ^ 35) ∧
      Beside v (8 * (s.tb.edge.toNat : Int) + d * 2 ^ 32 - r * 2 ^ 35) (2 ^ 32) ∧
      t = { s with fresh := t.fresh, tb := { s.tb with
        fast := BitVec.ofInt 96 ((r + 32) * 2 ^ 32), handover := BitVec.ofInt 8 v, handed := true } })

/-- The statements IdleCycleCounts and TrimAndHandOver together. -/
def Obligations.ClockCounting : Prop := IdleCycleCounts ∧ TrimAndHandOver


/-- R52, R53, R54: a step is accepted for 4,096 ticks later by a single hub or the primary and replaces a pending one; a
secondary counts the write; at T_apply device time moves to the new time, every later interval with it, and the timers
keep their counts. Readings it rests on: log entry 90. -/
def Sys2Proof.Claims.Steps : Prop :=
  ∀ s : State, stopped s = false →
    (∀ (path : Path) (rel : Bool) (c : Instr), c = (if rel then .stepRel path else .stepAbs path) →
      (s.straps.role ≠ 2 → ∃ t, exec c s = .next t ∧
        t.tb = { s.tb with step := some { relative := rel, value := s.tb.setValue, tApply := ticks s + 4096 } } ∧
        { t with tb := s.tb, power := s.power, cnt := s.cnt, bgt := s.bgt } = s) ∧
      (s.straps.role = 2 → exec c s = .next (raise sysFlagsA 0 (bump sysWerrA s)))) ∧
    (∀ p, s.tb.step = some p → fastRuns s = true → p.tApply.toNat ≤ (ticks s).toNat → ∃ t, exec .stepApply s = .next t ∧
      ticks t = ticks s + ((if p.relative then p.tApply + p.value else p.value) - p.tApply) ∧
      t.tb.step = none ∧ t.tb.stepCnt = s.tb.stepCnt + 1 ∧ t.tb.stepInInterval = true ∧
      t.tb.hostRef - ticks t = s.tb.hostRef - ticks s ∧
      bit (flagR t tbLeafA) 2 = true ∧ t.timers = s.timers ∧ t.cfg = s.cfg ∧ t.tab = s.tab) ∧
    ((s.tb.step = none ∨ ∃ p, s.tb.step = some p ∧ (ticks s).toNat < p.tApply.toNat) → exec .stepApply s = .next s)

/-- R55: a boundary that has passed puts an epoch record into a ring in ON, with the boundary's full time and its kind; in
sleep it waits. Shown with one ring that has room and no open batch. -/
def Sys2Proof.Claims.EpochRecord : Prop :=
  ∀ (s : State) (b : W64) (r : Nat), stopped s = false → s.tb.epochDue = some b →
    (s.power.cur = .s2 ∨ s.power.cur = .s3 → exec .epoch s = .next s) ∧
    (s.power.cur = .s0 ∨ s.power.cur = .s1 → (∀ kv ∈ s.streams, kv.2.batch = none) →
      (∀ q < 128, (getRing s q).state = .on ↔ q = r) → r < 128 → (getRing s r).full = false → fits s r 3 = true →
      exec .epoch s = .next (makeReady r
        { type := 5, sub := 8, num := r, flags := BitVec.ofNat 8 (qcode (qualNow s)), time := b, era := s.tb.stepCnt,
          payload := [BitVec.ofNat 48 ((if b.toNat % 2 ^ 48 = 0 then 0 else 1) * 2 ^ 46 + b.toNat / 2 ^ 48)] }
        { s with tb := { s.tb with epochDue := none } }))

/-- The statements Steps and EpochRecord together. -/
def Obligations.StepsAndEpochs : Prop := Steps ∧ EpochRecord


/-- R49, R50, R51: a valid measurement of phase e by TB_ADJ or at a PPS edge sets the steering from f and e, saturates TB_ERR and
moves the loop; REF_IN gives f itself. Readings it rests on: log entries 68 and 73. -/
def Sys2Proof.Claims.Measurements : Prop :=
  ∀ s : State, stopped s = false → fastRuns s = true → s.tb.stepInInterval = false →
    (∀ (path : Path) (e : W32) (t0 : W64), discipline s = 4 → s.tb.lastMeas = some t0 → ∃ t v, exec (.tbAdj path e) s = .next t ∧
      (let p : Rat := (e.toInt : Rat) / 400000000
       let tc : Rat := 2 ^ bits (cfgR s tbCtrlA) 11 8
       let f : Rat := s.tb.f - p * (((ticks s - t0).toNat : Rat) / 400000000) / (4 * tc * tc)
       let x : Rat := if s.tb.loop = .holdover then f else f - p / tc
       let y : Rat := max (-(200 / 1000000)) (min (200 / 1000000) x)
       t.tb.f = f ∧ t.tb.slewLim = decide (y ≠ x) ∧ t.tb.steer = BitVec.ofInt 32 v ∧
       y * 2 ^ 32 - 1 / 2 ≤ (v : Rat) ∧ (v : Rat) ≤ y * 2 ^ 32 + 1 / 2) ∧
      t.tb.err = BitVec.ofInt 32 (limited (2 ^ 31 - 1) e.toInt) ∧ t.tb.hostRef = ticks s ∧ t.tb.lastMeas = some (ticks s) ∧
      t.tb.misses = 0 ∧ t.tb.fast = s.tb.fast ∧ t.tb.loop = loopAfter s (fun n => decide (e.toInt.natAbs ≤ 2 ^ n)) ∧
      t.cfg = s.cfg ∧ t.tab = s.tab) ∧
    (∀ cycles : Nat, discipline s = 2 → ∃ t v, exec (.refInterval cycles true) s = .next t ∧
      (let x : Rat := 1 - (cycles : Rat) / 400000000
       let y : Rat := max (-(200 / 1000000)) (min (200 / 1000000) x)
       t.tb.f = x ∧ t.tb.slewLim = decide (y ≠ x) ∧ t.tb.steer = BitVec.ofInt 32 v ∧
       y * 2 ^ 32 - 1 / 2 ≤ (v : Rat) ∧ (v : Rat) ≤ y * 2 ^ 32 + 1 / 2) ∧
      t.tb.misses = 0 ∧ t.tb.fast = s.tb.fast ∧ t.tb.loop = loopAfter s (fun _ => true) ∧ t.cfg = s.cfg ∧ t.tab = s.tab) ∧
    (∀ w : Nat, discipline s = 1 → s.power.cur ≠ .s2 → (∀ n < 32, tmrSrc s n ≠ 5 ∧ ∀ b, capSrc s n b ≠ 2) →
      let c := ticks s
      let e := ((c.toNat : Int) - bits (cfgR s tbPpsOfsA) 28 0 + 200000000) % 400000000 - 200000000
      ((∀ x, s.tb.expect = some x → (c - x).toInt.natAbs ≤ 40000) → ∃ t, exec (.ppsEdge true w) s = .next t ∧
        t.tb.expect = some (c + 400000000) ∧ t.tb.err = BitVec.ofInt 32 e ∧ t.tb.misses = 0 ∧ t.tb.fast = s.tb.fast ∧
        t.tb.loop = loopAfter s (fun n => decide (e.natAbs ≤ 2 ^ n)) ∧ t.timers = s.timers ∧ t.cfg = s.cfg ∧ t.tab = s.tab) ∧
      (∀ x, s.tb.expect = some x → 40000 < (c - x).toInt.natAbs → exec (.ppsEdge true w) s = .next s))

/-- R49, R51, R54: a HOST interval without a write is a miss once 2^HOST_TO seconds have passed, and moves its reference; MISS_N
misses in a row end in HOLDOVER; before that instant, and in a source without a deadline, nothing is missed. A TB_ADJ
write while another source is selected is ignored and counted. -/
def Sys2Proof.Claims.Misses : Prop :=
  ∀ s : State, stopped s = false →
    (fastRuns s = true → discipline s = 4 → s.tb.stepInInterval = false →
      (s.tb.hostRef + BitVec.ofNat 64 (2 ^ bits (cfgR s tbCtrlA) 23 20 * 400000000)).toNat ≤ (ticks s).toNat →
      ∃ t, exec .miss s = .next t ∧ t.tb.misses = s.tb.misses + 1 ∧ t.tb.hostRef = ticks s ∧ t.tb.fast = s.tb.fast ∧
        cntR t tbMissCntA = (if cntR s tbMissCntA = BitVec.allOnes 32 then BitVec.allOnes 32 else cntR s tbMissCntA + 1) ∧
        t.tb.loop = (if (s.tb.loop = .acquiring ∨ s.tb.loop = .locked) ∧ bits (cfgR s tbCtrlA) 15 12 ≤ s.tb.misses + 1
          then .holdover else s.tb.loop) ∧ t.cfg = s.cfg ∧ t.tab = s.tab) ∧
    (discipline s = 4 → (ticks s).toNat < (s.tb.hostRef + BitVec.ofNat 64 (2 ^ bits (cfgR s tbCtrlA) 23 20 * 400000000)).toNat →
      exec .miss s = .next s) ∧
    (discipline s = 0 ∨ discipline s = 2 → exec .miss s = .next s) ∧
    (∀ (path : Path) (e : W32), discipline s ≠ 4 →
      exec (.tbAdj path e) s = .next (raise sysFlagsA 0 (bump sysWerrA (pathWake path s))))

/-- The statements Measurements and Misses together. -/
def Obligations.Discipline : Prop := Measurements ∧ Misses


/-! ### Reset, start-up and configuration (R31, R35, R440–R444, R498, R504, R526–R530) -/

/-- After reset the hub is held, with device time zero, no memory word written and nothing waiting (R4, R527). -/
def Sys2Proof.Claims.ResetState : Prop :=
  HeldInReset (hubCore State.reset) State.reset ∧ ticks State.reset = 0 ∧ State.reset.pending = [] ∧
  (∀ w, sramR State.reset w = 0) ∧ (∀ a, cntR State.reset a = 0 ∧ flagR State.reset a = 0) ∧
  State.reset.journal = [] ∧ State.reset.journalQ = []

/-- The reset values that the register tables give: R59, R81, R82, R104, R124, R137, R165, R195, R261, R282, R402, R428, R468,
R505. -/
def Sys2Proof.Claims.ResetRegisters : Prop :=
  let r := cfgR State.reset
  r sysSumEnA = 0x80 ∧ r tbCtrlA = 0x0064_3450 ∧ r frzA = 1 ∧ r (pwrA + 8) = 0x3E8 ∧ r (pwrA + 0x10) = 0x64 ∧ r (pwrA + 0x14) = 0xF_4240 ∧
  r (hlA + 4) = 0x7 ∧ r (hlA + 0x0C) = 0x8832 ∧ r (hlA + 0x14) = 0x1EC7 ∧ r (mgtA + 0x0C) = 0xA ∧ r (mgtA + 0x10) = 0x8000 ∧
  (∀ n < 32, r (tmrA n) = 0 ∧ r (tmrA n + 4) = 1 ∧ wordR State.reset (tmrA n + 0x10) = BitVec.allOnes 48) ∧
  (∀ n < 8, r (cvpA n) = 0x0100_0010 ∧ r (cvpA n + 8) = 0x028F ∧ r (cvpA n + 0xC) = 0x0148 ∧
    r (hwsA n) = 0x0660_0000 ∧ r (hwsA n + 0x20) = 0x0004_8300 ∧ r (hwsA n + 0x100) = 0x0010_2040 ∧ r (evoA n) = 0x0001_0000) ∧
  (∀ p < 4, r (sbpA p) = 0x0060_0000 ∧ r (sbpA (p + 4)) = 0x0010_0000) ∧
  (∀ n < 16, r (tchA n) = 0x0401_0360 ∧ r (eeA n) = 0) ∧ (∀ n < 128, r (icuCfgA n) = 0x10)

/-- The statements ResetState and ResetRegisters together. -/
def Obligations.ResetValues : Prop := ResetState ∧ ResetRegisters


/-- Every step of a hub that is held in reset leaves all of it as it is, unless the supply, RESET_N or the end of the reset
comes (R527, R529): no other command has an effect beyond the test port. -/
def Obligations.ResetIsKept : Prop :=
  ∀ f s s' : State, HeldInReset f s → step s = .next s' → HeldInReset f s'

/-- In FREEZE no clock runs: every step leaves the whole of the hub as it is, unless the supply or RESET_N ends the freeze
(R498, R501, R504); what the test port holds lies outside it. -/
def Obligations.FreezeIsKept : Prop :=
  ∀ f s s' : State, Frozen f s → step s = .next s' → Frozen f s'

/-- R504, R528, R529, R530: RESET_N low for 10 µs, power-up and a lost supply put every block into its reset state, apart from what
lies outside the reset and, for RESET_N, the freeze record; 1 µs does nothing; a pulse between has either outcome
whole. What batch SRAM holds after it is open. Readings it rests on: log entries 25, 26, 27 and 28. -/
def Obligations.HardReset : Prop :=
  ∀ (s : State) (x : Straps),
    let otp (kind : Nat) : Mgt := {
      cfgKey := s.mgt.cfgKey, fwKey := s.mgt.fwKey, cfgHash := s.mgt.cfgHash, fwHash := s.mgt.fwHash,
      otp := s.mgt.otp, rollbackOtp := s.mgt.rollbackOtp, jnlHead := s.mgt.jnlHead, jnlSeq := s.mgt.jnlSeq,
      bootA := s.mgt.bootA, bootB := s.mgt.bootB, resetKind := kind }
    let after (kind : Nat) (y : Straps) (f : Frz) (p : Tap) (t : State) : Prop :=
      t = { State.reset with
        pending := s.pending, fresh := t.fresh, answer := s.answer, hostMem := s.hostMem, flash := t.flash, flashId := s.flashId,
        journal := s.journal, tap := p, straps := y, sramLost := t.sramLost, mgt := otp kind, frz := f, hl := { perst := s.hl.perst } } ∧
      (s.config.cfpBusy = false → t.flash = s.flash)
    let record : Frz := { cause := s.frz.cause, fault := s.frz.fault, time := s.frz.time, qual := s.frz.qual, count := s.frz.count }
    (∀ ns, ns ≤ 1000 → exec (.resetN ns x) s = .next s) ∧
    (∀ ns, 10000 ≤ ns → ∃ t, exec (.resetN ns x) s = .next t ∧ after 1 x record s.tap t) ∧
    (∀ ns, 1000 < ns → ns < 10000 → ∃ t, exec (.resetN ns x) s = .next t ∧
      (t = { s with fresh := t.fresh } ∨ after 1 x record s.tap t)) ∧
    (∃ t, exec (.powerUp x) s = .next t ∧ after 0 x {} {} t) ∧
    (∃ t, exec .powerLoss s = .next t ∧ after 0 s.straps {} {} t)

/-- R465, R461, R504, R527: the internal reset ends and Ranger starts; it journals BOOT, and FREEZE behind it where a freeze left
its record, whose NEW it then clears. A hub that is not in reset ignores the row. Readings it rests on: log entries 12 and 15. -/
def Sys2Proof.Claims.StartUp : Prop :=
  ∀ s : State, (s.phase ≠ .inReset ∨ s.frz.stopped = true → exec .startUp s = .next s) ∧
    (s.phase = .inReset → s.frz.stopped = false → s.journalQ = [] → s.mgt.rollback < 128 → ∃ t before boot, exec .startUp s = .next t ∧
      t.phase = .started ∧ t.mgt.running = true ∧ t.tb = s.tb ∧ t.cfg = s.cfg ∧ t.tab = s.tab ∧
      t.journalQ = before ++ {
          type := 1, stamp := ticks s, qual := qualNow s, era := s.tb.stepCnt, words := [boot] } ::
        (if bit s.frz.cause 30 then [{
          type := 0x60, stamp := s.frz.time, qual := s.frz.qual, era := s.tb.stepCnt,
          words := [s.frz.cause.setWidth 48, s.frz.fault.setWidth 48] }] else []) ∧
      bits boot 39 8 = s.mgt.resetKind % 2 ^ 32 ∧
      t.frz = { s.frz with cause := s.frz.cause &&& ~~~(0x4000_0000#32) })

/-- R440, R442, R447: with no flash, or on a secondary that boots from the ring and received nothing, the load counts, ends in the factory
defaults with their reason, sets DEFAULTF and leaves the default ring 0; otherwise the flash's own bytes are loaded. Readings it rests on: log entries 24 and 41. -/
def Sys2Proof.Claims.ImageLoads : Prop :=
  ∀ (s : State) (bs : List (BitVec 8)), stopped s = false →
    (s.phase = .started → s.mgt.running = true →
      (∀ reason : Nat, (reason = 1 ∧ ¬(s.straps.role = 2 ∧ s.straps.bootRing = true) ∧ (s.flashId = 0 ∨ s.flashId = BitVec.allOnes 24)) ∨
          (reason = 14 ∧ s.straps.role = 2 ∧ s.straps.bootRing = true ∧ bs = []) →
        ∃ t, exec (.imageLoad bs) s = .next t ∧ t.phase = .loaded ∧ t.config.defaults = true ∧ t.config.reason = reason ∧
          t.config.loads = s.config.loads + 1 ∧ cfgR t (rngA 0) = 0x8040_0000 ∧ bit (flagR t cfgStatA) 0 = true) ∧
      (s.straps.role ≠ 2 → s.flashId ≠ 0 → s.flashId ≠ BitVec.allOnes 24 →
        exec (.imageLoad bs) s = .next (loadImage false
          (some (flashBytes s 0 (max 16 (headerLength (flashBytes s 0 16))))) s))) ∧
    (s.phase ≠ .started ∨ s.mgt.running = false → exec (.imageLoad bs) s = .next s)

/-- The statements StartUp and ImageLoads together. -/
def Obligations.StartAndLoad : Prop := StartUp ∧ ImageLoads


/-- R31, R35, R320, R443, R444, R448: admission, the lock, the blocks and the sources follow a load; CFG_RELOAD with its key, on a running single
hub or primary in S0 with the flash free, begins a reload and is otherwise counted; once everything is delivered the
blocks restart, with the lock open. Readings it rests on: log entries 24, 41, 43 and 44. -/
def Obligations.AdmissionAndReload : Prop :=
  ∀ s : State, stopped s = false →
    (∀ others missing pins,
      (s.phase = .loaded → s.mgt.running = true → exec (.admission others missing pins) s =
        .next (startSources pins (startBlocks (lockConfig (runAdmission others missing s))))) ∧
      (s.phase ≠ .loaded ∨ s.mgt.running = false → exec (.admission others missing pins) s = .next s)) ∧
    (lockConfig s).config.locked = true ∧
    (∀ (path : Path) (v : W32),
      (bits v 31 16 ≠ 0x524C ∨ bit v 0 = false ∨ s.straps.role = 2 ∨ s.phase ≠ .running ∨ s.config.reloadDue = true →
        exec (.cfgReload path v) s = .next (raise sysFlagsA 0 (bump sysWerrA s))) ∧
      (bits v 31 16 = 0x524C → bit v 0 = true → s.straps.role = 0 → s.phase = .running → s.config.reloadDue = false →
        s.power.cur = .s0 → s.power.phase = .awake →
        exec (.cfgReload path v) s = .next (
          if s.config.cfpBusy then { s with config := { s.config with reloadDue := true } }
          else beginReload { s with config := { s.config with reloadDue := true } }))) ∧
    (s.phase = .draining → drained (drainRings s) = true → ∃ t, exec .reloadRestart s = .next t ∧
      t.phase = .started ∧ t.config.locked = false ∧ t.config.reloading = true ∧ t.timers = [] ∧ t.chans = [] ∧ t.streams = [] ∧
      t.spus = [] ∧ t.icu = [] ∧ t.sbps = []) ∧
    (s.phase = .draining → drained (drainRings s) = false → exec .reloadRestart s = .next (drainRings s)) ∧
    (s.phase ≠ .draining → exec .reloadRestart s = .next s)

/-! ### Registers (R10–R14, R32, R443) -/

/-- R11: a read of _LO gives the low half and holds the upper part of the whole quantity for that path, and for no other; a
read of a _HI register gives what its path holds, which is zero where it has read no _LO. What a read returns stands in `answer`, the
model's choice (log entry 29). Readings it rests on: log entry 5. -/
def Sys2Proof.Claims.SplitReads : Prop :=
  ∀ (path : Path) (a : Nat) (s : State), stopped s = false → Mem.wf (fun _ => {}) s.holds = true →
    let u := pathWake path s
    (isLo a = true → s.poisoned.contains a = false → ∃ t, exec (.splitLoRead path a .clean) s = .next t ∧
      t.answer = [((quantity u a).setWidth 32).setWidth 64] ∧
      (getHold t path).rd = ((quantity u a) >>> 32).setWidth 32 ∧ (getHold t path).wr = (getHold s path).wr ∧
      (∀ q, q ≠ path → getHold t q = getHold s q) ∧ { t with answer := u.answer, holds := u.holds } = u) ∧
    (accessAt a = .hi → exec (.splitLoRead path a .clean) s = .next { u with answer := [(getHold s path).rd.setWidth 64] }) ∧
    (accessAt a = .reserved → exec (.splitLoRead path a .clean) s = .next { u with answer := [0] }) ∧
    (getHold State.reset path).rd = 0

/-- R12, R443: a write to _LO is held; a write to _HI of the same quantity through the same path commits both halves at once
and leaves nothing held; any other write to _HI changes nothing and is counted. -/
def Sys2Proof.Claims.SplitWrites : Prop :=
  ∀ (path : Path) (a : Nat) (v w : W32) (s : State), stopped s = false →
    let u := pathWake path s
    (isLo a = true → mayWriteWord u path a = true →
      exec (.splitLoWrite path a v) s = .next (setHold path { getHold u path with wr := some (a, v) } u)) ∧
    (isLo a = true → mayWriteWord u path a = false → exec (.splitLoWrite path a v) s = .next (raise sysFlagsA 0 (bump sysWerrA u))) ∧
    (accessAt (a + 4) = .hi → (getHold u path).wr = some (a, w) → mayWriteWord u path a = true →
      badWord a (v.toNat * 2 ^ 32 + w.toNat) = false → exec (.splitHiWrite path (a + 4) v) s =
      .next (putWord a (BitVec.ofNat 64 (v.toNat * 2 ^ 32 + w.toNat)) (setHold path { getHold u path with wr := none } u))) ∧
    (accessAt (a + 4) = .hi → (∀ x, (getHold u path).wr ≠ some (a, x)) →
      exec (.splitHiWrite path (a + 4) v) s = .next (raise sysFlagsA 0 (bump sysWerrA u))) ∧
    (∃ t1 t2, exec (.splitLoWrite path 0x0001_0030 w) s = .next t1 ∧ t1.tb = s.tb ∧
      exec (.splitHiWrite path 0x0001_0034 v) t1 = .next t2 ∧
      t2.tb = { s.tb with setValue := BitVec.ofNat 64 (v.toNat * 2 ^ 32 + w.toNat) } ∧ (getHold t2 path).wr = none)

/-- The statements SplitReads and SplitWrites together. -/
def Obligations.SplitQuantities : Prop := SplitReads ∧ SplitWrites


/-- R10, R14, R32, R443: a 32-bit write by the access type of its address: to a reserved address it is ignored, to a read-only register counted;
to W1C flags it clears those written with 1; to an LK register it sets the fields that exist, and is counted where the lock, the path or a
reserved value forbids it. The access types of some addresses. -/
def Obligations.RegisterWrites : Prop :=
  (∀ (path : Path) (a : Nat) (v : W32) (s : State), stopped s = false →
    let u := pathWake path s
    let counted : Host.Outcome State Fault Refusal := .next (raise sysFlagsA 0 (bump sysWerrA u))
    (accessAt a = .reserved → exec (.registerWrite path a v) s = .next u) ∧
    (accessAt a = .ro → exec (.registerWrite path a v) s = counted) ∧
    (∀ m, accessAt a = .w1c m → path = .ranger →
      exec (.registerWrite path a v) s = .next (setFlags a (flagR s a &&& ~~~(v &&& BitVec.ofNat 32 m)) s)) ∧
    (∀ m, accessAt a = .lk m → ¬(0x000A_4000 ≤ a ∧ a < 0x000A_4200) →
      (path ≠ .ranger → exec (.registerWrite path a v) s = counted) ∧
      (s.config.locked = true → rangerReg a = false → exec (.registerWrite path a v) s = counted) ∧
      (badValue a (v.toNat &&& m) = true → exec (.registerWrite path a v) s = counted) ∧
      (path = .ranger → s.config.locked = false ∨ rangerReg a = true → badValue a (v.toNat &&& m) = false → a ≠ 0x0001_0024 →
        exec (.registerWrite path a v) s = .next (setCfg a (v &&& BitVec.ofNat 32 m) s)))) ∧
  accessAt 0x0000_0004 = .ro ∧ accessAt 0x0000_0014 = .w1c 0x3 ∧ accessAt 0x0001_0000 = .loRo ∧ accessAt 0x0001_0004 = .hi ∧
  accessAt 0x0001_0010 = .lk 0x00FF_FFF7 ∧ accessAt 0x0001_0030 = .loRw ∧ accessAt 0x0001_0038 = .own ∧
  accessAt 0x0001_0050 = .reserved ∧ accessAt 0x0002_0000 = .own ∧ accessAt 0x000A_4000 = .lk 0xFFFF_003F ∧
  (∀ n < 32, accessAt (tmrA n + 0x18) = .loLk all48 ∧ accessAt (tmrA n + 0x5C) = .w1c 0x1F) ∧
  (∀ e < 16, ∀ w < 4, accessAt (dramA e w) = .loLk all48 ∧ accessAt (dramA e w + 4) = .hi)

/-! ### Timers (R61–R82) -/

namespace Sys2Proof.Claims
open Sys2Proof Sys2Proof.Machine

/-- Nothing in the hub looks at a timer's events: no cascade, capture, hitch, list, engine entry, wake, trunk cycle or
broadcast trigger, and its output is held low. -/
def Unwatched (n : Nat) (s : State) : Prop :=
  (∀ m < 32, tmrSrc s m ≠ 8 ∧ tmrSrc s m ≠ 9 ∧ ∀ b, capSrc s m b ≠ 3 ∧ capSrc s m b ≠ 4) ∧ tmrHitch s n = 0 ∧
  (∀ evt, pacesSomething s n evt = false) ∧ bit (cfgR s (pwrA + 0x18)) n = false ∧ cyclePorts s n = [] ∧
  (∀ k < 8, bits (cfgR s (bgtA + 0x80 + 4 * k)) 3 1 ≠ 1) ∧ tmrOutMode s n = 0 ∧ (getTimer s n).out = false

/-- t is s with timer n at x: no other timer and nothing else of the hub has changed. -/
def timerOnly (n : Nat) (x : Timer) (s t : State) : Prop :=
  getTimer t n = x ∧ { t with timers := s.timers } = s ∧
  (Mem.wf (fun _ => {}) s.timers = true → ∀ m, m ≠ n → getTimer t m = getTimer s m)

end Sys2Proof.Claims

open Sys2Proof Sys2Proof.Machine Sys2Proof.Claims

/-- R64, R65: the tick of a timer on a free-running clock: COUNT advances by one, or from TOP to 0, which latches the overflow's
interrupt source; the prescaler keeps its fraction; OVERFLOW and MATCH are that tick at TOP, or at a compare value. Stated where
nothing else looks at the timer's events. -/
def Obligations.TimerTicks : Prop :=
  ∀ (n w : Nat) (s : State), stopped s = false → canTick s n = true → Unwatched n s →
    (getTimer s n).startDue = false → (getTimer s n).resetDue = false →
    let m := getTimer s n
    let top := wordR s (tmrA n + 0x10)
    let dq := bits (cfgR s (tmrA n + 4)) 23 0 * 2 ^ 24 + bits (cfgR s (tmrA n + 8)) 23 0
    let c : W48 := if m.count = top then 0 else m.count + 1
    let edges := max 1 ((dq - m.acc + 2 ^ 24 - 1) / 2 ^ 24)
    let at_ : State := if s.power.cur = .s2 then { s with tb := { s.tb with woscN := w } } else s
    let u := setTimer n { m with count := c, acc := m.acc + edges * 2 ^ 24 - dq } at_
    let v := if m.count = top then setIcu (66 + n) { getIcu u (66 + n) with latch := true } u else u
    exec (.prescalerTick n w) s = .next v ∧
    exec (.overflow n w) s = .next (if m.count = top then v else s) ∧
    exec (.cmpMatch n w) s = .next (if c = wordR s (tmrA n + 0x18) ∨ c = wordR s (tmrA n + 0x20) then v else s)

/-- R71, R72, R73: a capture copies COUNT, the short time and its quality, and sets its flag; one that finds its flag set takes the
newest value and sets the overrun flag too. CAPA and CAPB capture only where that capture selects source 5. Readings it rests on: log entry 65. -/
def Sys2Proof.Claims.TimerCaptures : Prop :=
  ∀ (n : Nat) (b : Bool) (s : State), n < 32 → stopped s = false → s.power.cur = .s0 ∨ s.power.cur = .s1 →
    let m := getTimer s n
    let x : Timer := if b then { m with capB := m.count, capTB := (ticks s).setWidth 48, capQB := qualNow s }
      else { m with capA := m.count, capTA := (ticks s).setWidth 48, capQA := qualNow s }
    let i := if b then 2 else 0
    let old := flagR s (tmrA n + 0x5C)
    let now := old ||| (1#32 <<< i) ||| (if bit old i then 1#32 <<< (i + 1) else 0)
    let done (t : State) : Prop := getTimer t n = x ∧ flagR t (tmrA n + 0x5C) = now ∧ { t with timers := s.timers, flags := s.flags } = s
    (∀ w, (capSrc s n b = 6 ∨ capSrc s n b = 7) ∨ ((capSrc s n b = 1 ∨ capSrc s n b = 2) ∧ tmrSrc s n ≠ 0) →
      ∃ t, exec (.capture n b w) s = .next t ∧ done t) ∧
    (∀ c, c = (if b then Instr.capB .ranger n else .capA .ranger n) →
      (capSrc s n b = 5 → ∃ t, exec c s = .next t ∧ done t) ∧ (capSrc s n b ≠ 5 → exec c s = .next s))

/-- R66, R76, R77, R80: START starts a timer that is not started and does nothing to one that runs; RESET clears COUNT and the prescaler;
STAGGER loads every member of an accepted group with its phase and starts it, and a group that is not accepted is counted;
the host's commands are ignored and counted. -/
def Sys2Proof.Claims.TimerCommands : Prop :=
  ∀ (n : Nat) (s : State), n < 32 → stopped s = false →
    let m := getTimer s n
    (m.running = true → exec (.start .ranger n) s = .next s) ∧
    (m.running = false → exec (.start .ranger n) s = .next (setTimer n { m with running := true, acc := 0, out := false } s)) ∧
    (exec (.timerReset .ranger n) s = .next (setTimer n { m with count := 0, acc := 0, resetDue := false, startDue := false } s)) ∧
    (∃ t, exec (.resetStart .ranger n) s = .next t ∧
      timerOnly n { m with count := 0, acc := 0, running := true, out := m.running && m.out, resetDue := false, startDue := false } s t) ∧
    (∀ k, 2 ≤ k → k ≤ 32 → n + k ≤ 32 →
      (∀ i < k, tmrSrc s (n + i) = tmrSrc s n ∧ tmrIdx s (n + i) = tmrIdx s n ∧ tmrDq s (n + i) = tmrDq s n ∧ tmrTop s (n + i) = tmrTop s n) →
      ∃ t, exec (.stagger .ranger n k) s = .next t ∧ { t with timers := s.timers } = s ∧
        ∀ i < k, let c : W48 := BitVec.ofNat 48 ((2 * i * (tmrTop s n).toNat + k) / (2 * k))
          getTimer t (n + i) = { getTimer s (n + i) with
            count := c, phase := c, acc := 0, running := true, resetDue := false, startDue := false,
            out := (getTimer s (n + i)).running && (getTimer s (n + i)).out }) ∧
    (∀ k < 64, (k < 2 ∨ 32 < n + k) → exec (.stagger .ranger n k) s =
      .next (raise tmrGstatA 0 (setCnt tmrGstatA (BitVec.ofNat 32 (min 65535 ((cntR s tmrGstatA).toNat + 1))) s))) ∧
    (∀ (path : Path) (k : Nat), path ≠ .ranger → ∀ c ∈ [Instr.start path n, .timerReset path n, .resetStart path n, .stagger path n k,
      .capA path n, .capB path n], exec c s = .next (raise sysFlagsA 0 (bump sysWerrA s)))

/-- The statements TimerCaptures and TimerCommands together. -/
def Obligations.TimerCapturesAndCommands : Prop := TimerCaptures ∧ TimerCommands


/-! ### Converter ports, sensor buses, pins and keys (R83–R139) -/

namespace Sys2Proof.Claims
open Sys2Proof Sys2Proof.Machine

/-- t is s but for converter port n, which holds x. -/
def portOnly (n : Nat) (x : Cvp) (s t : State) : Prop := getCvp t n = x ∧ { t with cvps := s.cvps } = s

/-- One more, saturating at 2^32 − 1. -/
def plusOne (v : W32) : W32 := if v.toNat = 2 ^ 32 - 1 then v else v + 1

/-- The value that n bytes from offset o spell under a parse rule's order, shift, width, sign and scale (R113). -/
def parsed (w : W48) (bs : List (BitVec 8)) : W48 :=
  let used := (List.range (bits w 30 29 + 1)).map (fun i => (bs.getD (bits w 35 31 + i) 0).toNat)
  let u := (if bit w 28 then used.reverse else used).foldl (fun a b => 256 * a + b) 0
  let f : Nat := u / 2 ^ bits w 27 23 % 2 ^ (bits w 22 18 + 1)
  let v : Int := if bit w 17 ∧ 2 ^ bits w 22 18 ≤ f then (f : Int) - 2 ^ (bits w 22 18 + 1) else (f : Int)
  BitVec.ofInt 48 (v * 2 ^ bits w 16 12)

end Sys2Proof.Claims

open Sys2Proof Sys2Proof.Machine Sys2Proof.Claims

/-- R92, R94, R95: a frame that fails a check counts under it alone, unsynchronises the port (checks 1 to 6) and has its samples refused; a
frame that passes them all counts as accepted and gives the N samples, sign-extended from 24 bits, to their channels. Readings it rests on: log entries 60 and 69. -/
def Sys2Proof.Claims.ConverterFrames : Prop :=
  ∀ (n : Nat) (nibs : List (BitVec 4)) (parity : Bool) (s : State), n < 8 → stopped s = false → s.power.cur = .s0 → cvpEn s n = true →
    (getCvp s n).state = .on → nibNat (nibs.take 4) = 0xF61E →
    let g := getCvp s n
    let d := g.examined
    let c := frameCheck s n nibs parity
    (∀ r ∈ [(1, 0x54), (2, 0x4C), (3, 0x40), (4, 0x48), (5, 0x44), (6, 0x50)], c = r.1 → ∃ u,
      getCvp u n = { g with examined := d + 1, synced := false } ∧ cntR u (cvpA n + r.2) = plusOne (cntR s (cvpA n + r.2)) ∧
      flagR u (cvpA n + 4) = flagR s (cvpA n + 4) ||| 0x400 ∧ { u with cvps := s.cvps, cnt := s.cnt, flags := s.flags } = s ∧
      exec (.converterFrame n nibs parity) s = .next (if d < cvpFrames s n ∧ g.period then refuseFrame n d u else u)) ∧
    (c = 0 → (nibNat ((nibs.drop 4).take 4)).testBit 10 = false → ∃ u,
      getCvp u n = { g with
        examined := d + 1, synced := true, accounted := d :: g.accounted,
        seen := if g.seen.contains d then g.seen else d :: g.seen } ∧
      cntR u (cvpA n + 0x64) = cntR s (cvpA n + 0x64) + 1 ∧ { u with cvps := s.cvps, cnt := s.cnt } = s ∧
      exec (.converterFrame n nibs parity) s = .next (forEach (List.range (cvpN s n)) (fun i =>
        sourceValue 1 (256 * n + (64 * d + i))
          ((BitVec.ofNat 24 (nibNat ((nibs.drop (8 + 6 * i)).take 6))).signExtend 48) { frameStamp u n d with ovr := false }) u)) ∧
    (parity = true → c = 1) ∧
    (parity = false → nibs.length < 10 + 6 * cvpN s n → c = 2)

/-- R96, R98, R99, R100, R101: presence and removal, with their stamped events and their wake; the initialisation list; a command through CMD_TX; and what a
response comes to, by its check word and ACK, three failures ending the start-up. -/
def Sys2Proof.Claims.ConverterCommands : Prop :=
  ∀ (n : Nat) (s : State), n < 8 → stopped s = false →
    let g := getCvp s n
    (cvpEn s n = true → cvpPresEn s n = true → g.state ≠ .off → ∃ v,
      portOnly n { g with
        state := .off, ck := false, fsPassed := false, synced := false, launched := false, initing := false, initLeft := [],
        initIndex := 0, attempts := 0, seen := [], assign := false, cmdBusy := false, cmdRes := if g.cmdBusy then 4 else g.cmdRes,
        pin := false, goneAt := ticks s } s v ∧
      exec (.removal n) s = .next (portEvent 2 0 n (stampNow s) [] (requestWake 3 v))) ∧
    (cvpEn s n = true → g.state = .off → s.phase = .running →
      exec (.presenceConfirmed n) s = .next (portEvent 1 0 n (stampNow s) [] (bump (cvpA n + 0x68) (requestWake 3 (setCvp n { g with
        pres := true, pin := true, state := .starting, ck := true, ckStart := s.tb.cycles, fsPassed := false, failed := false,
        initing := false, initLeft := [], initIndex := 0, attempts := 0, seen := [], synced := false } s))))) ∧
    (s.power.cur = .s0 → g.state = .starting → g.ck = true → g.initing = false → g.failed = false → g.fsPassed = false →
      ∃ t w ws, exec (.initialisationList n) s = .next t ∧ initCommands s n = w :: ws ∧
        portOnly n { g with initing := true, initLeft := w :: ws, initIndex := 0, attempts := 0, cmdBusy := true, cmdTx := w } s t) ∧
    (∀ (path : Path) (w : W32),
      (path ≠ .ranger → exec (.cvpCommand path n w) s = .next (raise sysFlagsA 0 (bump sysWerrA s))) ∧
      (path = .ranger → g.cmdBusy = false → g.ck = true → bits w 31 30 ≠ 3 →
        exec (.cvpCommand path n w) s = .next (setCvp n { g with cmdBusy := true, cmdTx := w } s)) ∧
      (path = .ranger → g.cmdBusy = true ∨ g.ck = false ∨ bits w 31 30 = 3 → exec (.cvpCommand path n w) s = .next s)) ∧
    (∀ bs : List Bool, bs.length = 32 → g.cmdBusy = true →
      let good := decide ((crc8 (bs.take 24)).toNat = ofBits ((bs.drop 24).take 8))
      let res := if bs.all id then 3 else if !good then 2 else if ofBits (bs.take 8) = 0x5A then 0 else if ofBits (bs.take 8) = 0x3C then 1 else 2
      let x : Cvp := { g with
        cmdBusy := false, cmdRes := res, cmdRx := BitVec.ofNat 24 (ofBits (bs.take 24)),
        assign := g.assign || (res == 0 && bits g.cmdTx 31 30 == 2) }
      (g.initing = false → exec (.commandResponse n bs) s = .next (setCvp n x s)) ∧
      (g.initing = true → res = 0 → g.initLeft.length = 1 → ∃ t, exec (.commandResponse n bs) s = .next t ∧
        portOnly n { x with initLeft := [], initIndex := g.initIndex + 1, attempts := 0, initing := false, fsPassed := true } s t) ∧
      (g.initing = true → res ≠ 0 → g.attempts < 2 → ∃ t, exec (.commandResponse n bs) s = .next t ∧
        portOnly n { x with attempts := g.attempts + 1, cmdBusy := true } s t) ∧
      (g.initing = true → res ≠ 0 → 2 ≤ g.attempts → ∃ v, portOnly n { x with initing := false, failed := true, initLeft := [] } s v ∧
        exec (.commandResponse n bs) s =
          .next (portEvent 9 0 n (stampNow s) [BitVec.ofNat 48 g.initIndex] (raise (cvpA n + 4) 11 v))))

/-- The statements ConverterFrames and ConverterCommands together. -/
def Obligations.ConverterPorts : Prop := ConverterFrames ∧ ConverterCommands


/-- R114–R123: a free port takes its next list; an entry's transaction gives the parsed values to its channels or, under the first check that fails,
counts, flags and refuses them, and the list runs on; a lost arbitration is tried again RETRY times; ALERT_N queues the alert
list, whose answer selects the entry. Readings it rests on: log entries 20, 83 and 84. -/
def Obligations.SensorPorts : Prop :=
  ∀ (p : Nat) (s : State), stopped s = false →
    let g := getSbp s p
    (∀ h x rest, s.power.cur = .s0 → g.state = .on → g.running = none → g.queue = .poll h x :: rest → exec (.listRun p) s =
      .next (setSbp p { g with running := some (.poll h x), queue := rest, entry := h, lost := 0, alertEntry := none } s)) ∧
    (∀ h pace e, g.running = some (.poll h pace) → g.entry = e →
      let x : Sample := if pollTsMode s e = 2 then pace else stampNow s
      let done (bs : List (BitVec 8)) (u : State) : State := advanceList p e (forEach [0, 1] (fun v t =>
        if bit (pollW t e (2 + v)) 47 then sourceValue 2 (2 * e + v) (parsed (pollW t e (2 + v)) bs) x t else t) u)
      let failed (code : Nat) (u : State) : State := advanceList p e (forEach [0, 1] (fun v t =>
        if bit (pollW t e (2 + v)) 47 then sourceRefused 2 (2 * e + v) (oneRefused 1 x) t else t)
          (setPoll e (min 65535 ((getPoll s e).1 + 1), code) (raise (sbpA p + 4) (if p < 4 then 4 else 3) u)))
      (∀ bus : BusTrace, p < 4 → s.power.cur = .s0 → bus.sdaLow = false →
        (twoWireResult s e bus = 0 → exec (.twoWireEntry p bus) s =
          .next (done bus.bytes (bumpWrap (sbpA p + 0x6C) (setPoll e ((getPoll s e).1, 0) s)))) ∧
        (∀ r ∈ [(1, 0x40), (2, 0x44), (5, 0x50)], twoWireResult s e bus = r.1 →
          exec (.twoWireEntry p bus) s = .next (failed r.1 (bump (sbpA p + r.2) s))) ∧
        (bus.busErr = false → 0 < pollNc s e → bus.ackWrite = false → twoWireResult s e bus = 1)) ∧
      (∀ bs, 4 ≤ p → p < 8 → s.power.cur = .s0 → pollChk s e = false → exec (.serialEntry p bs) s =
        .next (done (bs.take (pollNr s e)) (bumpWrap (sbpA p + 0x48) (setPoll e ((getPoll s e).1, 0) s)))) ∧
      (∀ bs, 4 ≤ p → p < 8 → s.power.cur = .s0 → pollChk s e = true → fillFails (pollW s e 2) bs = true →
        exec (.serialEntry p bs) s = .next (failed 7 (bump (sbpA p + 0x40) s))) ∧
      (p < 4 → g.lost + 1 ≤ twcRetry s p → exec (.arbitrationLost p) s =
        .next (setSbp p { g with lost := g.lost + 1 } (bump (sbpA p + 0x48) s))) ∧
      (p < 4 → twcRetry s p < g.lost + 1 → exec (.arbitrationLost p) s = .next (failed 3 (bump (sbpA p + 0x48) s))) ∧
      (p < 4 → exec (.strto p) s = .next (failed 4 (bump (sbpA p + 0x4C) s)))) ∧
    (p < 4 → s.power.cur = .s0 → twcAlertEn s p = true → g.state = .on → g.lastAlert = none → g.running = none → g.queue = [] →
      ∃ t, exec (.alert p) s = .next t ∧ getSbp t p = { g with alertLevel := true, queue := [.alert (stampNow s)] } ∧
        cntR t (sbpA p + 0x60) = plusOne (cntR s (sbpA p + 0x60)) ∧ { t with sbps := s.sbps, cnt := s.cnt } = s) ∧
    (∀ x, p < 4 → g.running = some (.alert x) → g.alertEntry = none →
      (exec (.alertList p none) s = .next (bump (sbpA p + 0x68) (setSbp p { g with
        running := none, alertLevel := false, alertRecs := { word := BitVec.ofNat 48 (p * 2 ^ 16 + 2 ^ 15), sample := x } :: g.alertRecs } s))) ∧
      (∀ b : BitVec 8, ∀ e, alertEntryOf s p (b.toNat / 2) = some e → exec (.alertList p (some b)) s = .next (setSbp p { g with
        alertEntry := some e, alertLevel := false,
        alertRecs := { word := BitVec.ofNat 48 (p * 2 ^ 16 + b.toNat / 2), sample := x } :: g.alertRecs } s)))

/-- R126–R130, R133: an edge of an enabled pin is a candidate; it is confirmed at once with DB 0 and at the end of its debounce otherwise, or
dropped and counted. A confirmed event of the active kind counts, joins its queue of 16 with its stamp, latches its interrupt
source; one beyond 16 counts as refused. The queue passes its head to the stream in S0. -/
def Sys2Proof.Claims.EventPins : Prop :=
  ∀ (n w : Nat) (s : State), n < 16 → stopped s = false → s.power.cur = .s0 → evpEn s n = true →
    let g := getEvp s n
    (g.started = true → g.candidate = none → bits (cfgR s (evpA n)) 19 8 ≠ 0 →
      exec (.candidate n w) s = .next (setEvp n { g with candidate := some (stampNow s) } s)) ∧
    (g.started = true → g.candidate = none → bits (cfgR s (evpA n)) 19 8 = 0 →
      exec (.candidate n w) s = .next (confirmPin n (stampNow s) s)) ∧
    (∀ x, g.candidate = some x → exec (.evpConfirmed n w) s = .next (confirmPin n x s)) ∧
    (∀ x, g.candidate = some x → exec (.pinReturn n) s = .next (bump (evpA n + 8) (setEvp n { g with candidate := none } s))) ∧
    (∀ x, bits (cfgR s (evpA n)) 7 4 = (if g.level then 1 else 0) → g.run = none → g.queue.length < 16 →
      (∀ m < 32, tmrSrc s m ≠ 6 ∧ ∀ b, capSrc s m b ≠ 1) → (∀ k < 8, bits (cfgR s (bgtA + 0x80 + 4 * k)) 3 1 ≠ 4) →
      ∃ t, confirmPin n x s = t ∧
        getEvp t n = { g with
          level := !g.level, candidate := none,
          queue := g.queue ++ [{ word := BitVec.ofNat 48 ((if g.level then 0 else 256) + n), sample := x }] } ∧
        cntR t (evpA n + 4) = plusOne (cntR s (evpA n + 4)) ∧ (getIcu t (34 + n)).latch = true ∧
        { t with evps := s.evps, cnt := s.cnt, icu := s.icu } = s) ∧
    (∀ e rest, s.phase = .running → g.queue = e :: rest → e.gap = none → exec (.eventQueueDrain false n) s =
      .next (channelEvent 5 n 0 e.sample e.word (setEvp n { g with queue := rest } s)))

/-- R131, R132: a key is touched after NCONF scans at or above its threshold; a touched key is released after
NCONF scans below the threshold less its hysteresis; each is an event with the stamp of the scan that began the run. Readings it rests on: log entry 82. -/
def Sys2Proof.Claims.TouchKeys : Prop :=
  ∀ (n : Nat) (c : BitVec 16) (s : State), n < 16 → stopped s = false → bit (cfgR s (tchA n)) 0 = true → firstKey s ≠ some n →
    let g := getTch s n
    let cfg := cfgR s (tchA n)
    let b := g.base.getD (256 * c.toNat)
    let d : Int := (c.toNat : Int) - (b / 256 : Nat)
    let thr : Int := bits cfg 31 20
    (g.touched = false → thr ≤ d → 0 < thr → g.pressRun + 1 = bits cfg 11 8 → 1 < bits cfg 11 8 → ∃ u, exec (.touchMeasurement n c) s =
        .next (touchEvent n true false g.runStamp u) ∧
      getTch u n = { g with base := some b, last := c, touched := true, pressRun := 0, negRun := 0, relRun := 0, scans := 0 } ∧
      { u with tchs := s.tchs, tchScan := s.tchScan } = s) ∧
    (g.touched = false → thr ≤ d → 0 < thr → g.pressRun + 1 < bits cfg 11 8 → ∃ u, exec (.touchMeasurement n c) s = .next u ∧
      getTch u n = { g with
        base := some b, last := c, pressRun := g.pressRun + 1, negRun := 0, relRun := 0, scans := 0,
        runStamp := if g.pressRun = 0 then s.tchStamp else g.runStamp } ∧
      { u with tchs := s.tchs, tchScan := s.tchScan } = s) ∧
    (g.touched = true → d < thr - bits cfg 19 12 → g.relRun + 1 = bits cfg 11 8 → 1 < bits cfg 11 8 → 0 < g.relRun → ∃ u, exec (.touchMeasurement n c) s =
        .next (touchEvent n false false g.runStamp u) ∧
      getTch u n = { g with base := some b, last := c, touched := false, relRun := 0, pressRun := 0, negRun := 0, scans := g.scans + 1 } ∧
      { u with tchs := s.tchs, tchScan := s.tchScan } = s)

/-- The statements EventPins and TouchKeys together. -/
def Obligations.PinsAndKeys : Prop := EventPins ∧ TouchKeys


/-- R133–R135, R138, R304: a PULSE output ends its pulse; a LATCH output is cleared by Ranger's write to OPI_EVO_CLR, with a journal entry, and
the host's is ignored and counted; an output in MODE 0 follows its source. -/
def Obligations.EventOutputs : Prop :=
  ∀ (n : Nat) (s : State), n < 8 → stopped s = false → s.phase = .running →
    let o := getEvo s n
    let mode := bits (cfgR s (evoA n)) 4 3
    (mode = 2 → o.pulse = true → exec (.pulseEnd n) s = .next (setEvo n { o with pulse := false, active := false } s)) ∧
    (mode ≠ 2 ∨ o.pulse = false → exec (.pulseEnd n) s = .next s) ∧
    (mode = 1 → o.latch = true → exec (.opiEvoClr .ranger (1#32 <<< n)) s =
      .next (journal 0x13 (stampNow s) [BitVec.ofNat 48 (n * 2 ^ 40 + bits (cfgR s (evoA n)) 7 5 * 2 ^ 5 + bits (cfgR s (evoA n)) 12 8)]
        (setEvo n { o with latch := false, active := false } s))) ∧
    (mode ≠ 1 ∨ o.latch = false → exec (.opiEvoClr .ranger (1#32 <<< n)) s = .next s) ∧
    (∀ (path : Path) (v : W32), path ≠ .ranger → exec (.opiEvoClr path v) s = .next (raise sysFlagsA 0 (bump sysWerrA s))) ∧
    (mode = 0 → o.driven = true → evoFollow n s = setEvo n { o with source := evoSource s n, active := evoSource s n } s) ∧
    (mode = 1 → o.driven = true → o.source = false → o.latch = false → evoSource s n = true → evoFollow n s =
      journal 0x13 (stampNow s) [BitVec.ofNat 48 (n * 2 ^ 40 + 2 ^ 8 + bits (cfgR s (evoA n)) 7 5 * 2 ^ 5 + bits (cfgR s (evoA n)) 12 8)]
        (setEvo n { o with source := true, latch := true, active := true } s))

/-! ### The Hawser trunk (R140–R196) -/

namespace Sys2Proof.Claims
open Sys2Proof Sys2Proof.Machine

/-- t is s but for trunk port n, which holds x; the other ports of a store in its canonical form are as they were. -/
def trunkOnly (n : Nat) (x : Hws) (s t : State) : Prop :=
  getHws t n = x ∧ { t with hws := s.hws } = s ∧ (Mem.wf (fun _ => {}) s.hws = true → ∀ m, m ≠ n → getHws t m = getHws s m)

/-- v is round(4 × (10 log10 x + 118.6 − 0.75 g)), as 10^(10 v − 5 − off) ≤ x^400 < 10^(10 v + 5 − off) with off = 4744 − 30 g (R157). -/
def levelIs (x : Rat) (g : Nat) (v : Int) : Prop :=
  -(2 ^ 15) ≤ v ∧ v < 2 ^ 15 ∧ levelAtLeast x (10 * v - 5 - (4744 - 30 * g)) = true ∧ levelAtLeast x (10 * v + 5 - (4744 - 30 * g)) = false

/-- The trunk port's event record (R133, R201). -/
def trunkEv (kind node n : Nat) (x : Sample) (s : State) : State := portEvent kind node (8 + n) x [] s

/-- A JOIN_REQ, well-formed and from no other node's slot: the node, its UID and its capability byte. -/
def joining (s : State) (n : Nat) (p : HPkt) (m : Nat) (uid : W64) (cap : BitVec 8) : Prop :=
  hType p.hdr = 1 ∧ p.payload.length = 16 ∧ hNode p.hdr = m ∧ foreignPacket s n p = false ∧
  uid = BitVec.ofNat 64 (beNat (p.payload.take 8)) ∧ cap = p.payload.getD 11 0

end Sys2Proof.Claims

open Sys2Proof Sys2Proof.Machine Sys2Proof.Claims

/-- R148, R153, R155, R158, R159: the receiver locks to a sync word above both thresholds; a header that passes its CRC holds the lock or, with LEN 0, ends
the packet; a bad one is counted, and the receiver re-locks to the best peak it holds or hunts. A packet whose CRC-24
matches is counted in RXOK and handed to the link with its payload and stamp; one that fails, or names no valid map,
is counted. A peak above the margin captures the receiver, CAPTURED or FALSELOCK by whether the header had passed. Readings it rests on: log entries 78 and 86. -/
def Obligations.TrunkReception : Prop :=
  ∀ (n : Nat) (s : State), stopped s = false →
    let g := getHws s n
    let det := cfgR s (hwsA n + 8)
    (∀ (mq : Nat) (margin metric : Int), canReceive s n = true → g.lock = none →
      (bits det 31 16 ≤ mq → (bits det 7 0 : Int) < margin → ∃ u,
        trunkOnly n { g with lock := some { metric := metric, stamp := rxStamp s n } } s u ∧
        exec (.lock n mq margin metric) s = .next (bump (hwsA n + 0x40) u)) ∧
      (mq < bits det 31 16 ∨ margin ≤ (bits det 7 0 : Int) → exec (.lock n mq margin metric) s = .next s)) ∧
    (∀ l, g.lock = some l →
      (∀ (h : BitVec 62) (rssi : BitVec 16) (snr : List Int), l.hdr = none →
        let seen := { g with rssi := rssi, rssiNode := hNode h }
        ((headerCrc h).toNat = bits h 7 0 → nodeReserved h = false → hLen h ≠ 0 → ∃ u,
          trunkOnly n { seen with lock := some { l with hdr := some h } } s u ∧ exec (.header n h rssi snr) s = .next u) ∧
        ((headerCrc h).toNat = bits h 7 0 → typeFromNode h = true → hLen h = 0 → ∃ u,
          trunkOnly n { seen with
            lock := none
            inbox := g.inbox ++ [{ hdr := h, payload := [], stamp := l.stamp, snr := snr, captured := l.captured }] } s u ∧
          exec (.header n h rssi snr) s = .next (bump (hwsA n + 0x44) u)) ∧
        ((headerCrc h).toNat = bits h 7 0 → nodeReserved h = true → ∃ u, trunkOnly n { g with lock := none } s u ∧
          exec (.header n h rssi snr) s = .next (raise (hwsA n + 4) 2 (bump (hwsA n + 0x48) u))) ∧
        ((headerCrc h).toNat ≠ bits h 7 0 → ∃ u,
          exec (.header n h rssi snr) s = .next u ∧ { u with hws := s.hws, cnt := s.cnt, flags := s.flags } = s ∧
          cntR u (hwsA n + 0x58) = plusOne (cntR s (hwsA n + 0x58)) ∧ cntR u (hwsA n + 0x48) = plusOne (cntR s (hwsA n + 0x48)) ∧
          flagR u (hwsA n + 4) = flagR s (hwsA n + 4) ||| 0x14 ∧
          (livePeaks s g = [] → getHws u n = { g with lock := none, peaks := [] }) ∧
          (livePeaks s g ≠ [] → ∃ p ∈ livePeaks s g, (∀ q ∈ livePeaks s g, q.1 ≤ p.1) ∧
            (getHws u n).lock = some { metric := p.1, stamp := p.2 }))) ∧
      (∀ h (p : List (BitVec 8)) (c : BitVec 24) (snr : List Int), l.hdr = some h → p.length = hLen h →
        let data := bytesOfBits (scramble (hNode h) (byteBits p ++ msbBits c))
        let x := getNode s n (hNode h)
        (mapAccepted s n h = true → typeFromNode h = true → c = crc24 p → ∃ u,
          trunkOnly n { g with
            lock := none
            inbox := g.inbox ++ [{ hdr := h, payload := p, stamp := l.stamp, snr := snr, captured := l.captured }] } s u ∧
          exec (.packetReceived n data snr) s = .next (bump (hwsA n + 0x44) u)) ∧
        (mapAccepted s n h = true → c ≠ crc24 p → ∃ u,
          trunkOnly n { g with
            lock := none
            nodes := Mem.write (fun _ => {}) g.nodes (hNode h) { x with crcFails := (g.cycle :: x.crcFails).take 2 } } s u ∧
          exec (.packetReceived n data snr) s = .next (raise (hwsA n + 4) 2 (bump (hwsA n + 0x4C) u))) ∧
        (mapAccepted s n h = false → ∃ u, trunkOnly n { g with lock := none } s u ∧
          exec (.packetReceived n data snr) s = .next (raise (hwsA n + 4) 2 (bump (hwsA n + 0x50) u)))) ∧
      (∀ metric : Int,
        (l.metric + 4 * bits (cfgR s (hwsA n)) 27 24 ≤ metric → ∃ u,
          trunkOnly n { g with lock := some { metric := metric, stamp := rxStamp s n, captured := l.hdr.isSome } } s u ∧
          exec (.receiverCapture n metric) s = .next (if l.hdr.isSome then raise (hwsA n + 4) 3 (bump (hwsA n + 0x54) u)
            else raise (hwsA n + 4) 4 (bump (hwsA n + 0x58) u))) ∧
        (metric < l.metric + 4 * bits (cfgR s (hwsA n)) 27 24 → ∃ u,
          trunkOnly n { g with peaks := (metric, rxStamp s n) :: livePeaks s g } s u ∧
          exec (.receiverCapture n metric) s = .next u)))

/-- R142, R143, R145, R146, R149, R157, R160: the oldest scheduled packet is sent: counted, a lock in progress dropped without any count, one
header symbol and the data symbols of its map, and the end of its tail 64 samples after them. A noise floor window moves
each A_k by the shift of NF_SHIFT, the first one to the bin's power itself, and sets the levels NF_k and NF_WB. -/
def Sys2Proof.Claims.TrunkSignal : Prop :=
  ∀ (n : Nat) (s : State), stopped s = false →
    let g := getHws s n
    (∀ p rest, g.txQueue = p :: rest → n < 8 → s.power.cur = .s0 → hwsG2En s n = true →
      let m := portMap s n (hTmap p.hdr)
      let sym := dataSymbols m.rate (mapNcbps s n m) (hLen p.hdr)
      ∃ u ls, ls.length = 1 + sym ∧
        trunkOnly n { g with
          txQueue := rest, lock := none, txPkt := p, txLabels := ls
          txEnd := presentTime s p.stamp - 4608 + BitVec.ofNat 64 (2304 * (5 + sym) + 64) } s u ∧
        exec (.packetTransmit n) s = .next (bump (hwsA n + 0x5C) u)) ∧
    (g.txQueue = [] → exec (.packetTransmit n) s = .next s) ∧
    (∀ (bins : List Rat) (gain : Nat), canReceive s n = true → g.lock = none → bins.length = 144 → Mem.wf (fun _ => 0) g.nf = true →
      let a (j : Nat) : Rat :=
        let o := Mem.read (fun _ => (0 : Rat)) g.noise j
        if g.noiseOn then o + (bins.getD j 0 - o) / 2 ^ bits (cfgR s (hwsA n)) 23 20 else bins.getD j 0
      (∀ j < 144, 0 < a j) → ∃ t, exec (.noiseFloorWindow n bins gain) s = .next t ∧ { t with hws := s.hws } = s ∧
        (getHws t n).noiseOn = true ∧
        (∀ j < 144, Mem.read (fun _ => 0) (getHws t n).noise j = a j ∧
          ∀ v, levelIs (a j) gain v → Mem.read (fun _ => 0) (getHws t n).nf j = BitVec.ofInt 16 v) ∧
        (∀ v, levelIs ((List.range 144).map a).sum gain v → (getHws t n).nfWb = BitVec.ofInt 16 v))

/-- R162, R163, R164, R175: the feed's steps: the inrush ends with the baseline at the present reading; the detector is armed, with a join scan; a short
switches the feed off, counts, and is retried, or after SHORT_RETRY restarts locks it; every node leaves. The baseline
follows a reading below the threshold; the STEP_N-th cycle in a row at or above it is a step, stamped at the first. -/
def Sys2Proof.Claims.TrunkPower : Prop :=
  ∀ (n : Nat) (s : State), n < 8 → stopped s = false →
    let g := getHws s n
    let ctrl := cfgR s (hwsA n + 0x20)
    (∀ code < 1024, g.pstate = 1 → ∃ u, trunkOnly n { g with pstate := 2, base := code, code := code, onSince := ticks s } s u ∧
      exec (.inrushEnd n code) s = .next u) ∧
    (g.pstate = 3 → ∃ u, trunkOnly n { g with pwren := true, pstate := 1, armed := false, stepRun := 0 } s u ∧
      exec (.retryRestart n) s = .next u) ∧
    (g.pstate ≠ 3 → exec (.retryRestart n) s = .next s) ∧
    (g.pstate = 2 →
      (g.armed = false → ∃ u, trunkOnly n { g with armed := true, stepRun := 0, scanLeft := bits (cfgR s (hwsA n + 0x10C)) 31 16 } s u ∧
        exec (.stepDetectorArm n) s = .next u) ∧
      (let run := if (ticks s - g.onSince).toNat ≤ 400000000 then g.shortRun + 1 else 1
       let last := decide (bits ctrl 10 8 < run)
       ∃ u, trunkOnly n { g with
            pwren := false, pstate := if last then 0 else 3, shortRun := run, shortLock := g.shortLock || last
            armed := false, stepRun := 0 } s u ∧
          exec (.short n) s = .next (leaveAll n (trunkEv 3 0 n (stampNow s) (raise (hwsA n + 0x24) 6 (bump (hwsA n + 0x6C) u))))) ∧
      (∀ x : Rat, g.armed = true →
        let d := x - g.base
        let big : Prop := (bits (cfgR s (hwsA n + 0x30)) 9 0 : Rat) ≤ d ∨ d ≤ -(bits (cfgR s (hwsA n + 0x30)) 9 0 : Rat)
        let code := x.floor.toNat % 1024
        let first := if g.stepRun = 0 then stampNow s else g.stepStamp
        (¬ big → ∃ u, trunkOnly n { g with code := code, stepRun := 0, base := g.base + d / 2 ^ bits ctrl 15 12 } s u ∧
          exec (.currentStep n x) s = .next u) ∧
        (big → g.stepRun + 1 < bits ctrl 19 16 → ∃ u, trunkOnly n { g with code := code, stepRun := g.stepRun + 1, stepStamp := first } s u ∧
          exec (.currentStep n x) s = .next u) ∧
        (big → bits ctrl 19 16 ≤ g.stepRun + 1 → ∃ u v w, trunkOnly n { g with code := code, stepRun := 0, base := x } s u ∧
          v = trunkEv (if 0 < d then 4 else 5) 0 n first (raise (hwsA n + 0x24) 5 (bump (hwsA n + 0x70) u)) ∧
          (if 0 < d then trunkOnly n { getHws v n with scanLeft := bits (cfgR v (hwsA n + 0x10C)) 31 16 } v w else w = v) ∧
          exec (.currentStep n x) s = .next (if bit (cfgR w (hwsA n + 0x20)) 11 then requestWake 4 w else w)))) ∧
    (g.pstate ≠ 2 → exec (.short n) s = .next s ∧ (∀ x, exec (.currentStep n x) s = .next s))

/-- The statements TrunkSignal and TrunkPower together. -/
def Obligations.TrunkSignalAndPower : Prop := TrunkSignal ∧ TrunkPower


/-- R173, R176, R177, R178, R186: the control slot sends one packet a cycle, the first in the order of R186 and the oldest of its kind, with its reference
instant on the slot's unit; a JOIN_REQ is counted and its JOIN_ACK waits for that slot: STATUS 1 for a node the image does not expect,
and 0 with the first map behind it for one that it does. JOIN_ACK's STATUS 0 makes the node JOINED, or ON with an empty list. A joined node that
sends no DATA within 16 cycles after FIRST is absent again. Readings it rests on: log entry 89. -/
def Sys2Proof.Claims.TrunkJoining : Prop :=
  ∀ (n : Nat) (s : State), n < 8 → stopped s = false →
    let g := getHws s n
    let unit := 8 + 8 * bits (cfgR s (hwsA n + 0x100)) 21 19
    (∀ c, ctlPick g = some c → c ∈ g.ctl ∧ ctlReady g c = true ∧ ∀ d ∈ g.ctl, ctlReady g d = true → ctlPrio c ≤ ctlPrio d) ∧
    (ctlPick g = none ↔ ∀ d ∈ g.ctl, ctlReady g d = false) ∧
    (g.ctlSent = true ∨ ctlPick g = none → exec (.controlSlot n) s = .next s) ∧
    (∀ c, s.power.cur = .s0 → g.state = .on → g.cycling = true → g.ctlSent = false → ctlPick g = some c → ∃ u,
      let k := (g.ctlCount + 1) % 16
      let x := getNode s n c.node
      trunkOnly n { g with ctl := g.ctl.erase c, ctlSent := true, ctlCount := k } s u ∧
      (c.type = 8 → exec (.controlSlot n) s = .next
        (let v := schedule n unit (mkHeader c.node 8 1 0 0 0) [0] u; if c.node = 63 then v else leaveNode n c.node 7 v)) ∧
      (c.type = 7 → exec (.controlSlot n) s = .next
        (setNode n c.node { x with cmdSent := some g.cycle } (schedule n unit (mkHeader c.node 7 7 0 x.cmdSeq 0) c.payload u))) ∧
      (c.type = 6 → ∃ dly : Int, -1 ≤ 2 * ((dly : Rat) - x.dEst) ∧ 2 * ((dly : Rat) - x.dEst) ≤ 1 ∧
        exec (.controlSlot n) s = .next (setNode n c.node { x with dly := dly, dlySent := some g.cycle }
          (schedule n unit (mkHeader c.node 6 4 0 k 0) (beSigned 3 dly ++ [0]) u))) ∧
      (c.type = 2 → ∃ dly : Int, -1 ≤ 2 * ((dly : Rat) - x.dEst) ∧ 2 * ((dly : Rat) - x.dEst) ≤ 1 ∧
        let fields := beBytes 8 c.uid.toNat ++ [BitVec.ofNat 8 c.arg] ++ beSigned 3 dly ++ beBytes 4 (g.cycle + 8).toNat
        let v (gs : List (BitVec 8)) := schedule n unit (mkHeader c.node 2 64 0 k 0) (fields ++ gs) u
        (c.arg ≠ 0 → exec (.controlSlot n) s = .next (v (List.replicate 48 0))) ∧
        (c.arg = 0 → exec (.controlSlot n) s = .next (nodeJoined n c.node (setNode n c.node { x with dly := dly, uid := c.uid }
          (v ((List.range 4).flatMap (fun i => ackGrant s n c.node i)))))))) ∧
    (∀ m : Nat, let list := entriesOfBytes 7 (listBytes s 3 (32 * n + m))
      ∃ v, nodeJoined n m s = trunkEv 6 m n (stampNow s) v ∧ (getNode v n m).nstate = (if list = [] then 2 else 1) ∧
        (getNode v n m).first = g.cycle + 8 ∧ (getNode v n m).initLeft = list ∧
        cntR v (hwsA n + 0x148) = plusOne (cntR s (hwsA n + 0x148)) ∧ bit (flagR v (hwsA n + 0x104)) 3 = true ∧
        { v with hws := s.hws, cnt := s.cnt, flags := s.flags } = s) ∧
    (∀ p rest m uid cap, g.inbox = p :: rest → joining s n p m uid cap →
      (expected s n m = false → ∃ u,
        trunkOnly n { g with inbox := rest, ctl := g.ctl ++ [{ type := 2, node := m, arg := 1, uid := uid }] } s u ∧
        exec (.joinReq n) s = .next (bump (hwsA n + 0x154) (bump (hwsA n + 0x144) u))) ∧
      (expected s n m = true → bookUid s n m = 0 ∨ bookUid s n m = uid → (getNode s n m).nstate = 0 →
        bookMod s n m ≤ bits cap 2 0 → bookRate s n m ≤ bits cap 4 3 → ∃ u,
        let t := buildMap s n cap [p.snr]
        trunkOnly n { g with
          inbox := rest
          nodes := Mem.write (fun _ => {}) g.nodes m
            { getNode s n m with cap := cap, dEst := (joinOffset s g p.stamp : Rat) / 2, snrs := [p.snr] }
          ctl := g.ctl ++ [{ type := 2, node := m, uid := uid }] ++
            (if t = robustMap then [] else [{ type := 5, node := m, map := t, first := true }]) } s u ∧
        exec (.joinReq n) s = .next (bump (hwsA n + 0x144) u))) ∧
    (∀ m < 32, let x := getNode s n m
      (x.nstate ≠ 0 → x.heard = false → 16 ≤ (g.cycle - x.first).toInt → ∃ u,
        trunkOnly n { g with
          ctl := g.ctl.filter (fun c => c.node ≠ m)
          tmchg := g.tmchg.bind (fun c => if c.1 = m then none else some c)
          nodes := Mem.write (fun _ => {}) g.nodes m { lost := x.lost, nacks := x.nacks } } s u ∧
        exec (.joinfail n m) s = .next (bump (hwsA n + 0x14C) u)) ∧
      (x.nstate = 0 ∨ x.heard = true → exec (.joinfail n m) s = .next s))

/-- R173, R174, R180, R182, R190, R192: a DATA packet in its owner's slot is taken, another node's there counts as SLOTCAP; each
value of a block reaches its channel at T0 + i × PER, with the beacon's quality or HELD; D moves by a sixteenth; a missing packet
is asked for again at RSTART, and lost where neither slot brought it. A node leaves by its own LEAVE or after LOSS_N cycles
with nothing, with an event and the count of LEAVES or TIMEOUTS. Readings it rests on: log entry 89. -/
def Obligations.TrunkData : Prop :=
  ∀ (n : Nat) (s : State), n < 8 → stopped s = false →
    let g := getHws s n
    (∀ p rest, g.inbox = p :: rest →
      (∀ pl retry, hType p.hdr = 3 → slotOf s n p.stamp = some (pl, retry) → ∃ u, trunkOnly n { g with inbox := rest } s u ∧
        (p.captured = true ∨ hNode p.hdr ≠ pl.node →
          exec (.data n) s = .next (raise (hwsA n + 0x104) 6 (bump (hwsA n + 0x164) u))) ∧
        (p.captured = false → hNode p.hdr = pl.node → (getNode s n pl.node).nstate ≠ 0 → bits p.hdr 31 30 = pl.g →
          exec (.data n) s = .next (takeData n p pl retry u))) ∧
      (hType p.hdr = 8 → foreignPacket s n p = false → ∃ u, trunkOnly n { g with inbox := rest } s u ∧
        exec (.leave n) s = .next (leaveNode n (hNode p.hdr) 7 u))) ∧
    (∀ m : Nat, let x := getNode s n m
      (∀ o : Int, (getNode (delayUpdate n m o s) n m).dEst = x.dEst + (((o + x.dly : Int) : Rat) / 2 - x.dEst) / 16) ∧
      (∀ ch ovr nsync (t0 : W48) per (v w : BitVec 24), x.nstate = 2 →
        let at_ (i : Nat) (u : State) : Sample :=
          let t := fullOf (ticks u) t0 + BitVec.ofNat 64 (i * per)
          { stamp := t, qual := if nsync then .held else beaconQual (getHws u n) t, ovr := ovr, era := nodeEra u t }
        let put (i : Nat) (v : BitVec 24) (u : State) : State := sourceValue 3 (1024 * n + 32 * m + ch) (v.signExtend 48) (at_ i u) u
        takeBlock n m (.data ch ovr nsync t0 per [v, w]) s = put 1 w (put 0 v s)) ∧
      (∀ kind, x.nstate ≠ 0 → ∃ v, leaveNode n m kind s = trunkEv kind m n (stampNow s) v ∧
        getNode v n m = { lost := x.lost, nacks := x.nacks } ∧
        (let a := hwsA n + (if kind = 8 then 0x174 else 0x170); cntR v a = plusOne (cntR s a)) ∧
        { v with hws := s.hws, cnt := s.cnt, flags := s.flags } = s) ∧
      (∀ k, ∃ u, getNode u n m = { x with lost := min 65535 (x.lost + 1) } ∧ { u with hws := s.hws } = s ∧
        let v := raise (hwsA n + 0x104) 5 (bump (hwsA n + 0x160) u)
        lostPacket n m k s = if x.nstate = 2 then refuseGrant n m k (stampNow s) v else v) ∧
      (∀ k p, s.power.cur = .s0 → missing s n m k = some p →
        (p.rstart ≠ 255 → exec (.nack n m k) s = .next (bump (hwsA n + 0x158)
          (schedule n p.rstart (mkHeader m 4 0 0 0 (k * 2 ^ 22)) [] (setNode n m { x with nacks := min 65535 (x.nacks + 1) } s)))) ∧
        (p.rstart = 255 → exec (.nack n m k) s = .next s) ∧
        exec (.packetLost n m k) s = .next (lostPacket n m k (setNode n m { x with
          seqs := Mem.write (fun _ => none) x.seqs k ((Mem.read (fun _ => none) x.seqs k).map (fun q => (q + 1) % 16)) } s))) ∧
      (∀ k, missing s n m k = none → exec (.nack n m k) s = .next s ∧ exec (.packetLost n m k) s = .next s) ∧
      (m < 32 → x.nstate ≠ 0 → bits (cfgR s (hwsA n + 0x100)) 15 8 ≤ x.lossRun → exec (.nodeTimeout n m) s = .next (leaveNode n m 8 s)) ∧
      (m < 32 → x.lossRun < bits (cfgR s (hwsA n + 0x100)) 15 8 → exec (.nodeTimeout n m) s = .next s))

/-- R184, R185: a rebuilt map is sent where it differs and holds less, or a sixteenth more; one change runs at a time; a new map
that no DATA has used by ACTIVATE + 16 is freed and counted, and one that a DATA uses becomes the node's. Readings it rests on: log entry 87. -/
def Sys2Proof.Claims.ToneMaps : Prop :=
  ∀ (n m : Nat) (s : State), n < 8 → stopped s = false →
    let g := getHws s n
    let x := getNode s n m
    let old := portMap s n x.tmap
    let new := buildMap s n x.cap (x.snrs.take (bits (cfgR s (hwsA n + 0x110)) 11 8))
    let better : Prop := new ≠ old ∧ (mapCapacity s n new < mapCapacity s n old ∨ 17 * mapCapacity s n old ≤ 16 * mapCapacity s n new)
    (x.nstate ≠ 0 → g.tmchg = none → (∃ a b, x.crcFails = [a, b] ∧ (a - b).toNat ≤ 16) → ∃ u,
      trunkOnly n { g with
        nodes := Mem.write (fun _ => {}) g.nodes m { x with crcFails := [] }
        ctl := g.ctl ++ (if better then [{ type := 5, node := m, map := new }] else []) } s u ∧
      exec (.toneMapRebuild n m) s = .next u) ∧
    (x.nstate = 0 ∨ g.tmchg.isSome = true → exec (.toneMapRebuild n m) s = .next s) ∧
    (∀ k old id act, g.tmchg = some (k, old, id, act) →
      (16 ≤ (g.cycle - act).toInt → ∃ u, trunkOnly n { g with tmchg := none, maps := Mem.erase g.maps id } s u ∧
        exec (.tmfail n) s = .next (bump (hwsA n + 0x16C) u)) ∧
      ((g.cycle - act).toInt < 16 → exec (.tmfail n) s = .next s) ∧
      (k = m → (getHws (adoptMap n m id s) n).tmchg = none ∧ (getNode (adoptMap n m id s) n m).tmap = id) ∧
      (k ≠ m → adoptMap n m id s = s))

/-- The statements TrunkJoining and ToneMaps together. -/
def Obligations.TrunkJoinsAndMaps : Prop := TrunkJoining ∧ ToneMaps


/-- R161, R187, R188, R189: a generation 1 transaction sends its frame and is counted; without an answer a poll is due once more, and
then lost with its samples; IDENT and WRITE end. A response with the right ADDR, CMD, SEQ and CRC gives its samples at LAT
after the poll's reference instant; one with a bad CRC is counted and fails the transaction. Readings it rests on: log entry 88. -/
def Obligations.GenerationOne : Prop :=
  ∀ (n a : Nat) (s : State), n < 8 → a < 8 → stopped s = false →
    let g := getHws s n
    let x := getNode1 s n a
    let sent (cmd : Nat) (retry : Bool) : HPoll :=
      { a := a, cmd := cmd, retry := retry, due := false, ref := { stampNow s with stamp := (stampNow s).stamp + 76800 } }
    let other (y : HNode1) : Mem HNode1 := Mem.write (fun _ => {}) g.nodes1 a y
    (s.power.cur = .s0 → g.state = .on → g.cycling = true → hwsG1En s n = true → expected1 s n a = true →
      (g.poll = none → ∃ u,
        trunkOnly n { g with
          nodes1 := other { x with seq := x.seq + 1 }
          poll := some (sent (match x.nstate with | 0 => 1 | 1 => 3 | _ => 2) false) } s u ∧
        exec (.g1Poll n a) s = .next (bump (hwsA n + 0x68) (bump (hwsA n + 0x178) u))) ∧
      (∀ p, g.poll = some p → p.a = a → p.due = true → ∃ u, trunkOnly n { g with poll := some (sent p.cmd true) } s u ∧
        exec (.g1Poll n a) s = .next (bump (hwsA n + 0x68) (bump (hwsA n + 0x178) u))) ∧
      (∀ p, g.poll = some p → p.due = false → exec (.g1Poll n a) s = .next s)) ∧
    (∀ p, g.poll = some p → p.a = a → p.due = false →
      let y := { p.ref with stamp := p.ref.stamp + BitVec.ofNat 64 (400 * x.lat) }
      exec (.noresp n) s = .next (pollFailed n p (bump (hwsA n + 0x17C) s)) ∧
      (p.cmd ≠ 2 → ∃ u, trunkOnly n { g with poll := none } s u ∧ pollFailed n p s = u) ∧
      (p.cmd = 2 → p.retry = false → ∃ u,
        trunkOnly n { g with nodes1 := other { x with retries := min 65535 (x.retries + 1) }, poll := some { p with due := true } } s u ∧
        pollFailed n p s = u) ∧
      (p.cmd = 2 → p.retry = true → ∃ u,
        trunkOnly n { g with poll := none, nodes1 := other { x with failRun := x.failRun + 1, lost := min 65535 (x.lost + 1) } } s u ∧
        pollFailed n p s = forEach (List.range x.nch) (fun c => sourceRefused 4 (256 * n + 32 * a + c) (oneRefused 1 y))
          (raise (hwsA n + 0x104) 5 (bump (hwsA n + 0x184) u))) ∧
      (∀ b : List (BitVec 8), s.power.cur = .s0 → hwsG1En s n = true →
        let body := BitVec.ofNat 8 b.length :: b
        (∀ crc : BitVec 16, crc ≠ crc16 body → b.length ≤ 64 → exec (.g1FrameReceived n (body ++ beBytes 2 crc.toNat)) s =
          .next (pollFailed n p (bump (hwsA n + 0x64) s))) ∧
        (p.cmd = 2 → b.length = 4 + 3 * x.nch → b.length ≤ 64 → (b.getD 0 0).toNat = 0x40 + a → b.getD 1 0 = 0x82 → b.getD 2 0 = x.seq → ∃ u,
          trunkOnly n { g with poll := none, nodes1 := other { x with failRun := 0 } } s u ∧
          exec (.g1FrameReceived n (body ++ beBytes 2 (crc16 body).toNat)) s =
            .next (forEach (List.range x.nch) (fun c => sourceValue 4 (256 * n + 32 * a + c)
              ((BitVec.ofNat 24 (beNat ((b.drop (4 + 3 * c)).take 3))).signExtend 48) y)
              (if p.retry then bump (hwsA n + 0x180) (bump (hwsA n + 0x60) u) else bump (hwsA n + 0x60) u)))))

/-! ### Channels, filter engines and rainflow slots (R197–R239) -/

namespace Sys2Proof.Claims
open Sys2Proof Sys2Proof.Machine

/-- v is the integer nearest to q, the even one of two that are as near. -/
def NearestEven (v : Int) (q : Rat) : Prop :=
  -1 ≤ 2 * ((v : Rat) - q) ∧ 2 * ((v : Rat) - q) ≤ 1 ∧ (2 * ((v : Rat) - q) = 1 ∨ 2 * ((v : Rat) - q) = -1 → v % 2 = 0)

/-- The exact value of CAL's polynomial in Q23.24 units: A0 + Σ M_i × raw^i × 2^(E_i − 16 − i × XSH) (R203). -/
def calExact (s : State) (c : Nat) (raw : Int) : Rat :=
  let term (i : Nat) : Rat :=
    ((coefM (chW s c (2 + i)) * raw ^ i : Int) : Rat) * 2 ^ (coefE (chW s c (2 + i)) + 32).toNat / 2 ^ (48 + i * chXsh s c)
  (sval (chW s c 2) : Rat) + term 1 + term 2 + term 3

/-- A channel passes its values on: enabled, a value channel with a use for CAL, its engine ON and its source running. -/
def passes (s : State) (c : Nat) : Prop :=
  chEn s c = true ∧ chIsEvent s c = false ∧ calBooked s c = true ∧ (getFe s (chFe s c)).state = .on ∧ sourcesRun s (chKind s c) = true

end Sys2Proof.Claims

open Sys2Proof Sys2Proof.Machine Sys2Proof.Claims

/-- R198, R203, R205, R220, R234: a value of a channel in use is calibrated, exactly and then rounded and saturated (a saturation sets SATF and counts), and
passes on with its stamp and quality; at a full queue it is counted and refused with REASON QUEUE; a channel without use forms nothing.
A limit state changes when the value crosses the limits: the bit is set only on the way out, and LIMMODE 2 forms an event either way. -/
def Obligations.ChannelValues : Prop :=
  ∀ (c : Nat) (raw : W48) (x : Sample) (s : State), stopped s = false →
    let g := getFe s (chFe s c)
    let a := feA (chFe s c)
    (passes s c → g.queued < 4096 → chXsh s c ≤ 47 → ∃ v u, NearestEven v (calExact s c raw.toInt) ∧
      getFe u (chFe s c) = { g with qmax := max g.qmax (g.queued + 1) } ∧ { u with fes := s.fes } = s ∧
      (let y := (saturate v).1
       let sat := (saturate v).2
       exec (.channelValue c raw x) s =
         .next (channelCopies c { x with value := y, sat := sat } (if sat then raise a 4 (bump (a + 0xC) u) else u)))) ∧
    (passes s c → 4096 ≤ g.queued → exec (.channelValue c raw x) s = .next (channelGap c
      { first := x.stamp, last := x.stamp, count := 1, reason := 3, qual := x.qual, era := x.era } (raise a 3 (bump (a + 0x18) s)))) ∧
    (chEn s c = false ∨ chIsEvent s c = true ∨ calBooked s c = false → exec (.channelValue c raw x) s = .next s) ∧
    (chLimMode s c ≠ 0 →
      let hi := signed 24 (bits (chW s c 6) 47 24) * 2 ^ chLimSh s c
      let lo := signed 24 (bits (chW s c 6) 23 0) * 2 ^ chLimSh s c
      let h := getChan s c
      let is := decide (hi < x.value.toInt) || decide (x.value.toInt < lo)
      let side := if is then decide (hi < x.value.toInt) else h.high
      (is = h.out → limitCheck c x s = s) ∧
      (is ≠ h.out → ∃ u, getChan u c = { h with out := is, high := side } ∧ { u with chans := s.chans } = s ∧
        (let w := if is then raise (limFA (c / 32)) (c % 32) u else u
         limitCheck c x s = if chLimMode s c = 2 ∧ chStrEn s c then
           offerEvent (chStream s c) 3 x [BitVec.ofNat 48 (b2n is * 2 ^ 47 + b2n side * 2 ^ 46 + c), x.value] w else w)))

/-- R95, R210, R232, R233, R359: a channel's gap notice is given to its chain and is gone; a run that has lasted half its stream's bound is
closed; a batch whose FLUSH is over closes with reason 1 and a wake, and no earlier. The scrubber counts what it corrects;
an uncorrectable error breaks its chain, and one in an unused word is only counted and journalled. Readings it rests on: log entries 60 and 69. -/
def Sys2Proof.Claims.GapsAndFlushes : Prop :=
  ∀ s : State, stopped s = false →
    (∀ c : Nat, let h := getChan s c
      (h.notice = none → exec (.gapNotice c) s = .next s) ∧
      (∀ run, h.notice = some run → ∃ u, getChan u c = { h with notice := none } ∧ { u with chans := s.chans } = s ∧
        exec (.gapNotice c) s = .next (runChain c (.gap run false) u))) ∧
    (∀ k : Nat, let g := getStream s k
      (∃ v, exec (.gapRunClose k) s = .next (forEach (List.range 16) (fun n u => closeLongOpRun k 6 n (closeLongOpRun k 5 n u)) v) ∧
        (g.run = none → v = s) ∧
        (∀ run, g.run = some run → sinceStamp s run.first run.era < boundOf s k / 2 → v = s) ∧
        (∀ run, g.run = some run → boundOf s k / 2 ≤ sinceStamp s run.first run.era →
          (∀ kv ∈ s.chans, kv.2.notice = none) → v = closeRun k s)) ∧
      (∀ b, g.batch = some b →
        (b.t0 + BitVec.ofNat 64 (stFlush s k) ≤ ticks s → exec (.flushDeadline k) s = .next (requestWake 6
          (makeReady (stRing s k) (batchRec s k 1 b) (setStream k { g with batch := none } s)))) ∧
        (ticks s < b.t0 + BitVec.ofNat 64 (stFlush s k) → exec (.flushDeadline k) s = .next s)) ∧
      (g.batch = none → exec (.flushDeadline k) s = .next s)) ∧
    (∀ e w : Nat, e < 8 → w < 32768 → s.power.cur = .s0 →
      let bad := journal 0x40 (stampNow s) [BitVec.ofNat 48 (e * 2 ^ 32 + w)] (raise (feA e) 6 (bump (feA e + 0x14) s))
      exec (.feScrub e w .clean) s = .next s ∧
      exec (.feScrub e w .corrected) s = .next (raise (feA e) 5 (bump (feA e + 0x10) s)) ∧
      (coefUse s e w = .unused → exec (.feScrub e w .uncorrectable) s = .next bad) ∧
      (∀ c, coefUse s e w = .chain c → ∃ t, exec (.feScrub e w .uncorrectable) s = .next t ∧ { t with cnt := bad.cnt } = bad ∧
        cntR t (feBrkA e (c / 32)) = cntR bad (feBrkA e (c / 32)) ||| (1#32 <<< (c % 32))))

/-- R230, R231: after NSNAP inputs a slot's snapshot is formed, 4,226 words with the residue, total and matrix; its inputs begin anew,
and with CLR the matrix and the total are cleared. A slot that is not due stays. Shown for a slot whose stream is not in the image. -/
def Sys2Proof.Claims.RainflowSnapshots : Prop :=
  ∀ (k ch : Nat) (d : StageDesc) (s : State), stopped s = false → slotOwner s k = some (ch, d) →
    let g := getSlot s k
    let n := bits (coef s (chFe s ch) (d.addr + 4)) 39 0
    (snapshotPayload s g).length = 4226 ∧
    (∀ r < 64, ∀ m < 64, (snapshotPayload s g).getD (2 + 64 * r + m) 0 = sramR s (512 * g.page.toNat + 64 * r + m)) ∧
    (g.inputs < n ∨ g.inputs = 0 → exec (.rainflowSnapshot k) s = .next s) ∧
    (n ≤ g.inputs → g.inputs ≠ 0 → streamOf s 5 (chFe s ch) k = none → Mem.wf (sramD s) s.sram = true →
      ∃ t, exec (.rainflowSnapshot k) s = .next t ∧
        (rfClr d = false → getSlot t k = { g with inputs := 0, worst := .fine, ovr := false, filled := false } ∧ { t with slots := s.slots } = s) ∧
        (rfClr d = true →
          getSlot t k = { g with inputs := 0, worst := .fine, ovr := false, filled := false, total := 0 } ∧
          { t with slots := s.slots, sram := s.sram, poisoned := s.poisoned } = s ∧
          ∀ w, sramR t w = if 512 * g.page.toNat ≤ w ∧ w < 512 * g.page.toNat + 4096 then 0 else sramR s w))

/-- The statements GapsAndFlushes and RainflowSnapshots together. -/
def Obligations.GapsAndSnapshots : Prop := GapsAndFlushes ∧ RainflowSnapshots


/-! ### Delivery rings (R336–R366) -/

/-- R337, R340, R344, R346, R353: the stager writes the oldest ready record of the ring whose turn it is: in a LOCAL ring its words at
their body positions, PROD and STG past it, its stream's delivered count, and DATAF at the watermark; a MIRROR ring's PROD stays. Readings it rests on: log entries 22 and 45. -/
def Obligations.StagerWrites : Prop :=
  ∀ (r : Nat) (x : Record) (rest : List Record) (s : State), stopped s = false → s.power.cur = .s0 → stagerRing s = some r →
    let g := getRing s r
    let own := !ringLevel x
    let st := getStream s x.num
    let ws := recWords s x (if own then st.seq else g.seq)
    let e := g.stg + BitVec.ofNat 32 ws.length
    let place (i : Nat) : Nat := 512 * g.base.toNat + (g.stg + BitVec.ofNat 32 i).toNat % bodySize s r
    let after := { g with ready := rest, stg := e, seq := if own then g.seq else (g.seq + 1) % 64 }
    g.front = [] → g.ready = x :: rest → x.relayed = none → x.type ≠ 8 → ws.length ≤ bodySize s r → Mem.wf (sramD s) s.sram = true →
    ringMode s r = 0 ∨ ringMode s r = 1 ∧ linkCarries s = false →
    ∃ t, exec .stagerWrite s = .next t ∧ t.stagerTurn = (r + 1) % 128 ∧
      (∀ i < ws.length, sramR t (place i) = ws.getD i 0) ∧
      (∀ w, (∀ i < ws.length, w ≠ place i) → sramR t w = sramR s w) ∧
      (ringMode s r = 0 → getRing t r = { after with prod := e } ∧
        (own = true → getStream t x.num = { st with seq := (st.seq + 1) % 4096, delivered := st.delivered + BitVec.ofNat 48 (recCount x) }) ∧
        cntR t (rngA r + 0x38) = cntR s (rngA r + 0x38) + 1 ∧
        bit (flagR t (rngA r + 4)) 3 = (bit (flagR s (rngA r + 4)) 3 || decide (ringWmark s r ≠ 0 ∧ ringWmark s r ≤ e - g.cons)) ∧
        { t with
          stagerTurn := s.stagerTurn, rings := s.rings, streams := s.streams, sram := s.sram, poisoned := s.poisoned
          cnt := s.cnt, flags := s.flags } = s) ∧
      (ringMode s r = 1 → getRing t r = { after with
        inflight := g.inflight ++ [{
          endIdx := e, startIdx := g.stg, stream := if own then some x.num else none, samples := recCount x, stamp := x.time }] })

/-- R341, R342, R343, R345: a full ring refuses and counts; one without room becomes full with FULLF, FULLS and its ENTRY record in the headroom; PERSIST
follows once, half the smallest bound on; the ring is left when the deferred records and the streams' gap records fit, and they go first.
RNGr_CONS frees space up to PROD; a write beyond it, or in a RELAY ring, is ignored and counted. -/
def Sys2Proof.Claims.FullRings : Prop :=
  ∀ (r : Nat) (s : State), stopped s = false →
    let g := getRing s r
    (∀ k x, stRing s k = r → ∃ u, getStream u k = { getStream s k with offered := (getStream s k).offered + 1 } ∧ { u with streams := s.streams } = s ∧
      (let need := (if stStamped s k then 2 else 1) + 4
       (g.full = true → offerRing k x s = refuseAtRing k r x u) ∧
       (g.full = false → (getStream s k).batch = none → fits u r need = false →
         offerRing k x s = entryGap r (refuseAtRing k r x (enterFull r need u))) ∧
       (g.full = false → (getStream s k).batch = none → fits u r need = true → offerRing k x s = joinBatch k x u))) ∧
    (∀ k x, ∃ u, getStream u k = { getStream s k with refused := (getStream s k).refused + 1 } ∧
      (getRing u r).refusedNow = g.refusedNow + 1 ∧ (getRing u r).full = g.full ∧ { u with streams := s.streams, rings := s.rings } = s ∧
      refuseAtRing k r x s = bump (rngA r + 0x34) u) ∧
    (∀ n, ∃ u, (getRing u r).full = true ∧ (getRing u r).fullSince = ticks s ∧ (getRing u r).stgAtEntry = g.stg ∧
      (getRing u r).refusedNow = 0 ∧ (getRing u r).persisted = false ∧ (getRing u r).ready = g.ready ∧ { u with rings := s.rings } = s ∧
      enterFull r n s = bump (rngA r + 0x30) (raise (rngA r + 4) 4 u)) ∧
    (∀ h, halfMinBound s r = some h → g.full = true → g.persisted = false →
      (g.fullSince + BitVec.ofNat 64 h ≤ ticks s → exec (.persist r) s =
        .next (makeReady r (ringGap g r 1) (setRing r { g with persisted := true } s))) ∧
      (ticks s < g.fullSince + BitVec.ofNat 64 h → exec (.persist r) s = .next s)) ∧
    (g.full = false ∨ g.persisted = true → exec (.persist r) s = .next s) ∧
    (let need := (g.deferred.map recLen).sum + 4 * g.refusing.length
     (g.full = true → fits s r need = true → exec (.leaveFull r) s = .next (setRing r { g with
       full := false, deferred := [], refusing := [], front := g.front ++ g.deferred ++ g.refusing.map (fun p => gapRec p.1 p.2) } s)) ∧
     (g.full = false ∨ fits s r need = false → exec (.leaveFull r) s = .next s)) ∧
    (∀ (path : Path) (c : W32), r < 128 →
      (ringMode s r ≠ 2 → c - g.cons ≤ g.prod - g.cons → exec (.consumerWrite path r c) s = .next (setRing r { g with cons := c } s)) ∧
      (ringMode s r ≠ 2 → g.prod - g.cons < c - g.cons → exec (.consumerWrite path r c) s =
        .next (raise (rngA r + 4) 5 (raise sysFlagsA 0 (bump sysWerrA s)))) ∧
      (ringMode s r = 2 → exec (.consumerWrite path r c) s = .next (raise sysFlagsA 0 (bump sysWerrA s))))

/-- R344, R347, R348, R350: an acknowledged index word moves PROD past its record and counts its samples as delivered; a slot holds the word, the low
byte of its index and the CRC-8 over both; a doorbell closes the ring's open batches, asks for a status record that
is never refused, and on a ring that is not ON is counted. -/
def Sys2Proof.Claims.Delivery : Prop :=
  ∀ (r : Nat) (s : State), stopped s = false →
    let g := getRing s r
    (∀ f rest, ringMode s r = 1 → g.inflight = f :: rest → f.sent = true → f.relayed = none → ∃ t, exec (.dmaAcknowledge r) s = .next t ∧
      getRing t r = { g with prod := f.endIdx, inflight := rest } ∧ cntR t (rngA r + 0x38) = cntR s (rngA r + 0x38) + 1 ∧
      (∀ k, f.stream = some k → getStream t k = { getStream s k with delivered := (getStream s k).delivered + BitVec.ofNat 48 f.samples }) ∧
      (f.stream = none → t.streams = s.streams) ∧
      bit (flagR t (rngA r + 4)) 3 = (bit (flagR s (rngA r + 4)) 3 || decide (ringWmark s r ≠ 0 ∧ ringWmark s r ≤ f.endIdx - g.cons)) ∧
      { t with rings := s.rings, streams := s.streams, cnt := s.cnt, flags := s.flags } = s) ∧
    (ringMode s r ≠ 1 ∨ g.inflight = [] → exec (.dmaAcknowledge r) s = .next s) ∧
    (∀ (i : W32) (w : W48), bits (hostSlot i w) 47 0 = w.toNat ∧ bits (hostSlot i w) 55 48 = i.toNat % 256 ∧
      bits (hostSlot i w) 63 56 = (crc8 (msbBits (BitVec.ofNat 56 (i.toNat % 256 * 2 ^ 48 + w.toNat)))).toNat) ∧
    (∀ (path : Path) (v : W32), bits v 6 0 = r →
      let u := pathWake path s
      ((getRing u r).state ≠ .on → ∀ c ∈ [Instr.doorbell path v, .doorbellFlush path v, .doorbellStatus path v],
        exec c s = .next (raise sysFlagsA 0 (bump sysWerrA u))) ∧
      ((getRing u r).state = .on → bit v 30 = true → exec (.doorbellStatus path v) s = .next (keepRec r (statusRec u r 1) u)) ∧
      ((getRing u r).state = .on → bit v 31 = true → Mem.wf (fun _ => {}) u.streams = true →
        ∃ t, exec (.doorbellFlush path v) s = .next t ∧ (∀ k, (getStream t k).batch ≠ none → stRing u k ≠ r) ∧
          (∀ k, stRing u k ≠ r → getStream t k = getStream u k) ∧ { t with streams := u.streams, rings := u.rings } = u ∧
          (bit v 30 = true → exec (.doorbell path v) s = .next (doorbellStatus v t)) ∧
          (bit v 30 = false → exec (.doorbell path v) s = .next t)))

/-- The statements FullRings and Delivery together. -/
def Obligations.FullRingsAndDelivery : Prop := FullRings ∧ Delivery


/-! ### Event engines and the interrupt controller (R264–R288) -/

namespace Sys2Proof.Claims
open Sys2Proof Sys2Proof.Machine

/-- t is s but for engine e, which holds x; the other engines of a store in its canonical form are as they were. -/
def engineOnly (e : Nat) (x : Engine) (s t : State) : Prop :=
  getEngine t e = x ∧ { t with engines := s.engines } = s ∧
  (Mem.wf (fun _ => {}) s.engines = true → ∀ d, d ≠ e → getEngine t d = getEngine s d)

/-- META of R271. -/
def meta271 (t : Trigger) (x : Sample) (pre : Bool) : W48 :=
  BitVec.ofNat 48 (t.kind * 2 ^ 45 + b2n t.gap * 2 ^ 44 + b2n pre * 2 ^ 43 + qcode x.qual * 2 ^ 41 + b2n x.sat * 2 ^ 40 +
    b2n x.ovr * 2 ^ 39 + b2n x.filled * 2 ^ 38 + t.entry * 2 ^ 31 + t.index * 2 ^ 19 + t.evt * 2 ^ 17)

/-- A refused claim or completion counts in its half of ICU_Pp_BADCOMP, unless that half is full, and sets ICUBADF. -/
def badView (p : Nat) (claim : Bool) (s : State) : State :=
  let v := cntR s (icuPA p + 0x30)
  if (if claim then bits v 31 16 else bits v 15 0) = 65535 then s
  else raise sysFlagsA 1 (setCnt (icuPA p + 0x30) (v + (if claim then 0x10000 else 1)) s)

end Sys2Proof.Claims

open Sys2Proof Sys2Proof.Machine Sys2Proof.Claims

/-- R267, R269, R270, R271, R274: a trigger joins its engine's queue; at a full queue, or of a FAULTED engine, it is counted as refused. The head of an
idle engine's queue starts its invocation in S0: cleared stacks, VALUE0, VALUE1, STAMP and META pushed in that order, execution at the entry's
address, its budget; an ICU trigger joins once, and only for a view that is not empty. -/
def Sys2Proof.Claims.Invocations : Prop :=
  ∀ (e : Nat) (s : State), e < 16 → stopped s = false → s.power.cur = .s0 → (getEngine s e).state = .on →
    let g := getEngine s e
    let joined (t : Trigger) : Engine := { g with queue := g.queue ++ [t], qmax := max g.qmax (g.queue.length + 1) }
    (∀ t rest, g.run = .idle → g.queue = t :: rest →
      let x := if t.kind = 5 ∨ t.kind = 1 then stampNow s else t.sample
      let carries := t.kind = 2 ∨ t.kind = 3
      let first : W48 := if carries then t.value0
        else if t.kind = 5 then ((icuFirst (icuView s e)).map (BitVec.ofNat 48)).getD (BitVec.allOnes 48) else 0
      ∃ u, engineOnly e { g with
          run := .busy, kind := t.kind, queue := rest
          proc := {
            stack := [meta271 t x (decide (x.era ≠ s.tb.stepCnt)), short x.stamp, if carries then t.value1 else 0, first]
            pc := 4 * bits (cfgR s (eeEntryA e t.entry)) 11 0, budget := bits (cfgR s (eeEntryA e t.entry + 4)) 19 0, entry := t.entry
            stamp := x.stamp, qual := x.qual, sat := x.sat, ovr := x.ovr, filled := x.filled, era := x.era } } s u ∧
        exec (.invocationStart e) s = .next (bumpWrap (eeA e + 0x20) u)) ∧
    (g.run ≠ .idle ∨ g.queue = [] → exec (.invocationStart e) s = .next s) ∧
    (∀ k gap v0 v1 x, k < 32 → engineEn s e = true →
      let kind := bits (cfgR s (eeEntryA e k)) 31 29
      let t : Trigger := {
        kind := kind, entry := k, index := bits (cfgR s (eeEntryA e k)) 23 12
        evt := if kind = 4 then bits (cfgR s (eeEntryA e k)) 28 27 else 0, value0 := v0, value1 := v1, gap := gap && decide (kind = 2), sample := x }
      (2 ≤ kind → kind ≤ 4 → g.run ≠ .faulted → g.queue.length < 256 → ∃ u, engineOnly e (joined t) s u ∧
        exec (.trigger e k gap v0 v1 x) s = .next u) ∧
      (2 ≤ kind → kind ≤ 4 → g.run = .faulted ∨ 256 ≤ g.queue.length → derivedStreams s e = [] →
        exec (.trigger e k gap v0 v1 x) s = .next (raise (eeA e + 4) 2 (bump (eeA e + 0x24) s))) ∧
      (∀ i, kind = 5 → entryOfKind s e 5 = some i →
        (icuView s e ≠ 0 → g.kind ≠ 5 → (∀ q ∈ g.queue, q.kind ≠ 5) → g.run ≠ .faulted → g.queue.length < 256 → ∃ u,
          engineOnly e (joined { kind := 5, entry := i, sample := stampNow s }) s u ∧ exec (.trigger e k gap v0 v1 x) s = .next u) ∧
        (icuView s e = 0 ∨ g.kind = 5 ∨ (∃ q ∈ g.queue, q.kind = 5) → exec (.trigger e k gap v0 v1 x) s = .next s)))

/-- R276, R277, R278, R287: a fault abandons the invocation: EEe_FAULT, EEe_FTIME, the count, FAULTF and the journal entry, the queue emptied, and
FAULTED or, with restarts left, idle again with INIT queued. CLEAR acts on a FAULTED engine alone; HALT stops, RESUME continues,
STEP runs one instruction of a halted invocation, RELOADCNT reloads RESTLEFT; the host's commands are ignored and counted. Readings it rests on: log entries 10 and 11. -/
def Sys2Proof.Claims.EngineCommands : Prop :=
  ∀ (e : Nat) (s : State), e < 16 → stopped s = false →
    let g := getEngine s e
    let cmds : List (Path → Instr) := [fun p => .clear p e, fun p => .halt p e, fun p => .resume p e, fun p => .stepEngine p e, fun p => .reloadcnt p e]
    (∀ c ∈ cmds, ∀ path : Path, path ≠ .ranger → exec (c path) s = .next (raise sysFlagsA 0 (bump sysWerrA s))) ∧
    (g.run ≠ .faulted → exec (.clear .ranger e) s = .next (raise sysFlagsA 0 (bump sysWerrA s))) ∧
    (g.run = .faulted → icuView s e = 0 → entryOfKind s e 1 = none → ∃ u, engineOnly e { g with run := .idle } s u ∧
      exec (.clear .ranger e) s = .next u) ∧
    (∀ i, g.run = .faulted → icuView s e = 0 → entryOfKind s e 1 = some i → g.state = .on → g.queue.length < 256 → ∃ u,
      engineOnly e { g with
        run := .idle, queue := g.queue ++ [{ kind := 1, entry := i, sample := stampNow s }], qmax := max g.qmax (g.queue.length + 1) } s u ∧
      exec (.clear .ranger e) s = .next u) ∧
    (g.run = .busy ∨ g.run = .idle → exec (.halt .ranger e) s = .next (setEngine e { g with run := .halted } s)) ∧
    (g.run = .halted → exec (.resume .ranger e) s = .next (setEngine e { g with run := if g.kind = 0 then .idle else .busy } s)) ∧
    (g.run ≠ .halted → exec (.resume .ranger e) s = .next s ∧ exec (.stepEngine .ranger e) s = .next s) ∧
    (g.run = .halted → g.kind ≠ 0 → s.power.cur = .s0 →
      (fetchSlot s e g.proc.pc = .got 0 → g.proc.stack.length ≤ 32 → g.proc.cycles + 1 ≤ g.proc.budget → exec (.stepEngine .ranger e) s =
        .next (setEngine e { g with proc := { g.proc with pc := g.proc.pc + 1, cycles := g.proc.cycles + 1 } } s)) ∧
      (fetchSlot s e g.proc.pc = .unmapped → exec (.stepEngine .ranger e) s = .next (engineFault e 8 g.proc.pc s))) ∧
    exec (.reloadcnt .ranger e) s = .next (setEngine e { g with restLeft := bits (cfgR s (eeA e)) 7 4 } s) ∧
    (∀ code addr, bit (cfgR s frzA) (16 + e) = false → streamOf s 2 e 255 = none → (∀ n < 128, (getIcu s n).active ≠ some e) → g.queue = [] →
      let f : W32 := BitVec.ofNat 32 (code * 2 ^ 28 + addr % 4 * 2 ^ 26 + g.proc.entry * 2 ^ 21 + addr / 4 % 4096)
      let dead := { g with run := .faulted, kind := 0, proc := {}, fault := f, ftime := short (ticks s) }
      ∃ u, engineOnly e dead s u ∧
        (let v := journal 0x41 (stampNow s) [BitVec.ofNat 48 (e * 2 ^ 32 + f.toNat), short g.proc.stamp] (raise (eeA e + 4) 5 (bump (eeA e + 0x28) u))
         (g.restLeft = 0 → engineFault e code addr s = v) ∧
         (∀ i, g.restLeft ≠ 0 → icuView s e = 0 → entryOfKind s e 1 = some i → g.state = .on →
           engineOnly e { dead with
             run := .idle, restLeft := g.restLeft - 1, queue := [{ kind := 1, entry := i, sample := stampNow s }], qmax := max g.qmax 1 }
             v (engineFault e code addr s))))

/-- The statements Invocations and EngineCommands together. -/
def Obligations.EventEngines : Prop := Invocations ∧ EngineCommands


/-- R265, R279, R280, R281, R282, R283: a latch source's event latches it; a presentation cycle shows a processor the enabled sources that target it, are
asserted, not active and past MININT; CLAIM takes a source of the view, COMPLETE gives back one that is active, and either is
counted as bad otherwise; TARGET moves to the image's target or an ALT processor only, by Ranger. The IRAM scrub counts a correction and poisons
an uncorrectable word. -/
def Obligations.InterruptSources : Prop :=
  ∀ (n p : Nat) (s : State), n < 128 → p ≤ 16 → stopped s = false →
    let g := getIcu s n
    ((34 ≤ n ∧ n < 50) ∨ (114 ≤ n ∧ n < 122 ∧ s.power.cur ≠ .s3) ∨ (66 ≤ n ∧ n < 98 ∧ s.power.cur = .s0) ∨ (122 ≤ n ∧ n < 125 ∧ s.power.cur = .s0) →
      exec (.sourceAssert n) s = .next (setIcu n { g with latch := true } s)) ∧
    (n < 34 ∨ (50 ≤ n ∧ n < 66) ∨ (98 ≤ n ∧ n < 114) ∨ 125 ≤ n → exec (.sourceAssert n) s = .next s) ∧
    (∃ u, { u with icuViews := s.icuViews } = s ∧
      (∀ m < 128, bit (icuView u p) m = true ↔
        (let c := cfgR s (icuCfgA m)
         bits c 4 0 = p ∧ bit c 5 = true ∧ m ≠ 127 ∧ (icuLevel s m = true ∨ (getIcu s m).latch = true) ∧ (getIcu s m).active = none ∧
         ∀ t, (getIcu s m).lastClaim = some t → BitVec.ofNat 64 (bits c 31 16 * 400) ≤ ticks s - t)) ∧
      (Mem.wf (fun _ => 0) s.icuViews = true → ∀ q, q ≠ p → icuView u q = icuView s q) ∧
      exec (.presentation p) s = .next (wakeTarget p (if icuView s p = 0 ∧ p < 16 then icuTrigger p u else u))) ∧
    (bit (icuView s p) n = true → ∃ u, getIcu u n = { g with active := some p, latch := false, lastClaim := some (ticks s) } ∧
      icuView u p = icuView s p &&& ~~~(1#128 <<< n) ∧ { u with icu := s.icu, icuViews := s.icuViews } = s ∧ exec (.claim p n) s = .next u) ∧
    (bit (icuView s p) n = false → exec (.claim p n) s = .next (badView p true s)) ∧
    (g.active = some p → exec (.complete p n) s = .next (setIcu n { g with active := none } s)) ∧
    (g.active ≠ some p → exec (.complete p n) s = .next (badView p false s)) ∧
    (∀ (path : Path) (v : W32),
      let home := g.moved.getD (bits (cfgR s (icuCfgA n)) 4 0)
      let legal := bits v 4 0 = home ∨ (bits v 4 0 ≤ 16 ∧ bit (cfgR s (icuAltA n)) (bits v 4 0) = true)
      (path = .ranger → legal → ∃ u, getIcu u n = { g with moved := some home } ∧
        cfgR u (icuCfgA n) = (cfgR s (icuCfgA n) &&& 0xFFFFFFE0) ||| (v &&& 0x1F) ∧ { u with icu := s.icu, cfg := s.cfg } = s ∧
        exec (.retarget path n v) s = .next u) ∧
      (path ≠ .ranger ∨ ¬ legal → exec (.retarget path n v) s = .next (raise sysFlagsA 0 (bump sysWerrA s))) ∧
      (path ≠ .ranger → exec (.icuSwset path v) s = .next (raise sysFlagsA 0 (bump sysWerrA s))) ∧
      (path = .ranger → ∃ t, exec (.icuSwset path v) s = .next t ∧ (∀ k < 8, bit v k = true → (getIcu t (114 + k)).latch = true) ∧
        (∀ m, (∀ k < 8, bit v k = true → m ≠ 114 + k) → Mem.wf (fun _ => {}) s.icu = true → getIcu t m = getIcu s m) ∧
        { t with icu := s.icu, bgt := s.bgt } = s)) ∧
    (∀ e w : Nat, e < 16 → w < 4096 → s.power.cur = .s0 →
      let bad := journal 0x40 (stampNow s) [BitVec.ofNat 48 (2 * 2 ^ 36 + e * 2 ^ 32 + w)] (raise (eeA e + 4) 4 (bump (eeA e + 0x30) s))
      exec (.iramScrub e w .clean) s = .next s ∧ exec (.iramScrub e w .corrected) s = .next (raise (eeA e + 4) 3 (bump (eeA e + 0x2C) s)) ∧
      (iramA e w ∉ s.poisoned → exec (.iramScrub e w .uncorrectable) s = .next { bad with poisoned := iramA e w :: s.poisoned }) ∧
      (iramA e w ∈ s.poisoned → exec (.iramScrub e w .uncorrectable) s = .next bad))

/-! ### Spectral units and the ledger (R241–R263, R331–R333) -/

namespace Sys2Proof.Claims
open Sys2Proof Sys2Proof.Machine

/-- t is s but for spectral unit u, which holds x. -/
def spuOnly (u : Nat) (x : Spu) (s t : State) : Prop := getSpu t u = x ∧ { t with spus := s.spus } = s

/-- An entry of a spectral unit takes a value. -/
def withEntry (i : Nat) (e : SpuEntry) (g : Spu) : Spu := { g with entries := Mem.write (fun _ => {}) g.entries i e }

end Sys2Proof.Claims

open Sys2Proof Sys2Proof.Machine Sys2Proof.Claims

/-- R243, R245, R246, R256: a frame whose N positions have arrived is formed and queued, its buffer moved on by the hop; one that covers a refused
position is not formed and counts in FRMGAP, one at a full queue in QREF. A spectrum's lines lie within 2^-20 of the frame's
largest line, rounded to PSD words: the nearest, with M[41] set for E ≥ 1. The first frame of an exponential average is its value. Readings it rests on: log entry 23. -/
def Sys2Proof.Claims.Spectra : Prop :=
  (∀ q : Rat, 0 ≤ q → q ≤ (2 ^ 42 - 1) * 8 →
    let w := (psdWord q).1
    let e := max 1 (bits w 47 42)
    let v : Rat := (bits w 41 0 : Nat) * 2 ^ e / 2 ^ 60
    (psdWord q).2 = false ∧ v - q ≤ 2 ^ e / 2 ^ 61 ∧ q - v ≤ 2 ^ e / 2 ^ 61 ∧ (1 ≤ bits w 47 42 → bit w 41 = true)) ∧
  (∀ q : Rat, (2 ^ 42 : Rat) * 8 ≤ q → psdWord q = (BitVec.allOnes 48, true)) ∧
  (∀ (u i : Nat) (s : State), u < 2 → i < 256 → stopped s = false → s.power.cur = .s0 → wlEn s u i = true →
    let k := bits (wlWord s u i) 30 28
    let g := getSpu s u
    let e := getEntry g i
    setRuns s u k = true →
    (e.buffer.length < setN s u k → exec (.frameFormed u i) s = .next s) ∧
    (setN s u k ≤ e.buffer.length →
      let xs := e.buffer.reverse.take (setN s u k)
      let g1 := withEntry i { e with buffer := e.buffer.take (e.buffer.length - setHop s u k), frameNo := e.frameNo + 1 } g
      ((∀ x ∈ xs, x ≠ none) → g.queue.countP (fun f => !f.inputs.isEmpty) < 512 → ∃ v,
        spuOnly u { g1 with queue := g.queue ++ [{ entry := i, index := e.frameNo, inputs := xs.filterMap id }] } s v ∧
        exec (.frameFormed u i) s = .next (bumpWrap (spuA u + 0x10) v)) ∧
      ((∃ x ∈ xs, x = none) → ∃ v, spuOnly u g1 s v ∧
        exec (.frameFormed u i) s = .next (raise (spuA u + 4) 2 (bump (spuA u + 0x14) (loseFrame u i e.frameNo v)))) ∧
      ((∀ x ∈ xs, x ≠ none) → 512 ≤ g.queue.countP (fun f => !f.inputs.isEmpty) → ∃ v, spuOnly u g1 s v ∧
        exec (.frameFormed u i) s = .next (raise (spuA u + 4) 3 (bump (spuA u + 0x20) (loseFrame u i e.frameNo v))))) ∧
    (∀ f, g.queue = [f] → f.entry = i → setExp s u k = true → e.frames = 0 → windowEnergy s u k ≠ 0 →
      let wx := windowed s u k f.inputs
      let top := ((List.range (setN s u k / 2)).map (linePsd s u k i wx)).foldl max 0
      ∃ t, exec (.spectrum u) s = .next t ∧ (getSpu t u).queue = [] ∧ { t with spus := s.spus, cnt := s.cnt, flags := s.flags, fresh := s.fresh } = s ∧
        (let x := getEntry (getSpu t u) i
         x.frames = 1 ∧ x.resolved = f.index + 1 ∧ x.average.length = setLb s u k + 1 - setLa s u k ∧
         ∀ j < setLb s u k + 1 - setLa s u k, ∃ d : Rat, -(top / 2 ^ 20) ≤ d ∧ d ≤ top / 2 ^ 20 ∧
           x.average.getD j 0 = (psdWord (max 0 (linePsd s u k i wx (setLa s u k + j) + d))).1)))

/-- R247, R248, R249, R251, R252, R254, R259: the level code is 160 log10 P to the nearest, clamped. A due evaluation moves the set's index on; fewer than
CMIN entries are a CTRLMISS and leave the rules as they were; a rule fires once it has held PERSIST times, and ends at the first that it does not hold.
ABORT follows the unit's firing ABORT rules. An uncorrectable table error breaks the sets that use the word. -/
def Sys2Proof.Claims.Evaluations : Prop :=
  (∀ w : W48, let p := psdVal w; let c := levelCode w
    (p = 0 → c = 0) ∧ c ≤ 4095 ∧
    (p ≠ 0 → (c ≠ 0 → (10 : Rat) ^ (2 * c - 1) ≤ p ^ 320 * 10 ^ 4096) ∧ (c ≠ 4095 → p ^ 320 * 10 ^ 4096 < (10 : Rat) ^ (2 * c + 1)))) ∧
  (∀ (u k : Nat) (s : State), u < 2 → k < 8 → stopped s = false → s.power.cur = .s0 →
    let g := getSpu s u
    let idx := evalIndex s u k
    let n := ((presentAt s u k idx).filter (fun p => p.2.ready)).length
    (setRuns s u k = false ∨ evalDue s u k = false → exec (.evaluation u k) s = .next s) ∧
    (setRuns s u k = true → evalDue s u k = true → setPsdOut s u k = false → streamOf s 3 u (2 * k) = none → streamOf s 3 u (2 * k + 1) = none →
      setExp s u k = false →
      (setCtrl s u k = 0 → ∃ v, (getSpu v u).rules = g.rules ∧ (getSpu v u).abort = g.abort ∧ evalIndex v u k = idx + 1 ∧
        { v with spus := s.spus } = s ∧ exec (.evaluation u k) s = .next (refreshAbort u v)) ∧
      (setCtrl s u k ≠ 0 → n < setCmin s u k → ∃ v, (getSpu v u).rules = g.rules ∧ evalIndex v u k = idx + 1 ∧
        cntR v (spuA u + 0x18) = plusOne (cntR s (spuA u + 0x18)) ∧ { v with spus := s.spus, cnt := s.cnt } = s ∧
        exec (.evaluation u k) s = .next (refreshAbort u v))) ∧
    (∀ r i rate lvl ws x, ruleType s u k r ≠ 0 → streamOf s 3 u (2 * k + 1) = none →
      let holds := (ruleCheck s u k r rate lvl ws).1
      let st := getRule g (ruleKey k r i)
      let run := if holds then st.run + 1 else 0
      let firing := holds && (st.firing || decide (rulePersist s u k r ≤ run))
      let t := runRule u k r i rate lvl ws x s
      getRule (getSpu t u) (ruleKey k r i) = { run := run, firing := firing } ∧
      { t with spus := s.spus, cnt := s.cnt, flags := s.flags, fresh := s.fresh } = s ∧
      (firing = true → st.firing = false → bit (flagR t (spuSetA u k + 0x1C)) (if ruleAbort s u k r then 8 else 7) = true)) ∧
    ((abortFires s u || g.brkHeld) = g.abort → refreshAbort u s = s) ∧
    ((abortFires s u || g.brkHeld) = true → g.abort = false → bit (cfgR s frzA) (4 + u) = false → ∃ v, spuOnly u { g with abort := true } s v ∧
      refreshAbort u s = evoRefresh (ringTrigger 3 u v)) ∧
    ((abortFires s u || g.brkHeld) = false → g.abort = true → ∃ v, spuOnly u { g with abort := false } s v ∧ refreshAbort u s = evoRefresh v) ∧
    (∀ (mask : Bool) (w : Nat), w < 16384 →
      let bad := journal 0x40 (stampNow s) [BitVec.ofNat 48 (2 ^ 36 + u * 2 ^ 32 + (if mask then 16384 + w else w))]
        (raise (spuA u + 4) 6 (bump (spuA u + 0x2C) s))
      exec (.spuScrub u mask w .clean) s = .next s ∧
      exec (.spuScrub u mask w .corrected) s = .next (raise (spuA u + 4) 5 (bump (spuA u + 0x28) s)) ∧
      exec (.spuScrub u mask w .uncorrectable) s = .next (forEach (setsUsing s u mask w) (breakSet u) bad) ∧
      (bit (cfgR s (spuA u)) 1 = false → g.broken.contains k = false →
        spuOnly u { g with broken := k :: g.broken, rules := g.rules.filter (fun kv => kv.1 / 2048 ≠ k) } s (breakSet u k s))))

/-- The statements Spectra and Evaluations together. -/
def Obligations.SpectralUnits : Prop := Spectra ∧ Evaluations


/-- R331, R332, R333: SNAP captures every ring's indices and every stream's counters at one moment, and BAL says whether the identities hold; in sleep it
waits for S0. An audit that finds every identity whole and no stream late changes nothing; a failed check sets its flag, counts and is journalled,
and a late oldest sample writes one fault record. Readings it rests on: log entry 45. -/
def Obligations.Ledger : Prop :=
  ∀ s : State, stopped s = false →
    let snap (t : State) : Prop := { t with adm := s.adm } = s ∧ t.adm.snapSeq = s.adm.snapSeq + 1 ∧ t.adm.snapBusy = false ∧
      (∀ r ∈ enabledRings s, Mem.read (fun _ => (0, 0, 0)) t.adm.snapRings r =
        ((getRing s r).prod, (getRing s r).cons, BitVec.ofNat 32 (ringSize s r))) ∧
      (∀ k ∈ enabledStreams s, Mem.read (fun _ => (0, 0, 0, 0)) t.adm.snapStreams k =
        ((getStream s k).offered, (getStream s k).refused, (getStream s k).delivered, inFlightCount s k)) ∧
      t.adm.snapFree = freePages s ∧ t.adm.snapRsv = s.adm.rsvPages ∧ t.adm.snapRing = s.adm.ringPages + assemblyPages s ∧
      (t.adm.snapBal = true ↔ freePages s + (s.adm.ringPages + assemblyPages s) + s.adm.rsvPages = 8192 ∧
        (∀ r ∈ enabledRings s, ((getRing s r).prod - (getRing s r).cons).toNat ≤ ringSize s r) ∧
        ∀ k ∈ enabledStreams s, (getStream s k).offered - (getStream s k).refused = (getStream s k).delivered + inFlightCount s k)
    let failed (flag unit : Nat) (u : State) : State :=
      journal 0x31 (stampNow u) [BitVec.ofNat 48 (flag * 2 ^ 32 + unit)] (bump admAuditErrA (raise admFlagsA flag u))
    let sound (rs : List Nat) : Prop := (enabledRings s).filter (fun r => !ringBalance s r) = rs
    let late (k : Nat) (t : W64) : Prop := ∃ n l, inFlightOf s k = (t, n) :: l ∧ t + boundOf s k < ticks s
    (∀ (path : Path) (v : W32), (bit v 0 = true → s.power.cur = .s0 → ∃ t, exec (.snap path v) s = .next t ∧ snap t) ∧
      (bit v 0 = true → s.power.cur ≠ .s0 → exec (.snap path v) s = .next { s with adm := { s.adm with snapBusy := true } }) ∧
      (bit v 0 = false → exec (.snap path v) s = .next s)) ∧
    (s.adm.snapBusy = true → s.power.cur = .s0 → ∃ t, exec .deferredSnap s = .next t ∧ snap t) ∧
    (s.adm.snapBusy = false ∨ s.power.cur ≠ .s0 → exec .deferredSnap s = .next s) ∧
    (s.mgt.running = true → s.phase = .running → s.power.cur = .s0 ∨ s.power.cur = .s1 →
      (pagesBalance s = true → sound [] → (∀ k ∈ enabledStreams s, admitted s k = true → ∀ t, ¬ late k t) → exec .audit s = .next s) ∧
      (pagesBalance s = false → sound [] → (enabledStreams s).filter (admitted s) = [] → exec .audit s = .next (failed 0 0 s)) ∧
      (∀ r, pagesBalance s = true → sound [r] → (enabledStreams s).filter (admitted s) = [] → exec .audit s = .next (failed 1 r s)) ∧
      (∀ k t, pagesBalance s = true → sound [] → (enabledStreams s).filter (admitted s) = [k] → late k t →
        ((getStream s k).lateStamp = some t → exec .audit s = .next s) ∧
        ((getStream s k).lateStamp ≠ some t → exec .audit s = .next (formFault k 2 0 0 (short t)
          (failed 2 k (setStream k { getStream s k with lateStamp := some t } s)))))) ∧
    (s.mgt.running = false ∨ s.power.cur = .s2 ∨ s.power.cur = .s3 → exec .audit s = .next s)

/-! ### The host ports (R374–R403) -/

namespace Sys2Proof.Claims
open Sys2Proof Sys2Proof.Machine

/-- The hub is in S0 with no preparation under way. -/
def awake (s : State) : Prop := s.power.cur = .s0 ∧ s.power.phase = .awake

/-- The hub sleeps and no wake source has asserted yet; u is s with source i as the one that begins its wake. -/
def wokenBy (i : Nat) (s u : State) : Prop :=
  s.power.cur ≠ .s0 ∧ s.power.wakeReq = 0 ∧
  u = { s with power := { s.power with wakeReq := 1#11 <<< i, wakeBegan := short (ticks s) } }

/-- The link after it has trained to a generation and a width, or has gone down. -/
def trained (gen w lpm : Nat) (h : Hl) : Hl :=
  if gen = 0 ∨ 4 ≤ lpm then { h with linkGen := 0, linkW := 0, lpm := 4, inta := false, held := [] }
  else { h with linkGen := gen, linkW := w, lpm := lpm }

/-- The link is in L0 or L1 at the generation and the width that admission booked. -/
def booked (s : State) (h : Hl) : Prop := h.linkGen ≠ 0 ∧ h.lpm ≤ 3 ∧ s.adm.linkGen ≤ h.linkGen ∧ s.adm.linkW ≤ h.linkW

/-- The PCI Express core and its configuration space after PERST_N or a Hot Reset (R377). -/
def linkReset (h : Hl) : Hl := {
  h with
  linkGen := 0, linkW := 0, lpm := 4, bme := false, msiEn := false, intDis := false, d3 := false, space := []
  aspm := false, msiHeld := false, inta := false, held := [] }

/-- A message leaves: the link is back in L0, and ASPM's time begins again. -/
def linkSends (m : LinkMsg) (s : State) (h : Hl) : Hl := {
  h with
  busyAt := ticks s, lpm := if h.lpm ≤ 3 then 0 else h.lpm, sent := m :: h.sent }

/-- The MSI's address and data, from the capability at 0x50 (log entry 54). -/
def msiOf (s : State) : LinkMsg := .msi (spaceWord s 0x58 ++ spaceWord s 0x54) (spaceWord s 0x5C)

/-- An HSP frame's command and address bytes (R387). -/
def hspHead (wr crc hub a : Nat) : List (BitVec 8) :=
  [BitVec.ofNat 8 (128 * wr + 64 * crc + 8 * hub + a / 2 ^ 24), BitVec.ofNat 8 (a / 2 ^ 16), BitVec.ofNat 8 (a / 2 ^ 8), BitVec.ofNat 8 a]

/-- A word, most significant byte first. -/
def msbFirst (v : W32) : List (BitVec 8) := [v.extractLsb' 24 8, v.extractLsb' 16 8, v.extractLsb' 8 8, v.extractLsb' 0 8]

/-- The status byte of R388. -/
def hspState (s : State) : W64 :=
  BitVec.ofNat 64 (10 + (if s.config.defaults then 16 else 0) + (if flagR s (hlA + 0x18) = 0 then 0 else 32) +
    (if s.hl.summary = 0 then 0 else 64) + (if s.power.cur = .s0 then 128 else 0))

/-- A flag of HSP_ERR or TWT_ERR rises, with its leaf flag (R403). -/
def hspFlag (i : Nat) (s : State) : State := raise (hlA + 0x08) 3 (raise (hlA + 0x18) i s)
def twtFlag (i : Nat) (s : State) : State := raise (hlA + 0x08) 4 (raise (hlA + 0x1C) i s)

/-- The rows of R395: from and to which window offset, and the device address of the first. -/
def windowRows (s : State) : List (Nat × Nat × Nat) :=
  [(0x0000, 0x1000, 0x0000_0000), (0x1000, 0x1100, 0x0001_0000), (0x2000, 0x3000, 0x000B_0000), (0x3000, 0x6000, 0x000C_0000),
   (0x6000, 0x6100, 0x000D_0000), (0x7000, 0x8000, 0x0010_0000), (0x8000, 0x1_0000, bits (cfgR s (hlA + 0x10)) 26 15 * 0x8000)]

end Sys2Proof.Claims

open Sys2Proof Sys2Proof.Machine Sys2Proof.Claims

/-- R376, R383, R385: without MIRROR rings, a change of the link that ends its booking sets LINKDNF or DEGF and is counted; one that restores it ends the
failure; with no booking a change only moves the link. ASPM L1 is entered after 64 µs. Readings it rests on: log entry 52. -/
def Sys2Proof.Claims.LinkBooking : Prop :=
  ∀ (gen w lpm : Nat) (s : State), stopped s = false → s.straps.role ≠ 2 → s.hl.perst = false → (∀ r, ringMode s r ≠ 1) →
    s.hl.msiHeld = false → (!s.hl.msiEn && !s.hl.intDis && decide (s.hl.summary ≠ 0)) = s.hl.inta →
    let can := gen ≤ 3 ∧ w ≤ 4 ∧ lpm ≤ 4 ∧ (gen = 0 ∨ w ≠ 0) ∧ (lpm < 2 ∨ lpm = 4 ∨ clkReq s = false)
    let h := trained gen w lpm s.hl
    (can → s.adm.linkGen ≠ 0 → s.hl.failing = false → booked s s.hl → ¬ booked s h → s.hl.bme = true → s.hl.d3 = false →
      let u := { s with hl := { h with failing := true } }
      let t := if gen = 0 ∨ 4 ≤ lpm then bump (hlA + 0x40) (raise (hlA + 0x08) 0 u) else bump (hlA + 0x44) (raise (hlA + 0x08) 1 u)
      exec (.linkFailure gen w lpm) s = .next t ∧ exec (.pcieLinkChange gen w lpm) s = .next t ∧ exec (.linkRecovery gen w lpm) s = .next s) ∧
    (can → s.adm.linkGen ≠ 0 → s.hl.failing = true → booked s h → s.hl.bme = true → s.hl.d3 = false →
      let t := { s with hl := { h with failing := false } }
      exec (.linkRecovery gen w lpm) s = .next t ∧ exec (.pcieLinkChange gen w lpm) s = .next t ∧ exec (.linkFailure gen w lpm) s = .next s) ∧
    (can → s.adm.linkGen = 0 → s.hl.failing = false →
      exec (.pcieLinkChange gen w lpm) s = .next { s with hl := h } ∧ exec (.linkFailure gen w lpm) s = .next s) ∧
    (¬ can → exec (.linkFailure gen w lpm) s = .next s ∧ exec (.linkRecovery gen w lpm) s = .next s ∧
      exec (.pcieLinkChange gen w lpm) s = .next s) ∧
    (s.hl.aspm = true → s.hl.linkGen ≠ 0 → s.hl.lpm = 0 → s.hl.busyAt + 25600 ≤ ticks s →
      exec .aspmL1Entry s = .next { s with hl := { s.hl with lpm := 1 } }) ∧
    (s.hl.aspm = false ∨ s.hl.linkGen = 0 ∨ s.hl.lpm ≠ 0 ∨ ticks s < s.hl.busyAt + 25600 → exec .aspmL1Entry s = .next s)

/-- R377, R384, R385: PERST_N and a Hot Reset reset the port and its configuration space and nothing else, release HOST_WAKE_N (PERST_N), and end a
booking that held; released PERST_N lets the link train again. Readings it rests on: log entries 26 and 35. -/
def Sys2Proof.Claims.PortReset : Prop :=
  ∀ (hot : Bool) (s : State), stopped s = false → (∀ r, ringMode s r ≠ 1) →
    let low := { s with hl := { linkReset s.hl with perst := true, hostWake := false } }
    let soft := { s with hl := linkReset s.hl }
    (s.adm.linkGen = 0 ∨ s.hl.failing = true → exec (.perstN true hot) s = .next low ∧ exec (.perstN false true) s = .next soft) ∧
    (s.adm.linkGen ≠ 0 → s.hl.failing = false → s.hl.perst = false → booked s s.hl →
      let fails (u : State) : State := bump (hlA + 0x40) (raise (hlA + 0x08) 0 { u with hl := { u.hl with failing := true } })
      exec (.perstN true hot) s = .next (fails low) ∧ exec (.perstN false true) s = .next (fails soft)) ∧
    exec (.perstN false false) s = .next { s with hl := { s.hl with perst := false } }

/-- The statements LinkBooking and PortReset together. -/
def Obligations.HostLink : Prop := LinkBooking ∧ PortReset


/-- R382, R384, R400, R407, R410: SYS_SUMMARY is carried to INT_N. When it turns non-zero the port sends its MSI, holds it without Bus Master Enable, or sends
Assert_INTA; when it turns zero, Deassert_INTA; in D3hot PME_Status and PM_PME, or HOST_WAKE_N where the link is down.
TWT_ALERT_N follows INT_N while enabled. The messages on the link stand in `sent`, and the MSI's place in the configuration space
is presumed (log entries 30 and 36). Readings it rests on: log entries 35 and 53. -/
def Obligations.Interrupts : Prop :=
  ∀ s : State, stopped s = false →
    let h := { s.hl with summary := sysSummary s }
    let rises := s.hl.summary = 0 ∧ sysSummary s ≠ 0
    let a := { h with alert := bit (cfgR s (hlA + 4)) 3 && bit (cfgR s (hlA + 4)) 2 }
    (∃ t, exec .summaryChange s = .next t ∧ t.hl.summary = sysSummary s ∧ { t with hl := s.hl, bgt := s.bgt, cnt := s.cnt } = s) ∧
    (decide (s.hl.summary = 0) = decide (sysSummary s = 0) → exec .summaryChange s = .next { s with hl := h }) ∧
    (s.straps.role ≠ 2 → s.hl.perst = false →
      (rises → s.hl.d3 = false → s.hl.msiEn = true → s.hl.inta = false → s.hl.bme = true → s.hl.linkGen ≠ 0 →
        exec .summaryChange s = .next (bumpWrap (hlA + 0x50) { s with hl := linkSends (msiOf s) s a })) ∧
      (rises → s.hl.d3 = false → s.hl.msiEn = true → s.hl.inta = false → s.hl.bme = false →
        exec .summaryChange s = .next { s with hl := { a with msiHeld := true } }) ∧
      (rises → s.hl.d3 = false → s.hl.msiEn = false → s.hl.intDis = false → s.hl.inta = false → s.hl.linkGen ≠ 0 →
        exec .summaryChange s = .next { s with hl := linkSends .assertInta s { a with inta := true } }) ∧
      (s.hl.summary ≠ 0 → sysSummary s = 0 → s.hl.inta = true → s.hl.linkGen ≠ 0 →
        exec .summaryChange s = .next { s with hl := linkSends .deassertInta s { h with alert := false, inta := false } }) ∧
      (rises → s.hl.d3 = true → s.hl.pmeEn = true → s.hl.msiEn = true → s.hl.inta = false →
        (s.hl.linkGen ≠ 0 → s.hl.lpm ≤ 3 → exec .summaryChange s = .next { s with hl := linkSends .pmPme s { a with pmeStatus := true } }) ∧
        (s.hl.linkGen = 0 → exec .summaryChange s = .next { s with hl := { a with pmeStatus := true, hostWake := true } })))

/-- R374, R378, R380, R381: what the port does with requests. Configuration reads give the header of R378, and retry status before the HOST section is
applied. Each DW of a memory request is one 32-bit access; a write without all its byte enables is counted; too long a
request, one outside BAR0 or in D3hot is an Unsupported Request; in sleep a request waits and wakes the hub. The completion
stands in `answer`: 0 and its words, 1 for an Unsupported Request, 2 for retry status, the model's choice (log entry 29). Readings it rests on: log entries 37 and 54. -/
def Obligations.HostRequests : Prop :=
  ∀ s : State, stopped s = false →
    (s.hl.linkGen = 0 → ∀ wr off v be addr enables found words bad ecrc,
      exec (.configurationRequest wr off v be) s = .next s ∧ exec (.memoryRead addr enables found ecrc) s = .next s ∧
      exec (.memoryWrite addr words bad ecrc) s = .next s ∧ exec .unsupportedRequest s = .next s) ∧
    (s.hl.linkGen ≠ 0 → s.hl.lpm ≤ 3 → s.hl.perst = false →
      let u := { s with hl := { s.hl with lpm := 0 } }
      (∀ wr off v be, s.config.firstDone = false → exec (.configurationRequest wr off v be) s = .next { s with answer := [2] }) ∧
      (∀ v be, s.config.firstDone = true →
        ∀ x ∈ [(0x00, (0x4896_1EC7 : W32)), (0x08, 0x1180_00A1), (0x18, 0), (0x1C, 0), (0x20, 0), (0x24, 0), (0x2C, cfgR s (hlA + 0x14)),
          (0x30, 0), (0x34, 0x40)],
          exec (.configurationRequest false x.1 v be) s = .next { u with answer := [0, x.2.setWidth 64] }) ∧
      (∀ (addr : Nat) (v w : W32) (be : BitVec 4), awake s → s.hl.d3 = false → addr % 4 = 0 → addr + 8 ≤ 0x0800_0000 →
        exec (.memoryRead addr [0xF] .clean false) s =
          .next { readEffect .pcie addr u with answer := [0, (readValue u .pcie addr).setWidth 64] } ∧
        exec (.memoryRead addr [0x3] .clean false) s =
          .next { readEffect .pcie addr u with answer := [0, (readValue u .pcie addr &&& 0xFFFF).setWidth 64] } ∧
        exec (.memoryWrite addr [(v, 0xF)] false false) s = .next (write32 .pcie addr v u) ∧
        (be ≠ 0xF → exec (.memoryWrite addr [(v, be), (w, 0xF)] false false) s =
          .next (write32 .pcie (addr + 4) w (raise sysFlagsA 0 (bump sysWerrA u))))) ∧
      (∀ addr enables words found bad,
        let turnedAway (t : State) : Prop := t.answer = [1] ∧ cntR t (hlA + 0x4C) = plusOne (cntR s (hlA + 0x4C)) ∧
          t.hl = { s.hl with lpm := 0, space := t.hl.space } ∧ { t with answer := s.answer, cnt := s.cnt, hl := s.hl } = s
        (∃ t, exec .unsupportedRequest s = .next t ∧ turnedAway t) ∧
        (16 < enables.length ∨ 0x4000_0000 < addr + 4 * enables.length ∨ s.hl.d3 = true →
          ∃ t, exec (.memoryRead addr enables found false) s = .next t ∧ turnedAway t) ∧
        (16 < words.length ∨ 0x4000_0000 < addr + 4 * words.length ∨ s.hl.d3 = true →
          ∃ t, exec (.memoryWrite addr words bad false) s = .next t ∧ turnedAway t)) ∧
      (∀ addr words, words ≠ [] → words.length ≤ 16 → addr % 4 = 0 → addr + 4 * words.length ≤ 0x4000_0000 → s.hl.d3 = false → awake s →
        ∃ t, exec (.memoryWrite addr words true false) s = .next t ∧ cntR t (hlA + 0x4C) = plusOne (cntR s (hlA + 0x4C)) ∧
          t.hl = { s.hl with lpm := 0, space := t.hl.space } ∧ { t with cnt := s.cnt, hl := s.hl } = s) ∧
      (∀ addr enables found words, s.hl.d3 = false → addr % 4 = 0 →
        ∀ v, wokenBy 7 s v →
        (enables ≠ [] → enables.length ≤ 16 → addr + 4 * enables.length ≤ 0x4000_0000 → exec (.memoryRead addr enables found false) s =
          .next { v with hl := { s.hl with lpm := 0, held := s.hl.held ++ [.read addr enables found] } }) ∧
        (words ≠ [] → words.length ≤ 16 → addr + 4 * words.length ≤ 0x4000_0000 → exec (.memoryWrite addr words false false) s =
          .next { v with hl := { s.hl with lpm := 0, held := s.hl.held ++ [.write addr words] } })))

/-- R375, R387–R393: HSP frames. Switched off, the port does nothing. A frame in sleep is discarded whole, counted, and a wake source. A write frame commits its
word, unless its CRC-16 does not match; a read frame answers status, three zeros, busy bytes, the marker and the word. A bad
address, a frame without the CRC asked for and a count of edges that is no whole number of bytes are each flagged. A frame is one
command and its reply stands in `answer`, the model's choices (log entries 29 and 55). -/
def Sys2Proof.Claims.SerialPort : Prop :=
  ∀ s : State, stopped s = false →
    (bit (cfgR s (hlA + 4)) 1 = false → ∀ bytes extra waits late,
      exec (.hspWriteFrame bytes extra) s = .next s ∧ exec (.hspReadFrame bytes extra waits late) s = .next s) ∧
    (bit (cfgR s (hlA + 4)) 1 = true →
      (∀ bytes extra u, bytes ≠ [] → bit (bytes.headD 0) 7 = true → wokenBy 8 s u → exec (.hspWriteFrame bytes extra) s =
        .next (bump (hlA + 0x68) (hspFlag 5 { u with answer := hspState s :: List.replicate (bytes.length - 1) 0 }))) ∧
      (∀ bytes extra waits late u, bytes ≠ [] → bit (bytes.headD 0) 7 = false → wokenBy 8 s u → exec (.hspReadFrame bytes extra waits late) s =
        .next (bump (hlA + 0x68) (hspFlag 5 { u with answer := hspState s :: List.replicate (bytes.length - 1) 0 }))) ∧
      (awake s →
        let u (n : Nat) : State := { s with answer := hspState s :: List.replicate (n - 1) 0 }
        let whole : State → State := bumpWrap (hlA + 0x54)
        (∀ (hub a : Nat) (v : W32) (c : BitVec 16), hub < 8 → (s.straps.role = 2 → hub = 0) → a < 2 ^ 27 → a % 4 = 0 →
          (bit (cfgR s (hlA + 4)) 4 = false →
            exec (.hspWriteFrame (hspHead 1 0 hub a ++ msbFirst v) 0) s = .next (whole (busWrite .hsp (hub * 0x0800_0000 + a) v (u 8)))) ∧
          (c = crc16 (hspHead 1 1 hub a ++ msbFirst v) →
            exec (.hspWriteFrame (hspHead 1 1 hub a ++ msbFirst v ++ [c.extractLsb' 8 8, c.extractLsb' 0 8]) 0) s =
              .next (whole (busWrite .hsp (hub * 0x0800_0000 + a) v (u 10)))) ∧
          (c ≠ crc16 (hspHead 1 1 hub a ++ msbFirst v) →
            exec (.hspWriteFrame (hspHead 1 1 hub a ++ msbFirst v ++ [c.extractLsb' 8 8, c.extractLsb' 0 8]) 0) s =
              .next (whole (bump (hlA + 0x60) (hspFlag 3 (u 10)))))) ∧
        (∀ (a w : Nat) (x : BitVec 8), a < 2 ^ 27 → a % 4 = 0 → w ≤ 64 → bit (cfgR s (hlA + 4)) 4 = false →
          exec (.hspReadFrame (hspHead 0 0 0 a ++ List.replicate (w + 5) x) 0 [w] []) s = .next (whole {
            readEffect .hsp a (u (w + 9)) with
            answer := [hspState s, 0, 0, 0] ++ List.replicate w 0x96 ++ [0x69] ++
              (msbFirst (readValue (u (w + 9)) .hsp a)).map (·.setWidth 64) })) ∧
        (∀ (hub a : Nat) (tail : List (BitVec 8)) (waits : List Nat) (late : List (Option W32)), hub < 8 → a < 2 ^ 27 →
          a % 4 ≠ 0 ∨ (s.straps.role = 2 ∧ hub ≠ 0) → ∀ crc < 2,
          exec (.hspWriteFrame (hspHead 1 crc hub a ++ tail) 0) s = .next (whole (hspFlag 4 (u (tail.length + 4)))) ∧
          exec (.hspReadFrame (hspHead 0 crc hub a ++ tail) 0 waits late) s = .next (whole (hspFlag 4 (u (tail.length + 4))))) ∧
        (∀ (a : Nat) (tail : List (BitVec 8)) (waits : List Nat) (late : List (Option W32)), a < 2 ^ 27 → a % 4 = 0 →
          bit (cfgR s (hlA + 4)) 4 = true →
          exec (.hspWriteFrame (hspHead 1 0 0 a ++ tail) 0) s = .next (whole (bump (hlA + 0x6C) (hspFlag 6 (u (tail.length + 4))))) ∧
          exec (.hspReadFrame (hspHead 0 0 0 a ++ tail) 0 waits late) s =
            .next (whole (bump (hlA + 0x6C) (hspFlag 6 (u (tail.length + 4)))))) ∧
        (∀ (bytes : List (BitVec 8)) (extra : Nat), bytes ≠ [] → bytes.length < 4 → bit (bytes.headD 0) 7 = true →
          exec (.hspWriteFrame bytes extra) s = .next (bump (hlA + 0x58) (hspFlag 0 (u bytes.length)))) ∧
        (∀ a extra, a < 2 ^ 27 → a % 4 = 0 → bit (cfgR s (hlA + 4)) 4 = false →
          exec (.hspWriteFrame (hspHead 1 0 0 a) extra) s = .next (
            if extra % 8 = 0 then whole (u 4)
            else bump (if extra % 8 ≤ 3 then hlA + 0x5C else hlA + 0x58) (hspFlag 0 (whole (u 4)))))))

/-- R375, R395–R400: two-wire transactions. Switched off, or while one is held, the port answers nothing. A write sets the pointer and commits the words whose four
bytes came; a part of a word is discarded and counted; a read gives the bytes of the window's registers, least significant
first, and moves the pointer; a repeated START in an acknowledge slot and 2 ms of SCL held low are counted; the alert
response gives the port's address. In sleep a transaction waits and wakes the hub. A reply stands in `answer` and the counts are of
transactions, the model's choices (log entries 29 and 56). -/
def Sys2Proof.Claims.TwoWirePort : Prop :=
  ∀ s : State, stopped s = false →
    let on := bit (cfgR s (hlA + 4)) 2 = true ∧ s.hl.twtHeld = none
    let at_ (p : Nat) (t : State) : State := { t with hl := { t.hl with twtPtr := p } }
    let w := bump (hlA + 0x70) s
    let page (o n : Nat) : Nat := o / 32 * 32 + (o + n) % 32
    (bit (cfgR s (hlA + 4)) 2 = false ∨ s.hl.twtHeld ≠ none → ∀ (p : BitVec 16) (q : Option (BitVec 16)) bytes n won,
      exec (.twtPointerWrite p) s = .next s ∧ exec (.twtWrite p bytes) s = .next s ∧ exec (.twtRead n) s = .next s ∧
      exec (.twtRsack q bytes) s = .next s ∧ exec (.alertResponse won) s = .next s) ∧
    (on → awake s →
      (∀ p : BitVec 16, exec (.twtPointerWrite p) s = .next (at_ p.toNat w) ∧
        (∀ b, exec (.twtWrite p [b]) s = .next (bump (hlA + 0x78) (twtFlag 1 (at_ (page p.toNat 1) w)))) ∧
        exec (.twtRsack (some p) []) s = .next (bump (hlA + 0x7C) (twtFlag 2 (at_ p.toNat w))) ∧
        exec (.twtRsack none []) s = .next (bump (hlA + 0x7C) (twtFlag 2 w))) ∧
      (∀ x ∈ windowRows s, ∀ o : Nat, x.1 ≤ o → o < x.2.1 → o % 4 = 0 →
        (∀ b0 b1 b2 b3 : BitVec 8, exec (.twtWrite (BitVec.ofNat 16 o) [b0, b1, b2, b3]) s =
          .next (at_ (page o 4) (write32 .twt (x.2.2 + (o - x.1)) (b3 ++ b2 ++ b1 ++ b0) w))) ∧
        (s.hl.twtPtr = o → ∀ a, a = x.2.2 + (o - x.1) →
          let r := bump (hlA + 0x74) s
          exec (.twtRead 4) s = .next { at_ ((o + 4) % 65536) (readEffect .twt a r) with
            answer := (msbFirst (readValue r .twt a)).reverse.map (·.setWidth 64) })) ∧
      (∀ o : Nat, (0x1100 ≤ o ∧ o < 0x2000) ∨ (0x6100 ≤ o ∧ o < 0x7000) → o % 4 = 0 →
        (∀ b0 b1 b2 b3 : BitVec 8, exec (.twtWrite (BitVec.ofNat 16 o) [b0, b1, b2, b3]) s = .next (at_ (page o 4) w)) ∧
        (s.hl.twtPtr = o → exec (.twtRead 4) s = .next { at_ (o + 4) (bump (hlA + 0x74) s) with answer := [0, 0, 0, 0] })) ∧
      (s.hl.alert = true →
        exec (.alertResponse true) s = .next (bump (hlA + 0x84) { s with
          answer := [BitVec.ofNat 64 (2 * (0x58 + s.straps.twtA % 4))]
          hl := { s.hl with alert := false } }) ∧
        exec (.alertResponse false) s = .next (bump (hlA + 0x88) { s with answer := [] }))) ∧
    (s.hl.alert = false → ∀ won, exec (.alertResponse won) s = .next s) ∧
    (∀ u, on → wokenBy 9 s u →
      let held (x : TwtTx) : State := { u with hl := { u.hl with twtHeld := some (x, ticks s) } }
      (∀ n, exec (.twtRead n) s = .next (held (.read n))) ∧
      (∀ p bytes, exec (.twtWrite p bytes) s = .next (held (.write (some p) bytes false))) ∧
      (∀ p, exec (.twtPointerWrite p) s = .next (held (.write (some p) [] false)))) ∧
    (∀ x t0, s.hl.twtHeld = some (x, t0) →
      let u := { s with hl := { s.hl with twtHeld := none } }
      (t0 + 800000 ≤ ticks s → exec .twtStretchTimeout s = .next {
        bump (hlA + 0x80) (twtFlag 3 u) with
        answer := match x with | .read n => List.replicate n 0xFF | _ => [] }) ∧
      (ticks s < t0 + 800000 → exec .twtStretchTimeout s = .next s)) ∧
    (s.hl.twtHeld = none → exec .twtStretchTimeout s = .next s)

/-- The statements SerialPort and TwoWirePort together. -/
def Obligations.SmallHostPorts : Prop := SerialPort ∧ TwoWirePort


/-! ### Power states (R417–R428) -/

/-- R418, R420, R421, R422, R424, R428: the state chosen is no deeper than the permitted one. Preparation begins when it has been deeper than S0 for PWR_IDLE, and a new
veto cancels it; entry counts, latches T_ent, and in S3 keeps the retained blocks of batch SRAM; device time never goes
back. A wake from S1 or S2 returns to S0 and records its source, time and duration. Readings it rests on: log entries 17, 18 and 46. -/
def Obligations.SleepAndWake : Prop :=
  ∀ s : State, stopped s = false →
    (pcode (choice s) ≤ min (pcode s.adm.deepest) (bits (cfgR s (pwrA + 4)) 1 0)) ∧ (bit (cfgR s (pwrA + 4)) 2 = false → choice s = .s0) ∧
    (s.power.cur ≠ .s0 → exec .sleepPreparation s = .next s ∧ ∀ d, exec (.sleepEntry d) s = .next s) ∧
    (awake s →
      (∀ d, exec (.sleepEntry d) s = .next s) ∧
      (choice s = .s0 → exec .sleepPreparation s = .next s) ∧
      (choice s ≠ .s0 → s.power.idleSince = none →
        exec .sleepPreparation s = .next { s with power := { s.power with idleSince := some (ticks s) } }) ∧
      (∀ t0, s.power.idleSince = some t0 → choice s ≠ .s0 →
        (ticks s < t0 + BitVec.ofNat 64 (400 * bits (cfgR s (pwrA + 8)) 23 0) → exec .sleepPreparation s = .next s) ∧
        (t0 + BitVec.ofNat 64 (400 * bits (cfgR s (pwrA + 8)) 23 0) ≤ ticks s → choice s ≠ .s3 → exec .sleepPreparation s =
          .next { s with power := { s.power with phase := .preparing (choice s), idleSince := none } }))) ∧
    (∀ p, s.power.cur = .s0 → s.power.phase = .preparing p →
      let fresh := ∃ i < 12, i ≠ 7 ∧ vetoes s p i = true
      let cancelled := bump (pwrA + 0x6C) { s with power := { s.power with phase := .awake, idleSince := none } }
      (fresh → exec .sleepPreparation s = .next cancelled ∧ ∀ d, exec (.sleepEntry d) s = .next cancelled) ∧
      (¬ fresh → exec .sleepPreparation s = .next s) ∧
      (∀ d, ¬ fresh → p ≠ .s0 → vetoes s p 7 = true → exec (.sleepEntry d) s = .next s) ∧
      (∀ d, p ≠ .s0 → (∀ i < 12, vetoes s p i = false) → ∃ t, exec (.sleepEntry d) s = .next t ∧
        t.power = { s.power with cur := p, last := p, phase := .awake, idleSince := none, wakeReq := 0, entered := ticks s } ∧
        cntR t (pwrA + 0x5C + 4 * pcode p) = plusOne (cntR s (pwrA + 0x5C + 4 * pcode p)) ∧ ticks s ≤ ticks t ∧
        (p = .s1 → t.tb = s.tb) ∧ (p ≠ .s1 → t.tb.tEnt = ticks s ∧ t.tb.fast = s.tb.fast) ∧
        (p ≠ .s3 → { t with power := s.power, tb := s.tb, cnt := s.cnt } = s) ∧
        (p = .s3 → Mem.wf (sramD s) s.sram = true → Mem.wf (fun _ => 0) s.sramLost = true → ∀ x < 4194304,
          bit (s.power.retain.getD (x / 32768 / 32) 0) (x / 32768 % 32) = true → sramR t x = sramR s x))) ∧
    (∀ dur image,
      (s.power.cur = .s0 ∨ s.power.wakeReq = 0 ∨ fastRuns s = false → exec (.wake dur image) s = .next s) ∧
      (s.power.cur = .s1 ∨ (s.power.cur = .s2 ∧ s.tb.handed = true) → s.power.wakeReq ≠ 0 → s.straps.role = 0 → s.tb.epochDue = none → s.sbps = [] →
        s.hl.held = [] → s.hl.twtHeld = none → s.config.reloadDue = false → ∃ t, exec (.wake dur image) s = .next t ∧
        t.power.cur = .s0 ∧ t.power.phase = .awake ∧ t.power.wakeSrc = s.power.wakeReq ∧ t.power.wakeT = s.power.wakeBegan ∧
        t.power.wakeDur = BitVec.ofNat 32 dur ∧ t.power.wakeReq = 0 ∧ ticks t = ticks s ∧
        ((if s.power.cur = .s1 then 200 else 10000) < dur → Mem.wf (fun _ => 0) s.cnt = true → cntR t (pwrA + 0x70) = plusOne (cntR s (pwrA + 0x70)) ∧
          bit (flagR t (pwrA + 0x20)) 0 = true)))

/-! ### The configuration flash, the mailbox and Ranger (R445–R467) -/

namespace Sys2Proof.Claims
open Sys2Proof Sys2Proof.Machine

/-- Bytes of the flash that operation op covers with a length of n (R445). -/
def spanOf (op n : Nat) : Nat := if op = 3 then 0x1000 else if op = 4 then 0x1_0000 else if op = 1 ∨ op = 2 then n else 0

/-- Operation op at address a touches the firmware slots (PROT of R446), or breaks a requirement of R445 (ALIGN). -/
def touchesSlots (op a n : Nat) : Prop := (op = 2 ∨ op = 3 ∨ op = 4) ∧ 0x80_0000 < a + spanOf op n
def misplaced (op a n : Nat) : Prop :=
  (op = 1 ∧ 0x100_0000 < a + n) ∨ (op = 2 ∧ 256 < a % 256 + n) ∨ (op = 3 ∧ a % 0x1000 ≠ 0) ∨ (op = 4 ∧ a % 0x1_0000 ≠ 0)

/-- The flash bytes from a up to a + n hold what f gives for them, and every other byte is as it was. -/
def flashOnly (a n : Nat) (f : Nat → BitVec 8) (s t : State) : Prop :=
  (∀ i < n, flashByte t (a + i) = f i) ∧ (∀ x, x < a ∨ a + n ≤ x → flashByte t x = flashByte s x)

/-- The log index n words after another (R459). -/
def logPlace (i n : Nat) : Nat := 0x2_1000 + (i - 0x2_1000 + n) % 389120

end Sys2Proof.Claims

open Sys2Proof Sys2Proof.Machine Sys2Proof.Claims

/-- R445, R446, R448: a write to CFP_CTRL with KEY and an OP starts that operation, unless it is refused with PROT, ALIGN or BUSY. When it ends, a read has
filled CFP_BUF, a program has cleared bits (a model's presumption of NOR flash, log entry 49) and an erase has set bytes to ones; one that
fails sets CFPERRF with TIMEOUT and leaves every byte beyond its own. Readings it rests on: log entries 50 and 93. -/
def Obligations.FlashPassThrough : Prop :=
  ∀ s : State, stopped s = false →
    let rows : List (Nat × (Path → W32 → Instr)) :=
      [(1, .cfpRead), (2, .cfpProgram), (3, .cfpErase4k), (4, .cfpErase64k), (5, .cfpReadid), (6, .cfpReadsr)]
    (∀ row ∈ rows, ∀ (path : Path) (v : W32),
      let op := row.1
      let u := pathWake path s
      let a := s.config.cfpAddr.toNat
      let n := bits v 15 8 + 1
      let refused (why : Nat) : Host.Outcome State Fault Refusal := .next (raise cfgStatA 2 { u with config := { u.config with cfpReason := why } })
      (bits v 2 0 ≠ op → exec (row.2 path v) s = .next s) ∧
      (bits v 2 0 = op → bits v 31 24 ≠ 0xC5 → exec (row.2 path v) s = .next u) ∧
      (bits v 2 0 = op → bits v 31 24 = 0xC5 →
        (touchesSlots op a n → exec (row.2 path v) s = refused 1) ∧
        (¬ touchesSlots op a n → misplaced op a n → exec (row.2 path v) s = refused 2) ∧
        (¬ touchesSlots op a n → ¬ misplaced op a n → s.config.cfpBusy = true ∨ s.config.locked = false → exec (row.2 path v) s = refused 3) ∧
        (¬ touchesSlots op a n → ¬ misplaced op a n → s.config.cfpBusy = false → s.config.locked = true → exec (row.2 path v) s =
          .next { u with config := { u.config with cfpBusy := true, cfpLast := op, cfpOp := (op, a, n) } }))) ∧
    (∀ ok, s.config.cfpBusy = false → exec (.cfpOperationEnd ok) s = .next s) ∧
    (∀ ok op a n, s.config.cfpBusy = true → s.config.reloadDue = false → s.config.cfpOp = (op, a, n) → 0 < n → n ≤ 256 → a < 0x100_0000 →
      Mem.wf (fun _ => 0xFF) s.flash = true → Mem.wf (fun _ => 0) s.config.cfpBuf = true →
      ∃ t, exec (.cfpOperationEnd ok) s = .next t ∧ t.config.cfpBusy = false ∧
        { t with config := s.config, flash := s.flash, flags := s.flags, fresh := s.fresh } = s ∧
        (op = 1 → (∀ i < n, Mem.read (fun _ => 0) t.config.cfpBuf i = flashByte s (a + i)) ∧ t.flash = s.flash ∧ t.flags = s.flags) ∧
        (op = 5 → (∀ i < 3, Mem.read (fun _ => 0) t.config.cfpBuf i = s.flashId.extractLsb' (16 - 8 * i) 8) ∧ t.flash = s.flash ∧ t.flags = s.flags) ∧
        (op = 6 → (∀ i, 0 < i → Mem.read (fun _ => 0) t.config.cfpBuf i = Mem.read (fun _ => 0) s.config.cfpBuf i) ∧ t.flash = s.flash) ∧
        (ok = true → op = 2 → flashOnly a n (fun i => flashByte s (a + i) &&& Mem.read (fun _ => 0) s.config.cfpBuf i) s t ∧ t.flags = s.flags) ∧
        (ok = true → op = 3 ∨ op = 4 → flashOnly a (spanOf op n) (fun _ => 0xFF) s t ∧ t.flags = s.flags) ∧
        (ok = false → op = 2 ∨ op = 3 ∨ op = 4 → t.config.cfpReason = 4 ∧ flagR t cfgStatA = flagR s cfgStatA ||| 8 ∧
          ∀ x, x < a ∨ a + spanOf op n ≤ x → flashByte t x = flashByte s x))

/-- R466, R467: a mailbox command is held while Ranger does not run and is counted as an ignored write while another is BUSY; Ranger ends it
with its result, MBXF and an FWSTAGE entry. BEGIN erases the inactive slot; WRITE programs a page of it; VERIFY checks
it; COMMIT makes it ACTIVE on trial after a VERIFY that was good; ABORT ends the staging. Readings it rests on: log entry 50. -/
def Obligations.Mailbox : Prop :=
  let rows : List (Nat × (Path → Bool → Instr)) :=
    [(1, fun p _ => .mbxInfo p), (2, .mbxBegin), (3, .mbxWrite), (4, fun p _ => .mbxVerify p), (5, fun p _ => .mbxCommit p),
     (6, fun p _ => .mbxAbort p)]
  ∀ row ∈ rows, ∀ (path : Path) (ok : Bool) (s : State), stopped s = false → s.mgt.mbxBusy = false →
    let op := row.1
    let u := pathWake path s
    let b := !s.mgt.slot
    let base : Nat := if b then 0xC0_0000 else 0x80_0000
    let arg := s.mgt.mbxArg.toNat
    (∀ other, other ≠ op → exec (row.2 path ok) { s with mgt := { s.mgt with mbxBusy := true, mbxOp := other } } =
      .next (raise sysFlagsA 0 (bump sysWerrA (pathWake path { s with mgt := { s.mgt with mbxBusy := true, mbxOp := other } })))) ∧
    (s.mgt.running = false ∨ s.mgt.asked ≠ 0 ∨ s.power.cur = .s3 ∨ ((op = 2 ∨ op = 3 ∨ op = 4) ∧ s.config.cfpBusy = true) →
      exec (row.2 path ok) s = .next { u with mgt := { u.mgt with mbxBusy := true, mbxOp := op, idle := false } }) ∧
    (s.mgt.running = true → s.mgt.asked = 0 → s.power.cur ≠ .s3 → s.config.cfpBusy = false → s.mgt.recovery = false → s.journalQ.length < 256 →
      Mem.wf (fun _ => 0xFF) s.flash = true → Mem.wf (fun _ => 0) s.mgt.mbxBuf = true → ∃ t, exec (row.2 path ok) s = .next t ∧
      let ended (r : Nat) : Prop := t.mgt.mbxResult = r ∧ t.journalQ = s.journalQ ++ [{
        type := 3, stamp := ticks s, qual := qualNow s, era := s.tb.stepCnt, words := [BitVec.ofNat 48 (r * 16 + op)] }]
      t.mgt.mbxBusy = false ∧ flagR t mgtFlagsA = flagR s mgtFlagsA ||| 0x80 ∧
      { t with mgt := u.mgt, flash := u.flash, flags := u.flags, fresh := u.fresh, journalQ := u.journalQ } = u ∧
      (op = 1 → ended 0 ∧ t.flash = s.flash ∧ t.mgt.begun = s.mgt.begun ∧ t.mgt.verified = s.mgt.verified) ∧
      (op = 2 → ended (if ok then 0 else 2) ∧ t.mgt.begun = ok ∧ t.mgt.verified = false ∧
        (ok = true → flashOnly base 0x40_0000 (fun _ => 0xFF) s t)) ∧
      (op = 3 → (s.mgt.begun = false ∨ arg % 256 ≠ 0 ∨ 0x40_0000 ≤ arg → ended 1 ∧ t.flash = s.flash) ∧
        (s.mgt.begun = true → arg % 256 = 0 → arg < 0x40_0000 → ended (if ok then 0 else 2) ∧ t.mgt.verified = false ∧
          (ok = true → flashOnly (base + arg) 256 (fun i => flashByte s (base + arg + i) &&& Mem.read (fun _ => 0) s.mgt.mbxBuf i) s t))) ∧
      (op = 4 → ended (slotCheck s b) ∧ t.mgt.verified = decide (slotCheck s b = 0) ∧ t.flash = s.flash) ∧
      (op = 5 → t.flash = s.flash ∧ (s.mgt.begun = false ∨ s.mgt.verified = false → ended 1 ∧ bootRead t = bootRead s) ∧
        (s.mgt.begun = true → s.mgt.verified = true → ended 0 ∧ bootRead t = { bootRead s with
          valid := true, active := b, prev := !b, trial := true, tried := false, gen := (bootRead s).gen + 1 })) ∧
      (op = 6 → ended 0 ∧ t.flash = s.flash ∧ t.mgt.begun = false ∧ t.mgt.verified = false))

/-- R455, R497: the watchdog that expires resets Ranger alone, counted, with WDRF, and nothing else of the hub; or it freezes the hub, where WDOG_EN
says so. Before its time, and in S3, it does nothing. Readings it rests on: log entry 59. -/
def Sys2Proof.Claims.Watchdog : Prop :=
  ∀ s : State, stopped s = false →
    let due := s.mgt.wdogAt + BitVec.ofNat 64 (400000 * bits (cfgR s (mgtA + 0x0C)) 15 0) ≤ ticks s
    (¬ due ∨ s.power.cur = .s3 → exec .watchdog s = .next s) ∧
    (due → s.power.cur ≠ .s3 → bit (cfgR s frzA) 3 = true → s.frz.pending = false → exec .watchdog s = .next { s with frz := {
      s.frz with
      pending := true, driving := bit (cfgR s frzA) 1, fault := 0, time := ticks s, qual := qualNow s, count := plusOne s.frz.count
      cause := BitVec.ofNat 32 (2 ^ 31 + 2 ^ 30 + 2 ^ 24 + pcode s.power.cur * 2 ^ 18 + (if bit (cfgR s frzA) 1 then 2 ^ 17 else 0)) } }) ∧
    (due → s.power.cur ≠ .s3 → bit (cfgR s frzA) 3 = false → ∃ t, exec .watchdog s = .next t ∧
      t.mgt.running = true ∧ t.mgt.idle = false ∧ t.mgt.wdogAt = ticks s ∧ t.mgt.mbxBusy = false ∧
      cntR t (mgtA + 0x18) = plusOne (cntR s (mgtA + 0x18)) ∧ bit (flagR t mgtFlagsA) 3 = true ∧
      t.phase = (if s.phase = .loaded then .started else s.phase) ∧
      { t with
        mgt := s.mgt, bgt := s.bgt, cnt := s.cnt, flags := s.flags, journalQ := s.journalQ, frz := s.frz, phase := s.phase } = s)

/-- R454, R456, R457, R458: a miss fills the line, and the next where it is absent, and is counted; it waits while the pass-through holds the flash. A
monitor's reading is kept with its quality; one newly out of limits sets its group's flag and is journalled. Readings it rests on: log entry 61. -/
def Sys2Proof.Claims.PrefetchAndMonitors : Prop :=
  ∀ s : State, stopped s = false →
    let w := s.mgt.proc.pc / 4
    (s.mgt.running = false ∨ s.mgt.idle = true ∨ s.mgt.asked ≠ 0 ∨ s.power.cur = .s3 ∨ s.config.cfpBusy = true →
      exec .prefetchMiss s = .next s) ∧
    (s.mgt.running = true → s.mgt.idle = false → s.mgt.asked = 0 → s.power.cur ≠ .s3 → s.config.cfpBusy = false →
      fetchWord s rangerP w = .absent → ∃ t, exec .prefetchMiss s = .next t ∧
        fetchWord t rangerP w = .got (slotWord s s.mgt.slot (w - 0x10_0000)) ∧ (w / 16 + 1 ∉ s.mgt.lines → w / 16 + 1 ∈ t.mgt.lines) ∧ t.mgt.lines.length ≤ 64 ∧
        cntR t (mgtA + 0x1C) = plusOne (cntR s (mgtA + 0x1C)) ∧ { t with mgt := s.mgt, cnt := s.cnt } = s) ∧
    (∀ (m : Nat) (y : W48),
      let lim := cfgR s (mgtA + 0x108 + 0x10 * m)
      let out := m ≤ 14 ∧ (((lim.extractLsb' 16 16).toInt * 65536 < y.toInt) ∨ (y.toInt < (lim.extractLsb' 0 16).toInt * 65536))
      let was := (Mem.read (fun _ => {}) s.mgt.monitors m).out
      (19 ≤ m → exec (.monitorSample m y) s = .next s) ∧
      (m < 19 → chanOfSource s 9 m = none → s.power.cur = .s3 → exec (.monitorSample m y) s = .next s) ∧
      (m < 15 → chanOfSource s 9 m = none → s.power.cur ≠ .s3 → s.journalQ.length < 256 → ∃ t, exec (.monitorSample m y) s = .next t ∧
        (out → Mem.read (fun _ => {}) t.mgt.monitors m = { reading := y, qual := qualNow s, out := true }) ∧
        (¬ out → Mem.read (fun _ => {}) t.mgt.monitors m = { reading := y, qual := qualNow s, out := false }) ∧
        (¬ out ∨ was = true → { t with mgt := { t.mgt with monitors := s.mgt.monitors } } = s) ∧
        (out → was = false → flagR t mgtFlagsA = flagR s mgtFlagsA ||| (if m ≤ 3 then 1 else if m ≤ 10 then 2 else 4) ∧
          t.journalQ = s.journalQ ++ [{
            type := 0x50, stamp := ticks s, qual := qualNow s, era := s.tb.stepCnt, words := [BitVec.ofNat 48 m, y] }] ∧
          { t with mgt := s.mgt, flags := s.flags, journalQ := s.journalQ } = s)) ∧
      (15 ≤ m → m < 19 → chanOfSource s 9 m = none → s.power.cur ≠ .s3 → ∃ t, exec (.monitorSample m y) s = .next t ∧
        (Mem.read (fun _ => {}) t.mgt.monitors m).reading = BitVec.ofNat 48 (2 ^ 24 * min (2 ^ 23 - 1)
          (if m = 15 then s.mgt.sramCorr else if m = 16 then s.mgt.sramUnc else if m = 17 then s.mgt.jnlCorr else s.mgt.jnlUnc)) ∧
        { t with mgt := { t.mgt with monitors := s.mgt.monitors } } = s))

/-- The statements Watchdog and PrefetchAndMonitors together. -/
def Obligations.RangerUpkeep : Prop := Watchdog ∧ PrefetchAndMonitors


/-- R459, R460, R462: Ranger takes the oldest entry of the queue and writes it to the log: a head word and its continuation words, with the
entry's SEQ, around the log's end; MGT_JNL_HEAD moves past it, a pass of the log is counted, and every other journal word
keeps its value. -/
def Sys2Proof.Claims.JournalEntries : Prop :=
  ∀ (j : JEntry) (rest : List JEntry) (s : State), stopped s = false → s.mgt.running = true → s.power.cur ≠ .s3 →
    s.journalQ = j :: rest → s.mgt.jqLostHeld = 0 → j.words.length ≤ 6 → j.type < 256 → 0x2_1000 ≤ s.mgt.jnlHead → s.mgt.jnlHead < 0x8_0000 →
    let h := s.mgt.jnlHead
    let n := j.words.length + 1
    let seq := s.mgt.jnlSeq
    let cont (d : W48) : W64 := BitVec.ofNat 64 (2 ^ 62 + seq.toNat % 2 ^ 14 * 2 ^ 48 + d.toNat)
    ∃ t, exec .journalWrite s = .next t ∧
      Mem.read (fun _ => 0) t.journal h = BitVec.ofNat 64 (2 ^ 63 + n * 2 ^ 59 + qcode j.qual * 2 ^ 57 +
        (if j.era = s.tb.stepCnt then 0 else 2 ^ 56) + j.type * 2 ^ 48 + j.stamp.toNat % 2 ^ 48) ∧
      Mem.read (fun _ => 0) t.journal (logPlace h 1) = cont (BitVec.ofNat 48 (j.stamp.toNat / 2 ^ 48 * 2 ^ 32 + seq.toNat)) ∧
      (∀ i < j.words.length, Mem.read (fun _ => 0) t.journal (logPlace h (2 + i)) = cont (j.words.getD i 0)) ∧
      (∀ w, (∀ i ≤ n, w ≠ logPlace h i) → Mem.read (fun _ => 0) t.journal w = Mem.read (fun _ => 0) s.journal w) ∧
      t.journalQ = rest ∧ t.mgt = { s.mgt with jnlHead := logPlace h (n + 1), jnlSeq := seq + 1 } ∧
      cntR t (mgtA + 0x24) = (if h + n + 1 < 0x8_0000 then cntR s (mgtA + 0x24) else cntR s (mgtA + 0x24) + 1) ∧
      { t with journal := s.journal, journalQ := s.journalQ, mgt := s.mgt, cnt := s.cnt } = s

/-- R29: with nothing in the queue, with Ranger stopped or in S3 no entry is written; an entry at a full queue is lost and counted, with
JQLOSTF, and the next one written brings a JQLOST entry behind those that were kept. Readings it rests on: log entry 58. -/
def Sys2Proof.Claims.JournalQueue : Prop :=
  ∀ s : State, stopped s = false →
    (s.journalQ = [] ∨ s.mgt.running = false ∨ s.power.cur = .s3 → exec .journalWrite s = .next s) ∧
    (∀ type at_ words,
      (s.journalQ.length < 256 → (journal type at_ words s).journalQ =
        s.journalQ ++ [{ type := type, stamp := at_.stamp, qual := at_.qual, era := at_.era, words := words }]) ∧
      (256 ≤ s.journalQ.length → (journal type at_ words s).journalQ = s.journalQ ∧ bit (flagR (journal type at_ words s) mgtFlagsA) 4 = true ∧
        cntR (journal type at_ words s) (mgtA + 0x20) = plusOne (cntR s (mgtA + 0x20)) ∧
        (journal type at_ words s).mgt.jqLostHeld = s.mgt.jqLostHeld + 1)) ∧
    (∀ j rest, s.journalQ = j :: rest → rest.length < 256 → s.mgt.running = true → s.power.cur ≠ .s3 → s.mgt.jqLostHeld ≠ 0 →
      ∃ t, exec .journalWrite s = .next t ∧ t.mgt.jqLostHeld = 0 ∧ t.journalQ = rest ++ [{
        type := 5, stamp := ticks s, qual := qualNow s, era := s.tb.stepCnt, words := [BitVec.ofNat 48 s.mgt.jqLostHeld] }])

/-- The statements JournalEntries and JournalQueue together. -/
def Obligations.TallyJournal : Prop := JournalEntries ∧ JournalQueue


/-! ### The Bight ring (R470–R488) -/

namespace Sys2Proof.Claims
open Sys2Proof Sys2Proof.Machine

/-- A frame waits at the port BGD or BGU to go out; a port that is down takes none. -/
def queued (down : Bool) (f : BFrame) (s : State) : State :=
  if (if down then s.bgt.dport else s.bgt.uport) = 0 then s
  else { s with bgt := if down then { s.bgt with replayD := s.bgt.replayD ++ [f] } else { s.bgt with replayU := s.bgt.replayU ++ [f] } }

/-- This hub is on a ring of n hubs, at position p: the primary at 0, a secondary at 1 or above. -/
def ringAt (n p : Nat) (s : State) : Prop :=
  s.bgt.hubs = n ∧ 2 ≤ n ∧ n ≤ 8 ∧ s.straps.pos = p ∧ p < n ∧ ((s.straps.role = 1 ∧ p = 0) ∨ (s.straps.role = 2 ∧ 1 ≤ p))

/-- t is s but for what the ports hold. -/
def onlyPorts (s t : State) : Prop := { t with bgt := { t.bgt with replayD := s.bgt.replayD, replayU := s.bgt.replayU } } = s

/-- The ring's counters in the order of R487. -/
def ringCount (i : Nat) : Nat := bgtA + 0x40 + 4 * i

end Sys2Proof.Claims

open Sys2Proof Sys2Proof.Machine Sys2Proof.Claims

/-- R472, R473, R476, R478: both ports train; ENUM is checked against the position and passed on, and its return gives N; a hop takes its delay from 64
round trips, or is broken where it has not trained or its directions differ by more than 2 ns; a secondary out of order or
not aligned in time is excluded, and the primary notes it. Only a hub in start-up step 5 trains and counts (log entries 51, 77). Readings it rests on: log entry 94. -/
def Sys2Proof.Claims.RingStart : Prop :=
  ∀ (n p : Nat) (s : State), stopped s = false → ringAt n p s →
    (s.phase ≠ .loaded → ∀ a b c atD f l late, exec (.linkTraining a b c) s = .next s ∧ exec (.enum atD f l) s = .next s ∧
      exec (.alignmentTimeout late) s = .next s) ∧
    (s.phase = .loaded →
      let up := { s with bgt := { s.bgt with state := .starting, rstate := 1, dport := 2, uport := 2, sleep := 0 } }
      (s.straps.role = 2 → exec (.linkTraining true true false) s = .next up ∧ exec (.linkTraining false true false) s = exec (.hopBreak p) up ∧
        exec (.linkTraining true false false) s = exec (.hopBreak ((p + n - 1) % n)) up) ∧
      (s.straps.role = 1 → s.bgt.broken = [] → exec (.linkTraining true true false) s = .next (queued true { kind := 9 } up)) ∧
      (∀ (f : BFrame) (l : List Nat), s.straps.role = 2 →
        (f.info.toNat % 8 + 1 = p → exec (.enum false (some f) l) s = .next
          (queued true { f with info := BitVec.ofNat 32 p } { s with bgt := { s.bgt with state := .on } })) ∧
        (f.info.toNat % 8 + 1 ≠ p → s.bgt.excl = false → ∃ t, exec (.enum false (some f) l) s = .next t ∧ t.bgt.excl = true ∧
          onlyPorts { s with bgt := { s.bgt with excl := true } } t) ∧
        exec (.enum false none l) s = .next s) ∧
      (∀ (f : BFrame) (l : List Nat), s.straps.role = 1 →
        (s.bgt.broken = [] → ∃ t, exec (.enum false (some f) l) s = .next t ∧
          onlyPorts { s with bgt := {
            s.bgt with
            state := .on, hubs := f.info.toNat % 8 + 1, rstate := 2, reach := BitVec.ofNat 8 (2 ^ (f.info.toNat % 8 + 1) - 1) } } t) ∧
        (s.bgt.broken ≠ [] → exec (.enum false (some f) l) s = .next s) ∧
        (∃ t, exec (.enum false none l) s = .next t ∧ t.bgt.state = .on ∧ t.bgt.rstate = 3 ∧ t.bgt.hubs = s.config.hubs ∧
          ∀ q < 8, bit t.bgt.reach q = true ↔ q = 0 ∨ q ∈ l)) ∧
      (s.straps.role = 2 → ∀ late,
        (s.tb.aligned = true → exec (.alignmentTimeout late) s = .next s) ∧
        (s.tb.aligned = false → s.bgt.excl = false → ∃ t, exec (.alignmentTimeout late) s = .next t ∧
          onlyPorts { s with bgt := { s.bgt with excl := true } } t)) ∧
      (s.straps.role = 1 → s.journalQ.length < 256 → ∀ q, 0 < q → q < 8 → bit s.bgt.reachExcl q = false →
        ∃ t, exec (.alignmentTimeout [q]) s = .next t ∧ t.bgt = { s.bgt with reachExcl := s.bgt.reachExcl ||| (1#8 <<< q) } ∧
          flagR t (bgtA + 8) = flagR s (bgtA + 8) ||| 8 ∧ t.journalQ.length = s.journalQ.length + 1)) ∧
    (∀ (h : Nat) (trips : List Nat) (skew : Rat), h < n → trips.length = 64 → h ∉ s.bgt.broken →
      (skew ≤ 4 / 5 → ∃ d t, exec (.hopCalibration h trips skew) s = .next t ∧
        (d = trips.sum / 128 ∨ (trips.sum % 128 ≠ 0 ∧ d = trips.sum / 128 + 1)) ∧
        Mem.read (fun _ => 0) t.bgt.hopDly h = BitVec.ofNat 16 d ∧
        { t with bgt := { t.bgt with hopDly := s.bgt.hopDly }, fresh := s.fresh } = s) ∧
      (4 / 5 < skew → h = p ∨ h = (p + n - 1) % n → exec (.hopCalibration h trips skew) s = exec (.hopBreak h) s)) ∧
    (∀ (h : Nat) (trips : List Nat) (skew : Rat), n ≤ h ∨ trips.length ≠ 64 ∨ h ∈ s.bgt.broken →
      exec (.hopCalibration h trips skew) s = .next s)

/-- R477, R478, R483: once a millisecond the primary sends its time both ways; a secondary passes each frame on with its residence added and measures the one
that came the shorter way: e is its own time less the departure, the residence and the path's calibrated delay. BGT_OFS
holds e; eight in a row within 2 ticks make the hub ALIGNED, one outside ends it, and a first one beyond 400,000 excludes it. Readings it rests on: log entry 77. -/
def Obligations.RingTime : Prop :=
  ∀ (n p : Nat) (atD : Bool) (f : BFrame) (res : Nat) (s : State), stopped s = false → ringAt n p s → s.power.cur = .s0 →
    (s.bgt.sleep = 1 → exec (.timeFrame atD f res) s = .next s) ∧
    (s.bgt.sleep ≠ 1 → s.straps.role = 1 →
      let time : BFrame := {
        kind := 1, info := BitVec.ofNat 32 (4 * loopCode s.tb.loop + qcode (qualNow s))
        payload := [BitVec.ofNat 48 (ticks s).toNat] }
      exec (.timeFrame atD f res) s = .next (queued true time (queued false time s))) ∧
    (s.bgt.sleep ≠ 1 → s.straps.role = 2 →
      let on := queued (!atD) { f with info := f.info + BitVec.ofNat 32 (16 * res) } s
      let hops : List Nat := (List.range n).filter (fun h => if atD then decide (p ≤ h) else decide (h < p))
      let path : Nat := (hops.map (fun h => (Mem.read (fun _ => 0) s.bgt.hopDly h).toNat)).sum
      (s.bgt.broken = [] → (if atD then p < n - p else n - p ≤ p) → exec (.timeFrame atD f res) s = .next on) ∧
      (∀ e : Int, s.bgt.broken = [] → (if atD then n - p ≤ p else p < n - p) →
        8 * ((ticks s - fullOf (ticks s) (f.payload.getD 0 0)).toInt - e) = (f.info.toNat / 16 + path : Nat) → -(2 ^ 31) < e → e < 2 ^ 31 →
        ∃ t, exec (.timeFrame atD f res) s = .next t ∧ t.bgt.ofs.toInt = e ∧ t.bgt.measured = true ∧
          t.bgt.primaryHold = decide (bits f.info 3 2 = 3) ∧ (s.tb.stepInInterval = false → t.tb.err.toInt = e) ∧
          (-2 ≤ e → e ≤ 2 → t.bgt.alignGood = min 8 (s.bgt.alignGood + 1) ∧ t.tb.aligned = (s.tb.aligned || decide (7 ≤ s.bgt.alignGood))) ∧
          (e < -2 ∨ 2 < e → t.bgt.alignGood = 0 ∧ t.tb.aligned = false) ∧
          t.bgt.excl = (s.bgt.excl || (!s.bgt.measured && decide (e < -400000 ∨ 400000 < e)))))

/-- R412, R475, R481, R482, R484: a frame for another position passes on. The primary joins the fragments of a record and writes it at its LAST; credit and confirmations
go to the secondary that asked, and RNGr_PROD follows a confirmation. A REGREQ is a 32-bit access here that wakes the hub,
its REGRSP ends the oldest wait for that position, and 2 ms without one read zero. CAUSE sets SECn; CTRL acts by its code
(the codings within frames and the place of an answer are the model's: log entries 29, 34 and 51). -/
def Obligations.RingTraffic : Prop :=
  ∀ (n p : Nat) (atD : Bool) (f : BFrame) (s : State), stopped s = false → ringAt n p s →
    let mine := f.dst = p
    let ws (k : Nat) : Nat := bits f.info (k + 6) k
    let key := (f.payload.getD 0 0).toNat % 128
    (f.dst ≠ p →
      (f.kind = 2 → exec (.relay atD f) s = .next (queued (!atD) f s)) ∧ (f.kind = 5 → exec (.regreq atD f) s = .next (queued (!atD) f s)) ∧
      (f.kind = 6 → exec (.regrsp atD f) s = .next (queued (!atD) f s)) ∧ (f.kind = 7 → exec (.cause atD f) s = .next (queued (!atD) f s)) ∧
      (f.kind = 8 → f.src ≠ p → f.dst ≠ 7 → exec (.ctrl atD f) s = .next (queued (!atD) f s)) ∧
      (p ≠ 0 → (f.kind = 3 → exec (.credit atD f) s = .next (queued (!atD) f s)) ∧
        (f.kind = 4 → exec (.confirm atD f) s = .next (queued (!atD) f s)))) ∧
    (mine → p = 0 → f.kind = 2 →
      let k := 128 * f.src + ws 25
      let got := (if bit f.info 17 then [] else Mem.read (fun _ => []) s.bgt.assembly k) ++ f.payload
      let u := bump (ringCount 9) s
      (bit f.info 16 = false → exec (.relay atD f) s = .next { u with bgt := {
        u.bgt with assembly := Mem.write (fun _ => []) u.bgt.assembly k got } }) ∧
      (bit f.info 16 = true → (getRing s (ws 18)).state = .on → ∃ t, exec (.relay atD f) s = .next t ∧
        (getRing t (ws 18)).ready.getLast? = some {
          payload := got
          relayed := some { pos := f.src, ring := ws 25, idx := Mem.read (fun _ => 0) s.bgt.taken k + BitVec.ofNat 32 got.length } } ∧
        Mem.read (fun _ => []) t.bgt.assembly k = [] ∧
        Mem.read (fun _ => 0) t.bgt.taken k = Mem.read (fun _ => 0) s.bgt.taken k + BitVec.ofNat 32 got.length)) ∧
    (p = 0 → ∀ d, f.dst = d → 0 < d → d < n → s.bgt.broken = [] →
      let down := decide (d < n - d)
      let more := f.info - Mem.read (fun _ => 0) s.bgt.credit (128 * d + key)
      ((getRing s key).state = .on → fits s key more.toNat = true → more ≠ 0 → exec (.credit atD f) s = .next (
        queued down { f with kind := 3, src := 0 } { s with bgt := {
          s.bgt with credit := Mem.write (fun _ => 0) s.bgt.credit (128 * d + key) f.info } })) ∧
      ((getRing s key).state ≠ .on ∨ fits s key more.toNat = false → exec (.credit atD f) s = .next s) ∧
      (∀ idx, Mem.read (fun _ => none) s.bgt.relayIdx (128 * d + key) = some idx → exec (.confirm atD f) s = .next (
        queued down { kind := 4, src := 0, dst := d, info := idx, payload := [BitVec.ofNat 48 key] } { s with bgt := {
          s.bgt with relayIdx := Mem.write (fun _ => none) s.bgt.relayIdx (128 * d + key) none } })) ∧
      (Mem.read (fun _ => none) s.bgt.relayIdx (128 * d + key) = none → exec (.confirm atD f) s = .next s)) ∧
    (mine → p ≠ 0 →
      (f.kind = 3 → (∀ r, (getRing s r).inflight = []) → exec (.credit atD f) s = .next { s with bgt := {
        s.bgt with credit := Mem.write (fun _ => 0) s.bgt.credit (128 * p + key) f.info } }) ∧
      (f.kind = 4 → ∀ x, ringMode s key = 2 → (getRing s key).inflight = [x] → x.sent = true → x.endIdx = f.info →
        ∃ t, exec (.confirm atD f) s = .next t ∧ (getRing t key).prod = f.info ∧ (getRing t key).inflight = []) ∧
      (f.kind = 4 → ringMode s key ≠ 2 → exec (.confirm atD f) s = .next s)) ∧
    (mine → f.kind = 5 → awake s →
      let path : Path := match bits f.info 30 29 with | 0 => .pcie | 1 => .hsp | 2 => .twt | _ => .ranger
      let a := (f.payload.getD 0 0).toNat
      (bit f.info 31 = true → exec (.regreq atD f) s = .next (write32 path a ((f.payload.getD 1 0).setWidth 32) s)) ∧
      (bit f.info 31 = false → ∃ t, exec (.regreq atD f) s = .next t ∧ onlyPorts (readEffect path a s) t ∧
        (f.src = 0 → p ≠ 0 → s.bgt.broken = [] → s.bgt.dport ≠ 0 → s.bgt.uport ≠ 0 →
          t = queued (decide (n - p < p)) { kind := 6, src := p, dst := 0, info := readValue s path a } (readEffect path a s)))) ∧
    (mine → f.kind = 6 →
      ((∀ q ∈ s.bgt.waiting, q.target ≠ f.src) → exec (.regrsp atD f) s = .next s) ∧
      (∀ q rest, s.bgt.waiting = q :: rest → q.target = f.src →
        (q.path = .pcie → exec (.regrsp atD f) s = .next { s with bgt := { s.bgt with waiting := rest }, answer := [0, f.info.setWidth 64] }) ∧
        (q.path = .ranger → s.mgt.asked = 1 → exec (.regrsp atD f) s = .next { s with
          bgt := { s.bgt with waiting := rest }
          mgt := { s.mgt with asked := 0, proc := { s.mgt.proc with stack := f.info.setWidth 48 :: s.mgt.proc.stack.drop 1 } } }))) ∧
    (s.bgt.waiting = [] → exec .windowTimeout s = .next s) ∧
    (∀ q rest, s.bgt.waiting = q :: rest →
      (ticks s < q.since + 800000 → exec .windowTimeout s = .next s) ∧
      (q.since + 800000 ≤ ticks s → q.path = .pcie → exec .windowTimeout s = .next {
        raise (bgtA + 8) 5 (bump (ringCount 8) s) with bgt := { s.bgt with waiting := rest }, answer := [0, 0] })) ∧
    (mine → f.kind = 7 →
      (p = 0 → 1 ≤ f.src → f.src < 8 → exec (.cause atD f) s = .next { s with bgt := { s.bgt with
        secs := if bit f.info 0 then s.bgt.secs ||| (1#32 <<< f.src) else s.bgt.secs &&& ~~~(1#32 <<< f.src) } }) ∧
      (p ≠ 0 → exec (.cause atD f) s = .next s)) ∧
    (f.kind = 8 → (f.src = p → exec (.ctrl atD f) s = .next s) ∧
      (mine → p ≠ 7 → f.src ≠ p →
        let arg := bits f.info 27 0
        (bits f.info 31 28 = 4 → exec (.ctrl atD f) s = .next { s with bgt := {
          s.bgt with choices := Mem.write (fun _ => 0) s.bgt.choices f.src (arg % 4) } }) ∧
        (bits f.info 31 28 = 6 → exec (.ctrl atD f) s = .next { s with bgt := { s.bgt with sleep := 1, dport := 3, uport := 3 } }) ∧
        (bits f.info 31 28 = 8 → exec (.ctrl atD f) s = .next { s with bgt := {
          s.bgt with hubs := arg % 16, rstate := if 16 ≤ arg then 3 else 2, state := .on } }) ∧
        (bits f.info 31 28 = 2 → ∀ v0 v1 t0 t1 : W48, f.payload = [v0, v1, t0, t1] → exec (.ctrl atD f) s = .next { s with tb := { s.tb with
          step := some {
            relative := bit f.info 0
            value := v1.setWidth 64 <<< 48 ||| v0.setWidth 64
            tApply := t1.setWidth 64 <<< 48 ||| t0.setWidth 64 } } })))

/-- R475, R485, R486: a rejected frame counts at its receiver, and at its sender goes out again; a further retry of it sets RETRYF, and RETRY_N failures break the hop.
A break of a hub's own hop puts its port in training, counts, and turns the ring into a chain, with BREAKF and a journal
entry at the primary; a hop that trains and calibrates again is whole, counted, with REPAIRF. Readings it rests on: log entry 94. -/
def Sys2Proof.Claims.RingBreaks : Prop :=
  ∀ (n p : Nat) (s : State), stopped s = false → ringAt n p s → (∀ r, ringMode s r ≠ 2) →
    let own (h : Nat) : Prop := h = p ∨ h = (p + n - 1) % n
    (∀ h, ¬ own h ∨ h ∈ s.bgt.broken → exec (.hopBreak h) s = .next s) ∧
    (∀ h, own h → h ∉ s.bgt.broken → ∃ t, exec (.hopBreak h) s = .next t ∧
      t.bgt.broken = h :: s.bgt.broken ∧ t.bgt.rstate = 3 ∧ (if h = p then t.bgt.dport else t.bgt.uport) = 1 ∧
      (if h = p then t.bgt.uport = s.bgt.uport else t.bgt.dport = s.bgt.dport) ∧
      cntR t (ringCount 4) = plusOne (cntR s (ringCount 4)) ∧
      (s.straps.role = 1 → s.journalQ.length < 256 → bit (flagR t (bgtA + 8)) 0 = true ∧ t.journalQ.length = s.journalQ.length + 1)) ∧
    (∀ h trips skew, ¬ own h ∨ h ∉ s.bgt.broken ∨ trips.length ≠ 64 ∨ 4 / 5 < skew → exec (.hopRetrain h trips skew) s = .next s) ∧
    (∀ h trips skew, own h → h ∈ s.bgt.broken → trips.length = 64 → skew ≤ 4 / 5 → s.bgt.reported = [] → ∃ t,
      exec (.hopRetrain h trips skew) s = .next t ∧
      t.bgt.broken = s.bgt.broken.filter (· ≠ h) ∧ t.bgt.rstate = (if ∀ x ∈ s.bgt.broken, x = h then 2 else 3) ∧
      (if h = p then t.bgt.dport else t.bgt.uport) = 2 ∧
      cntR t (ringCount 5) = plusOne (cntR s (ringCount 5)) ∧ bit (flagR t (bgtA + 8)) 1 = true) ∧
    (∀ (down : Bool) (acked : Nat),
      let buf := if down then s.bgt.replayD else s.bgt.replayU
      let fails := (if acked = 0 then (if down then s.bgt.failsD else s.bgt.failsU) else 0) + 1
      exec (.frameRetry down true acked) s = .next (bump (ringCount (if down then 2 else 0)) s) ∧
      (buf.length ≤ acked → exec (.frameRetry down false acked) s = .next s) ∧
      (acked < buf.length →
        let u := bump (ringCount (if down then 3 else 1)) { s with bgt := if down
          then { s.bgt with replayD := buf.drop acked, failsD := fails } else { s.bgt with replayU := buf.drop acked, failsU := fails } }
        let v := if fails = 1 then u else raise (bgtA + 8) 4 u
        (fails < bits (cfgR s (bgtA + 4)) 15 12 → exec (.frameRetry down false acked) s = .next v) ∧
        (bits (cfgR s (bgtA + 4)) 15 12 ≤ fails → exec (.frameRetry down false acked) s = exec (.hopBreak (if down then p else (p + n - 1) % n)) v)))

/-- The statements RingStart and RingBreaks together. -/
def Obligations.RingStartAndBreaks : Prop := RingStart ∧ RingBreaks


/-- R479, R480: the hub that originates a trigger sends three copies both ways, counts and takes it; a hub that receives a good copy it has not seen
passes it on and takes it, drops another. To take it is to log it and count it and, where the mask has its channel, to set
ICU source 122. In S2 and S3 none is sent. Readings it rests on: log entry 96. -/
def Sys2Proof.Claims.Triggers : Prop :=
  ∀ s : State, stopped s = false →
    let log (b : BTrig) (s : State) : State := bump (ringCount 7) { s with bgt := { s.bgt with trigLog := b, seen := b :: s.bgt.seen } }
    (s.bgt.trigDue = [] → exec .triggerOrigin s = .next s) ∧
    (∀ b rest, s.bgt.trigDue = b :: rest →
      let out := { s with bgt := { s.bgt with trigDue := rest, trigTx := [b, b, b] } }
      (s.power.cur = .s2 ∨ s.power.cur = .s3 → exec .triggerOrigin s = .next { s with bgt := { s.bgt with trigDue := rest } }) ∧
      (s.power.cur = .s0 ∨ s.power.cur = .s1 → bit (cfgR s (bgtA + 4)) b.chan = false →
        exec .triggerOrigin s = .next (bump (ringCount 6) (log b out))) ∧
      (s.power.cur = .s0 ∨ s.power.cur = .s1 → bit (cfgR s (bgtA + 4)) b.chan = true → (∀ n < 32, (getTimer s n).running = false) →
        ∃ t, exec .triggerOrigin s = .next t ∧ (getIcu t 122).latch = true ∧ t.bgt = (log b out).bgt)) ∧
    (∀ b, (b ∈ s.bgt.seen ∨ s.straps.role = 0 → exec (.broadcastTrigger b true) s = .next s) ∧
      exec (.broadcastTrigger b false) s = .next s ∧
      (b ∉ s.bgt.seen → s.straps.role = 1 ∨ s.straps.role = 2 →
        let out := { s with bgt := { s.bgt with trigTx := [b, b, b] } }
        (bit (cfgR s (bgtA + 4)) b.chan = false → exec (.broadcastTrigger b true) s = .next (log b out)) ∧
        (bit (cfgR s (bgtA + 4)) b.chan = true → (∀ n < 32, (getTimer s n).running = false) →
          ∃ t, exec (.broadcastTrigger b true) s = .next t ∧ (getIcu t 122).latch = true ∧ t.bgt = (log b out).bgt)))

/-- R483: the primary releases the ring when every hub that is present and not excluded chooses S2 or S3: all ports enter electrical idle. A neighbour
that ends it wakes this hub, whose ports train; in S0 they are up again and a secondary aligns anew. -/
def Sys2Proof.Claims.RingSleep : Prop :=
  ∀ s : State, stopped s = false →
    let all := 2 ≤ pcode (choiceForRing s) ∧ ∀ q < ringHubs s, q = 0 ∨ bit s.bgt.reach q = false ∨ bit s.bgt.reachExcl q = true ∨
      2 ≤ Mem.read (fun _ => 0) s.bgt.choices q
    (s.straps.role = 1 → s.bgt.sleep = 0 → all → ∃ t, exec .ringRelease s = .next t ∧
      onlyPorts { s with bgt := { s.bgt with sleep := 1, dport := 3, uport := 3 } } t) ∧
    (s.straps.role = 1 → s.bgt.sleep ≠ 0 ∨ ¬ all → exec .ringRelease s = .next s) ∧
    (s.straps.role = 2 → s.bgt.sleep ≠ 1 → Mem.read (fun _ => 0) s.bgt.choices s.straps.pos ≠ pcode (choiceForRing s) →
      ∃ t, exec .ringRelease s = .next t ∧ Mem.read (fun _ => 0) t.bgt.choices s.straps.pos = pcode (choiceForRing s)) ∧
    (s.straps.role = 0 ∨ s.bgt.sleep ≠ 1 → exec .ringWake s = .next s) ∧
    (s.straps.role = 1 ∨ s.straps.role = 2 → s.bgt.sleep = 1 →
      (s.power.cur = .s0 → exec .ringWake s = .next { s with
        tb := { s.tb with aligned := s.tb.aligned && decide (s.straps.role ≠ 2) }
        bgt := { s.bgt with sleep := 0, dport := 2, uport := 2, alignGood := 0, lastTime := none } }) ∧
      (∀ u, wokenBy 10 s u → exec .ringWake s = .next { u with bgt := { s.bgt with sleep := 2, dport := 1, uport := 1 } }))

/-- The statements Triggers and RingSleep together. -/
def Obligations.TriggersAndRingSleep : Prop := Triggers ∧ RingSleep


/-! ### Integrity, the freeze and the test port (R490–R505, R531) -/

/-- R490, R491: a fabric word that fails its parity is repeated and counted; one that fails again is counted and journalled. A scrub counts a corrected batch SRAM
word, and poisons, flags, counts and journals an uncorrectable one once, until it is written; outside S0 neither happens. Readings it rests on: log entry 5. -/
def Obligations.Integrity : Prop :=
  ∀ s : State, stopped s = false →
    (∀ block k, s.power.cur ≠ .s0 ∨ 4 ≤ block → ∀ again, exec (.fabricParityFailure block k again) s = .next s) ∧
    (∀ block k, s.power.cur = .s0 → block < 4 →
      exec (.fabricParityFailure block k false) s = .next (bump 0x100 s) ∧
      (s.journalQ.length < 256 → k < 4096 → ∃ t, exec (.fabricParityFailure block k true) s = .next t ∧
        cntR t 0x104 = plusOne (cntR s 0x104) ∧ cntR t 0x100 = plusOne (cntR s 0x100) ∧ t.journalQ = s.journalQ ++ [{
          type := 0x40, stamp := ticks s, qual := qualNow s, era := s.tb.stepCnt
          words := [BitVec.ofNat 48 (4 * 2 ^ 36 + block * 2 ^ 32 + k)] }] ∧
        { t with cnt := s.cnt, journalQ := s.journalQ, mgt := { t.mgt with jqMax := s.mgt.jqMax } } = s)) ∧
    (∀ w found avg, s.power.cur ≠ .s0 ∨ 4194304 ≤ w → exec (.sramScrub w found avg) s = .next s) ∧
    (∀ w, s.power.cur = .s0 → w < 4194304 →
      (∀ avg, exec (.sramScrub w .clean avg) s = .next s ∧
        exec (.sramScrub w .corrected avg) s = .next { s with mgt := { s.mgt with sramCorr := s.mgt.sramCorr + 1 } }) ∧
      (sramA w ∈ s.poisoned → exec (.sramScrub w .uncorrectable none) s = .next s) ∧
      (sramA w ∉ s.poisoned → s.journalQ.length < 256 → ∃ t, exec (.sramScrub w .uncorrectable none) s = .next t ∧
        sramA w ∈ t.poisoned ∧ t.sram = s.sram ∧ t.mgt.sramUnc = s.mgt.sramUnc + 1 ∧ flagR t mgtFlagsA = flagR s mgtFlagsA ||| 0x20 ∧
        t.journalQ = s.journalQ ++ [{
          type := 0x40, stamp := ticks s, qual := qualNow s, era := s.tb.stepCnt, words := [BitVec.ofNat 48 (5 * 2 ^ 36 + w)] }] ∧
        (∀ v : W48, sramA w ∉ (setSram w v t).poisoned)))

/-- R496, R497, R498, R504: FREEZE_N low freezes the hub where IN_EN is set: the freeze instant records the time, its quality and the power state, and counts; the
stop cycle that follows closes the gate on every clock and keeps how many journal entries will be lost. Readings it rests on: log entries 28 and 62. -/
def Obligations.Freezes : Prop :=
  ∀ s : State, stopped s = false →
    (bit (cfgR s frzA) 0 = false ∨ s.frz.pending = true → exec .freeze s = .next s) ∧
    (bit (cfgR s frzA) 0 = true → s.frz.pending = false → exec .freeze s = .next { s with frz := {
      s.frz with
      pending := true, driving := false, fault := 0, time := ticks s, qual := qualNow s, count := plusOne s.frz.count
      cause := BitVec.ofNat 32 (2 ^ 31 + 2 ^ 30 + pcode s.power.cur * 2 ^ 18) } }) ∧
    (s.frz.pending = false → exec .stopCycle s = .next s) ∧
    (s.frz.pending = true → ∃ t, exec .stopCycle s = .next t ∧ t.frz.pending = false ∧ t.frz.stopped = true ∧
      bits t.frz.cause 8 0 = min 511 s.journalQ.length ∧ (∀ i, 9 ≤ i → bit t.frz.cause i = bit s.frz.cause i) ∧
      { t with frz := s.frz } = s ∧ { t.frz with pending := true, stopped := false, cause := s.frz.cause } = s.frz)

/-- R501, R502, R503, R531: outside a freeze each private instruction acts as BYPASS. In a freeze FRZ_STATUS gives the record, CHAIN_SEL and MEM_ADDR set what is read,
CHAIN_SHIFT gives the chain's bits, bit 0 first, and comes round after the whole length, and MEM_READ the slots from the address on;
none of them changes the frozen hub. IDCODE, BYPASS and Test-Logic-Reset act in every state; the boundary cells take
what is shifted in. What is shifted out stands in `answer`, and what a chain holds beyond the registers of its blocks is open,
the model's choices (log entries 29 and 38). -/
def Obligations.TestPort : Prop :=
  ∀ s : State,
    let kept (t : State) : Prop := { t with tap := s.tap, answer := s.answer, fresh := s.fresh } = s
    (s.frz.stopped = false → ∀ (v : BitVec 8) (n : Nat) (a : W32) (found : List Ecc),
      let by_ (ir : BitVec 8) : Host.Outcome State Fault Refusal := .next { s with tap := { s.tap with ir := ir }, answer := [0] }
      exec .frzStatus s = by_ 0x80 ∧ exec (.chainSel v) s = by_ 0x81 ∧ exec (.chainShift n) s = by_ 0x82 ∧ exec (.memAddr a) s = by_ 0x83 ∧
      exec (.memRead found) s = by_ 0x84) ∧
    (s.frz.stopped = true →
      exec .frzStatus s = .next { s with tap := { s.tap with ir := 0x80 }, answer := [s.frz.cause ++ s.frz.fault] } ∧
      (∀ v : BitVec 8, exec (.chainSel v) s = .next { s with tap := { s.tap with ir := 0x81, chain := v.toNat }, answer := [] }) ∧
      (∀ a : W32, exec (.memAddr a) s = .next { s with tap := { s.tap with ir := 0x83, addr := a }, answer := [] }) ∧
      (∀ n, ∃ t, exec (.chainShift n) s = .next t ∧ kept t ∧
        Mem.read (fun _ => 0) t.tap.turned s.tap.chain = (Mem.read (fun _ => 0) s.tap.turned s.tap.chain + n) % max 1 (chainBits s.tap.chain) ∧
        (Mem.wf (fun _ => 0) s.tap.turned = true → ∀ c, c ≠ s.tap.chain →
          Mem.read (fun _ => 0) t.tap.turned c = Mem.read (fun _ => 0) s.tap.turned c) ∧
        (10 ≤ s.tap.chain → n ≤ 64 → 0 < n → t.answer = [0])) ∧
      (∀ found : Ecc, ∃ x : W64, exec (.memRead [found]) s = .next { s with tap := { s.tap with ir := 0x84 }, answer := [x] } ∧
        (s.tap.addr.toNat % 8 ≠ 0 ∨ 0x0504_0000 ≤ s.tap.addr.toNat ∨ s.tap.addr.toNat < 0x0020_0000 → x = 0x0800_0000_0000_0000) ∧
        (∀ w < 4194304, s.tap.addr.toNat = 0x0100_0000 + 8 * w → x.extractLsb' 0 48 = sramR s w ∧
          bits x 63 56 = (match found with | .clean => 0 | .corrected => 1 | .uncorrectable => 2) + (if sramA w ∈ s.poisoned then 4 else 0)) ∧
        (∀ w, 4 ≤ w → w < 524288 → s.tap.addr.toNat = 0x0400_0000 + 8 * w → x = journalRead s w))) ∧
    exec .idcode s = .next { s with tap := { s.tap with ir := 1 }, answer := [0x1489_6F2F] } ∧
    exec .testLogicReset s = .next { s with tap := { s.tap with ir := 1 } } ∧
    (∀ bs : List Bool, bs.length ≤ 64 → bs ≠ [] → exec (.bypass 0xFF bs) s = .next { s with
      tap := { s.tap with ir := 0xFF }
      answer := [BitVec.ofNat 64 ((bs.dropLast.foldr (fun b a => 2 * a + b.toNat) 0) * 2)] }) ∧
    (∀ cells : List Bool,
      (∃ t, exec (.extest cells) s = .next t ∧ kept t ∧ t.tap = { s.tap with ir := 0x00, boundary := cells }) ∧
      (∃ t, exec (.samplePreload cells) s = .next t ∧ kept t ∧ t.tap = { s.tap with ir := 0x02, boundary := cells }))
end

