-- ==== Sys2Proof/Laws/Store.lean ====
section
/-! SUPPORT. What reading and writing a sparse store do, and that every operation keeps its canonical form. -/

namespace Sys2Proof.Mem

variable {α : Type}

/-! ### Reading after writing -/

theorem read_erase_same (d : Nat → α) (m : Mem α) (a : Nat) : Mem.read d (Mem.erase m a) a = d a := by
  induction m with
  | nil => rfl
  | cons e m ih =>
    obtain ⟨k, v⟩ := e
    simp only [Mem.erase]
    split
    · next h => simp [Mem.read, h]
    · split
      · exact ih
      · next h1 h2 => simp [Mem.read, h1, h2, ih]

theorem read_insert_same (d : Nat → α) (m : Mem α) (a : Nat) (v : α) : Mem.read d (Mem.insert m a v) a = v := by
  induction m with
  | nil => simp [Mem.insert, Mem.read]
  | cons e m ih =>
    obtain ⟨k, w⟩ := e
    simp only [Mem.insert]
    split
    · simp [Mem.read]
    · split
      · simp [Mem.read]
      · next h1 h2 => simp [Mem.read, h1, h2, ih]

theorem read_insert_other (d : Nat → α) (m : Mem α) (a b : Nat) (v : α) (h : b ≠ a) :
    Mem.read d (Mem.insert m a v) b = Mem.read d m b := by
  induction m with
  | nil => simp only [Mem.insert, Mem.read]; split <;> simp_all
  | cons e m ih =>
    obtain ⟨k, w⟩ := e
    simp only [Mem.insert]
    split
    · next ha =>
      simp only [Mem.read]
      split
      · next hb => simp [show b < k by omega]
      · simp
    · split
      · next ha hk => subst hk; simp [Mem.read, h]
      · simp only [Mem.read, ih]

/-- A key that has been written holds the value. -/
@[simp] theorem read_write_same [DecidableEq α] (d : Nat → α) (m : Mem α) (a : Nat) (v : α) :
    Mem.read d (Mem.write d m a v) a = v := by
  simp only [Mem.write]
  split
  · next h => rw [read_erase_same, h]
  · exact read_insert_same d m a v

/-! ### The canonical form -/

theorem wfFrom_mono [DecidableEq α] (d : Nat → α) (m : Mem α) (lo lo' : Nat) (h : lo' ≤ lo)
    (hw : Mem.wfFrom d lo m = true) : Mem.wfFrom d lo' m = true := by
  cases m with
  | nil => rfl
  | cons e m =>
    obtain ⟨k, v⟩ := e
    simp only [Mem.wfFrom, Bool.and_eq_true, decide_eq_true_eq] at hw ⊢
    exact ⟨⟨by omega, hw.1.2⟩, hw.2⟩

/-- A key below every listed one holds its default. -/
theorem read_below [DecidableEq α] (d : Nat → α) (m : Mem α) (lo a : Nat) (h : a < lo)
    (hw : Mem.wfFrom d lo m = true) : Mem.read d m a = d a := by
  cases m with
  | nil => rfl
  | cons e m =>
    obtain ⟨k, v⟩ := e
    simp only [Mem.wfFrom, Bool.and_eq_true, decide_eq_true_eq] at hw
    simp [Mem.read, show a < k by omega]

theorem read_erase_other [DecidableEq α] (d : Nat → α) (m : Mem α) (lo a b : Nat) (h : b ≠ a)
    (hw : Mem.wfFrom d lo m = true) : Mem.read d (Mem.erase m a) b = Mem.read d m b := by
  induction m generalizing lo with
  | nil => rfl
  | cons e m ih =>
    obtain ⟨k, w⟩ := e
    simp only [Mem.wfFrom, Bool.and_eq_true, decide_eq_true_eq] at hw
    simp only [Mem.erase]
    split
    · rfl
    · split
      · next ha hk =>
        subst hk
        rw [ih _ hw.2]
        simp only [Mem.read, h, if_false]
        split
        · next hb => exact read_below d m _ b (by omega) hw.2
        · rfl
      · simp only [Mem.read, ih _ hw.2]

/-- Writing one key leaves every other as it was. -/
theorem read_write_other [DecidableEq α] (d : Nat → α) (m : Mem α) (a b : Nat) (v : α) (h : b ≠ a)
    (hw : Mem.wf d m = true) : Mem.read d (Mem.write d m a v) b = Mem.read d m b := by
  simp only [Mem.write]
  split
  · exact read_erase_other d m 0 a b h hw
  · exact read_insert_other d m a b v h

theorem wfFrom_insert [DecidableEq α] (d : Nat → α) (m : Mem α) (lo a : Nat) (v : α) (hl : lo ≤ a) (hv : v ≠ d a)
    (hw : Mem.wfFrom d lo m = true) : Mem.wfFrom d lo (Mem.insert m a v) = true := by
  induction m generalizing lo with
  | nil => simp [Mem.insert, Mem.wfFrom, hl, hv]
  | cons e m ih =>
    obtain ⟨k, w⟩ := e
    simp only [Mem.wfFrom, Bool.and_eq_true, decide_eq_true_eq] at hw
    simp only [Mem.insert]
    split
    · next ha => simp only [Mem.wfFrom, Bool.and_eq_true, decide_eq_true_eq]; exact ⟨⟨hl, hv⟩, ⟨⟨by omega, hw.1.2⟩, hw.2⟩⟩
    · split
      · next ha hk =>
        subst hk
        simp only [Mem.wfFrom, Bool.and_eq_true, decide_eq_true_eq]
        exact ⟨⟨hl, hv⟩, hw.2⟩
      · simp only [Mem.wfFrom, Bool.and_eq_true, decide_eq_true_eq]
        exact ⟨hw.1, ih (k + 1) (by omega) hw.2⟩

theorem wfFrom_erase [DecidableEq α] (d : Nat → α) (m : Mem α) (lo a : Nat)
    (hw : Mem.wfFrom d lo m = true) : Mem.wfFrom d lo (Mem.erase m a) = true := by
  induction m generalizing lo with
  | nil => rfl
  | cons e m ih =>
    obtain ⟨k, w⟩ := e
    have hw' := hw
    simp only [Mem.wfFrom, Bool.and_eq_true, decide_eq_true_eq] at hw
    simp only [Mem.erase]
    split
    · exact hw'
    · split
      · exact wfFrom_mono d _ (k + 1) lo (by omega) (ih (k + 1) hw.2)
      · simp only [Mem.wfFrom, Bool.and_eq_true, decide_eq_true_eq]
        exact ⟨hw.1, ih (k + 1) hw.2⟩

/-- An empty store is in canonical form. -/
@[simp] theorem wf_nil [DecidableEq α] (d : Nat → α) : Mem.wf d [] = true := rfl

/-- A write keeps the canonical form. -/
theorem wf_write [DecidableEq α] (d : Nat → α) (m : Mem α) (a : Nat) (v : α) (hw : Mem.wf d m = true) :
    Mem.wf d (Mem.write d m a v) = true := by
  simp only [Mem.write]
  split
  · exact wfFrom_erase d m 0 a hw
  · next h => exact wfFrom_insert d m 0 a v (Nat.zero_le a) h hw

/-- Writing consecutive keys keeps the canonical form. -/
theorem wf_writeList [DecidableEq α] (d : Nat → α) (m : Mem α) (a : Nat) (vs : List α) (hw : Mem.wf d m = true) :
    Mem.wf d (Mem.writeList d m a vs) = true := by
  induction vs generalizing m a with
  | nil => exact hw
  | cons v vs ih => exact ih _ _ (wf_write d m a v hw)

/-- Leaving out keys keeps the canonical form. -/
theorem wfFrom_filter [DecidableEq α] (d : Nat → α) (p : Nat × α → Bool) (m : Mem α) (lo : Nat)
    (hw : Mem.wfFrom d lo m = true) : Mem.wfFrom d lo (m.filter p) = true := by
  induction m generalizing lo with
  | nil => rfl
  | cons e m ih =>
    obtain ⟨k, w⟩ := e
    simp only [Mem.wfFrom, Bool.and_eq_true, decide_eq_true_eq] at hw
    simp only [List.filter_cons]
    split
    · simp only [Mem.wfFrom, Bool.and_eq_true, decide_eq_true_eq]; exact ⟨hw.1, ih (k + 1) hw.2⟩
    · exact wfFrom_mono d _ (k + 1) lo (by omega) (ih (k + 1) hw.2)

/-! ### Writing a key twice -/

theorem insert_insert (m : Mem α) (a : Nat) (v w : α) : Mem.insert (Mem.insert m a v) a w = Mem.insert m a w := by
  induction m with
  | nil => simp [Mem.insert]
  | cons e m ih =>
    obtain ⟨k, x⟩ := e
    simp only [Mem.insert]
    split
    · simp [Mem.insert]
    · split
      · simp [Mem.insert]
      · next h1 h2 => simp [Mem.insert, h1, h2, ih]

theorem erase_insert (m : Mem α) (a : Nat) (v : α) : Mem.erase (Mem.insert m a v) a = Mem.erase m a := by
  induction m with
  | nil => simp [Mem.insert, Mem.erase]
  | cons e m ih =>
    obtain ⟨k, x⟩ := e
    simp only [Mem.insert]
    split
    · next h => simp [Mem.erase, h]
    · split
      · next h1 h2 => simp [Mem.erase, h2]
      · next h1 h2 => simp [Mem.erase, h1, h2, ih]

/-- The last write of a key stands, where the first one lists it. -/
theorem write_write_of_ne [DecidableEq α] (d : Nat → α) (m : Mem α) (a : Nat) (v w : α) (h : v ≠ d a) :
    Mem.write d (Mem.write d m a v) a w = Mem.write d m a w := by
  simp only [Mem.write, h, if_false]
  split
  · exact erase_insert m a v
  · exact insert_insert m a v w

theorem erase_erase (m : Mem α) (a : Nat) : Mem.erase (Mem.erase m a) a = Mem.erase m a := by
  induction m with
  | nil => rfl
  | cons e m ih =>
    obtain ⟨k, x⟩ := e
    simp only [Mem.erase]
    split
    · next h => simp [Mem.erase, h]
    · split
      · exact ih
      · next h h' => simp [Mem.erase, h, h', ih]

/-- Writing the same value twice is writing it once. -/
theorem write_write_self [DecidableEq α] (d : Nat → α) (m : Mem α) (a : Nat) (v : α) :
    Mem.write d (Mem.write d m a v) a v = Mem.write d m a v := by
  simp only [Mem.write]
  split
  · exact erase_erase m a
  · exact insert_insert m a v v

end Sys2Proof.Mem
end

