-- ==== Sys2Proof/Laws/Engine.lean ====
section
/-! SUPPORT. What executing one instruction comes to: the processor's own record under the operations, and one lemma
that runs a row of the instruction tables whose checks pass. -/

namespace Sys2Proof.Machine
open Sys2Proof

/-! ### The processor's record -/

@[simp] theorem getEngine_setEngine (e : Nat) (x : Engine) (s : State) : getEngine (setEngine e x s) e = x := by
  simp [getEngine, setEngine]

@[simp] theorem procOf_setProc (p : Nat) (x : Proc) (s : State) : procOf (setProc p x s) p = x := by
  unfold procOf setProc
  by_cases h : p = rangerP <;> simp [h]

@[simp] theorem procOf_touchLine (p a : Nat) (s : State) : procOf (touchLine p a s) p = procOf s p := by
  simp only [touchLine]
  split
  · next h => simp [procOf, h.1]
  · rfl

theorem touchLine_engine (p a : Nat) (s : State) (h : p ≠ rangerP) : touchLine p a s = s := by
  simp [touchLine, h]

@[simp] theorem procOf_charge (p n : Nat) (s : State) :
    procOf (charge p n s) p = { procOf s p with cycles := if p = rangerP then (procOf s p).cycles else (procOf s p).cycles + n } := by
  unfold charge
  by_cases h : p = rangerP
  · simp [h]
  · simp [h]

/-- What the processor's record is when an instruction's own effect begins. -/
@[simp] theorem procOf_entered (p next n : Nat) (s : State) :
    procOf (entered p next n s) p =
      { procOf s p with pc := next, cycles := if p = rangerP then (procOf s p).cycles else (procOf s p).cycles + n } := by
  simp [entered]

@[simp] theorem procOf_leaves (p k : Nat) (out : List W48) (s : State) :
    procOf (leaves p k out s) p = { procOf s p with stack := out.reverse ++ (procOf s p).stack.drop k } := by
  simp [leaves]

/-! ### Fields that an instruction's entry does not touch -/

theorem entered_only (p next n : Nat) (s : State) :
    entered p next n s = { s with engines := (entered p next n s).engines, mgt := (entered p next n s).mgt } := by
  by_cases h : p = rangerP
  · subst h
    simp only [entered, charge, touchLine, setProc, procOf, if_true]
    split <;> split <;> rfl
  · simp [entered, charge, touchLine, setProc, h, setEngine]

/-! ### Writing the record twice -/

theorem setEngine_self (e : Nat) (x : Engine) (s : State) : setEngine e x (setEngine e x s) = setEngine e x s := by
  simp [setEngine, Mem.write_write_self]

theorem setProc_self (p : Nat) (x : Proc) (s : State) : setProc p x (setProc p x s) = setProc p x s := by
  unfold setProc
  by_cases h : p = rangerP
  · simp [h]
  · simp only [h, if_false, getEngine_setEngine]
    exact setEngine_self _ _ _

/-- An instruction without effect leaves the state its entry made. -/
theorem setProc_entered (p n c : Nat) (s : State) :
    setProc p (procOf (entered p n c s) p) (entered p n c s) = entered p n c s := by
  unfold entered
  simp only [procOf_setProc]
  exact setProc_self _ _ _

theorem leaves_none (p n c : Nat) (s : State) : leaves p 0 [] (entered p n c s) = entered p n c s := by
  simp only [leaves, List.reverse_nil, List.nil_append, List.drop_zero]
  exact setProc_entered p n c s

/-! ### One row -/

/-- Orders 5 and 6 of R310 raise nothing. -/
theorem checks_none {op : EOp} {x : Ctx} {s : State} (hb : Affords x.p (op.cycles x (procOf s x.p) s) s)
    (hu : op.pops x (procOf s x.p) ≤ (procOf s x.p).stack.length)
    (ho : (procOf s x.p).stack.length - op.pops x (procOf s x.p) + op.pushes x (procOf s x.p) ≤ 32)
    (hr : op.calls = true → (procOf s x.p).rets.length < 16) : checks op x s = none := by
  have h1 : ¬(x.p ≠ rangerP ∧ (procOf s x.p).budget < (procOf s x.p).cycles + op.cycles x (procOf s x.p) s) := by
    rintro ⟨h, h'⟩
    rcases hb with hb | hb
    · exact h hb
    · omega
  have h4 : ¬(op.calls = true ∧ 16 ≤ (procOf s x.p).rets.length) := by
    rintro ⟨h, h'⟩
    have := hr h
    omega
  simp only [checks, h1, if_false, h4, show ¬ (procOf s x.p).stack.length < op.pops x (procOf s x.p) by omega,
    show ¬ 32 < (procOf s x.p).stack.length - op.pops x (procOf s x.p) + op.pushes x (procOf s x.p) by omega]

/-- A row at the program counter whose checks pass and whose effect goes on. -/
theorem runRow_go {ops : List EOp} {op : EOp} {p code nx : Nat} {v : W48} {s t : State} (h : At p code s)
    (his : op.is p code s = true) (hrep : op.repeats = none)
    (hop : operandOf op p (procOf s p).pc s = .ok (v, nx))
    (hc : checks op { p := p, addr := (procOf s p).pc, k := code - op.lo, opnd := v, next := nx } s = none)
    (hrun : op.run { p := p, addr := (procOf s p).pc, k := code - op.lo, opnd := v, next := nx }
      (entered p nx (op.cycles { p := p, addr := (procOf s p).pc, k := code - op.lo, opnd := v, next := nx } (procOf s p) s) s)
        = .go t) :
    runRow ops op p s = .next t := by
  obtain ⟨hs, hp, hf⟩ := h
  unfold entered at hrun
  simp only [runRow, live, hs, Bool.false_eq_true, if_false, hp, if_true, hf, his, runOp, hop, hrep, runOne, hc]
  rw [hrun]
  rfl

/-- The same, for an effect that ends the invocation. -/
theorem runRow_stop {ops : List EOp} {op : EOp} {p code nx : Nat} {v : W48} {s t : State} (h : At p code s)
    (his : op.is p code s = true) (hrep : op.repeats = none)
    (hop : operandOf op p (procOf s p).pc s = .ok (v, nx))
    (hc : checks op { p := p, addr := (procOf s p).pc, k := code - op.lo, opnd := v, next := nx } s = none)
    (hrun : op.run { p := p, addr := (procOf s p).pc, k := code - op.lo, opnd := v, next := nx }
      (entered p nx (op.cycles { p := p, addr := (procOf s p).pc, k := code - op.lo, opnd := v, next := nx } (procOf s p) s) s)
        = .stop t) :
    runRow ops op p s = .next (endInvocation p t) := by
  obtain ⟨hs, hp, hf⟩ := h
  unfold entered at hrun
  simp only [runRow, live, hs, Bool.false_eq_true, if_false, hp, if_true, hf, his, runOp, hop, hrep, runOne, hc]
  rw [hrun]
  rfl

/-- The same, for an effect that faults: the program counter and the charge are as before the instruction. -/
theorem runRow_fault {ops : List EOp} {op : EOp} {p code nx c a : Nat} {v : W48} {s t : State} (h : At p code s)
    (his : op.is p code s = true) (hrep : op.repeats = none)
    (hop : operandOf op p (procOf s p).pc s = .ok (v, nx))
    (hc : checks op { p := p, addr := (procOf s p).pc, k := code - op.lo, opnd := v, next := nx } s = none)
    (hrun : op.run { p := p, addr := (procOf s p).pc, k := code - op.lo, opnd := v, next := nx }
      (entered p nx (op.cycles { p := p, addr := (procOf s p).pc, k := code - op.lo, opnd := v, next := nx } (procOf s p) s) s)
        = .fault c a t) :
    runRow ops op p s =
      .next (procFault p c a (setProc p { procOf t p with pc := (procOf s p).pc, cycles := (procOf s p).cycles } t)) := by
  obtain ⟨hs, hp, hf⟩ := h
  unfold entered at hrun
  simp only [runRow, live, hs, Bool.false_eq_true, if_false, hp, if_true, hf, his, runOp, hop, hrep, runOne, hc]
  rw [hrun]
  rfl

/-- A row whose checks of the budget or of the stacks fail. -/
theorem runRow_check {ops : List EOp} {op : EOp} {p code nx c : Nat} {v : W48} {s : State} (h : At p code s)
    (his : op.is p code s = true) (hrep : op.repeats = none)
    (hop : operandOf op p (procOf s p).pc s = .ok (v, nx))
    (hc : checks op { p := p, addr := (procOf s p).pc, k := code - op.lo, opnd := v, next := nx } s = some c) :
    runRow ops op p s = .next (procFault p c (procOf s p).pc s) := by
  obtain ⟨hs, hp, hf⟩ := h
  simp only [runRow, live, hs, Bool.false_eq_true, if_false, hp, if_true, hf, his, runOp, hop, hrep, runOne, hc]
  rfl

/-- The slot after a plain instruction. -/
theorem operandOf_none {op : EOp} {p a : Nat} {s : State} (hl : op.literal = false) (ho : op.operand = 0) :
    operandOf op p a s = .ok (0, a + 1) := by
  simp [operandOf, hl, ho]

/-- The operand slot of an instruction that has one. -/
theorem operandOf_slot {op : EOp} {p a v : Nat} {s : State} (hl : op.literal = false) (ho : op.operand ≠ 0)
    (hf : fetchSlot s p (a + 1) = .got v) (hv : v < 2 ^ op.operand) : operandOf op p a s = .ok (BitVec.ofNat 48 v, a + 2) := by
  simp [operandOf, hl, ho, hf, show ¬ 2 ^ op.operand ≤ v by omega]

/-- A row that only replaces the top items of the operand stack. -/
theorem runRow_pure {code ins outs cy p : Nat} {f : List W48 → List W48} {s : State} (h : At p code s) (hb : Affords p cy s)
    (hu : ins ≤ (procOf s p).stack.length) (ho : (procOf s p).stack.length - ins + outs ≤ 32) :
    runRow [] (pureOp code ins outs cy f) p s =
      .next (leaves p ins (f ((procOf s p).stack.take ins).reverse) (entered p ((procOf s p).pc + 1) cy s)) := by
  refine runRow_go (nx := (procOf s p).pc + 1) (v := 0) h (by simp [EOp.is, pureOp]) rfl (by simp [operandOf, pureOp]) ?_ ?_
  · apply checks_none <;> simp [pureOp] <;> first | assumption | omega
  · simp [pureOp, stackRun, leaves]

end Sys2Proof.Machine
end

