-- ==== Sys2Proof/Laws/State.lean ====
section
/-! SUPPORT. What each update of the state does to each of its fields, so that no proof unfolds an update. -/

namespace Sys2Proof.Machine
open Sys2Proof

variable (s : State)

/-! ### setTb -/

@[simp] theorem setTb_pending (b : TimeBase) : (setTb b s).pending = s.pending := rfl
@[simp] theorem setTb_fresh (b : TimeBase) : (setTb b s).fresh = s.fresh := rfl
@[simp] theorem setTb_tb (b : TimeBase) : (setTb b s).tb = b := rfl
@[simp] theorem setTb_cfg (b : TimeBase) : (setTb b s).cfg = s.cfg := rfl
@[simp] theorem setTb_cnt (b : TimeBase) : (setTb b s).cnt = s.cnt := rfl
@[simp] theorem setTb_flags (b : TimeBase) : (setTb b s).flags = s.flags := rfl
@[simp] theorem setTb_tab (b : TimeBase) : (setTb b s).tab = s.tab := rfl
@[simp] theorem setTb_poisoned (b : TimeBase) : (setTb b s).poisoned = s.poisoned := rfl
@[simp] theorem setTb_holds (b : TimeBase) : (setTb b s).holds = s.holds := rfl
@[simp] theorem setTb_timers (b : TimeBase) : (setTb b s).timers = s.timers := rfl
@[simp] theorem setTb_chans (b : TimeBase) : (setTb b s).chans = s.chans := rfl
@[simp] theorem setTb_streams (b : TimeBase) : (setTb b s).streams = s.streams := rfl
@[simp] theorem setTb_rings (b : TimeBase) : (setTb b s).rings = s.rings := rfl
@[simp] theorem setTb_stagerTurn (b : TimeBase) : (setTb b s).stagerTurn = s.stagerTurn := rfl
@[simp] theorem setTb_sram (b : TimeBase) : (setTb b s).sram = s.sram := rfl
@[simp] theorem setTb_sramLost (b : TimeBase) : (setTb b s).sramLost = s.sramLost := rfl
@[simp] theorem setTb_hostMem (b : TimeBase) : (setTb b s).hostMem = s.hostMem := rfl
@[simp] theorem setTb_fes (b : TimeBase) : (setTb b s).fes = s.fes := rfl
@[simp] theorem setTb_stages (b : TimeBase) : (setTb b s).stages = s.stages := rfl
@[simp] theorem setTb_slots (b : TimeBase) : (setTb b s).slots = s.slots := rfl
@[simp] theorem setTb_spus (b : TimeBase) : (setTb b s).spus = s.spus := rfl
@[simp] theorem setTb_engines (b : TimeBase) : (setTb b s).engines = s.engines := rfl
@[simp] theorem setTb_icu (b : TimeBase) : (setTb b s).icu = s.icu := rfl
@[simp] theorem setTb_icuViews (b : TimeBase) : (setTb b s).icuViews = s.icuViews := rfl
@[simp] theorem setTb_journalQ (b : TimeBase) : (setTb b s).journalQ = s.journalQ := rfl
@[simp] theorem setTb_cvps (b : TimeBase) : (setTb b s).cvps = s.cvps := rfl
@[simp] theorem setTb_sbps (b : TimeBase) : (setTb b s).sbps = s.sbps := rfl
@[simp] theorem setTb_polls (b : TimeBase) : (setTb b s).polls = s.polls := rfl
@[simp] theorem setTb_evps (b : TimeBase) : (setTb b s).evps = s.evps := rfl
@[simp] theorem setTb_tchs (b : TimeBase) : (setTb b s).tchs = s.tchs := rfl
@[simp] theorem setTb_tchScan (b : TimeBase) : (setTb b s).tchScan = s.tchScan := rfl
@[simp] theorem setTb_tchStamp (b : TimeBase) : (setTb b s).tchStamp = s.tchStamp := rfl
@[simp] theorem setTb_evos (b : TimeBase) : (setTb b s).evos = s.evos := rfl
@[simp] theorem setTb_trigLines (b : TimeBase) : (setTb b s).trigLines = s.trigLines := rfl
@[simp] theorem setTb_power (b : TimeBase) : (setTb b s).power = s.power := rfl
@[simp] theorem setTb_adm (b : TimeBase) : (setTb b s).adm = s.adm := rfl
@[simp] theorem setTb_mgt (b : TimeBase) : (setTb b s).mgt = s.mgt := rfl
@[simp] theorem setTb_config (b : TimeBase) : (setTb b s).config = s.config := rfl
@[simp] theorem setTb_journal (b : TimeBase) : (setTb b s).journal = s.journal := rfl
@[simp] theorem setTb_flash (b : TimeBase) : (setTb b s).flash = s.flash := rfl
@[simp] theorem setTb_flashId (b : TimeBase) : (setTb b s).flashId = s.flashId := rfl
@[simp] theorem setTb_straps (b : TimeBase) : (setTb b s).straps = s.straps := rfl
@[simp] theorem setTb_hl (b : TimeBase) : (setTb b s).hl = s.hl := rfl
@[simp] theorem setTb_bgt (b : TimeBase) : (setTb b s).bgt = s.bgt := rfl
@[simp] theorem setTb_hws (b : TimeBase) : (setTb b s).hws = s.hws := rfl
@[simp] theorem setTb_phase (b : TimeBase) : (setTb b s).phase = s.phase := rfl
@[simp] theorem setTb_frz (b : TimeBase) : (setTb b s).frz = s.frz := rfl
@[simp] theorem setTb_tap (b : TimeBase) : (setTb b s).tap = s.tap := rfl
@[simp] theorem setTb_answer (b : TimeBase) : (setTb b s).answer = s.answer := rfl

/-! ### setCfg -/

@[simp] theorem setCfg_pending (a : Nat) (v : W32) : (setCfg a v s).pending = s.pending := rfl
@[simp] theorem setCfg_fresh (a : Nat) (v : W32) : (setCfg a v s).fresh = s.fresh := rfl
@[simp] theorem setCfg_tb (a : Nat) (v : W32) : (setCfg a v s).tb = s.tb := rfl
@[simp] theorem setCfg_cfg (a : Nat) (v : W32) : (setCfg a v s).cfg = Mem.write cfgReset s.cfg a v := rfl
@[simp] theorem setCfg_cnt (a : Nat) (v : W32) : (setCfg a v s).cnt = s.cnt := rfl
@[simp] theorem setCfg_flags (a : Nat) (v : W32) : (setCfg a v s).flags = s.flags := rfl
@[simp] theorem setCfg_tab (a : Nat) (v : W32) : (setCfg a v s).tab = s.tab := rfl
@[simp] theorem setCfg_poisoned (a : Nat) (v : W32) : (setCfg a v s).poisoned = s.poisoned := rfl
@[simp] theorem setCfg_holds (a : Nat) (v : W32) : (setCfg a v s).holds = s.holds := rfl
@[simp] theorem setCfg_timers (a : Nat) (v : W32) : (setCfg a v s).timers = s.timers := rfl
@[simp] theorem setCfg_chans (a : Nat) (v : W32) : (setCfg a v s).chans = s.chans := rfl
@[simp] theorem setCfg_streams (a : Nat) (v : W32) : (setCfg a v s).streams = s.streams := rfl
@[simp] theorem setCfg_rings (a : Nat) (v : W32) : (setCfg a v s).rings = s.rings := rfl
@[simp] theorem setCfg_stagerTurn (a : Nat) (v : W32) : (setCfg a v s).stagerTurn = s.stagerTurn := rfl
@[simp] theorem setCfg_sram (a : Nat) (v : W32) : (setCfg a v s).sram = s.sram := rfl
@[simp] theorem setCfg_sramLost (a : Nat) (v : W32) : (setCfg a v s).sramLost = s.sramLost := rfl
@[simp] theorem setCfg_hostMem (a : Nat) (v : W32) : (setCfg a v s).hostMem = s.hostMem := rfl
@[simp] theorem setCfg_fes (a : Nat) (v : W32) : (setCfg a v s).fes = s.fes := rfl
@[simp] theorem setCfg_stages (a : Nat) (v : W32) : (setCfg a v s).stages = s.stages := rfl
@[simp] theorem setCfg_slots (a : Nat) (v : W32) : (setCfg a v s).slots = s.slots := rfl
@[simp] theorem setCfg_spus (a : Nat) (v : W32) : (setCfg a v s).spus = s.spus := rfl
@[simp] theorem setCfg_engines (a : Nat) (v : W32) : (setCfg a v s).engines = s.engines := rfl
@[simp] theorem setCfg_icu (a : Nat) (v : W32) : (setCfg a v s).icu = s.icu := rfl
@[simp] theorem setCfg_icuViews (a : Nat) (v : W32) : (setCfg a v s).icuViews = s.icuViews := rfl
@[simp] theorem setCfg_journalQ (a : Nat) (v : W32) : (setCfg a v s).journalQ = s.journalQ := rfl
@[simp] theorem setCfg_cvps (a : Nat) (v : W32) : (setCfg a v s).cvps = s.cvps := rfl
@[simp] theorem setCfg_sbps (a : Nat) (v : W32) : (setCfg a v s).sbps = s.sbps := rfl
@[simp] theorem setCfg_polls (a : Nat) (v : W32) : (setCfg a v s).polls = s.polls := rfl
@[simp] theorem setCfg_evps (a : Nat) (v : W32) : (setCfg a v s).evps = s.evps := rfl
@[simp] theorem setCfg_tchs (a : Nat) (v : W32) : (setCfg a v s).tchs = s.tchs := rfl
@[simp] theorem setCfg_tchScan (a : Nat) (v : W32) : (setCfg a v s).tchScan = s.tchScan := rfl
@[simp] theorem setCfg_tchStamp (a : Nat) (v : W32) : (setCfg a v s).tchStamp = s.tchStamp := rfl
@[simp] theorem setCfg_evos (a : Nat) (v : W32) : (setCfg a v s).evos = s.evos := rfl
@[simp] theorem setCfg_trigLines (a : Nat) (v : W32) : (setCfg a v s).trigLines = s.trigLines := rfl
@[simp] theorem setCfg_power (a : Nat) (v : W32) : (setCfg a v s).power = s.power := rfl
@[simp] theorem setCfg_adm (a : Nat) (v : W32) : (setCfg a v s).adm = s.adm := rfl
@[simp] theorem setCfg_mgt (a : Nat) (v : W32) : (setCfg a v s).mgt = s.mgt := rfl
@[simp] theorem setCfg_config (a : Nat) (v : W32) : (setCfg a v s).config = s.config := rfl
@[simp] theorem setCfg_journal (a : Nat) (v : W32) : (setCfg a v s).journal = s.journal := rfl
@[simp] theorem setCfg_flash (a : Nat) (v : W32) : (setCfg a v s).flash = s.flash := rfl
@[simp] theorem setCfg_flashId (a : Nat) (v : W32) : (setCfg a v s).flashId = s.flashId := rfl
@[simp] theorem setCfg_straps (a : Nat) (v : W32) : (setCfg a v s).straps = s.straps := rfl
@[simp] theorem setCfg_hl (a : Nat) (v : W32) : (setCfg a v s).hl = s.hl := rfl
@[simp] theorem setCfg_bgt (a : Nat) (v : W32) : (setCfg a v s).bgt = s.bgt := rfl
@[simp] theorem setCfg_hws (a : Nat) (v : W32) : (setCfg a v s).hws = s.hws := rfl
@[simp] theorem setCfg_phase (a : Nat) (v : W32) : (setCfg a v s).phase = s.phase := rfl
@[simp] theorem setCfg_frz (a : Nat) (v : W32) : (setCfg a v s).frz = s.frz := rfl
@[simp] theorem setCfg_tap (a : Nat) (v : W32) : (setCfg a v s).tap = s.tap := rfl
@[simp] theorem setCfg_answer (a : Nat) (v : W32) : (setCfg a v s).answer = s.answer := rfl

/-! ### setTab -/

@[simp] theorem setTab_pending (a : Nat) (v : W64) : (setTab a v s).pending = s.pending := rfl
@[simp] theorem setTab_fresh (a : Nat) (v : W64) : (setTab a v s).fresh = s.fresh := rfl
@[simp] theorem setTab_tb (a : Nat) (v : W64) : (setTab a v s).tb = s.tb := rfl
@[simp] theorem setTab_cfg (a : Nat) (v : W64) : (setTab a v s).cfg = s.cfg := rfl
@[simp] theorem setTab_cnt (a : Nat) (v : W64) : (setTab a v s).cnt = s.cnt := rfl
@[simp] theorem setTab_flags (a : Nat) (v : W64) : (setTab a v s).flags = s.flags := rfl
@[simp] theorem setTab_tab (a : Nat) (v : W64) : (setTab a v s).tab = Mem.write tabReset s.tab a v := rfl
@[simp] theorem setTab_poisoned (a : Nat) (v : W64) : (setTab a v s).poisoned = s.poisoned := rfl
@[simp] theorem setTab_holds (a : Nat) (v : W64) : (setTab a v s).holds = s.holds := rfl
@[simp] theorem setTab_timers (a : Nat) (v : W64) : (setTab a v s).timers = s.timers := rfl
@[simp] theorem setTab_chans (a : Nat) (v : W64) : (setTab a v s).chans = s.chans := rfl
@[simp] theorem setTab_streams (a : Nat) (v : W64) : (setTab a v s).streams = s.streams := rfl
@[simp] theorem setTab_rings (a : Nat) (v : W64) : (setTab a v s).rings = s.rings := rfl
@[simp] theorem setTab_stagerTurn (a : Nat) (v : W64) : (setTab a v s).stagerTurn = s.stagerTurn := rfl
@[simp] theorem setTab_sram (a : Nat) (v : W64) : (setTab a v s).sram = s.sram := rfl
@[simp] theorem setTab_sramLost (a : Nat) (v : W64) : (setTab a v s).sramLost = s.sramLost := rfl
@[simp] theorem setTab_hostMem (a : Nat) (v : W64) : (setTab a v s).hostMem = s.hostMem := rfl
@[simp] theorem setTab_fes (a : Nat) (v : W64) : (setTab a v s).fes = s.fes := rfl
@[simp] theorem setTab_stages (a : Nat) (v : W64) : (setTab a v s).stages = s.stages := rfl
@[simp] theorem setTab_slots (a : Nat) (v : W64) : (setTab a v s).slots = s.slots := rfl
@[simp] theorem setTab_spus (a : Nat) (v : W64) : (setTab a v s).spus = s.spus := rfl
@[simp] theorem setTab_engines (a : Nat) (v : W64) : (setTab a v s).engines = s.engines := rfl
@[simp] theorem setTab_icu (a : Nat) (v : W64) : (setTab a v s).icu = s.icu := rfl
@[simp] theorem setTab_icuViews (a : Nat) (v : W64) : (setTab a v s).icuViews = s.icuViews := rfl
@[simp] theorem setTab_journalQ (a : Nat) (v : W64) : (setTab a v s).journalQ = s.journalQ := rfl
@[simp] theorem setTab_cvps (a : Nat) (v : W64) : (setTab a v s).cvps = s.cvps := rfl
@[simp] theorem setTab_sbps (a : Nat) (v : W64) : (setTab a v s).sbps = s.sbps := rfl
@[simp] theorem setTab_polls (a : Nat) (v : W64) : (setTab a v s).polls = s.polls := rfl
@[simp] theorem setTab_evps (a : Nat) (v : W64) : (setTab a v s).evps = s.evps := rfl
@[simp] theorem setTab_tchs (a : Nat) (v : W64) : (setTab a v s).tchs = s.tchs := rfl
@[simp] theorem setTab_tchScan (a : Nat) (v : W64) : (setTab a v s).tchScan = s.tchScan := rfl
@[simp] theorem setTab_tchStamp (a : Nat) (v : W64) : (setTab a v s).tchStamp = s.tchStamp := rfl
@[simp] theorem setTab_evos (a : Nat) (v : W64) : (setTab a v s).evos = s.evos := rfl
@[simp] theorem setTab_trigLines (a : Nat) (v : W64) : (setTab a v s).trigLines = s.trigLines := rfl
@[simp] theorem setTab_power (a : Nat) (v : W64) : (setTab a v s).power = s.power := rfl
@[simp] theorem setTab_adm (a : Nat) (v : W64) : (setTab a v s).adm = s.adm := rfl
@[simp] theorem setTab_mgt (a : Nat) (v : W64) : (setTab a v s).mgt = s.mgt := rfl
@[simp] theorem setTab_config (a : Nat) (v : W64) : (setTab a v s).config = s.config := rfl
@[simp] theorem setTab_journal (a : Nat) (v : W64) : (setTab a v s).journal = s.journal := rfl
@[simp] theorem setTab_flash (a : Nat) (v : W64) : (setTab a v s).flash = s.flash := rfl
@[simp] theorem setTab_flashId (a : Nat) (v : W64) : (setTab a v s).flashId = s.flashId := rfl
@[simp] theorem setTab_straps (a : Nat) (v : W64) : (setTab a v s).straps = s.straps := rfl
@[simp] theorem setTab_hl (a : Nat) (v : W64) : (setTab a v s).hl = s.hl := rfl
@[simp] theorem setTab_bgt (a : Nat) (v : W64) : (setTab a v s).bgt = s.bgt := rfl
@[simp] theorem setTab_hws (a : Nat) (v : W64) : (setTab a v s).hws = s.hws := rfl
@[simp] theorem setTab_phase (a : Nat) (v : W64) : (setTab a v s).phase = s.phase := rfl
@[simp] theorem setTab_frz (a : Nat) (v : W64) : (setTab a v s).frz = s.frz := rfl
@[simp] theorem setTab_tap (a : Nat) (v : W64) : (setTab a v s).tap = s.tap := rfl
@[simp] theorem setTab_answer (a : Nat) (v : W64) : (setTab a v s).answer = s.answer := rfl

/-! ### setWord -/

@[simp] theorem setWord_pending (a : Nat) (v : W48) : (setWord a v s).pending = s.pending := rfl
@[simp] theorem setWord_fresh (a : Nat) (v : W48) : (setWord a v s).fresh = s.fresh := rfl
@[simp] theorem setWord_tb (a : Nat) (v : W48) : (setWord a v s).tb = s.tb := rfl
@[simp] theorem setWord_cfg (a : Nat) (v : W48) : (setWord a v s).cfg = s.cfg := rfl
@[simp] theorem setWord_cnt (a : Nat) (v : W48) : (setWord a v s).cnt = s.cnt := rfl
@[simp] theorem setWord_flags (a : Nat) (v : W48) : (setWord a v s).flags = s.flags := rfl
@[simp] theorem setWord_tab (a : Nat) (v : W48) : (setWord a v s).tab = Mem.write tabReset s.tab a (v.setWidth 64) := rfl
@[simp] theorem setWord_poisoned (a : Nat) (v : W48) : (setWord a v s).poisoned = s.poisoned := rfl
@[simp] theorem setWord_holds (a : Nat) (v : W48) : (setWord a v s).holds = s.holds := rfl
@[simp] theorem setWord_timers (a : Nat) (v : W48) : (setWord a v s).timers = s.timers := rfl
@[simp] theorem setWord_chans (a : Nat) (v : W48) : (setWord a v s).chans = s.chans := rfl
@[simp] theorem setWord_streams (a : Nat) (v : W48) : (setWord a v s).streams = s.streams := rfl
@[simp] theorem setWord_rings (a : Nat) (v : W48) : (setWord a v s).rings = s.rings := rfl
@[simp] theorem setWord_stagerTurn (a : Nat) (v : W48) : (setWord a v s).stagerTurn = s.stagerTurn := rfl
@[simp] theorem setWord_sram (a : Nat) (v : W48) : (setWord a v s).sram = s.sram := rfl
@[simp] theorem setWord_sramLost (a : Nat) (v : W48) : (setWord a v s).sramLost = s.sramLost := rfl
@[simp] theorem setWord_hostMem (a : Nat) (v : W48) : (setWord a v s).hostMem = s.hostMem := rfl
@[simp] theorem setWord_fes (a : Nat) (v : W48) : (setWord a v s).fes = s.fes := rfl
@[simp] theorem setWord_stages (a : Nat) (v : W48) : (setWord a v s).stages = s.stages := rfl
@[simp] theorem setWord_slots (a : Nat) (v : W48) : (setWord a v s).slots = s.slots := rfl
@[simp] theorem setWord_spus (a : Nat) (v : W48) : (setWord a v s).spus = s.spus := rfl
@[simp] theorem setWord_engines (a : Nat) (v : W48) : (setWord a v s).engines = s.engines := rfl
@[simp] theorem setWord_icu (a : Nat) (v : W48) : (setWord a v s).icu = s.icu := rfl
@[simp] theorem setWord_icuViews (a : Nat) (v : W48) : (setWord a v s).icuViews = s.icuViews := rfl
@[simp] theorem setWord_journalQ (a : Nat) (v : W48) : (setWord a v s).journalQ = s.journalQ := rfl
@[simp] theorem setWord_cvps (a : Nat) (v : W48) : (setWord a v s).cvps = s.cvps := rfl
@[simp] theorem setWord_sbps (a : Nat) (v : W48) : (setWord a v s).sbps = s.sbps := rfl
@[simp] theorem setWord_polls (a : Nat) (v : W48) : (setWord a v s).polls = s.polls := rfl
@[simp] theorem setWord_evps (a : Nat) (v : W48) : (setWord a v s).evps = s.evps := rfl
@[simp] theorem setWord_tchs (a : Nat) (v : W48) : (setWord a v s).tchs = s.tchs := rfl
@[simp] theorem setWord_tchScan (a : Nat) (v : W48) : (setWord a v s).tchScan = s.tchScan := rfl
@[simp] theorem setWord_tchStamp (a : Nat) (v : W48) : (setWord a v s).tchStamp = s.tchStamp := rfl
@[simp] theorem setWord_evos (a : Nat) (v : W48) : (setWord a v s).evos = s.evos := rfl
@[simp] theorem setWord_trigLines (a : Nat) (v : W48) : (setWord a v s).trigLines = s.trigLines := rfl
@[simp] theorem setWord_power (a : Nat) (v : W48) : (setWord a v s).power = s.power := rfl
@[simp] theorem setWord_adm (a : Nat) (v : W48) : (setWord a v s).adm = s.adm := rfl
@[simp] theorem setWord_mgt (a : Nat) (v : W48) : (setWord a v s).mgt = s.mgt := rfl
@[simp] theorem setWord_config (a : Nat) (v : W48) : (setWord a v s).config = s.config := rfl
@[simp] theorem setWord_journal (a : Nat) (v : W48) : (setWord a v s).journal = s.journal := rfl
@[simp] theorem setWord_flash (a : Nat) (v : W48) : (setWord a v s).flash = s.flash := rfl
@[simp] theorem setWord_flashId (a : Nat) (v : W48) : (setWord a v s).flashId = s.flashId := rfl
@[simp] theorem setWord_straps (a : Nat) (v : W48) : (setWord a v s).straps = s.straps := rfl
@[simp] theorem setWord_hl (a : Nat) (v : W48) : (setWord a v s).hl = s.hl := rfl
@[simp] theorem setWord_bgt (a : Nat) (v : W48) : (setWord a v s).bgt = s.bgt := rfl
@[simp] theorem setWord_hws (a : Nat) (v : W48) : (setWord a v s).hws = s.hws := rfl
@[simp] theorem setWord_phase (a : Nat) (v : W48) : (setWord a v s).phase = s.phase := rfl
@[simp] theorem setWord_frz (a : Nat) (v : W48) : (setWord a v s).frz = s.frz := rfl
@[simp] theorem setWord_tap (a : Nat) (v : W48) : (setWord a v s).tap = s.tap := rfl
@[simp] theorem setWord_answer (a : Nat) (v : W48) : (setWord a v s).answer = s.answer := rfl

/-! ### setCnt -/

@[simp] theorem setCnt_pending (a : Nat) (v : W32) : (setCnt a v s).pending = s.pending := rfl
@[simp] theorem setCnt_fresh (a : Nat) (v : W32) : (setCnt a v s).fresh = s.fresh := rfl
@[simp] theorem setCnt_tb (a : Nat) (v : W32) : (setCnt a v s).tb = s.tb := rfl
@[simp] theorem setCnt_cfg (a : Nat) (v : W32) : (setCnt a v s).cfg = s.cfg := rfl
@[simp] theorem setCnt_cnt (a : Nat) (v : W32) : (setCnt a v s).cnt = Mem.write (fun _ => 0) s.cnt a v := rfl
@[simp] theorem setCnt_flags (a : Nat) (v : W32) : (setCnt a v s).flags = s.flags := rfl
@[simp] theorem setCnt_tab (a : Nat) (v : W32) : (setCnt a v s).tab = s.tab := rfl
@[simp] theorem setCnt_poisoned (a : Nat) (v : W32) : (setCnt a v s).poisoned = s.poisoned := rfl
@[simp] theorem setCnt_holds (a : Nat) (v : W32) : (setCnt a v s).holds = s.holds := rfl
@[simp] theorem setCnt_timers (a : Nat) (v : W32) : (setCnt a v s).timers = s.timers := rfl
@[simp] theorem setCnt_chans (a : Nat) (v : W32) : (setCnt a v s).chans = s.chans := rfl
@[simp] theorem setCnt_streams (a : Nat) (v : W32) : (setCnt a v s).streams = s.streams := rfl
@[simp] theorem setCnt_rings (a : Nat) (v : W32) : (setCnt a v s).rings = s.rings := rfl
@[simp] theorem setCnt_stagerTurn (a : Nat) (v : W32) : (setCnt a v s).stagerTurn = s.stagerTurn := rfl
@[simp] theorem setCnt_sram (a : Nat) (v : W32) : (setCnt a v s).sram = s.sram := rfl
@[simp] theorem setCnt_sramLost (a : Nat) (v : W32) : (setCnt a v s).sramLost = s.sramLost := rfl
@[simp] theorem setCnt_hostMem (a : Nat) (v : W32) : (setCnt a v s).hostMem = s.hostMem := rfl
@[simp] theorem setCnt_fes (a : Nat) (v : W32) : (setCnt a v s).fes = s.fes := rfl
@[simp] theorem setCnt_stages (a : Nat) (v : W32) : (setCnt a v s).stages = s.stages := rfl
@[simp] theorem setCnt_slots (a : Nat) (v : W32) : (setCnt a v s).slots = s.slots := rfl
@[simp] theorem setCnt_spus (a : Nat) (v : W32) : (setCnt a v s).spus = s.spus := rfl
@[simp] theorem setCnt_engines (a : Nat) (v : W32) : (setCnt a v s).engines = s.engines := rfl
@[simp] theorem setCnt_icu (a : Nat) (v : W32) : (setCnt a v s).icu = s.icu := rfl
@[simp] theorem setCnt_icuViews (a : Nat) (v : W32) : (setCnt a v s).icuViews = s.icuViews := rfl
@[simp] theorem setCnt_journalQ (a : Nat) (v : W32) : (setCnt a v s).journalQ = s.journalQ := rfl
@[simp] theorem setCnt_cvps (a : Nat) (v : W32) : (setCnt a v s).cvps = s.cvps := rfl
@[simp] theorem setCnt_sbps (a : Nat) (v : W32) : (setCnt a v s).sbps = s.sbps := rfl
@[simp] theorem setCnt_polls (a : Nat) (v : W32) : (setCnt a v s).polls = s.polls := rfl
@[simp] theorem setCnt_evps (a : Nat) (v : W32) : (setCnt a v s).evps = s.evps := rfl
@[simp] theorem setCnt_tchs (a : Nat) (v : W32) : (setCnt a v s).tchs = s.tchs := rfl
@[simp] theorem setCnt_tchScan (a : Nat) (v : W32) : (setCnt a v s).tchScan = s.tchScan := rfl
@[simp] theorem setCnt_tchStamp (a : Nat) (v : W32) : (setCnt a v s).tchStamp = s.tchStamp := rfl
@[simp] theorem setCnt_evos (a : Nat) (v : W32) : (setCnt a v s).evos = s.evos := rfl
@[simp] theorem setCnt_trigLines (a : Nat) (v : W32) : (setCnt a v s).trigLines = s.trigLines := rfl
@[simp] theorem setCnt_power (a : Nat) (v : W32) : (setCnt a v s).power = s.power := rfl
@[simp] theorem setCnt_adm (a : Nat) (v : W32) : (setCnt a v s).adm = s.adm := rfl
@[simp] theorem setCnt_mgt (a : Nat) (v : W32) : (setCnt a v s).mgt = s.mgt := rfl
@[simp] theorem setCnt_config (a : Nat) (v : W32) : (setCnt a v s).config = s.config := rfl
@[simp] theorem setCnt_journal (a : Nat) (v : W32) : (setCnt a v s).journal = s.journal := rfl
@[simp] theorem setCnt_flash (a : Nat) (v : W32) : (setCnt a v s).flash = s.flash := rfl
@[simp] theorem setCnt_flashId (a : Nat) (v : W32) : (setCnt a v s).flashId = s.flashId := rfl
@[simp] theorem setCnt_straps (a : Nat) (v : W32) : (setCnt a v s).straps = s.straps := rfl
@[simp] theorem setCnt_hl (a : Nat) (v : W32) : (setCnt a v s).hl = s.hl := rfl
@[simp] theorem setCnt_bgt (a : Nat) (v : W32) : (setCnt a v s).bgt = s.bgt := rfl
@[simp] theorem setCnt_hws (a : Nat) (v : W32) : (setCnt a v s).hws = s.hws := rfl
@[simp] theorem setCnt_phase (a : Nat) (v : W32) : (setCnt a v s).phase = s.phase := rfl
@[simp] theorem setCnt_frz (a : Nat) (v : W32) : (setCnt a v s).frz = s.frz := rfl
@[simp] theorem setCnt_tap (a : Nat) (v : W32) : (setCnt a v s).tap = s.tap := rfl
@[simp] theorem setCnt_answer (a : Nat) (v : W32) : (setCnt a v s).answer = s.answer := rfl

/-! ### bump -/

@[simp] theorem bump_pending (a : Nat) : (bump a s).pending = s.pending := rfl
@[simp] theorem bump_fresh (a : Nat) : (bump a s).fresh = s.fresh := rfl
@[simp] theorem bump_tb (a : Nat) : (bump a s).tb = s.tb := rfl
@[simp] theorem bump_cfg (a : Nat) : (bump a s).cfg = s.cfg := rfl
@[simp] theorem bump_cnt (a : Nat) : (bump a s).cnt = Mem.write (fun _ => 0) s.cnt a (satInc (cntR s a)) := rfl
@[simp] theorem bump_flags (a : Nat) : (bump a s).flags = s.flags := rfl
@[simp] theorem bump_tab (a : Nat) : (bump a s).tab = s.tab := rfl
@[simp] theorem bump_poisoned (a : Nat) : (bump a s).poisoned = s.poisoned := rfl
@[simp] theorem bump_holds (a : Nat) : (bump a s).holds = s.holds := rfl
@[simp] theorem bump_timers (a : Nat) : (bump a s).timers = s.timers := rfl
@[simp] theorem bump_chans (a : Nat) : (bump a s).chans = s.chans := rfl
@[simp] theorem bump_streams (a : Nat) : (bump a s).streams = s.streams := rfl
@[simp] theorem bump_rings (a : Nat) : (bump a s).rings = s.rings := rfl
@[simp] theorem bump_stagerTurn (a : Nat) : (bump a s).stagerTurn = s.stagerTurn := rfl
@[simp] theorem bump_sram (a : Nat) : (bump a s).sram = s.sram := rfl
@[simp] theorem bump_sramLost (a : Nat) : (bump a s).sramLost = s.sramLost := rfl
@[simp] theorem bump_hostMem (a : Nat) : (bump a s).hostMem = s.hostMem := rfl
@[simp] theorem bump_fes (a : Nat) : (bump a s).fes = s.fes := rfl
@[simp] theorem bump_stages (a : Nat) : (bump a s).stages = s.stages := rfl
@[simp] theorem bump_slots (a : Nat) : (bump a s).slots = s.slots := rfl
@[simp] theorem bump_spus (a : Nat) : (bump a s).spus = s.spus := rfl
@[simp] theorem bump_engines (a : Nat) : (bump a s).engines = s.engines := rfl
@[simp] theorem bump_icu (a : Nat) : (bump a s).icu = s.icu := rfl
@[simp] theorem bump_icuViews (a : Nat) : (bump a s).icuViews = s.icuViews := rfl
@[simp] theorem bump_journalQ (a : Nat) : (bump a s).journalQ = s.journalQ := rfl
@[simp] theorem bump_cvps (a : Nat) : (bump a s).cvps = s.cvps := rfl
@[simp] theorem bump_sbps (a : Nat) : (bump a s).sbps = s.sbps := rfl
@[simp] theorem bump_polls (a : Nat) : (bump a s).polls = s.polls := rfl
@[simp] theorem bump_evps (a : Nat) : (bump a s).evps = s.evps := rfl
@[simp] theorem bump_tchs (a : Nat) : (bump a s).tchs = s.tchs := rfl
@[simp] theorem bump_tchScan (a : Nat) : (bump a s).tchScan = s.tchScan := rfl
@[simp] theorem bump_tchStamp (a : Nat) : (bump a s).tchStamp = s.tchStamp := rfl
@[simp] theorem bump_evos (a : Nat) : (bump a s).evos = s.evos := rfl
@[simp] theorem bump_trigLines (a : Nat) : (bump a s).trigLines = s.trigLines := rfl
@[simp] theorem bump_power (a : Nat) : (bump a s).power = s.power := rfl
@[simp] theorem bump_adm (a : Nat) : (bump a s).adm = s.adm := rfl
@[simp] theorem bump_mgt (a : Nat) : (bump a s).mgt = s.mgt := rfl
@[simp] theorem bump_config (a : Nat) : (bump a s).config = s.config := rfl
@[simp] theorem bump_journal (a : Nat) : (bump a s).journal = s.journal := rfl
@[simp] theorem bump_flash (a : Nat) : (bump a s).flash = s.flash := rfl
@[simp] theorem bump_flashId (a : Nat) : (bump a s).flashId = s.flashId := rfl
@[simp] theorem bump_straps (a : Nat) : (bump a s).straps = s.straps := rfl
@[simp] theorem bump_hl (a : Nat) : (bump a s).hl = s.hl := rfl
@[simp] theorem bump_bgt (a : Nat) : (bump a s).bgt = s.bgt := rfl
@[simp] theorem bump_hws (a : Nat) : (bump a s).hws = s.hws := rfl
@[simp] theorem bump_phase (a : Nat) : (bump a s).phase = s.phase := rfl
@[simp] theorem bump_frz (a : Nat) : (bump a s).frz = s.frz := rfl
@[simp] theorem bump_tap (a : Nat) : (bump a s).tap = s.tap := rfl
@[simp] theorem bump_answer (a : Nat) : (bump a s).answer = s.answer := rfl

/-! ### bumpWrap -/

@[simp] theorem bumpWrap_pending (a : Nat) : (bumpWrap a s).pending = s.pending := rfl
@[simp] theorem bumpWrap_fresh (a : Nat) : (bumpWrap a s).fresh = s.fresh := rfl
@[simp] theorem bumpWrap_tb (a : Nat) : (bumpWrap a s).tb = s.tb := rfl
@[simp] theorem bumpWrap_cfg (a : Nat) : (bumpWrap a s).cfg = s.cfg := rfl
@[simp] theorem bumpWrap_cnt (a : Nat) : (bumpWrap a s).cnt = Mem.write (fun _ => 0) s.cnt a (cntR s a + 1) := rfl
@[simp] theorem bumpWrap_flags (a : Nat) : (bumpWrap a s).flags = s.flags := rfl
@[simp] theorem bumpWrap_tab (a : Nat) : (bumpWrap a s).tab = s.tab := rfl
@[simp] theorem bumpWrap_poisoned (a : Nat) : (bumpWrap a s).poisoned = s.poisoned := rfl
@[simp] theorem bumpWrap_holds (a : Nat) : (bumpWrap a s).holds = s.holds := rfl
@[simp] theorem bumpWrap_timers (a : Nat) : (bumpWrap a s).timers = s.timers := rfl
@[simp] theorem bumpWrap_chans (a : Nat) : (bumpWrap a s).chans = s.chans := rfl
@[simp] theorem bumpWrap_streams (a : Nat) : (bumpWrap a s).streams = s.streams := rfl
@[simp] theorem bumpWrap_rings (a : Nat) : (bumpWrap a s).rings = s.rings := rfl
@[simp] theorem bumpWrap_stagerTurn (a : Nat) : (bumpWrap a s).stagerTurn = s.stagerTurn := rfl
@[simp] theorem bumpWrap_sram (a : Nat) : (bumpWrap a s).sram = s.sram := rfl
@[simp] theorem bumpWrap_sramLost (a : Nat) : (bumpWrap a s).sramLost = s.sramLost := rfl
@[simp] theorem bumpWrap_hostMem (a : Nat) : (bumpWrap a s).hostMem = s.hostMem := rfl
@[simp] theorem bumpWrap_fes (a : Nat) : (bumpWrap a s).fes = s.fes := rfl
@[simp] theorem bumpWrap_stages (a : Nat) : (bumpWrap a s).stages = s.stages := rfl
@[simp] theorem bumpWrap_slots (a : Nat) : (bumpWrap a s).slots = s.slots := rfl
@[simp] theorem bumpWrap_spus (a : Nat) : (bumpWrap a s).spus = s.spus := rfl
@[simp] theorem bumpWrap_engines (a : Nat) : (bumpWrap a s).engines = s.engines := rfl
@[simp] theorem bumpWrap_icu (a : Nat) : (bumpWrap a s).icu = s.icu := rfl
@[simp] theorem bumpWrap_icuViews (a : Nat) : (bumpWrap a s).icuViews = s.icuViews := rfl
@[simp] theorem bumpWrap_journalQ (a : Nat) : (bumpWrap a s).journalQ = s.journalQ := rfl
@[simp] theorem bumpWrap_cvps (a : Nat) : (bumpWrap a s).cvps = s.cvps := rfl
@[simp] theorem bumpWrap_sbps (a : Nat) : (bumpWrap a s).sbps = s.sbps := rfl
@[simp] theorem bumpWrap_polls (a : Nat) : (bumpWrap a s).polls = s.polls := rfl
@[simp] theorem bumpWrap_evps (a : Nat) : (bumpWrap a s).evps = s.evps := rfl
@[simp] theorem bumpWrap_tchs (a : Nat) : (bumpWrap a s).tchs = s.tchs := rfl
@[simp] theorem bumpWrap_tchScan (a : Nat) : (bumpWrap a s).tchScan = s.tchScan := rfl
@[simp] theorem bumpWrap_tchStamp (a : Nat) : (bumpWrap a s).tchStamp = s.tchStamp := rfl
@[simp] theorem bumpWrap_evos (a : Nat) : (bumpWrap a s).evos = s.evos := rfl
@[simp] theorem bumpWrap_trigLines (a : Nat) : (bumpWrap a s).trigLines = s.trigLines := rfl
@[simp] theorem bumpWrap_power (a : Nat) : (bumpWrap a s).power = s.power := rfl
@[simp] theorem bumpWrap_adm (a : Nat) : (bumpWrap a s).adm = s.adm := rfl
@[simp] theorem bumpWrap_mgt (a : Nat) : (bumpWrap a s).mgt = s.mgt := rfl
@[simp] theorem bumpWrap_config (a : Nat) : (bumpWrap a s).config = s.config := rfl
@[simp] theorem bumpWrap_journal (a : Nat) : (bumpWrap a s).journal = s.journal := rfl
@[simp] theorem bumpWrap_flash (a : Nat) : (bumpWrap a s).flash = s.flash := rfl
@[simp] theorem bumpWrap_flashId (a : Nat) : (bumpWrap a s).flashId = s.flashId := rfl
@[simp] theorem bumpWrap_straps (a : Nat) : (bumpWrap a s).straps = s.straps := rfl
@[simp] theorem bumpWrap_hl (a : Nat) : (bumpWrap a s).hl = s.hl := rfl
@[simp] theorem bumpWrap_bgt (a : Nat) : (bumpWrap a s).bgt = s.bgt := rfl
@[simp] theorem bumpWrap_hws (a : Nat) : (bumpWrap a s).hws = s.hws := rfl
@[simp] theorem bumpWrap_phase (a : Nat) : (bumpWrap a s).phase = s.phase := rfl
@[simp] theorem bumpWrap_frz (a : Nat) : (bumpWrap a s).frz = s.frz := rfl
@[simp] theorem bumpWrap_tap (a : Nat) : (bumpWrap a s).tap = s.tap := rfl
@[simp] theorem bumpWrap_answer (a : Nat) : (bumpWrap a s).answer = s.answer := rfl

/-! ### bumpBy -/

@[simp] theorem bumpBy_pending (a n : Nat) : (bumpBy a n s).pending = s.pending := rfl
@[simp] theorem bumpBy_fresh (a n : Nat) : (bumpBy a n s).fresh = s.fresh := rfl
@[simp] theorem bumpBy_tb (a n : Nat) : (bumpBy a n s).tb = s.tb := rfl
@[simp] theorem bumpBy_cfg (a n : Nat) : (bumpBy a n s).cfg = s.cfg := rfl
@[simp] theorem bumpBy_cnt (a n : Nat) : (bumpBy a n s).cnt = Mem.write (fun _ => 0) s.cnt a (BitVec.ofNat 32 (min (2 ^ 32 - 1) ((cntR s a).toNat + n))) := rfl
@[simp] theorem bumpBy_flags (a n : Nat) : (bumpBy a n s).flags = s.flags := rfl
@[simp] theorem bumpBy_tab (a n : Nat) : (bumpBy a n s).tab = s.tab := rfl
@[simp] theorem bumpBy_poisoned (a n : Nat) : (bumpBy a n s).poisoned = s.poisoned := rfl
@[simp] theorem bumpBy_holds (a n : Nat) : (bumpBy a n s).holds = s.holds := rfl
@[simp] theorem bumpBy_timers (a n : Nat) : (bumpBy a n s).timers = s.timers := rfl
@[simp] theorem bumpBy_chans (a n : Nat) : (bumpBy a n s).chans = s.chans := rfl
@[simp] theorem bumpBy_streams (a n : Nat) : (bumpBy a n s).streams = s.streams := rfl
@[simp] theorem bumpBy_rings (a n : Nat) : (bumpBy a n s).rings = s.rings := rfl
@[simp] theorem bumpBy_stagerTurn (a n : Nat) : (bumpBy a n s).stagerTurn = s.stagerTurn := rfl
@[simp] theorem bumpBy_sram (a n : Nat) : (bumpBy a n s).sram = s.sram := rfl
@[simp] theorem bumpBy_sramLost (a n : Nat) : (bumpBy a n s).sramLost = s.sramLost := rfl
@[simp] theorem bumpBy_hostMem (a n : Nat) : (bumpBy a n s).hostMem = s.hostMem := rfl
@[simp] theorem bumpBy_fes (a n : Nat) : (bumpBy a n s).fes = s.fes := rfl
@[simp] theorem bumpBy_stages (a n : Nat) : (bumpBy a n s).stages = s.stages := rfl
@[simp] theorem bumpBy_slots (a n : Nat) : (bumpBy a n s).slots = s.slots := rfl
@[simp] theorem bumpBy_spus (a n : Nat) : (bumpBy a n s).spus = s.spus := rfl
@[simp] theorem bumpBy_engines (a n : Nat) : (bumpBy a n s).engines = s.engines := rfl
@[simp] theorem bumpBy_icu (a n : Nat) : (bumpBy a n s).icu = s.icu := rfl
@[simp] theorem bumpBy_icuViews (a n : Nat) : (bumpBy a n s).icuViews = s.icuViews := rfl
@[simp] theorem bumpBy_journalQ (a n : Nat) : (bumpBy a n s).journalQ = s.journalQ := rfl
@[simp] theorem bumpBy_cvps (a n : Nat) : (bumpBy a n s).cvps = s.cvps := rfl
@[simp] theorem bumpBy_sbps (a n : Nat) : (bumpBy a n s).sbps = s.sbps := rfl
@[simp] theorem bumpBy_polls (a n : Nat) : (bumpBy a n s).polls = s.polls := rfl
@[simp] theorem bumpBy_evps (a n : Nat) : (bumpBy a n s).evps = s.evps := rfl
@[simp] theorem bumpBy_tchs (a n : Nat) : (bumpBy a n s).tchs = s.tchs := rfl
@[simp] theorem bumpBy_tchScan (a n : Nat) : (bumpBy a n s).tchScan = s.tchScan := rfl
@[simp] theorem bumpBy_tchStamp (a n : Nat) : (bumpBy a n s).tchStamp = s.tchStamp := rfl
@[simp] theorem bumpBy_evos (a n : Nat) : (bumpBy a n s).evos = s.evos := rfl
@[simp] theorem bumpBy_trigLines (a n : Nat) : (bumpBy a n s).trigLines = s.trigLines := rfl
@[simp] theorem bumpBy_power (a n : Nat) : (bumpBy a n s).power = s.power := rfl
@[simp] theorem bumpBy_adm (a n : Nat) : (bumpBy a n s).adm = s.adm := rfl
@[simp] theorem bumpBy_mgt (a n : Nat) : (bumpBy a n s).mgt = s.mgt := rfl
@[simp] theorem bumpBy_config (a n : Nat) : (bumpBy a n s).config = s.config := rfl
@[simp] theorem bumpBy_journal (a n : Nat) : (bumpBy a n s).journal = s.journal := rfl
@[simp] theorem bumpBy_flash (a n : Nat) : (bumpBy a n s).flash = s.flash := rfl
@[simp] theorem bumpBy_flashId (a n : Nat) : (bumpBy a n s).flashId = s.flashId := rfl
@[simp] theorem bumpBy_straps (a n : Nat) : (bumpBy a n s).straps = s.straps := rfl
@[simp] theorem bumpBy_hl (a n : Nat) : (bumpBy a n s).hl = s.hl := rfl
@[simp] theorem bumpBy_bgt (a n : Nat) : (bumpBy a n s).bgt = s.bgt := rfl
@[simp] theorem bumpBy_hws (a n : Nat) : (bumpBy a n s).hws = s.hws := rfl
@[simp] theorem bumpBy_phase (a n : Nat) : (bumpBy a n s).phase = s.phase := rfl
@[simp] theorem bumpBy_frz (a n : Nat) : (bumpBy a n s).frz = s.frz := rfl
@[simp] theorem bumpBy_tap (a n : Nat) : (bumpBy a n s).tap = s.tap := rfl
@[simp] theorem bumpBy_answer (a n : Nat) : (bumpBy a n s).answer = s.answer := rfl

/-! ### setFlags -/

@[simp] theorem setFlags_pending (a : Nat) (v : W32) : (setFlags a v s).pending = s.pending := rfl
@[simp] theorem setFlags_fresh (a : Nat) (v : W32) : (setFlags a v s).fresh = s.fresh := rfl
@[simp] theorem setFlags_tb (a : Nat) (v : W32) : (setFlags a v s).tb = s.tb := rfl
@[simp] theorem setFlags_cfg (a : Nat) (v : W32) : (setFlags a v s).cfg = s.cfg := rfl
@[simp] theorem setFlags_cnt (a : Nat) (v : W32) : (setFlags a v s).cnt = s.cnt := rfl
@[simp] theorem setFlags_flags (a : Nat) (v : W32) : (setFlags a v s).flags = Mem.write (fun _ => 0) s.flags a v := rfl
@[simp] theorem setFlags_tab (a : Nat) (v : W32) : (setFlags a v s).tab = s.tab := rfl
@[simp] theorem setFlags_poisoned (a : Nat) (v : W32) : (setFlags a v s).poisoned = s.poisoned := rfl
@[simp] theorem setFlags_holds (a : Nat) (v : W32) : (setFlags a v s).holds = s.holds := rfl
@[simp] theorem setFlags_timers (a : Nat) (v : W32) : (setFlags a v s).timers = s.timers := rfl
@[simp] theorem setFlags_chans (a : Nat) (v : W32) : (setFlags a v s).chans = s.chans := rfl
@[simp] theorem setFlags_streams (a : Nat) (v : W32) : (setFlags a v s).streams = s.streams := rfl
@[simp] theorem setFlags_rings (a : Nat) (v : W32) : (setFlags a v s).rings = s.rings := rfl
@[simp] theorem setFlags_stagerTurn (a : Nat) (v : W32) : (setFlags a v s).stagerTurn = s.stagerTurn := rfl
@[simp] theorem setFlags_sram (a : Nat) (v : W32) : (setFlags a v s).sram = s.sram := rfl
@[simp] theorem setFlags_sramLost (a : Nat) (v : W32) : (setFlags a v s).sramLost = s.sramLost := rfl
@[simp] theorem setFlags_hostMem (a : Nat) (v : W32) : (setFlags a v s).hostMem = s.hostMem := rfl
@[simp] theorem setFlags_fes (a : Nat) (v : W32) : (setFlags a v s).fes = s.fes := rfl
@[simp] theorem setFlags_stages (a : Nat) (v : W32) : (setFlags a v s).stages = s.stages := rfl
@[simp] theorem setFlags_slots (a : Nat) (v : W32) : (setFlags a v s).slots = s.slots := rfl
@[simp] theorem setFlags_spus (a : Nat) (v : W32) : (setFlags a v s).spus = s.spus := rfl
@[simp] theorem setFlags_engines (a : Nat) (v : W32) : (setFlags a v s).engines = s.engines := rfl
@[simp] theorem setFlags_icu (a : Nat) (v : W32) : (setFlags a v s).icu = s.icu := rfl
@[simp] theorem setFlags_icuViews (a : Nat) (v : W32) : (setFlags a v s).icuViews = s.icuViews := rfl
@[simp] theorem setFlags_journalQ (a : Nat) (v : W32) : (setFlags a v s).journalQ = s.journalQ := rfl
@[simp] theorem setFlags_cvps (a : Nat) (v : W32) : (setFlags a v s).cvps = s.cvps := rfl
@[simp] theorem setFlags_sbps (a : Nat) (v : W32) : (setFlags a v s).sbps = s.sbps := rfl
@[simp] theorem setFlags_polls (a : Nat) (v : W32) : (setFlags a v s).polls = s.polls := rfl
@[simp] theorem setFlags_evps (a : Nat) (v : W32) : (setFlags a v s).evps = s.evps := rfl
@[simp] theorem setFlags_tchs (a : Nat) (v : W32) : (setFlags a v s).tchs = s.tchs := rfl
@[simp] theorem setFlags_tchScan (a : Nat) (v : W32) : (setFlags a v s).tchScan = s.tchScan := rfl
@[simp] theorem setFlags_tchStamp (a : Nat) (v : W32) : (setFlags a v s).tchStamp = s.tchStamp := rfl
@[simp] theorem setFlags_evos (a : Nat) (v : W32) : (setFlags a v s).evos = s.evos := rfl
@[simp] theorem setFlags_trigLines (a : Nat) (v : W32) : (setFlags a v s).trigLines = s.trigLines := rfl
@[simp] theorem setFlags_power (a : Nat) (v : W32) : (setFlags a v s).power = s.power := rfl
@[simp] theorem setFlags_adm (a : Nat) (v : W32) : (setFlags a v s).adm = s.adm := rfl
@[simp] theorem setFlags_mgt (a : Nat) (v : W32) : (setFlags a v s).mgt = s.mgt := rfl
@[simp] theorem setFlags_config (a : Nat) (v : W32) : (setFlags a v s).config = s.config := rfl
@[simp] theorem setFlags_journal (a : Nat) (v : W32) : (setFlags a v s).journal = s.journal := rfl
@[simp] theorem setFlags_flash (a : Nat) (v : W32) : (setFlags a v s).flash = s.flash := rfl
@[simp] theorem setFlags_flashId (a : Nat) (v : W32) : (setFlags a v s).flashId = s.flashId := rfl
@[simp] theorem setFlags_straps (a : Nat) (v : W32) : (setFlags a v s).straps = s.straps := rfl
@[simp] theorem setFlags_hl (a : Nat) (v : W32) : (setFlags a v s).hl = s.hl := rfl
@[simp] theorem setFlags_bgt (a : Nat) (v : W32) : (setFlags a v s).bgt = s.bgt := rfl
@[simp] theorem setFlags_hws (a : Nat) (v : W32) : (setFlags a v s).hws = s.hws := rfl
@[simp] theorem setFlags_phase (a : Nat) (v : W32) : (setFlags a v s).phase = s.phase := rfl
@[simp] theorem setFlags_frz (a : Nat) (v : W32) : (setFlags a v s).frz = s.frz := rfl
@[simp] theorem setFlags_tap (a : Nat) (v : W32) : (setFlags a v s).tap = s.tap := rfl
@[simp] theorem setFlags_answer (a : Nat) (v : W32) : (setFlags a v s).answer = s.answer := rfl

/-! ### raise -/

@[simp] theorem raise_pending (a i : Nat) : (raise a i s).pending = s.pending := rfl
@[simp] theorem raise_fresh (a i : Nat) : (raise a i s).fresh = s.fresh := rfl
@[simp] theorem raise_tb (a i : Nat) : (raise a i s).tb = s.tb := rfl
@[simp] theorem raise_cfg (a i : Nat) : (raise a i s).cfg = s.cfg := rfl
@[simp] theorem raise_cnt (a i : Nat) : (raise a i s).cnt = s.cnt := rfl
@[simp] theorem raise_flags (a i : Nat) : (raise a i s).flags = Mem.write (fun _ => 0) s.flags a (flagR s a ||| (1#32 <<< i)) := rfl
@[simp] theorem raise_tab (a i : Nat) : (raise a i s).tab = s.tab := rfl
@[simp] theorem raise_poisoned (a i : Nat) : (raise a i s).poisoned = s.poisoned := rfl
@[simp] theorem raise_holds (a i : Nat) : (raise a i s).holds = s.holds := rfl
@[simp] theorem raise_timers (a i : Nat) : (raise a i s).timers = s.timers := rfl
@[simp] theorem raise_chans (a i : Nat) : (raise a i s).chans = s.chans := rfl
@[simp] theorem raise_streams (a i : Nat) : (raise a i s).streams = s.streams := rfl
@[simp] theorem raise_rings (a i : Nat) : (raise a i s).rings = s.rings := rfl
@[simp] theorem raise_stagerTurn (a i : Nat) : (raise a i s).stagerTurn = s.stagerTurn := rfl
@[simp] theorem raise_sram (a i : Nat) : (raise a i s).sram = s.sram := rfl
@[simp] theorem raise_sramLost (a i : Nat) : (raise a i s).sramLost = s.sramLost := rfl
@[simp] theorem raise_hostMem (a i : Nat) : (raise a i s).hostMem = s.hostMem := rfl
@[simp] theorem raise_fes (a i : Nat) : (raise a i s).fes = s.fes := rfl
@[simp] theorem raise_stages (a i : Nat) : (raise a i s).stages = s.stages := rfl
@[simp] theorem raise_slots (a i : Nat) : (raise a i s).slots = s.slots := rfl
@[simp] theorem raise_spus (a i : Nat) : (raise a i s).spus = s.spus := rfl
@[simp] theorem raise_engines (a i : Nat) : (raise a i s).engines = s.engines := rfl
@[simp] theorem raise_icu (a i : Nat) : (raise a i s).icu = s.icu := rfl
@[simp] theorem raise_icuViews (a i : Nat) : (raise a i s).icuViews = s.icuViews := rfl
@[simp] theorem raise_journalQ (a i : Nat) : (raise a i s).journalQ = s.journalQ := rfl
@[simp] theorem raise_cvps (a i : Nat) : (raise a i s).cvps = s.cvps := rfl
@[simp] theorem raise_sbps (a i : Nat) : (raise a i s).sbps = s.sbps := rfl
@[simp] theorem raise_polls (a i : Nat) : (raise a i s).polls = s.polls := rfl
@[simp] theorem raise_evps (a i : Nat) : (raise a i s).evps = s.evps := rfl
@[simp] theorem raise_tchs (a i : Nat) : (raise a i s).tchs = s.tchs := rfl
@[simp] theorem raise_tchScan (a i : Nat) : (raise a i s).tchScan = s.tchScan := rfl
@[simp] theorem raise_tchStamp (a i : Nat) : (raise a i s).tchStamp = s.tchStamp := rfl
@[simp] theorem raise_evos (a i : Nat) : (raise a i s).evos = s.evos := rfl
@[simp] theorem raise_trigLines (a i : Nat) : (raise a i s).trigLines = s.trigLines := rfl
@[simp] theorem raise_power (a i : Nat) : (raise a i s).power = s.power := rfl
@[simp] theorem raise_adm (a i : Nat) : (raise a i s).adm = s.adm := rfl
@[simp] theorem raise_mgt (a i : Nat) : (raise a i s).mgt = s.mgt := rfl
@[simp] theorem raise_config (a i : Nat) : (raise a i s).config = s.config := rfl
@[simp] theorem raise_journal (a i : Nat) : (raise a i s).journal = s.journal := rfl
@[simp] theorem raise_flash (a i : Nat) : (raise a i s).flash = s.flash := rfl
@[simp] theorem raise_flashId (a i : Nat) : (raise a i s).flashId = s.flashId := rfl
@[simp] theorem raise_straps (a i : Nat) : (raise a i s).straps = s.straps := rfl
@[simp] theorem raise_hl (a i : Nat) : (raise a i s).hl = s.hl := rfl
@[simp] theorem raise_bgt (a i : Nat) : (raise a i s).bgt = s.bgt := rfl
@[simp] theorem raise_hws (a i : Nat) : (raise a i s).hws = s.hws := rfl
@[simp] theorem raise_phase (a i : Nat) : (raise a i s).phase = s.phase := rfl
@[simp] theorem raise_frz (a i : Nat) : (raise a i s).frz = s.frz := rfl
@[simp] theorem raise_tap (a i : Nat) : (raise a i s).tap = s.tap := rfl
@[simp] theorem raise_answer (a i : Nat) : (raise a i s).answer = s.answer := rfl

/-! ### clearFlags -/

@[simp] theorem clearFlags_pending (a : Nat) (v : W32) : (clearFlags a v s).pending = s.pending := rfl
@[simp] theorem clearFlags_fresh (a : Nat) (v : W32) : (clearFlags a v s).fresh = s.fresh := rfl
@[simp] theorem clearFlags_tb (a : Nat) (v : W32) : (clearFlags a v s).tb = s.tb := rfl
@[simp] theorem clearFlags_cfg (a : Nat) (v : W32) : (clearFlags a v s).cfg = s.cfg := rfl
@[simp] theorem clearFlags_cnt (a : Nat) (v : W32) : (clearFlags a v s).cnt = s.cnt := rfl
@[simp] theorem clearFlags_flags (a : Nat) (v : W32) : (clearFlags a v s).flags = Mem.write (fun _ => 0) s.flags a (flagR s a &&& ~~~v) := rfl
@[simp] theorem clearFlags_tab (a : Nat) (v : W32) : (clearFlags a v s).tab = s.tab := rfl
@[simp] theorem clearFlags_poisoned (a : Nat) (v : W32) : (clearFlags a v s).poisoned = s.poisoned := rfl
@[simp] theorem clearFlags_holds (a : Nat) (v : W32) : (clearFlags a v s).holds = s.holds := rfl
@[simp] theorem clearFlags_timers (a : Nat) (v : W32) : (clearFlags a v s).timers = s.timers := rfl
@[simp] theorem clearFlags_chans (a : Nat) (v : W32) : (clearFlags a v s).chans = s.chans := rfl
@[simp] theorem clearFlags_streams (a : Nat) (v : W32) : (clearFlags a v s).streams = s.streams := rfl
@[simp] theorem clearFlags_rings (a : Nat) (v : W32) : (clearFlags a v s).rings = s.rings := rfl
@[simp] theorem clearFlags_stagerTurn (a : Nat) (v : W32) : (clearFlags a v s).stagerTurn = s.stagerTurn := rfl
@[simp] theorem clearFlags_sram (a : Nat) (v : W32) : (clearFlags a v s).sram = s.sram := rfl
@[simp] theorem clearFlags_sramLost (a : Nat) (v : W32) : (clearFlags a v s).sramLost = s.sramLost := rfl
@[simp] theorem clearFlags_hostMem (a : Nat) (v : W32) : (clearFlags a v s).hostMem = s.hostMem := rfl
@[simp] theorem clearFlags_fes (a : Nat) (v : W32) : (clearFlags a v s).fes = s.fes := rfl
@[simp] theorem clearFlags_stages (a : Nat) (v : W32) : (clearFlags a v s).stages = s.stages := rfl
@[simp] theorem clearFlags_slots (a : Nat) (v : W32) : (clearFlags a v s).slots = s.slots := rfl
@[simp] theorem clearFlags_spus (a : Nat) (v : W32) : (clearFlags a v s).spus = s.spus := rfl
@[simp] theorem clearFlags_engines (a : Nat) (v : W32) : (clearFlags a v s).engines = s.engines := rfl
@[simp] theorem clearFlags_icu (a : Nat) (v : W32) : (clearFlags a v s).icu = s.icu := rfl
@[simp] theorem clearFlags_icuViews (a : Nat) (v : W32) : (clearFlags a v s).icuViews = s.icuViews := rfl
@[simp] theorem clearFlags_journalQ (a : Nat) (v : W32) : (clearFlags a v s).journalQ = s.journalQ := rfl
@[simp] theorem clearFlags_cvps (a : Nat) (v : W32) : (clearFlags a v s).cvps = s.cvps := rfl
@[simp] theorem clearFlags_sbps (a : Nat) (v : W32) : (clearFlags a v s).sbps = s.sbps := rfl
@[simp] theorem clearFlags_polls (a : Nat) (v : W32) : (clearFlags a v s).polls = s.polls := rfl
@[simp] theorem clearFlags_evps (a : Nat) (v : W32) : (clearFlags a v s).evps = s.evps := rfl
@[simp] theorem clearFlags_tchs (a : Nat) (v : W32) : (clearFlags a v s).tchs = s.tchs := rfl
@[simp] theorem clearFlags_tchScan (a : Nat) (v : W32) : (clearFlags a v s).tchScan = s.tchScan := rfl
@[simp] theorem clearFlags_tchStamp (a : Nat) (v : W32) : (clearFlags a v s).tchStamp = s.tchStamp := rfl
@[simp] theorem clearFlags_evos (a : Nat) (v : W32) : (clearFlags a v s).evos = s.evos := rfl
@[simp] theorem clearFlags_trigLines (a : Nat) (v : W32) : (clearFlags a v s).trigLines = s.trigLines := rfl
@[simp] theorem clearFlags_power (a : Nat) (v : W32) : (clearFlags a v s).power = s.power := rfl
@[simp] theorem clearFlags_adm (a : Nat) (v : W32) : (clearFlags a v s).adm = s.adm := rfl
@[simp] theorem clearFlags_mgt (a : Nat) (v : W32) : (clearFlags a v s).mgt = s.mgt := rfl
@[simp] theorem clearFlags_config (a : Nat) (v : W32) : (clearFlags a v s).config = s.config := rfl
@[simp] theorem clearFlags_journal (a : Nat) (v : W32) : (clearFlags a v s).journal = s.journal := rfl
@[simp] theorem clearFlags_flash (a : Nat) (v : W32) : (clearFlags a v s).flash = s.flash := rfl
@[simp] theorem clearFlags_flashId (a : Nat) (v : W32) : (clearFlags a v s).flashId = s.flashId := rfl
@[simp] theorem clearFlags_straps (a : Nat) (v : W32) : (clearFlags a v s).straps = s.straps := rfl
@[simp] theorem clearFlags_hl (a : Nat) (v : W32) : (clearFlags a v s).hl = s.hl := rfl
@[simp] theorem clearFlags_bgt (a : Nat) (v : W32) : (clearFlags a v s).bgt = s.bgt := rfl
@[simp] theorem clearFlags_hws (a : Nat) (v : W32) : (clearFlags a v s).hws = s.hws := rfl
@[simp] theorem clearFlags_phase (a : Nat) (v : W32) : (clearFlags a v s).phase = s.phase := rfl
@[simp] theorem clearFlags_frz (a : Nat) (v : W32) : (clearFlags a v s).frz = s.frz := rfl
@[simp] theorem clearFlags_tap (a : Nat) (v : W32) : (clearFlags a v s).tap = s.tap := rfl
@[simp] theorem clearFlags_answer (a : Nat) (v : W32) : (clearFlags a v s).answer = s.answer := rfl

/-! ### werr -/

@[simp] theorem werr_pending : (werr s).pending = s.pending := rfl
@[simp] theorem werr_fresh : (werr s).fresh = s.fresh := rfl
@[simp] theorem werr_tb : (werr s).tb = s.tb := rfl
@[simp] theorem werr_cfg : (werr s).cfg = s.cfg := rfl
@[simp] theorem werr_tab : (werr s).tab = s.tab := rfl
@[simp] theorem werr_poisoned : (werr s).poisoned = s.poisoned := rfl
@[simp] theorem werr_holds : (werr s).holds = s.holds := rfl
@[simp] theorem werr_timers : (werr s).timers = s.timers := rfl
@[simp] theorem werr_chans : (werr s).chans = s.chans := rfl
@[simp] theorem werr_streams : (werr s).streams = s.streams := rfl
@[simp] theorem werr_rings : (werr s).rings = s.rings := rfl
@[simp] theorem werr_stagerTurn : (werr s).stagerTurn = s.stagerTurn := rfl
@[simp] theorem werr_sram : (werr s).sram = s.sram := rfl
@[simp] theorem werr_sramLost : (werr s).sramLost = s.sramLost := rfl
@[simp] theorem werr_hostMem : (werr s).hostMem = s.hostMem := rfl
@[simp] theorem werr_fes : (werr s).fes = s.fes := rfl
@[simp] theorem werr_stages : (werr s).stages = s.stages := rfl
@[simp] theorem werr_slots : (werr s).slots = s.slots := rfl
@[simp] theorem werr_spus : (werr s).spus = s.spus := rfl
@[simp] theorem werr_engines : (werr s).engines = s.engines := rfl
@[simp] theorem werr_icu : (werr s).icu = s.icu := rfl
@[simp] theorem werr_icuViews : (werr s).icuViews = s.icuViews := rfl
@[simp] theorem werr_journalQ : (werr s).journalQ = s.journalQ := rfl
@[simp] theorem werr_cvps : (werr s).cvps = s.cvps := rfl
@[simp] theorem werr_sbps : (werr s).sbps = s.sbps := rfl
@[simp] theorem werr_polls : (werr s).polls = s.polls := rfl
@[simp] theorem werr_evps : (werr s).evps = s.evps := rfl
@[simp] theorem werr_tchs : (werr s).tchs = s.tchs := rfl
@[simp] theorem werr_tchScan : (werr s).tchScan = s.tchScan := rfl
@[simp] theorem werr_tchStamp : (werr s).tchStamp = s.tchStamp := rfl
@[simp] theorem werr_evos : (werr s).evos = s.evos := rfl
@[simp] theorem werr_trigLines : (werr s).trigLines = s.trigLines := rfl
@[simp] theorem werr_power : (werr s).power = s.power := rfl
@[simp] theorem werr_adm : (werr s).adm = s.adm := rfl
@[simp] theorem werr_mgt : (werr s).mgt = s.mgt := rfl
@[simp] theorem werr_config : (werr s).config = s.config := rfl
@[simp] theorem werr_journal : (werr s).journal = s.journal := rfl
@[simp] theorem werr_flash : (werr s).flash = s.flash := rfl
@[simp] theorem werr_flashId : (werr s).flashId = s.flashId := rfl
@[simp] theorem werr_straps : (werr s).straps = s.straps := rfl
@[simp] theorem werr_hl : (werr s).hl = s.hl := rfl
@[simp] theorem werr_bgt : (werr s).bgt = s.bgt := rfl
@[simp] theorem werr_hws : (werr s).hws = s.hws := rfl
@[simp] theorem werr_phase : (werr s).phase = s.phase := rfl
@[simp] theorem werr_frz : (werr s).frz = s.frz := rfl
@[simp] theorem werr_tap : (werr s).tap = s.tap := rfl
@[simp] theorem werr_answer : (werr s).answer = s.answer := rfl

/-! ### setHold -/

@[simp] theorem setHold_pending (n : Path) (x : Hold) : (setHold n x s).pending = s.pending := rfl
@[simp] theorem setHold_fresh (n : Path) (x : Hold) : (setHold n x s).fresh = s.fresh := rfl
@[simp] theorem setHold_tb (n : Path) (x : Hold) : (setHold n x s).tb = s.tb := rfl
@[simp] theorem setHold_cfg (n : Path) (x : Hold) : (setHold n x s).cfg = s.cfg := rfl
@[simp] theorem setHold_cnt (n : Path) (x : Hold) : (setHold n x s).cnt = s.cnt := rfl
@[simp] theorem setHold_flags (n : Path) (x : Hold) : (setHold n x s).flags = s.flags := rfl
@[simp] theorem setHold_tab (n : Path) (x : Hold) : (setHold n x s).tab = s.tab := rfl
@[simp] theorem setHold_poisoned (n : Path) (x : Hold) : (setHold n x s).poisoned = s.poisoned := rfl
@[simp] theorem setHold_holds (n : Path) (x : Hold) : (setHold n x s).holds = Mem.write (fun _ => {}) s.holds (holdOf n) x := rfl
@[simp] theorem setHold_timers (n : Path) (x : Hold) : (setHold n x s).timers = s.timers := rfl
@[simp] theorem setHold_chans (n : Path) (x : Hold) : (setHold n x s).chans = s.chans := rfl
@[simp] theorem setHold_streams (n : Path) (x : Hold) : (setHold n x s).streams = s.streams := rfl
@[simp] theorem setHold_rings (n : Path) (x : Hold) : (setHold n x s).rings = s.rings := rfl
@[simp] theorem setHold_stagerTurn (n : Path) (x : Hold) : (setHold n x s).stagerTurn = s.stagerTurn := rfl
@[simp] theorem setHold_sram (n : Path) (x : Hold) : (setHold n x s).sram = s.sram := rfl
@[simp] theorem setHold_sramLost (n : Path) (x : Hold) : (setHold n x s).sramLost = s.sramLost := rfl
@[simp] theorem setHold_hostMem (n : Path) (x : Hold) : (setHold n x s).hostMem = s.hostMem := rfl
@[simp] theorem setHold_fes (n : Path) (x : Hold) : (setHold n x s).fes = s.fes := rfl
@[simp] theorem setHold_stages (n : Path) (x : Hold) : (setHold n x s).stages = s.stages := rfl
@[simp] theorem setHold_slots (n : Path) (x : Hold) : (setHold n x s).slots = s.slots := rfl
@[simp] theorem setHold_spus (n : Path) (x : Hold) : (setHold n x s).spus = s.spus := rfl
@[simp] theorem setHold_engines (n : Path) (x : Hold) : (setHold n x s).engines = s.engines := rfl
@[simp] theorem setHold_icu (n : Path) (x : Hold) : (setHold n x s).icu = s.icu := rfl
@[simp] theorem setHold_icuViews (n : Path) (x : Hold) : (setHold n x s).icuViews = s.icuViews := rfl
@[simp] theorem setHold_journalQ (n : Path) (x : Hold) : (setHold n x s).journalQ = s.journalQ := rfl
@[simp] theorem setHold_cvps (n : Path) (x : Hold) : (setHold n x s).cvps = s.cvps := rfl
@[simp] theorem setHold_sbps (n : Path) (x : Hold) : (setHold n x s).sbps = s.sbps := rfl
@[simp] theorem setHold_polls (n : Path) (x : Hold) : (setHold n x s).polls = s.polls := rfl
@[simp] theorem setHold_evps (n : Path) (x : Hold) : (setHold n x s).evps = s.evps := rfl
@[simp] theorem setHold_tchs (n : Path) (x : Hold) : (setHold n x s).tchs = s.tchs := rfl
@[simp] theorem setHold_tchScan (n : Path) (x : Hold) : (setHold n x s).tchScan = s.tchScan := rfl
@[simp] theorem setHold_tchStamp (n : Path) (x : Hold) : (setHold n x s).tchStamp = s.tchStamp := rfl
@[simp] theorem setHold_evos (n : Path) (x : Hold) : (setHold n x s).evos = s.evos := rfl
@[simp] theorem setHold_trigLines (n : Path) (x : Hold) : (setHold n x s).trigLines = s.trigLines := rfl
@[simp] theorem setHold_power (n : Path) (x : Hold) : (setHold n x s).power = s.power := rfl
@[simp] theorem setHold_adm (n : Path) (x : Hold) : (setHold n x s).adm = s.adm := rfl
@[simp] theorem setHold_mgt (n : Path) (x : Hold) : (setHold n x s).mgt = s.mgt := rfl
@[simp] theorem setHold_config (n : Path) (x : Hold) : (setHold n x s).config = s.config := rfl
@[simp] theorem setHold_journal (n : Path) (x : Hold) : (setHold n x s).journal = s.journal := rfl
@[simp] theorem setHold_flash (n : Path) (x : Hold) : (setHold n x s).flash = s.flash := rfl
@[simp] theorem setHold_flashId (n : Path) (x : Hold) : (setHold n x s).flashId = s.flashId := rfl
@[simp] theorem setHold_straps (n : Path) (x : Hold) : (setHold n x s).straps = s.straps := rfl
@[simp] theorem setHold_hl (n : Path) (x : Hold) : (setHold n x s).hl = s.hl := rfl
@[simp] theorem setHold_bgt (n : Path) (x : Hold) : (setHold n x s).bgt = s.bgt := rfl
@[simp] theorem setHold_hws (n : Path) (x : Hold) : (setHold n x s).hws = s.hws := rfl
@[simp] theorem setHold_phase (n : Path) (x : Hold) : (setHold n x s).phase = s.phase := rfl
@[simp] theorem setHold_frz (n : Path) (x : Hold) : (setHold n x s).frz = s.frz := rfl
@[simp] theorem setHold_tap (n : Path) (x : Hold) : (setHold n x s).tap = s.tap := rfl
@[simp] theorem setHold_answer (n : Path) (x : Hold) : (setHold n x s).answer = s.answer := rfl

/-! ### setTimer -/

@[simp] theorem setTimer_pending (n : Nat) (x : Timer) : (setTimer n x s).pending = s.pending := rfl
@[simp] theorem setTimer_fresh (n : Nat) (x : Timer) : (setTimer n x s).fresh = s.fresh := rfl
@[simp] theorem setTimer_tb (n : Nat) (x : Timer) : (setTimer n x s).tb = s.tb := rfl
@[simp] theorem setTimer_cfg (n : Nat) (x : Timer) : (setTimer n x s).cfg = s.cfg := rfl
@[simp] theorem setTimer_cnt (n : Nat) (x : Timer) : (setTimer n x s).cnt = s.cnt := rfl
@[simp] theorem setTimer_flags (n : Nat) (x : Timer) : (setTimer n x s).flags = s.flags := rfl
@[simp] theorem setTimer_tab (n : Nat) (x : Timer) : (setTimer n x s).tab = s.tab := rfl
@[simp] theorem setTimer_poisoned (n : Nat) (x : Timer) : (setTimer n x s).poisoned = s.poisoned := rfl
@[simp] theorem setTimer_holds (n : Nat) (x : Timer) : (setTimer n x s).holds = s.holds := rfl
@[simp] theorem setTimer_timers (n : Nat) (x : Timer) : (setTimer n x s).timers = Mem.write (fun _ => {}) s.timers n x := rfl
@[simp] theorem setTimer_chans (n : Nat) (x : Timer) : (setTimer n x s).chans = s.chans := rfl
@[simp] theorem setTimer_streams (n : Nat) (x : Timer) : (setTimer n x s).streams = s.streams := rfl
@[simp] theorem setTimer_rings (n : Nat) (x : Timer) : (setTimer n x s).rings = s.rings := rfl
@[simp] theorem setTimer_stagerTurn (n : Nat) (x : Timer) : (setTimer n x s).stagerTurn = s.stagerTurn := rfl
@[simp] theorem setTimer_sram (n : Nat) (x : Timer) : (setTimer n x s).sram = s.sram := rfl
@[simp] theorem setTimer_sramLost (n : Nat) (x : Timer) : (setTimer n x s).sramLost = s.sramLost := rfl
@[simp] theorem setTimer_hostMem (n : Nat) (x : Timer) : (setTimer n x s).hostMem = s.hostMem := rfl
@[simp] theorem setTimer_fes (n : Nat) (x : Timer) : (setTimer n x s).fes = s.fes := rfl
@[simp] theorem setTimer_stages (n : Nat) (x : Timer) : (setTimer n x s).stages = s.stages := rfl
@[simp] theorem setTimer_slots (n : Nat) (x : Timer) : (setTimer n x s).slots = s.slots := rfl
@[simp] theorem setTimer_spus (n : Nat) (x : Timer) : (setTimer n x s).spus = s.spus := rfl
@[simp] theorem setTimer_engines (n : Nat) (x : Timer) : (setTimer n x s).engines = s.engines := rfl
@[simp] theorem setTimer_icu (n : Nat) (x : Timer) : (setTimer n x s).icu = s.icu := rfl
@[simp] theorem setTimer_icuViews (n : Nat) (x : Timer) : (setTimer n x s).icuViews = s.icuViews := rfl
@[simp] theorem setTimer_journalQ (n : Nat) (x : Timer) : (setTimer n x s).journalQ = s.journalQ := rfl
@[simp] theorem setTimer_cvps (n : Nat) (x : Timer) : (setTimer n x s).cvps = s.cvps := rfl
@[simp] theorem setTimer_sbps (n : Nat) (x : Timer) : (setTimer n x s).sbps = s.sbps := rfl
@[simp] theorem setTimer_polls (n : Nat) (x : Timer) : (setTimer n x s).polls = s.polls := rfl
@[simp] theorem setTimer_evps (n : Nat) (x : Timer) : (setTimer n x s).evps = s.evps := rfl
@[simp] theorem setTimer_tchs (n : Nat) (x : Timer) : (setTimer n x s).tchs = s.tchs := rfl
@[simp] theorem setTimer_tchScan (n : Nat) (x : Timer) : (setTimer n x s).tchScan = s.tchScan := rfl
@[simp] theorem setTimer_tchStamp (n : Nat) (x : Timer) : (setTimer n x s).tchStamp = s.tchStamp := rfl
@[simp] theorem setTimer_evos (n : Nat) (x : Timer) : (setTimer n x s).evos = s.evos := rfl
@[simp] theorem setTimer_trigLines (n : Nat) (x : Timer) : (setTimer n x s).trigLines = s.trigLines := rfl
@[simp] theorem setTimer_power (n : Nat) (x : Timer) : (setTimer n x s).power = s.power := rfl
@[simp] theorem setTimer_adm (n : Nat) (x : Timer) : (setTimer n x s).adm = s.adm := rfl
@[simp] theorem setTimer_mgt (n : Nat) (x : Timer) : (setTimer n x s).mgt = s.mgt := rfl
@[simp] theorem setTimer_config (n : Nat) (x : Timer) : (setTimer n x s).config = s.config := rfl
@[simp] theorem setTimer_journal (n : Nat) (x : Timer) : (setTimer n x s).journal = s.journal := rfl
@[simp] theorem setTimer_flash (n : Nat) (x : Timer) : (setTimer n x s).flash = s.flash := rfl
@[simp] theorem setTimer_flashId (n : Nat) (x : Timer) : (setTimer n x s).flashId = s.flashId := rfl
@[simp] theorem setTimer_straps (n : Nat) (x : Timer) : (setTimer n x s).straps = s.straps := rfl
@[simp] theorem setTimer_hl (n : Nat) (x : Timer) : (setTimer n x s).hl = s.hl := rfl
@[simp] theorem setTimer_bgt (n : Nat) (x : Timer) : (setTimer n x s).bgt = s.bgt := rfl
@[simp] theorem setTimer_hws (n : Nat) (x : Timer) : (setTimer n x s).hws = s.hws := rfl
@[simp] theorem setTimer_phase (n : Nat) (x : Timer) : (setTimer n x s).phase = s.phase := rfl
@[simp] theorem setTimer_frz (n : Nat) (x : Timer) : (setTimer n x s).frz = s.frz := rfl
@[simp] theorem setTimer_tap (n : Nat) (x : Timer) : (setTimer n x s).tap = s.tap := rfl
@[simp] theorem setTimer_answer (n : Nat) (x : Timer) : (setTimer n x s).answer = s.answer := rfl

/-! ### setChan -/

@[simp] theorem setChan_pending (n : Nat) (x : Chan) : (setChan n x s).pending = s.pending := rfl
@[simp] theorem setChan_fresh (n : Nat) (x : Chan) : (setChan n x s).fresh = s.fresh := rfl
@[simp] theorem setChan_tb (n : Nat) (x : Chan) : (setChan n x s).tb = s.tb := rfl
@[simp] theorem setChan_cfg (n : Nat) (x : Chan) : (setChan n x s).cfg = s.cfg := rfl
@[simp] theorem setChan_cnt (n : Nat) (x : Chan) : (setChan n x s).cnt = s.cnt := rfl
@[simp] theorem setChan_flags (n : Nat) (x : Chan) : (setChan n x s).flags = s.flags := rfl
@[simp] theorem setChan_tab (n : Nat) (x : Chan) : (setChan n x s).tab = s.tab := rfl
@[simp] theorem setChan_poisoned (n : Nat) (x : Chan) : (setChan n x s).poisoned = s.poisoned := rfl
@[simp] theorem setChan_holds (n : Nat) (x : Chan) : (setChan n x s).holds = s.holds := rfl
@[simp] theorem setChan_timers (n : Nat) (x : Chan) : (setChan n x s).timers = s.timers := rfl
@[simp] theorem setChan_chans (n : Nat) (x : Chan) : (setChan n x s).chans = Mem.write (fun _ => {}) s.chans n x := rfl
@[simp] theorem setChan_streams (n : Nat) (x : Chan) : (setChan n x s).streams = s.streams := rfl
@[simp] theorem setChan_rings (n : Nat) (x : Chan) : (setChan n x s).rings = s.rings := rfl
@[simp] theorem setChan_stagerTurn (n : Nat) (x : Chan) : (setChan n x s).stagerTurn = s.stagerTurn := rfl
@[simp] theorem setChan_sram (n : Nat) (x : Chan) : (setChan n x s).sram = s.sram := rfl
@[simp] theorem setChan_sramLost (n : Nat) (x : Chan) : (setChan n x s).sramLost = s.sramLost := rfl
@[simp] theorem setChan_hostMem (n : Nat) (x : Chan) : (setChan n x s).hostMem = s.hostMem := rfl
@[simp] theorem setChan_fes (n : Nat) (x : Chan) : (setChan n x s).fes = s.fes := rfl
@[simp] theorem setChan_stages (n : Nat) (x : Chan) : (setChan n x s).stages = s.stages := rfl
@[simp] theorem setChan_slots (n : Nat) (x : Chan) : (setChan n x s).slots = s.slots := rfl
@[simp] theorem setChan_spus (n : Nat) (x : Chan) : (setChan n x s).spus = s.spus := rfl
@[simp] theorem setChan_engines (n : Nat) (x : Chan) : (setChan n x s).engines = s.engines := rfl
@[simp] theorem setChan_icu (n : Nat) (x : Chan) : (setChan n x s).icu = s.icu := rfl
@[simp] theorem setChan_icuViews (n : Nat) (x : Chan) : (setChan n x s).icuViews = s.icuViews := rfl
@[simp] theorem setChan_journalQ (n : Nat) (x : Chan) : (setChan n x s).journalQ = s.journalQ := rfl
@[simp] theorem setChan_cvps (n : Nat) (x : Chan) : (setChan n x s).cvps = s.cvps := rfl
@[simp] theorem setChan_sbps (n : Nat) (x : Chan) : (setChan n x s).sbps = s.sbps := rfl
@[simp] theorem setChan_polls (n : Nat) (x : Chan) : (setChan n x s).polls = s.polls := rfl
@[simp] theorem setChan_evps (n : Nat) (x : Chan) : (setChan n x s).evps = s.evps := rfl
@[simp] theorem setChan_tchs (n : Nat) (x : Chan) : (setChan n x s).tchs = s.tchs := rfl
@[simp] theorem setChan_tchScan (n : Nat) (x : Chan) : (setChan n x s).tchScan = s.tchScan := rfl
@[simp] theorem setChan_tchStamp (n : Nat) (x : Chan) : (setChan n x s).tchStamp = s.tchStamp := rfl
@[simp] theorem setChan_evos (n : Nat) (x : Chan) : (setChan n x s).evos = s.evos := rfl
@[simp] theorem setChan_trigLines (n : Nat) (x : Chan) : (setChan n x s).trigLines = s.trigLines := rfl
@[simp] theorem setChan_power (n : Nat) (x : Chan) : (setChan n x s).power = s.power := rfl
@[simp] theorem setChan_adm (n : Nat) (x : Chan) : (setChan n x s).adm = s.adm := rfl
@[simp] theorem setChan_mgt (n : Nat) (x : Chan) : (setChan n x s).mgt = s.mgt := rfl
@[simp] theorem setChan_config (n : Nat) (x : Chan) : (setChan n x s).config = s.config := rfl
@[simp] theorem setChan_journal (n : Nat) (x : Chan) : (setChan n x s).journal = s.journal := rfl
@[simp] theorem setChan_flash (n : Nat) (x : Chan) : (setChan n x s).flash = s.flash := rfl
@[simp] theorem setChan_flashId (n : Nat) (x : Chan) : (setChan n x s).flashId = s.flashId := rfl
@[simp] theorem setChan_straps (n : Nat) (x : Chan) : (setChan n x s).straps = s.straps := rfl
@[simp] theorem setChan_hl (n : Nat) (x : Chan) : (setChan n x s).hl = s.hl := rfl
@[simp] theorem setChan_bgt (n : Nat) (x : Chan) : (setChan n x s).bgt = s.bgt := rfl
@[simp] theorem setChan_hws (n : Nat) (x : Chan) : (setChan n x s).hws = s.hws := rfl
@[simp] theorem setChan_phase (n : Nat) (x : Chan) : (setChan n x s).phase = s.phase := rfl
@[simp] theorem setChan_frz (n : Nat) (x : Chan) : (setChan n x s).frz = s.frz := rfl
@[simp] theorem setChan_tap (n : Nat) (x : Chan) : (setChan n x s).tap = s.tap := rfl
@[simp] theorem setChan_answer (n : Nat) (x : Chan) : (setChan n x s).answer = s.answer := rfl

/-! ### setStream -/

@[simp] theorem setStream_pending (n : Nat) (x : Stream) : (setStream n x s).pending = s.pending := rfl
@[simp] theorem setStream_fresh (n : Nat) (x : Stream) : (setStream n x s).fresh = s.fresh := rfl
@[simp] theorem setStream_tb (n : Nat) (x : Stream) : (setStream n x s).tb = s.tb := rfl
@[simp] theorem setStream_cfg (n : Nat) (x : Stream) : (setStream n x s).cfg = s.cfg := rfl
@[simp] theorem setStream_cnt (n : Nat) (x : Stream) : (setStream n x s).cnt = s.cnt := rfl
@[simp] theorem setStream_flags (n : Nat) (x : Stream) : (setStream n x s).flags = s.flags := rfl
@[simp] theorem setStream_tab (n : Nat) (x : Stream) : (setStream n x s).tab = s.tab := rfl
@[simp] theorem setStream_poisoned (n : Nat) (x : Stream) : (setStream n x s).poisoned = s.poisoned := rfl
@[simp] theorem setStream_holds (n : Nat) (x : Stream) : (setStream n x s).holds = s.holds := rfl
@[simp] theorem setStream_timers (n : Nat) (x : Stream) : (setStream n x s).timers = s.timers := rfl
@[simp] theorem setStream_chans (n : Nat) (x : Stream) : (setStream n x s).chans = s.chans := rfl
@[simp] theorem setStream_streams (n : Nat) (x : Stream) : (setStream n x s).streams = Mem.write (fun _ => {}) s.streams n x := rfl
@[simp] theorem setStream_rings (n : Nat) (x : Stream) : (setStream n x s).rings = s.rings := rfl
@[simp] theorem setStream_stagerTurn (n : Nat) (x : Stream) : (setStream n x s).stagerTurn = s.stagerTurn := rfl
@[simp] theorem setStream_sram (n : Nat) (x : Stream) : (setStream n x s).sram = s.sram := rfl
@[simp] theorem setStream_sramLost (n : Nat) (x : Stream) : (setStream n x s).sramLost = s.sramLost := rfl
@[simp] theorem setStream_hostMem (n : Nat) (x : Stream) : (setStream n x s).hostMem = s.hostMem := rfl
@[simp] theorem setStream_fes (n : Nat) (x : Stream) : (setStream n x s).fes = s.fes := rfl
@[simp] theorem setStream_stages (n : Nat) (x : Stream) : (setStream n x s).stages = s.stages := rfl
@[simp] theorem setStream_slots (n : Nat) (x : Stream) : (setStream n x s).slots = s.slots := rfl
@[simp] theorem setStream_spus (n : Nat) (x : Stream) : (setStream n x s).spus = s.spus := rfl
@[simp] theorem setStream_engines (n : Nat) (x : Stream) : (setStream n x s).engines = s.engines := rfl
@[simp] theorem setStream_icu (n : Nat) (x : Stream) : (setStream n x s).icu = s.icu := rfl
@[simp] theorem setStream_icuViews (n : Nat) (x : Stream) : (setStream n x s).icuViews = s.icuViews := rfl
@[simp] theorem setStream_journalQ (n : Nat) (x : Stream) : (setStream n x s).journalQ = s.journalQ := rfl
@[simp] theorem setStream_cvps (n : Nat) (x : Stream) : (setStream n x s).cvps = s.cvps := rfl
@[simp] theorem setStream_sbps (n : Nat) (x : Stream) : (setStream n x s).sbps = s.sbps := rfl
@[simp] theorem setStream_polls (n : Nat) (x : Stream) : (setStream n x s).polls = s.polls := rfl
@[simp] theorem setStream_evps (n : Nat) (x : Stream) : (setStream n x s).evps = s.evps := rfl
@[simp] theorem setStream_tchs (n : Nat) (x : Stream) : (setStream n x s).tchs = s.tchs := rfl
@[simp] theorem setStream_tchScan (n : Nat) (x : Stream) : (setStream n x s).tchScan = s.tchScan := rfl
@[simp] theorem setStream_tchStamp (n : Nat) (x : Stream) : (setStream n x s).tchStamp = s.tchStamp := rfl
@[simp] theorem setStream_evos (n : Nat) (x : Stream) : (setStream n x s).evos = s.evos := rfl
@[simp] theorem setStream_trigLines (n : Nat) (x : Stream) : (setStream n x s).trigLines = s.trigLines := rfl
@[simp] theorem setStream_power (n : Nat) (x : Stream) : (setStream n x s).power = s.power := rfl
@[simp] theorem setStream_adm (n : Nat) (x : Stream) : (setStream n x s).adm = s.adm := rfl
@[simp] theorem setStream_mgt (n : Nat) (x : Stream) : (setStream n x s).mgt = s.mgt := rfl
@[simp] theorem setStream_config (n : Nat) (x : Stream) : (setStream n x s).config = s.config := rfl
@[simp] theorem setStream_journal (n : Nat) (x : Stream) : (setStream n x s).journal = s.journal := rfl
@[simp] theorem setStream_flash (n : Nat) (x : Stream) : (setStream n x s).flash = s.flash := rfl
@[simp] theorem setStream_flashId (n : Nat) (x : Stream) : (setStream n x s).flashId = s.flashId := rfl
@[simp] theorem setStream_straps (n : Nat) (x : Stream) : (setStream n x s).straps = s.straps := rfl
@[simp] theorem setStream_hl (n : Nat) (x : Stream) : (setStream n x s).hl = s.hl := rfl
@[simp] theorem setStream_bgt (n : Nat) (x : Stream) : (setStream n x s).bgt = s.bgt := rfl
@[simp] theorem setStream_hws (n : Nat) (x : Stream) : (setStream n x s).hws = s.hws := rfl
@[simp] theorem setStream_phase (n : Nat) (x : Stream) : (setStream n x s).phase = s.phase := rfl
@[simp] theorem setStream_frz (n : Nat) (x : Stream) : (setStream n x s).frz = s.frz := rfl
@[simp] theorem setStream_tap (n : Nat) (x : Stream) : (setStream n x s).tap = s.tap := rfl
@[simp] theorem setStream_answer (n : Nat) (x : Stream) : (setStream n x s).answer = s.answer := rfl

/-! ### setRing -/

@[simp] theorem setRing_pending (n : Nat) (x : Ring) : (setRing n x s).pending = s.pending := rfl
@[simp] theorem setRing_fresh (n : Nat) (x : Ring) : (setRing n x s).fresh = s.fresh := rfl
@[simp] theorem setRing_tb (n : Nat) (x : Ring) : (setRing n x s).tb = s.tb := rfl
@[simp] theorem setRing_cfg (n : Nat) (x : Ring) : (setRing n x s).cfg = s.cfg := rfl
@[simp] theorem setRing_cnt (n : Nat) (x : Ring) : (setRing n x s).cnt = s.cnt := rfl
@[simp] theorem setRing_flags (n : Nat) (x : Ring) : (setRing n x s).flags = s.flags := rfl
@[simp] theorem setRing_tab (n : Nat) (x : Ring) : (setRing n x s).tab = s.tab := rfl
@[simp] theorem setRing_poisoned (n : Nat) (x : Ring) : (setRing n x s).poisoned = s.poisoned := rfl
@[simp] theorem setRing_holds (n : Nat) (x : Ring) : (setRing n x s).holds = s.holds := rfl
@[simp] theorem setRing_timers (n : Nat) (x : Ring) : (setRing n x s).timers = s.timers := rfl
@[simp] theorem setRing_chans (n : Nat) (x : Ring) : (setRing n x s).chans = s.chans := rfl
@[simp] theorem setRing_streams (n : Nat) (x : Ring) : (setRing n x s).streams = s.streams := rfl
@[simp] theorem setRing_rings (n : Nat) (x : Ring) : (setRing n x s).rings = Mem.write (fun _ => {}) s.rings n x := rfl
@[simp] theorem setRing_stagerTurn (n : Nat) (x : Ring) : (setRing n x s).stagerTurn = s.stagerTurn := rfl
@[simp] theorem setRing_sram (n : Nat) (x : Ring) : (setRing n x s).sram = s.sram := rfl
@[simp] theorem setRing_sramLost (n : Nat) (x : Ring) : (setRing n x s).sramLost = s.sramLost := rfl
@[simp] theorem setRing_hostMem (n : Nat) (x : Ring) : (setRing n x s).hostMem = s.hostMem := rfl
@[simp] theorem setRing_fes (n : Nat) (x : Ring) : (setRing n x s).fes = s.fes := rfl
@[simp] theorem setRing_stages (n : Nat) (x : Ring) : (setRing n x s).stages = s.stages := rfl
@[simp] theorem setRing_slots (n : Nat) (x : Ring) : (setRing n x s).slots = s.slots := rfl
@[simp] theorem setRing_spus (n : Nat) (x : Ring) : (setRing n x s).spus = s.spus := rfl
@[simp] theorem setRing_engines (n : Nat) (x : Ring) : (setRing n x s).engines = s.engines := rfl
@[simp] theorem setRing_icu (n : Nat) (x : Ring) : (setRing n x s).icu = s.icu := rfl
@[simp] theorem setRing_icuViews (n : Nat) (x : Ring) : (setRing n x s).icuViews = s.icuViews := rfl
@[simp] theorem setRing_journalQ (n : Nat) (x : Ring) : (setRing n x s).journalQ = s.journalQ := rfl
@[simp] theorem setRing_cvps (n : Nat) (x : Ring) : (setRing n x s).cvps = s.cvps := rfl
@[simp] theorem setRing_sbps (n : Nat) (x : Ring) : (setRing n x s).sbps = s.sbps := rfl
@[simp] theorem setRing_polls (n : Nat) (x : Ring) : (setRing n x s).polls = s.polls := rfl
@[simp] theorem setRing_evps (n : Nat) (x : Ring) : (setRing n x s).evps = s.evps := rfl
@[simp] theorem setRing_tchs (n : Nat) (x : Ring) : (setRing n x s).tchs = s.tchs := rfl
@[simp] theorem setRing_tchScan (n : Nat) (x : Ring) : (setRing n x s).tchScan = s.tchScan := rfl
@[simp] theorem setRing_tchStamp (n : Nat) (x : Ring) : (setRing n x s).tchStamp = s.tchStamp := rfl
@[simp] theorem setRing_evos (n : Nat) (x : Ring) : (setRing n x s).evos = s.evos := rfl
@[simp] theorem setRing_trigLines (n : Nat) (x : Ring) : (setRing n x s).trigLines = s.trigLines := rfl
@[simp] theorem setRing_power (n : Nat) (x : Ring) : (setRing n x s).power = s.power := rfl
@[simp] theorem setRing_adm (n : Nat) (x : Ring) : (setRing n x s).adm = s.adm := rfl
@[simp] theorem setRing_mgt (n : Nat) (x : Ring) : (setRing n x s).mgt = s.mgt := rfl
@[simp] theorem setRing_config (n : Nat) (x : Ring) : (setRing n x s).config = s.config := rfl
@[simp] theorem setRing_journal (n : Nat) (x : Ring) : (setRing n x s).journal = s.journal := rfl
@[simp] theorem setRing_flash (n : Nat) (x : Ring) : (setRing n x s).flash = s.flash := rfl
@[simp] theorem setRing_flashId (n : Nat) (x : Ring) : (setRing n x s).flashId = s.flashId := rfl
@[simp] theorem setRing_straps (n : Nat) (x : Ring) : (setRing n x s).straps = s.straps := rfl
@[simp] theorem setRing_hl (n : Nat) (x : Ring) : (setRing n x s).hl = s.hl := rfl
@[simp] theorem setRing_bgt (n : Nat) (x : Ring) : (setRing n x s).bgt = s.bgt := rfl
@[simp] theorem setRing_hws (n : Nat) (x : Ring) : (setRing n x s).hws = s.hws := rfl
@[simp] theorem setRing_phase (n : Nat) (x : Ring) : (setRing n x s).phase = s.phase := rfl
@[simp] theorem setRing_frz (n : Nat) (x : Ring) : (setRing n x s).frz = s.frz := rfl
@[simp] theorem setRing_tap (n : Nat) (x : Ring) : (setRing n x s).tap = s.tap := rfl
@[simp] theorem setRing_answer (n : Nat) (x : Ring) : (setRing n x s).answer = s.answer := rfl

/-! ### setFe -/

@[simp] theorem setFe_pending (n : Nat) (x : FilterEngine) : (setFe n x s).pending = s.pending := rfl
@[simp] theorem setFe_fresh (n : Nat) (x : FilterEngine) : (setFe n x s).fresh = s.fresh := rfl
@[simp] theorem setFe_tb (n : Nat) (x : FilterEngine) : (setFe n x s).tb = s.tb := rfl
@[simp] theorem setFe_cfg (n : Nat) (x : FilterEngine) : (setFe n x s).cfg = s.cfg := rfl
@[simp] theorem setFe_cnt (n : Nat) (x : FilterEngine) : (setFe n x s).cnt = s.cnt := rfl
@[simp] theorem setFe_flags (n : Nat) (x : FilterEngine) : (setFe n x s).flags = s.flags := rfl
@[simp] theorem setFe_tab (n : Nat) (x : FilterEngine) : (setFe n x s).tab = s.tab := rfl
@[simp] theorem setFe_poisoned (n : Nat) (x : FilterEngine) : (setFe n x s).poisoned = s.poisoned := rfl
@[simp] theorem setFe_holds (n : Nat) (x : FilterEngine) : (setFe n x s).holds = s.holds := rfl
@[simp] theorem setFe_timers (n : Nat) (x : FilterEngine) : (setFe n x s).timers = s.timers := rfl
@[simp] theorem setFe_chans (n : Nat) (x : FilterEngine) : (setFe n x s).chans = s.chans := rfl
@[simp] theorem setFe_streams (n : Nat) (x : FilterEngine) : (setFe n x s).streams = s.streams := rfl
@[simp] theorem setFe_rings (n : Nat) (x : FilterEngine) : (setFe n x s).rings = s.rings := rfl
@[simp] theorem setFe_stagerTurn (n : Nat) (x : FilterEngine) : (setFe n x s).stagerTurn = s.stagerTurn := rfl
@[simp] theorem setFe_sram (n : Nat) (x : FilterEngine) : (setFe n x s).sram = s.sram := rfl
@[simp] theorem setFe_sramLost (n : Nat) (x : FilterEngine) : (setFe n x s).sramLost = s.sramLost := rfl
@[simp] theorem setFe_hostMem (n : Nat) (x : FilterEngine) : (setFe n x s).hostMem = s.hostMem := rfl
@[simp] theorem setFe_fes (n : Nat) (x : FilterEngine) : (setFe n x s).fes = Mem.write (fun _ => {}) s.fes n x := rfl
@[simp] theorem setFe_stages (n : Nat) (x : FilterEngine) : (setFe n x s).stages = s.stages := rfl
@[simp] theorem setFe_slots (n : Nat) (x : FilterEngine) : (setFe n x s).slots = s.slots := rfl
@[simp] theorem setFe_spus (n : Nat) (x : FilterEngine) : (setFe n x s).spus = s.spus := rfl
@[simp] theorem setFe_engines (n : Nat) (x : FilterEngine) : (setFe n x s).engines = s.engines := rfl
@[simp] theorem setFe_icu (n : Nat) (x : FilterEngine) : (setFe n x s).icu = s.icu := rfl
@[simp] theorem setFe_icuViews (n : Nat) (x : FilterEngine) : (setFe n x s).icuViews = s.icuViews := rfl
@[simp] theorem setFe_journalQ (n : Nat) (x : FilterEngine) : (setFe n x s).journalQ = s.journalQ := rfl
@[simp] theorem setFe_cvps (n : Nat) (x : FilterEngine) : (setFe n x s).cvps = s.cvps := rfl
@[simp] theorem setFe_sbps (n : Nat) (x : FilterEngine) : (setFe n x s).sbps = s.sbps := rfl
@[simp] theorem setFe_polls (n : Nat) (x : FilterEngine) : (setFe n x s).polls = s.polls := rfl
@[simp] theorem setFe_evps (n : Nat) (x : FilterEngine) : (setFe n x s).evps = s.evps := rfl
@[simp] theorem setFe_tchs (n : Nat) (x : FilterEngine) : (setFe n x s).tchs = s.tchs := rfl
@[simp] theorem setFe_tchScan (n : Nat) (x : FilterEngine) : (setFe n x s).tchScan = s.tchScan := rfl
@[simp] theorem setFe_tchStamp (n : Nat) (x : FilterEngine) : (setFe n x s).tchStamp = s.tchStamp := rfl
@[simp] theorem setFe_evos (n : Nat) (x : FilterEngine) : (setFe n x s).evos = s.evos := rfl
@[simp] theorem setFe_trigLines (n : Nat) (x : FilterEngine) : (setFe n x s).trigLines = s.trigLines := rfl
@[simp] theorem setFe_power (n : Nat) (x : FilterEngine) : (setFe n x s).power = s.power := rfl
@[simp] theorem setFe_adm (n : Nat) (x : FilterEngine) : (setFe n x s).adm = s.adm := rfl
@[simp] theorem setFe_mgt (n : Nat) (x : FilterEngine) : (setFe n x s).mgt = s.mgt := rfl
@[simp] theorem setFe_config (n : Nat) (x : FilterEngine) : (setFe n x s).config = s.config := rfl
@[simp] theorem setFe_journal (n : Nat) (x : FilterEngine) : (setFe n x s).journal = s.journal := rfl
@[simp] theorem setFe_flash (n : Nat) (x : FilterEngine) : (setFe n x s).flash = s.flash := rfl
@[simp] theorem setFe_flashId (n : Nat) (x : FilterEngine) : (setFe n x s).flashId = s.flashId := rfl
@[simp] theorem setFe_straps (n : Nat) (x : FilterEngine) : (setFe n x s).straps = s.straps := rfl
@[simp] theorem setFe_hl (n : Nat) (x : FilterEngine) : (setFe n x s).hl = s.hl := rfl
@[simp] theorem setFe_bgt (n : Nat) (x : FilterEngine) : (setFe n x s).bgt = s.bgt := rfl
@[simp] theorem setFe_hws (n : Nat) (x : FilterEngine) : (setFe n x s).hws = s.hws := rfl
@[simp] theorem setFe_phase (n : Nat) (x : FilterEngine) : (setFe n x s).phase = s.phase := rfl
@[simp] theorem setFe_frz (n : Nat) (x : FilterEngine) : (setFe n x s).frz = s.frz := rfl
@[simp] theorem setFe_tap (n : Nat) (x : FilterEngine) : (setFe n x s).tap = s.tap := rfl
@[simp] theorem setFe_answer (n : Nat) (x : FilterEngine) : (setFe n x s).answer = s.answer := rfl

/-! ### setSlot -/

@[simp] theorem setSlot_pending (n : Nat) (x : RfSlot) : (setSlot n x s).pending = s.pending := rfl
@[simp] theorem setSlot_fresh (n : Nat) (x : RfSlot) : (setSlot n x s).fresh = s.fresh := rfl
@[simp] theorem setSlot_tb (n : Nat) (x : RfSlot) : (setSlot n x s).tb = s.tb := rfl
@[simp] theorem setSlot_cfg (n : Nat) (x : RfSlot) : (setSlot n x s).cfg = s.cfg := rfl
@[simp] theorem setSlot_cnt (n : Nat) (x : RfSlot) : (setSlot n x s).cnt = s.cnt := rfl
@[simp] theorem setSlot_flags (n : Nat) (x : RfSlot) : (setSlot n x s).flags = s.flags := rfl
@[simp] theorem setSlot_tab (n : Nat) (x : RfSlot) : (setSlot n x s).tab = s.tab := rfl
@[simp] theorem setSlot_poisoned (n : Nat) (x : RfSlot) : (setSlot n x s).poisoned = s.poisoned := rfl
@[simp] theorem setSlot_holds (n : Nat) (x : RfSlot) : (setSlot n x s).holds = s.holds := rfl
@[simp] theorem setSlot_timers (n : Nat) (x : RfSlot) : (setSlot n x s).timers = s.timers := rfl
@[simp] theorem setSlot_chans (n : Nat) (x : RfSlot) : (setSlot n x s).chans = s.chans := rfl
@[simp] theorem setSlot_streams (n : Nat) (x : RfSlot) : (setSlot n x s).streams = s.streams := rfl
@[simp] theorem setSlot_rings (n : Nat) (x : RfSlot) : (setSlot n x s).rings = s.rings := rfl
@[simp] theorem setSlot_stagerTurn (n : Nat) (x : RfSlot) : (setSlot n x s).stagerTurn = s.stagerTurn := rfl
@[simp] theorem setSlot_sram (n : Nat) (x : RfSlot) : (setSlot n x s).sram = s.sram := rfl
@[simp] theorem setSlot_sramLost (n : Nat) (x : RfSlot) : (setSlot n x s).sramLost = s.sramLost := rfl
@[simp] theorem setSlot_hostMem (n : Nat) (x : RfSlot) : (setSlot n x s).hostMem = s.hostMem := rfl
@[simp] theorem setSlot_fes (n : Nat) (x : RfSlot) : (setSlot n x s).fes = s.fes := rfl
@[simp] theorem setSlot_stages (n : Nat) (x : RfSlot) : (setSlot n x s).stages = s.stages := rfl
@[simp] theorem setSlot_slots (n : Nat) (x : RfSlot) : (setSlot n x s).slots = Mem.write (fun _ => {}) s.slots n x := rfl
@[simp] theorem setSlot_spus (n : Nat) (x : RfSlot) : (setSlot n x s).spus = s.spus := rfl
@[simp] theorem setSlot_engines (n : Nat) (x : RfSlot) : (setSlot n x s).engines = s.engines := rfl
@[simp] theorem setSlot_icu (n : Nat) (x : RfSlot) : (setSlot n x s).icu = s.icu := rfl
@[simp] theorem setSlot_icuViews (n : Nat) (x : RfSlot) : (setSlot n x s).icuViews = s.icuViews := rfl
@[simp] theorem setSlot_journalQ (n : Nat) (x : RfSlot) : (setSlot n x s).journalQ = s.journalQ := rfl
@[simp] theorem setSlot_cvps (n : Nat) (x : RfSlot) : (setSlot n x s).cvps = s.cvps := rfl
@[simp] theorem setSlot_sbps (n : Nat) (x : RfSlot) : (setSlot n x s).sbps = s.sbps := rfl
@[simp] theorem setSlot_polls (n : Nat) (x : RfSlot) : (setSlot n x s).polls = s.polls := rfl
@[simp] theorem setSlot_evps (n : Nat) (x : RfSlot) : (setSlot n x s).evps = s.evps := rfl
@[simp] theorem setSlot_tchs (n : Nat) (x : RfSlot) : (setSlot n x s).tchs = s.tchs := rfl
@[simp] theorem setSlot_tchScan (n : Nat) (x : RfSlot) : (setSlot n x s).tchScan = s.tchScan := rfl
@[simp] theorem setSlot_tchStamp (n : Nat) (x : RfSlot) : (setSlot n x s).tchStamp = s.tchStamp := rfl
@[simp] theorem setSlot_evos (n : Nat) (x : RfSlot) : (setSlot n x s).evos = s.evos := rfl
@[simp] theorem setSlot_trigLines (n : Nat) (x : RfSlot) : (setSlot n x s).trigLines = s.trigLines := rfl
@[simp] theorem setSlot_power (n : Nat) (x : RfSlot) : (setSlot n x s).power = s.power := rfl
@[simp] theorem setSlot_adm (n : Nat) (x : RfSlot) : (setSlot n x s).adm = s.adm := rfl
@[simp] theorem setSlot_mgt (n : Nat) (x : RfSlot) : (setSlot n x s).mgt = s.mgt := rfl
@[simp] theorem setSlot_config (n : Nat) (x : RfSlot) : (setSlot n x s).config = s.config := rfl
@[simp] theorem setSlot_journal (n : Nat) (x : RfSlot) : (setSlot n x s).journal = s.journal := rfl
@[simp] theorem setSlot_flash (n : Nat) (x : RfSlot) : (setSlot n x s).flash = s.flash := rfl
@[simp] theorem setSlot_flashId (n : Nat) (x : RfSlot) : (setSlot n x s).flashId = s.flashId := rfl
@[simp] theorem setSlot_straps (n : Nat) (x : RfSlot) : (setSlot n x s).straps = s.straps := rfl
@[simp] theorem setSlot_hl (n : Nat) (x : RfSlot) : (setSlot n x s).hl = s.hl := rfl
@[simp] theorem setSlot_bgt (n : Nat) (x : RfSlot) : (setSlot n x s).bgt = s.bgt := rfl
@[simp] theorem setSlot_hws (n : Nat) (x : RfSlot) : (setSlot n x s).hws = s.hws := rfl
@[simp] theorem setSlot_phase (n : Nat) (x : RfSlot) : (setSlot n x s).phase = s.phase := rfl
@[simp] theorem setSlot_frz (n : Nat) (x : RfSlot) : (setSlot n x s).frz = s.frz := rfl
@[simp] theorem setSlot_tap (n : Nat) (x : RfSlot) : (setSlot n x s).tap = s.tap := rfl
@[simp] theorem setSlot_answer (n : Nat) (x : RfSlot) : (setSlot n x s).answer = s.answer := rfl

/-! ### setSpu -/

@[simp] theorem setSpu_pending (n : Nat) (x : Spu) : (setSpu n x s).pending = s.pending := rfl
@[simp] theorem setSpu_fresh (n : Nat) (x : Spu) : (setSpu n x s).fresh = s.fresh := rfl
@[simp] theorem setSpu_tb (n : Nat) (x : Spu) : (setSpu n x s).tb = s.tb := rfl
@[simp] theorem setSpu_cfg (n : Nat) (x : Spu) : (setSpu n x s).cfg = s.cfg := rfl
@[simp] theorem setSpu_cnt (n : Nat) (x : Spu) : (setSpu n x s).cnt = s.cnt := rfl
@[simp] theorem setSpu_flags (n : Nat) (x : Spu) : (setSpu n x s).flags = s.flags := rfl
@[simp] theorem setSpu_tab (n : Nat) (x : Spu) : (setSpu n x s).tab = s.tab := rfl
@[simp] theorem setSpu_poisoned (n : Nat) (x : Spu) : (setSpu n x s).poisoned = s.poisoned := rfl
@[simp] theorem setSpu_holds (n : Nat) (x : Spu) : (setSpu n x s).holds = s.holds := rfl
@[simp] theorem setSpu_timers (n : Nat) (x : Spu) : (setSpu n x s).timers = s.timers := rfl
@[simp] theorem setSpu_chans (n : Nat) (x : Spu) : (setSpu n x s).chans = s.chans := rfl
@[simp] theorem setSpu_streams (n : Nat) (x : Spu) : (setSpu n x s).streams = s.streams := rfl
@[simp] theorem setSpu_rings (n : Nat) (x : Spu) : (setSpu n x s).rings = s.rings := rfl
@[simp] theorem setSpu_stagerTurn (n : Nat) (x : Spu) : (setSpu n x s).stagerTurn = s.stagerTurn := rfl
@[simp] theorem setSpu_sram (n : Nat) (x : Spu) : (setSpu n x s).sram = s.sram := rfl
@[simp] theorem setSpu_sramLost (n : Nat) (x : Spu) : (setSpu n x s).sramLost = s.sramLost := rfl
@[simp] theorem setSpu_hostMem (n : Nat) (x : Spu) : (setSpu n x s).hostMem = s.hostMem := rfl
@[simp] theorem setSpu_fes (n : Nat) (x : Spu) : (setSpu n x s).fes = s.fes := rfl
@[simp] theorem setSpu_stages (n : Nat) (x : Spu) : (setSpu n x s).stages = s.stages := rfl
@[simp] theorem setSpu_slots (n : Nat) (x : Spu) : (setSpu n x s).slots = s.slots := rfl
@[simp] theorem setSpu_spus (n : Nat) (x : Spu) : (setSpu n x s).spus = Mem.write (fun _ => {}) s.spus n x := rfl
@[simp] theorem setSpu_engines (n : Nat) (x : Spu) : (setSpu n x s).engines = s.engines := rfl
@[simp] theorem setSpu_icu (n : Nat) (x : Spu) : (setSpu n x s).icu = s.icu := rfl
@[simp] theorem setSpu_icuViews (n : Nat) (x : Spu) : (setSpu n x s).icuViews = s.icuViews := rfl
@[simp] theorem setSpu_journalQ (n : Nat) (x : Spu) : (setSpu n x s).journalQ = s.journalQ := rfl
@[simp] theorem setSpu_cvps (n : Nat) (x : Spu) : (setSpu n x s).cvps = s.cvps := rfl
@[simp] theorem setSpu_sbps (n : Nat) (x : Spu) : (setSpu n x s).sbps = s.sbps := rfl
@[simp] theorem setSpu_polls (n : Nat) (x : Spu) : (setSpu n x s).polls = s.polls := rfl
@[simp] theorem setSpu_evps (n : Nat) (x : Spu) : (setSpu n x s).evps = s.evps := rfl
@[simp] theorem setSpu_tchs (n : Nat) (x : Spu) : (setSpu n x s).tchs = s.tchs := rfl
@[simp] theorem setSpu_tchScan (n : Nat) (x : Spu) : (setSpu n x s).tchScan = s.tchScan := rfl
@[simp] theorem setSpu_tchStamp (n : Nat) (x : Spu) : (setSpu n x s).tchStamp = s.tchStamp := rfl
@[simp] theorem setSpu_evos (n : Nat) (x : Spu) : (setSpu n x s).evos = s.evos := rfl
@[simp] theorem setSpu_trigLines (n : Nat) (x : Spu) : (setSpu n x s).trigLines = s.trigLines := rfl
@[simp] theorem setSpu_power (n : Nat) (x : Spu) : (setSpu n x s).power = s.power := rfl
@[simp] theorem setSpu_adm (n : Nat) (x : Spu) : (setSpu n x s).adm = s.adm := rfl
@[simp] theorem setSpu_mgt (n : Nat) (x : Spu) : (setSpu n x s).mgt = s.mgt := rfl
@[simp] theorem setSpu_config (n : Nat) (x : Spu) : (setSpu n x s).config = s.config := rfl
@[simp] theorem setSpu_journal (n : Nat) (x : Spu) : (setSpu n x s).journal = s.journal := rfl
@[simp] theorem setSpu_flash (n : Nat) (x : Spu) : (setSpu n x s).flash = s.flash := rfl
@[simp] theorem setSpu_flashId (n : Nat) (x : Spu) : (setSpu n x s).flashId = s.flashId := rfl
@[simp] theorem setSpu_straps (n : Nat) (x : Spu) : (setSpu n x s).straps = s.straps := rfl
@[simp] theorem setSpu_hl (n : Nat) (x : Spu) : (setSpu n x s).hl = s.hl := rfl
@[simp] theorem setSpu_bgt (n : Nat) (x : Spu) : (setSpu n x s).bgt = s.bgt := rfl
@[simp] theorem setSpu_hws (n : Nat) (x : Spu) : (setSpu n x s).hws = s.hws := rfl
@[simp] theorem setSpu_phase (n : Nat) (x : Spu) : (setSpu n x s).phase = s.phase := rfl
@[simp] theorem setSpu_frz (n : Nat) (x : Spu) : (setSpu n x s).frz = s.frz := rfl
@[simp] theorem setSpu_tap (n : Nat) (x : Spu) : (setSpu n x s).tap = s.tap := rfl
@[simp] theorem setSpu_answer (n : Nat) (x : Spu) : (setSpu n x s).answer = s.answer := rfl

/-! ### setEngine -/

@[simp] theorem setEngine_pending (n : Nat) (x : Engine) : (setEngine n x s).pending = s.pending := rfl
@[simp] theorem setEngine_fresh (n : Nat) (x : Engine) : (setEngine n x s).fresh = s.fresh := rfl
@[simp] theorem setEngine_tb (n : Nat) (x : Engine) : (setEngine n x s).tb = s.tb := rfl
@[simp] theorem setEngine_cfg (n : Nat) (x : Engine) : (setEngine n x s).cfg = s.cfg := rfl
@[simp] theorem setEngine_cnt (n : Nat) (x : Engine) : (setEngine n x s).cnt = s.cnt := rfl
@[simp] theorem setEngine_flags (n : Nat) (x : Engine) : (setEngine n x s).flags = s.flags := rfl
@[simp] theorem setEngine_tab (n : Nat) (x : Engine) : (setEngine n x s).tab = s.tab := rfl
@[simp] theorem setEngine_poisoned (n : Nat) (x : Engine) : (setEngine n x s).poisoned = s.poisoned := rfl
@[simp] theorem setEngine_holds (n : Nat) (x : Engine) : (setEngine n x s).holds = s.holds := rfl
@[simp] theorem setEngine_timers (n : Nat) (x : Engine) : (setEngine n x s).timers = s.timers := rfl
@[simp] theorem setEngine_chans (n : Nat) (x : Engine) : (setEngine n x s).chans = s.chans := rfl
@[simp] theorem setEngine_streams (n : Nat) (x : Engine) : (setEngine n x s).streams = s.streams := rfl
@[simp] theorem setEngine_rings (n : Nat) (x : Engine) : (setEngine n x s).rings = s.rings := rfl
@[simp] theorem setEngine_stagerTurn (n : Nat) (x : Engine) : (setEngine n x s).stagerTurn = s.stagerTurn := rfl
@[simp] theorem setEngine_sram (n : Nat) (x : Engine) : (setEngine n x s).sram = s.sram := rfl
@[simp] theorem setEngine_sramLost (n : Nat) (x : Engine) : (setEngine n x s).sramLost = s.sramLost := rfl
@[simp] theorem setEngine_hostMem (n : Nat) (x : Engine) : (setEngine n x s).hostMem = s.hostMem := rfl
@[simp] theorem setEngine_fes (n : Nat) (x : Engine) : (setEngine n x s).fes = s.fes := rfl
@[simp] theorem setEngine_stages (n : Nat) (x : Engine) : (setEngine n x s).stages = s.stages := rfl
@[simp] theorem setEngine_slots (n : Nat) (x : Engine) : (setEngine n x s).slots = s.slots := rfl
@[simp] theorem setEngine_spus (n : Nat) (x : Engine) : (setEngine n x s).spus = s.spus := rfl
@[simp] theorem setEngine_engines (n : Nat) (x : Engine) : (setEngine n x s).engines = Mem.write (fun _ => {}) s.engines n x := rfl
@[simp] theorem setEngine_icu (n : Nat) (x : Engine) : (setEngine n x s).icu = s.icu := rfl
@[simp] theorem setEngine_icuViews (n : Nat) (x : Engine) : (setEngine n x s).icuViews = s.icuViews := rfl
@[simp] theorem setEngine_journalQ (n : Nat) (x : Engine) : (setEngine n x s).journalQ = s.journalQ := rfl
@[simp] theorem setEngine_cvps (n : Nat) (x : Engine) : (setEngine n x s).cvps = s.cvps := rfl
@[simp] theorem setEngine_sbps (n : Nat) (x : Engine) : (setEngine n x s).sbps = s.sbps := rfl
@[simp] theorem setEngine_polls (n : Nat) (x : Engine) : (setEngine n x s).polls = s.polls := rfl
@[simp] theorem setEngine_evps (n : Nat) (x : Engine) : (setEngine n x s).evps = s.evps := rfl
@[simp] theorem setEngine_tchs (n : Nat) (x : Engine) : (setEngine n x s).tchs = s.tchs := rfl
@[simp] theorem setEngine_tchScan (n : Nat) (x : Engine) : (setEngine n x s).tchScan = s.tchScan := rfl
@[simp] theorem setEngine_tchStamp (n : Nat) (x : Engine) : (setEngine n x s).tchStamp = s.tchStamp := rfl
@[simp] theorem setEngine_evos (n : Nat) (x : Engine) : (setEngine n x s).evos = s.evos := rfl
@[simp] theorem setEngine_trigLines (n : Nat) (x : Engine) : (setEngine n x s).trigLines = s.trigLines := rfl
@[simp] theorem setEngine_power (n : Nat) (x : Engine) : (setEngine n x s).power = s.power := rfl
@[simp] theorem setEngine_adm (n : Nat) (x : Engine) : (setEngine n x s).adm = s.adm := rfl
@[simp] theorem setEngine_mgt (n : Nat) (x : Engine) : (setEngine n x s).mgt = s.mgt := rfl
@[simp] theorem setEngine_config (n : Nat) (x : Engine) : (setEngine n x s).config = s.config := rfl
@[simp] theorem setEngine_journal (n : Nat) (x : Engine) : (setEngine n x s).journal = s.journal := rfl
@[simp] theorem setEngine_flash (n : Nat) (x : Engine) : (setEngine n x s).flash = s.flash := rfl
@[simp] theorem setEngine_flashId (n : Nat) (x : Engine) : (setEngine n x s).flashId = s.flashId := rfl
@[simp] theorem setEngine_straps (n : Nat) (x : Engine) : (setEngine n x s).straps = s.straps := rfl
@[simp] theorem setEngine_hl (n : Nat) (x : Engine) : (setEngine n x s).hl = s.hl := rfl
@[simp] theorem setEngine_bgt (n : Nat) (x : Engine) : (setEngine n x s).bgt = s.bgt := rfl
@[simp] theorem setEngine_hws (n : Nat) (x : Engine) : (setEngine n x s).hws = s.hws := rfl
@[simp] theorem setEngine_phase (n : Nat) (x : Engine) : (setEngine n x s).phase = s.phase := rfl
@[simp] theorem setEngine_frz (n : Nat) (x : Engine) : (setEngine n x s).frz = s.frz := rfl
@[simp] theorem setEngine_tap (n : Nat) (x : Engine) : (setEngine n x s).tap = s.tap := rfl
@[simp] theorem setEngine_answer (n : Nat) (x : Engine) : (setEngine n x s).answer = s.answer := rfl

/-! ### setIcu -/

@[simp] theorem setIcu_pending (n : Nat) (x : IcuSource) : (setIcu n x s).pending = s.pending := rfl
@[simp] theorem setIcu_fresh (n : Nat) (x : IcuSource) : (setIcu n x s).fresh = s.fresh := rfl
@[simp] theorem setIcu_tb (n : Nat) (x : IcuSource) : (setIcu n x s).tb = s.tb := rfl
@[simp] theorem setIcu_cfg (n : Nat) (x : IcuSource) : (setIcu n x s).cfg = s.cfg := rfl
@[simp] theorem setIcu_cnt (n : Nat) (x : IcuSource) : (setIcu n x s).cnt = s.cnt := rfl
@[simp] theorem setIcu_flags (n : Nat) (x : IcuSource) : (setIcu n x s).flags = s.flags := rfl
@[simp] theorem setIcu_tab (n : Nat) (x : IcuSource) : (setIcu n x s).tab = s.tab := rfl
@[simp] theorem setIcu_poisoned (n : Nat) (x : IcuSource) : (setIcu n x s).poisoned = s.poisoned := rfl
@[simp] theorem setIcu_holds (n : Nat) (x : IcuSource) : (setIcu n x s).holds = s.holds := rfl
@[simp] theorem setIcu_timers (n : Nat) (x : IcuSource) : (setIcu n x s).timers = s.timers := rfl
@[simp] theorem setIcu_chans (n : Nat) (x : IcuSource) : (setIcu n x s).chans = s.chans := rfl
@[simp] theorem setIcu_streams (n : Nat) (x : IcuSource) : (setIcu n x s).streams = s.streams := rfl
@[simp] theorem setIcu_rings (n : Nat) (x : IcuSource) : (setIcu n x s).rings = s.rings := rfl
@[simp] theorem setIcu_stagerTurn (n : Nat) (x : IcuSource) : (setIcu n x s).stagerTurn = s.stagerTurn := rfl
@[simp] theorem setIcu_sram (n : Nat) (x : IcuSource) : (setIcu n x s).sram = s.sram := rfl
@[simp] theorem setIcu_sramLost (n : Nat) (x : IcuSource) : (setIcu n x s).sramLost = s.sramLost := rfl
@[simp] theorem setIcu_hostMem (n : Nat) (x : IcuSource) : (setIcu n x s).hostMem = s.hostMem := rfl
@[simp] theorem setIcu_fes (n : Nat) (x : IcuSource) : (setIcu n x s).fes = s.fes := rfl
@[simp] theorem setIcu_stages (n : Nat) (x : IcuSource) : (setIcu n x s).stages = s.stages := rfl
@[simp] theorem setIcu_slots (n : Nat) (x : IcuSource) : (setIcu n x s).slots = s.slots := rfl
@[simp] theorem setIcu_spus (n : Nat) (x : IcuSource) : (setIcu n x s).spus = s.spus := rfl
@[simp] theorem setIcu_engines (n : Nat) (x : IcuSource) : (setIcu n x s).engines = s.engines := rfl
@[simp] theorem setIcu_icu (n : Nat) (x : IcuSource) : (setIcu n x s).icu = Mem.write (fun _ => {}) s.icu n x := rfl
@[simp] theorem setIcu_icuViews (n : Nat) (x : IcuSource) : (setIcu n x s).icuViews = s.icuViews := rfl
@[simp] theorem setIcu_journalQ (n : Nat) (x : IcuSource) : (setIcu n x s).journalQ = s.journalQ := rfl
@[simp] theorem setIcu_cvps (n : Nat) (x : IcuSource) : (setIcu n x s).cvps = s.cvps := rfl
@[simp] theorem setIcu_sbps (n : Nat) (x : IcuSource) : (setIcu n x s).sbps = s.sbps := rfl
@[simp] theorem setIcu_polls (n : Nat) (x : IcuSource) : (setIcu n x s).polls = s.polls := rfl
@[simp] theorem setIcu_evps (n : Nat) (x : IcuSource) : (setIcu n x s).evps = s.evps := rfl
@[simp] theorem setIcu_tchs (n : Nat) (x : IcuSource) : (setIcu n x s).tchs = s.tchs := rfl
@[simp] theorem setIcu_tchScan (n : Nat) (x : IcuSource) : (setIcu n x s).tchScan = s.tchScan := rfl
@[simp] theorem setIcu_tchStamp (n : Nat) (x : IcuSource) : (setIcu n x s).tchStamp = s.tchStamp := rfl
@[simp] theorem setIcu_evos (n : Nat) (x : IcuSource) : (setIcu n x s).evos = s.evos := rfl
@[simp] theorem setIcu_trigLines (n : Nat) (x : IcuSource) : (setIcu n x s).trigLines = s.trigLines := rfl
@[simp] theorem setIcu_power (n : Nat) (x : IcuSource) : (setIcu n x s).power = s.power := rfl
@[simp] theorem setIcu_adm (n : Nat) (x : IcuSource) : (setIcu n x s).adm = s.adm := rfl
@[simp] theorem setIcu_mgt (n : Nat) (x : IcuSource) : (setIcu n x s).mgt = s.mgt := rfl
@[simp] theorem setIcu_config (n : Nat) (x : IcuSource) : (setIcu n x s).config = s.config := rfl
@[simp] theorem setIcu_journal (n : Nat) (x : IcuSource) : (setIcu n x s).journal = s.journal := rfl
@[simp] theorem setIcu_flash (n : Nat) (x : IcuSource) : (setIcu n x s).flash = s.flash := rfl
@[simp] theorem setIcu_flashId (n : Nat) (x : IcuSource) : (setIcu n x s).flashId = s.flashId := rfl
@[simp] theorem setIcu_straps (n : Nat) (x : IcuSource) : (setIcu n x s).straps = s.straps := rfl
@[simp] theorem setIcu_hl (n : Nat) (x : IcuSource) : (setIcu n x s).hl = s.hl := rfl
@[simp] theorem setIcu_bgt (n : Nat) (x : IcuSource) : (setIcu n x s).bgt = s.bgt := rfl
@[simp] theorem setIcu_hws (n : Nat) (x : IcuSource) : (setIcu n x s).hws = s.hws := rfl
@[simp] theorem setIcu_phase (n : Nat) (x : IcuSource) : (setIcu n x s).phase = s.phase := rfl
@[simp] theorem setIcu_frz (n : Nat) (x : IcuSource) : (setIcu n x s).frz = s.frz := rfl
@[simp] theorem setIcu_tap (n : Nat) (x : IcuSource) : (setIcu n x s).tap = s.tap := rfl
@[simp] theorem setIcu_answer (n : Nat) (x : IcuSource) : (setIcu n x s).answer = s.answer := rfl

/-! ### setCvp -/

@[simp] theorem setCvp_pending (n : Nat) (x : Cvp) : (setCvp n x s).pending = s.pending := rfl
@[simp] theorem setCvp_fresh (n : Nat) (x : Cvp) : (setCvp n x s).fresh = s.fresh := rfl
@[simp] theorem setCvp_tb (n : Nat) (x : Cvp) : (setCvp n x s).tb = s.tb := rfl
@[simp] theorem setCvp_cfg (n : Nat) (x : Cvp) : (setCvp n x s).cfg = s.cfg := rfl
@[simp] theorem setCvp_cnt (n : Nat) (x : Cvp) : (setCvp n x s).cnt = s.cnt := rfl
@[simp] theorem setCvp_flags (n : Nat) (x : Cvp) : (setCvp n x s).flags = s.flags := rfl
@[simp] theorem setCvp_tab (n : Nat) (x : Cvp) : (setCvp n x s).tab = s.tab := rfl
@[simp] theorem setCvp_poisoned (n : Nat) (x : Cvp) : (setCvp n x s).poisoned = s.poisoned := rfl
@[simp] theorem setCvp_holds (n : Nat) (x : Cvp) : (setCvp n x s).holds = s.holds := rfl
@[simp] theorem setCvp_timers (n : Nat) (x : Cvp) : (setCvp n x s).timers = s.timers := rfl
@[simp] theorem setCvp_chans (n : Nat) (x : Cvp) : (setCvp n x s).chans = s.chans := rfl
@[simp] theorem setCvp_streams (n : Nat) (x : Cvp) : (setCvp n x s).streams = s.streams := rfl
@[simp] theorem setCvp_rings (n : Nat) (x : Cvp) : (setCvp n x s).rings = s.rings := rfl
@[simp] theorem setCvp_stagerTurn (n : Nat) (x : Cvp) : (setCvp n x s).stagerTurn = s.stagerTurn := rfl
@[simp] theorem setCvp_sram (n : Nat) (x : Cvp) : (setCvp n x s).sram = s.sram := rfl
@[simp] theorem setCvp_sramLost (n : Nat) (x : Cvp) : (setCvp n x s).sramLost = s.sramLost := rfl
@[simp] theorem setCvp_hostMem (n : Nat) (x : Cvp) : (setCvp n x s).hostMem = s.hostMem := rfl
@[simp] theorem setCvp_fes (n : Nat) (x : Cvp) : (setCvp n x s).fes = s.fes := rfl
@[simp] theorem setCvp_stages (n : Nat) (x : Cvp) : (setCvp n x s).stages = s.stages := rfl
@[simp] theorem setCvp_slots (n : Nat) (x : Cvp) : (setCvp n x s).slots = s.slots := rfl
@[simp] theorem setCvp_spus (n : Nat) (x : Cvp) : (setCvp n x s).spus = s.spus := rfl
@[simp] theorem setCvp_engines (n : Nat) (x : Cvp) : (setCvp n x s).engines = s.engines := rfl
@[simp] theorem setCvp_icu (n : Nat) (x : Cvp) : (setCvp n x s).icu = s.icu := rfl
@[simp] theorem setCvp_icuViews (n : Nat) (x : Cvp) : (setCvp n x s).icuViews = s.icuViews := rfl
@[simp] theorem setCvp_journalQ (n : Nat) (x : Cvp) : (setCvp n x s).journalQ = s.journalQ := rfl
@[simp] theorem setCvp_cvps (n : Nat) (x : Cvp) : (setCvp n x s).cvps = Mem.write (fun _ => {}) s.cvps n x := rfl
@[simp] theorem setCvp_sbps (n : Nat) (x : Cvp) : (setCvp n x s).sbps = s.sbps := rfl
@[simp] theorem setCvp_polls (n : Nat) (x : Cvp) : (setCvp n x s).polls = s.polls := rfl
@[simp] theorem setCvp_evps (n : Nat) (x : Cvp) : (setCvp n x s).evps = s.evps := rfl
@[simp] theorem setCvp_tchs (n : Nat) (x : Cvp) : (setCvp n x s).tchs = s.tchs := rfl
@[simp] theorem setCvp_tchScan (n : Nat) (x : Cvp) : (setCvp n x s).tchScan = s.tchScan := rfl
@[simp] theorem setCvp_tchStamp (n : Nat) (x : Cvp) : (setCvp n x s).tchStamp = s.tchStamp := rfl
@[simp] theorem setCvp_evos (n : Nat) (x : Cvp) : (setCvp n x s).evos = s.evos := rfl
@[simp] theorem setCvp_trigLines (n : Nat) (x : Cvp) : (setCvp n x s).trigLines = s.trigLines := rfl
@[simp] theorem setCvp_power (n : Nat) (x : Cvp) : (setCvp n x s).power = s.power := rfl
@[simp] theorem setCvp_adm (n : Nat) (x : Cvp) : (setCvp n x s).adm = s.adm := rfl
@[simp] theorem setCvp_mgt (n : Nat) (x : Cvp) : (setCvp n x s).mgt = s.mgt := rfl
@[simp] theorem setCvp_config (n : Nat) (x : Cvp) : (setCvp n x s).config = s.config := rfl
@[simp] theorem setCvp_journal (n : Nat) (x : Cvp) : (setCvp n x s).journal = s.journal := rfl
@[simp] theorem setCvp_flash (n : Nat) (x : Cvp) : (setCvp n x s).flash = s.flash := rfl
@[simp] theorem setCvp_flashId (n : Nat) (x : Cvp) : (setCvp n x s).flashId = s.flashId := rfl
@[simp] theorem setCvp_straps (n : Nat) (x : Cvp) : (setCvp n x s).straps = s.straps := rfl
@[simp] theorem setCvp_hl (n : Nat) (x : Cvp) : (setCvp n x s).hl = s.hl := rfl
@[simp] theorem setCvp_bgt (n : Nat) (x : Cvp) : (setCvp n x s).bgt = s.bgt := rfl
@[simp] theorem setCvp_hws (n : Nat) (x : Cvp) : (setCvp n x s).hws = s.hws := rfl
@[simp] theorem setCvp_phase (n : Nat) (x : Cvp) : (setCvp n x s).phase = s.phase := rfl
@[simp] theorem setCvp_frz (n : Nat) (x : Cvp) : (setCvp n x s).frz = s.frz := rfl
@[simp] theorem setCvp_tap (n : Nat) (x : Cvp) : (setCvp n x s).tap = s.tap := rfl
@[simp] theorem setCvp_answer (n : Nat) (x : Cvp) : (setCvp n x s).answer = s.answer := rfl

/-! ### setSbp -/

@[simp] theorem setSbp_pending (n : Nat) (x : SbPort) : (setSbp n x s).pending = s.pending := rfl
@[simp] theorem setSbp_fresh (n : Nat) (x : SbPort) : (setSbp n x s).fresh = s.fresh := rfl
@[simp] theorem setSbp_tb (n : Nat) (x : SbPort) : (setSbp n x s).tb = s.tb := rfl
@[simp] theorem setSbp_cfg (n : Nat) (x : SbPort) : (setSbp n x s).cfg = s.cfg := rfl
@[simp] theorem setSbp_cnt (n : Nat) (x : SbPort) : (setSbp n x s).cnt = s.cnt := rfl
@[simp] theorem setSbp_flags (n : Nat) (x : SbPort) : (setSbp n x s).flags = s.flags := rfl
@[simp] theorem setSbp_tab (n : Nat) (x : SbPort) : (setSbp n x s).tab = s.tab := rfl
@[simp] theorem setSbp_poisoned (n : Nat) (x : SbPort) : (setSbp n x s).poisoned = s.poisoned := rfl
@[simp] theorem setSbp_holds (n : Nat) (x : SbPort) : (setSbp n x s).holds = s.holds := rfl
@[simp] theorem setSbp_timers (n : Nat) (x : SbPort) : (setSbp n x s).timers = s.timers := rfl
@[simp] theorem setSbp_chans (n : Nat) (x : SbPort) : (setSbp n x s).chans = s.chans := rfl
@[simp] theorem setSbp_streams (n : Nat) (x : SbPort) : (setSbp n x s).streams = s.streams := rfl
@[simp] theorem setSbp_rings (n : Nat) (x : SbPort) : (setSbp n x s).rings = s.rings := rfl
@[simp] theorem setSbp_stagerTurn (n : Nat) (x : SbPort) : (setSbp n x s).stagerTurn = s.stagerTurn := rfl
@[simp] theorem setSbp_sram (n : Nat) (x : SbPort) : (setSbp n x s).sram = s.sram := rfl
@[simp] theorem setSbp_sramLost (n : Nat) (x : SbPort) : (setSbp n x s).sramLost = s.sramLost := rfl
@[simp] theorem setSbp_hostMem (n : Nat) (x : SbPort) : (setSbp n x s).hostMem = s.hostMem := rfl
@[simp] theorem setSbp_fes (n : Nat) (x : SbPort) : (setSbp n x s).fes = s.fes := rfl
@[simp] theorem setSbp_stages (n : Nat) (x : SbPort) : (setSbp n x s).stages = s.stages := rfl
@[simp] theorem setSbp_slots (n : Nat) (x : SbPort) : (setSbp n x s).slots = s.slots := rfl
@[simp] theorem setSbp_spus (n : Nat) (x : SbPort) : (setSbp n x s).spus = s.spus := rfl
@[simp] theorem setSbp_engines (n : Nat) (x : SbPort) : (setSbp n x s).engines = s.engines := rfl
@[simp] theorem setSbp_icu (n : Nat) (x : SbPort) : (setSbp n x s).icu = s.icu := rfl
@[simp] theorem setSbp_icuViews (n : Nat) (x : SbPort) : (setSbp n x s).icuViews = s.icuViews := rfl
@[simp] theorem setSbp_journalQ (n : Nat) (x : SbPort) : (setSbp n x s).journalQ = s.journalQ := rfl
@[simp] theorem setSbp_cvps (n : Nat) (x : SbPort) : (setSbp n x s).cvps = s.cvps := rfl
@[simp] theorem setSbp_sbps (n : Nat) (x : SbPort) : (setSbp n x s).sbps = Mem.write (fun _ => {}) s.sbps n x := rfl
@[simp] theorem setSbp_polls (n : Nat) (x : SbPort) : (setSbp n x s).polls = s.polls := rfl
@[simp] theorem setSbp_evps (n : Nat) (x : SbPort) : (setSbp n x s).evps = s.evps := rfl
@[simp] theorem setSbp_tchs (n : Nat) (x : SbPort) : (setSbp n x s).tchs = s.tchs := rfl
@[simp] theorem setSbp_tchScan (n : Nat) (x : SbPort) : (setSbp n x s).tchScan = s.tchScan := rfl
@[simp] theorem setSbp_tchStamp (n : Nat) (x : SbPort) : (setSbp n x s).tchStamp = s.tchStamp := rfl
@[simp] theorem setSbp_evos (n : Nat) (x : SbPort) : (setSbp n x s).evos = s.evos := rfl
@[simp] theorem setSbp_trigLines (n : Nat) (x : SbPort) : (setSbp n x s).trigLines = s.trigLines := rfl
@[simp] theorem setSbp_power (n : Nat) (x : SbPort) : (setSbp n x s).power = s.power := rfl
@[simp] theorem setSbp_adm (n : Nat) (x : SbPort) : (setSbp n x s).adm = s.adm := rfl
@[simp] theorem setSbp_mgt (n : Nat) (x : SbPort) : (setSbp n x s).mgt = s.mgt := rfl
@[simp] theorem setSbp_config (n : Nat) (x : SbPort) : (setSbp n x s).config = s.config := rfl
@[simp] theorem setSbp_journal (n : Nat) (x : SbPort) : (setSbp n x s).journal = s.journal := rfl
@[simp] theorem setSbp_flash (n : Nat) (x : SbPort) : (setSbp n x s).flash = s.flash := rfl
@[simp] theorem setSbp_flashId (n : Nat) (x : SbPort) : (setSbp n x s).flashId = s.flashId := rfl
@[simp] theorem setSbp_straps (n : Nat) (x : SbPort) : (setSbp n x s).straps = s.straps := rfl
@[simp] theorem setSbp_hl (n : Nat) (x : SbPort) : (setSbp n x s).hl = s.hl := rfl
@[simp] theorem setSbp_bgt (n : Nat) (x : SbPort) : (setSbp n x s).bgt = s.bgt := rfl
@[simp] theorem setSbp_hws (n : Nat) (x : SbPort) : (setSbp n x s).hws = s.hws := rfl
@[simp] theorem setSbp_phase (n : Nat) (x : SbPort) : (setSbp n x s).phase = s.phase := rfl
@[simp] theorem setSbp_frz (n : Nat) (x : SbPort) : (setSbp n x s).frz = s.frz := rfl
@[simp] theorem setSbp_tap (n : Nat) (x : SbPort) : (setSbp n x s).tap = s.tap := rfl
@[simp] theorem setSbp_answer (n : Nat) (x : SbPort) : (setSbp n x s).answer = s.answer := rfl

/-! ### setEvp -/

@[simp] theorem setEvp_pending (n : Nat) (x : Evp) : (setEvp n x s).pending = s.pending := rfl
@[simp] theorem setEvp_fresh (n : Nat) (x : Evp) : (setEvp n x s).fresh = s.fresh := rfl
@[simp] theorem setEvp_tb (n : Nat) (x : Evp) : (setEvp n x s).tb = s.tb := rfl
@[simp] theorem setEvp_cfg (n : Nat) (x : Evp) : (setEvp n x s).cfg = s.cfg := rfl
@[simp] theorem setEvp_cnt (n : Nat) (x : Evp) : (setEvp n x s).cnt = s.cnt := rfl
@[simp] theorem setEvp_flags (n : Nat) (x : Evp) : (setEvp n x s).flags = s.flags := rfl
@[simp] theorem setEvp_tab (n : Nat) (x : Evp) : (setEvp n x s).tab = s.tab := rfl
@[simp] theorem setEvp_poisoned (n : Nat) (x : Evp) : (setEvp n x s).poisoned = s.poisoned := rfl
@[simp] theorem setEvp_holds (n : Nat) (x : Evp) : (setEvp n x s).holds = s.holds := rfl
@[simp] theorem setEvp_timers (n : Nat) (x : Evp) : (setEvp n x s).timers = s.timers := rfl
@[simp] theorem setEvp_chans (n : Nat) (x : Evp) : (setEvp n x s).chans = s.chans := rfl
@[simp] theorem setEvp_streams (n : Nat) (x : Evp) : (setEvp n x s).streams = s.streams := rfl
@[simp] theorem setEvp_rings (n : Nat) (x : Evp) : (setEvp n x s).rings = s.rings := rfl
@[simp] theorem setEvp_stagerTurn (n : Nat) (x : Evp) : (setEvp n x s).stagerTurn = s.stagerTurn := rfl
@[simp] theorem setEvp_sram (n : Nat) (x : Evp) : (setEvp n x s).sram = s.sram := rfl
@[simp] theorem setEvp_sramLost (n : Nat) (x : Evp) : (setEvp n x s).sramLost = s.sramLost := rfl
@[simp] theorem setEvp_hostMem (n : Nat) (x : Evp) : (setEvp n x s).hostMem = s.hostMem := rfl
@[simp] theorem setEvp_fes (n : Nat) (x : Evp) : (setEvp n x s).fes = s.fes := rfl
@[simp] theorem setEvp_stages (n : Nat) (x : Evp) : (setEvp n x s).stages = s.stages := rfl
@[simp] theorem setEvp_slots (n : Nat) (x : Evp) : (setEvp n x s).slots = s.slots := rfl
@[simp] theorem setEvp_spus (n : Nat) (x : Evp) : (setEvp n x s).spus = s.spus := rfl
@[simp] theorem setEvp_engines (n : Nat) (x : Evp) : (setEvp n x s).engines = s.engines := rfl
@[simp] theorem setEvp_icu (n : Nat) (x : Evp) : (setEvp n x s).icu = s.icu := rfl
@[simp] theorem setEvp_icuViews (n : Nat) (x : Evp) : (setEvp n x s).icuViews = s.icuViews := rfl
@[simp] theorem setEvp_journalQ (n : Nat) (x : Evp) : (setEvp n x s).journalQ = s.journalQ := rfl
@[simp] theorem setEvp_cvps (n : Nat) (x : Evp) : (setEvp n x s).cvps = s.cvps := rfl
@[simp] theorem setEvp_sbps (n : Nat) (x : Evp) : (setEvp n x s).sbps = s.sbps := rfl
@[simp] theorem setEvp_polls (n : Nat) (x : Evp) : (setEvp n x s).polls = s.polls := rfl
@[simp] theorem setEvp_evps (n : Nat) (x : Evp) : (setEvp n x s).evps = Mem.write (fun _ => {}) s.evps n x := rfl
@[simp] theorem setEvp_tchs (n : Nat) (x : Evp) : (setEvp n x s).tchs = s.tchs := rfl
@[simp] theorem setEvp_tchScan (n : Nat) (x : Evp) : (setEvp n x s).tchScan = s.tchScan := rfl
@[simp] theorem setEvp_tchStamp (n : Nat) (x : Evp) : (setEvp n x s).tchStamp = s.tchStamp := rfl
@[simp] theorem setEvp_evos (n : Nat) (x : Evp) : (setEvp n x s).evos = s.evos := rfl
@[simp] theorem setEvp_trigLines (n : Nat) (x : Evp) : (setEvp n x s).trigLines = s.trigLines := rfl
@[simp] theorem setEvp_power (n : Nat) (x : Evp) : (setEvp n x s).power = s.power := rfl
@[simp] theorem setEvp_adm (n : Nat) (x : Evp) : (setEvp n x s).adm = s.adm := rfl
@[simp] theorem setEvp_mgt (n : Nat) (x : Evp) : (setEvp n x s).mgt = s.mgt := rfl
@[simp] theorem setEvp_config (n : Nat) (x : Evp) : (setEvp n x s).config = s.config := rfl
@[simp] theorem setEvp_journal (n : Nat) (x : Evp) : (setEvp n x s).journal = s.journal := rfl
@[simp] theorem setEvp_flash (n : Nat) (x : Evp) : (setEvp n x s).flash = s.flash := rfl
@[simp] theorem setEvp_flashId (n : Nat) (x : Evp) : (setEvp n x s).flashId = s.flashId := rfl
@[simp] theorem setEvp_straps (n : Nat) (x : Evp) : (setEvp n x s).straps = s.straps := rfl
@[simp] theorem setEvp_hl (n : Nat) (x : Evp) : (setEvp n x s).hl = s.hl := rfl
@[simp] theorem setEvp_bgt (n : Nat) (x : Evp) : (setEvp n x s).bgt = s.bgt := rfl
@[simp] theorem setEvp_hws (n : Nat) (x : Evp) : (setEvp n x s).hws = s.hws := rfl
@[simp] theorem setEvp_phase (n : Nat) (x : Evp) : (setEvp n x s).phase = s.phase := rfl
@[simp] theorem setEvp_frz (n : Nat) (x : Evp) : (setEvp n x s).frz = s.frz := rfl
@[simp] theorem setEvp_tap (n : Nat) (x : Evp) : (setEvp n x s).tap = s.tap := rfl
@[simp] theorem setEvp_answer (n : Nat) (x : Evp) : (setEvp n x s).answer = s.answer := rfl

/-! ### setTch -/

@[simp] theorem setTch_pending (n : Nat) (x : Tch) : (setTch n x s).pending = s.pending := rfl
@[simp] theorem setTch_fresh (n : Nat) (x : Tch) : (setTch n x s).fresh = s.fresh := rfl
@[simp] theorem setTch_tb (n : Nat) (x : Tch) : (setTch n x s).tb = s.tb := rfl
@[simp] theorem setTch_cfg (n : Nat) (x : Tch) : (setTch n x s).cfg = s.cfg := rfl
@[simp] theorem setTch_cnt (n : Nat) (x : Tch) : (setTch n x s).cnt = s.cnt := rfl
@[simp] theorem setTch_flags (n : Nat) (x : Tch) : (setTch n x s).flags = s.flags := rfl
@[simp] theorem setTch_tab (n : Nat) (x : Tch) : (setTch n x s).tab = s.tab := rfl
@[simp] theorem setTch_poisoned (n : Nat) (x : Tch) : (setTch n x s).poisoned = s.poisoned := rfl
@[simp] theorem setTch_holds (n : Nat) (x : Tch) : (setTch n x s).holds = s.holds := rfl
@[simp] theorem setTch_timers (n : Nat) (x : Tch) : (setTch n x s).timers = s.timers := rfl
@[simp] theorem setTch_chans (n : Nat) (x : Tch) : (setTch n x s).chans = s.chans := rfl
@[simp] theorem setTch_streams (n : Nat) (x : Tch) : (setTch n x s).streams = s.streams := rfl
@[simp] theorem setTch_rings (n : Nat) (x : Tch) : (setTch n x s).rings = s.rings := rfl
@[simp] theorem setTch_stagerTurn (n : Nat) (x : Tch) : (setTch n x s).stagerTurn = s.stagerTurn := rfl
@[simp] theorem setTch_sram (n : Nat) (x : Tch) : (setTch n x s).sram = s.sram := rfl
@[simp] theorem setTch_sramLost (n : Nat) (x : Tch) : (setTch n x s).sramLost = s.sramLost := rfl
@[simp] theorem setTch_hostMem (n : Nat) (x : Tch) : (setTch n x s).hostMem = s.hostMem := rfl
@[simp] theorem setTch_fes (n : Nat) (x : Tch) : (setTch n x s).fes = s.fes := rfl
@[simp] theorem setTch_stages (n : Nat) (x : Tch) : (setTch n x s).stages = s.stages := rfl
@[simp] theorem setTch_slots (n : Nat) (x : Tch) : (setTch n x s).slots = s.slots := rfl
@[simp] theorem setTch_spus (n : Nat) (x : Tch) : (setTch n x s).spus = s.spus := rfl
@[simp] theorem setTch_engines (n : Nat) (x : Tch) : (setTch n x s).engines = s.engines := rfl
@[simp] theorem setTch_icu (n : Nat) (x : Tch) : (setTch n x s).icu = s.icu := rfl
@[simp] theorem setTch_icuViews (n : Nat) (x : Tch) : (setTch n x s).icuViews = s.icuViews := rfl
@[simp] theorem setTch_journalQ (n : Nat) (x : Tch) : (setTch n x s).journalQ = s.journalQ := rfl
@[simp] theorem setTch_cvps (n : Nat) (x : Tch) : (setTch n x s).cvps = s.cvps := rfl
@[simp] theorem setTch_sbps (n : Nat) (x : Tch) : (setTch n x s).sbps = s.sbps := rfl
@[simp] theorem setTch_polls (n : Nat) (x : Tch) : (setTch n x s).polls = s.polls := rfl
@[simp] theorem setTch_evps (n : Nat) (x : Tch) : (setTch n x s).evps = s.evps := rfl
@[simp] theorem setTch_tchs (n : Nat) (x : Tch) : (setTch n x s).tchs = Mem.write (fun _ => {}) s.tchs n x := rfl
@[simp] theorem setTch_tchScan (n : Nat) (x : Tch) : (setTch n x s).tchScan = s.tchScan := rfl
@[simp] theorem setTch_tchStamp (n : Nat) (x : Tch) : (setTch n x s).tchStamp = s.tchStamp := rfl
@[simp] theorem setTch_evos (n : Nat) (x : Tch) : (setTch n x s).evos = s.evos := rfl
@[simp] theorem setTch_trigLines (n : Nat) (x : Tch) : (setTch n x s).trigLines = s.trigLines := rfl
@[simp] theorem setTch_power (n : Nat) (x : Tch) : (setTch n x s).power = s.power := rfl
@[simp] theorem setTch_adm (n : Nat) (x : Tch) : (setTch n x s).adm = s.adm := rfl
@[simp] theorem setTch_mgt (n : Nat) (x : Tch) : (setTch n x s).mgt = s.mgt := rfl
@[simp] theorem setTch_config (n : Nat) (x : Tch) : (setTch n x s).config = s.config := rfl
@[simp] theorem setTch_journal (n : Nat) (x : Tch) : (setTch n x s).journal = s.journal := rfl
@[simp] theorem setTch_flash (n : Nat) (x : Tch) : (setTch n x s).flash = s.flash := rfl
@[simp] theorem setTch_flashId (n : Nat) (x : Tch) : (setTch n x s).flashId = s.flashId := rfl
@[simp] theorem setTch_straps (n : Nat) (x : Tch) : (setTch n x s).straps = s.straps := rfl
@[simp] theorem setTch_hl (n : Nat) (x : Tch) : (setTch n x s).hl = s.hl := rfl
@[simp] theorem setTch_bgt (n : Nat) (x : Tch) : (setTch n x s).bgt = s.bgt := rfl
@[simp] theorem setTch_hws (n : Nat) (x : Tch) : (setTch n x s).hws = s.hws := rfl
@[simp] theorem setTch_phase (n : Nat) (x : Tch) : (setTch n x s).phase = s.phase := rfl
@[simp] theorem setTch_frz (n : Nat) (x : Tch) : (setTch n x s).frz = s.frz := rfl
@[simp] theorem setTch_tap (n : Nat) (x : Tch) : (setTch n x s).tap = s.tap := rfl
@[simp] theorem setTch_answer (n : Nat) (x : Tch) : (setTch n x s).answer = s.answer := rfl

/-! ### setEvo -/

@[simp] theorem setEvo_pending (n : Nat) (x : Evo) : (setEvo n x s).pending = s.pending := rfl
@[simp] theorem setEvo_fresh (n : Nat) (x : Evo) : (setEvo n x s).fresh = s.fresh := rfl
@[simp] theorem setEvo_tb (n : Nat) (x : Evo) : (setEvo n x s).tb = s.tb := rfl
@[simp] theorem setEvo_cfg (n : Nat) (x : Evo) : (setEvo n x s).cfg = s.cfg := rfl
@[simp] theorem setEvo_cnt (n : Nat) (x : Evo) : (setEvo n x s).cnt = s.cnt := rfl
@[simp] theorem setEvo_flags (n : Nat) (x : Evo) : (setEvo n x s).flags = s.flags := rfl
@[simp] theorem setEvo_tab (n : Nat) (x : Evo) : (setEvo n x s).tab = s.tab := rfl
@[simp] theorem setEvo_poisoned (n : Nat) (x : Evo) : (setEvo n x s).poisoned = s.poisoned := rfl
@[simp] theorem setEvo_holds (n : Nat) (x : Evo) : (setEvo n x s).holds = s.holds := rfl
@[simp] theorem setEvo_timers (n : Nat) (x : Evo) : (setEvo n x s).timers = s.timers := rfl
@[simp] theorem setEvo_chans (n : Nat) (x : Evo) : (setEvo n x s).chans = s.chans := rfl
@[simp] theorem setEvo_streams (n : Nat) (x : Evo) : (setEvo n x s).streams = s.streams := rfl
@[simp] theorem setEvo_rings (n : Nat) (x : Evo) : (setEvo n x s).rings = s.rings := rfl
@[simp] theorem setEvo_stagerTurn (n : Nat) (x : Evo) : (setEvo n x s).stagerTurn = s.stagerTurn := rfl
@[simp] theorem setEvo_sram (n : Nat) (x : Evo) : (setEvo n x s).sram = s.sram := rfl
@[simp] theorem setEvo_sramLost (n : Nat) (x : Evo) : (setEvo n x s).sramLost = s.sramLost := rfl
@[simp] theorem setEvo_hostMem (n : Nat) (x : Evo) : (setEvo n x s).hostMem = s.hostMem := rfl
@[simp] theorem setEvo_fes (n : Nat) (x : Evo) : (setEvo n x s).fes = s.fes := rfl
@[simp] theorem setEvo_stages (n : Nat) (x : Evo) : (setEvo n x s).stages = s.stages := rfl
@[simp] theorem setEvo_slots (n : Nat) (x : Evo) : (setEvo n x s).slots = s.slots := rfl
@[simp] theorem setEvo_spus (n : Nat) (x : Evo) : (setEvo n x s).spus = s.spus := rfl
@[simp] theorem setEvo_engines (n : Nat) (x : Evo) : (setEvo n x s).engines = s.engines := rfl
@[simp] theorem setEvo_icu (n : Nat) (x : Evo) : (setEvo n x s).icu = s.icu := rfl
@[simp] theorem setEvo_icuViews (n : Nat) (x : Evo) : (setEvo n x s).icuViews = s.icuViews := rfl
@[simp] theorem setEvo_journalQ (n : Nat) (x : Evo) : (setEvo n x s).journalQ = s.journalQ := rfl
@[simp] theorem setEvo_cvps (n : Nat) (x : Evo) : (setEvo n x s).cvps = s.cvps := rfl
@[simp] theorem setEvo_sbps (n : Nat) (x : Evo) : (setEvo n x s).sbps = s.sbps := rfl
@[simp] theorem setEvo_polls (n : Nat) (x : Evo) : (setEvo n x s).polls = s.polls := rfl
@[simp] theorem setEvo_evps (n : Nat) (x : Evo) : (setEvo n x s).evps = s.evps := rfl
@[simp] theorem setEvo_tchs (n : Nat) (x : Evo) : (setEvo n x s).tchs = s.tchs := rfl
@[simp] theorem setEvo_tchScan (n : Nat) (x : Evo) : (setEvo n x s).tchScan = s.tchScan := rfl
@[simp] theorem setEvo_tchStamp (n : Nat) (x : Evo) : (setEvo n x s).tchStamp = s.tchStamp := rfl
@[simp] theorem setEvo_evos (n : Nat) (x : Evo) : (setEvo n x s).evos = Mem.write (fun _ => {}) s.evos n x := rfl
@[simp] theorem setEvo_trigLines (n : Nat) (x : Evo) : (setEvo n x s).trigLines = s.trigLines := rfl
@[simp] theorem setEvo_power (n : Nat) (x : Evo) : (setEvo n x s).power = s.power := rfl
@[simp] theorem setEvo_adm (n : Nat) (x : Evo) : (setEvo n x s).adm = s.adm := rfl
@[simp] theorem setEvo_mgt (n : Nat) (x : Evo) : (setEvo n x s).mgt = s.mgt := rfl
@[simp] theorem setEvo_config (n : Nat) (x : Evo) : (setEvo n x s).config = s.config := rfl
@[simp] theorem setEvo_journal (n : Nat) (x : Evo) : (setEvo n x s).journal = s.journal := rfl
@[simp] theorem setEvo_flash (n : Nat) (x : Evo) : (setEvo n x s).flash = s.flash := rfl
@[simp] theorem setEvo_flashId (n : Nat) (x : Evo) : (setEvo n x s).flashId = s.flashId := rfl
@[simp] theorem setEvo_straps (n : Nat) (x : Evo) : (setEvo n x s).straps = s.straps := rfl
@[simp] theorem setEvo_hl (n : Nat) (x : Evo) : (setEvo n x s).hl = s.hl := rfl
@[simp] theorem setEvo_bgt (n : Nat) (x : Evo) : (setEvo n x s).bgt = s.bgt := rfl
@[simp] theorem setEvo_hws (n : Nat) (x : Evo) : (setEvo n x s).hws = s.hws := rfl
@[simp] theorem setEvo_phase (n : Nat) (x : Evo) : (setEvo n x s).phase = s.phase := rfl
@[simp] theorem setEvo_frz (n : Nat) (x : Evo) : (setEvo n x s).frz = s.frz := rfl
@[simp] theorem setEvo_tap (n : Nat) (x : Evo) : (setEvo n x s).tap = s.tap := rfl
@[simp] theorem setEvo_answer (n : Nat) (x : Evo) : (setEvo n x s).answer = s.answer := rfl

/-! ### setHws -/

@[simp] theorem setHws_pending (n : Nat) (x : Hws) : (setHws n x s).pending = s.pending := rfl
@[simp] theorem setHws_fresh (n : Nat) (x : Hws) : (setHws n x s).fresh = s.fresh := rfl
@[simp] theorem setHws_tb (n : Nat) (x : Hws) : (setHws n x s).tb = s.tb := rfl
@[simp] theorem setHws_cfg (n : Nat) (x : Hws) : (setHws n x s).cfg = s.cfg := rfl
@[simp] theorem setHws_cnt (n : Nat) (x : Hws) : (setHws n x s).cnt = s.cnt := rfl
@[simp] theorem setHws_flags (n : Nat) (x : Hws) : (setHws n x s).flags = s.flags := rfl
@[simp] theorem setHws_tab (n : Nat) (x : Hws) : (setHws n x s).tab = s.tab := rfl
@[simp] theorem setHws_poisoned (n : Nat) (x : Hws) : (setHws n x s).poisoned = s.poisoned := rfl
@[simp] theorem setHws_holds (n : Nat) (x : Hws) : (setHws n x s).holds = s.holds := rfl
@[simp] theorem setHws_timers (n : Nat) (x : Hws) : (setHws n x s).timers = s.timers := rfl
@[simp] theorem setHws_chans (n : Nat) (x : Hws) : (setHws n x s).chans = s.chans := rfl
@[simp] theorem setHws_streams (n : Nat) (x : Hws) : (setHws n x s).streams = s.streams := rfl
@[simp] theorem setHws_rings (n : Nat) (x : Hws) : (setHws n x s).rings = s.rings := rfl
@[simp] theorem setHws_stagerTurn (n : Nat) (x : Hws) : (setHws n x s).stagerTurn = s.stagerTurn := rfl
@[simp] theorem setHws_sram (n : Nat) (x : Hws) : (setHws n x s).sram = s.sram := rfl
@[simp] theorem setHws_sramLost (n : Nat) (x : Hws) : (setHws n x s).sramLost = s.sramLost := rfl
@[simp] theorem setHws_hostMem (n : Nat) (x : Hws) : (setHws n x s).hostMem = s.hostMem := rfl
@[simp] theorem setHws_fes (n : Nat) (x : Hws) : (setHws n x s).fes = s.fes := rfl
@[simp] theorem setHws_stages (n : Nat) (x : Hws) : (setHws n x s).stages = s.stages := rfl
@[simp] theorem setHws_slots (n : Nat) (x : Hws) : (setHws n x s).slots = s.slots := rfl
@[simp] theorem setHws_spus (n : Nat) (x : Hws) : (setHws n x s).spus = s.spus := rfl
@[simp] theorem setHws_engines (n : Nat) (x : Hws) : (setHws n x s).engines = s.engines := rfl
@[simp] theorem setHws_icu (n : Nat) (x : Hws) : (setHws n x s).icu = s.icu := rfl
@[simp] theorem setHws_icuViews (n : Nat) (x : Hws) : (setHws n x s).icuViews = s.icuViews := rfl
@[simp] theorem setHws_journalQ (n : Nat) (x : Hws) : (setHws n x s).journalQ = s.journalQ := rfl
@[simp] theorem setHws_cvps (n : Nat) (x : Hws) : (setHws n x s).cvps = s.cvps := rfl
@[simp] theorem setHws_sbps (n : Nat) (x : Hws) : (setHws n x s).sbps = s.sbps := rfl
@[simp] theorem setHws_polls (n : Nat) (x : Hws) : (setHws n x s).polls = s.polls := rfl
@[simp] theorem setHws_evps (n : Nat) (x : Hws) : (setHws n x s).evps = s.evps := rfl
@[simp] theorem setHws_tchs (n : Nat) (x : Hws) : (setHws n x s).tchs = s.tchs := rfl
@[simp] theorem setHws_tchScan (n : Nat) (x : Hws) : (setHws n x s).tchScan = s.tchScan := rfl
@[simp] theorem setHws_tchStamp (n : Nat) (x : Hws) : (setHws n x s).tchStamp = s.tchStamp := rfl
@[simp] theorem setHws_evos (n : Nat) (x : Hws) : (setHws n x s).evos = s.evos := rfl
@[simp] theorem setHws_trigLines (n : Nat) (x : Hws) : (setHws n x s).trigLines = s.trigLines := rfl
@[simp] theorem setHws_power (n : Nat) (x : Hws) : (setHws n x s).power = s.power := rfl
@[simp] theorem setHws_adm (n : Nat) (x : Hws) : (setHws n x s).adm = s.adm := rfl
@[simp] theorem setHws_mgt (n : Nat) (x : Hws) : (setHws n x s).mgt = s.mgt := rfl
@[simp] theorem setHws_config (n : Nat) (x : Hws) : (setHws n x s).config = s.config := rfl
@[simp] theorem setHws_journal (n : Nat) (x : Hws) : (setHws n x s).journal = s.journal := rfl
@[simp] theorem setHws_flash (n : Nat) (x : Hws) : (setHws n x s).flash = s.flash := rfl
@[simp] theorem setHws_flashId (n : Nat) (x : Hws) : (setHws n x s).flashId = s.flashId := rfl
@[simp] theorem setHws_straps (n : Nat) (x : Hws) : (setHws n x s).straps = s.straps := rfl
@[simp] theorem setHws_hl (n : Nat) (x : Hws) : (setHws n x s).hl = s.hl := rfl
@[simp] theorem setHws_bgt (n : Nat) (x : Hws) : (setHws n x s).bgt = s.bgt := rfl
@[simp] theorem setHws_hws (n : Nat) (x : Hws) : (setHws n x s).hws = Mem.write (fun _ => {}) s.hws n x := rfl
@[simp] theorem setHws_phase (n : Nat) (x : Hws) : (setHws n x s).phase = s.phase := rfl
@[simp] theorem setHws_frz (n : Nat) (x : Hws) : (setHws n x s).frz = s.frz := rfl
@[simp] theorem setHws_tap (n : Nat) (x : Hws) : (setHws n x s).tap = s.tap := rfl
@[simp] theorem setHws_answer (n : Nat) (x : Hws) : (setHws n x s).answer = s.answer := rfl

/-! ### setSram -/

@[simp] theorem setSram_pending (w : Nat) (v : W48) : (setSram w v s).pending = s.pending := rfl
@[simp] theorem setSram_fresh (w : Nat) (v : W48) : (setSram w v s).fresh = s.fresh := rfl
@[simp] theorem setSram_tb (w : Nat) (v : W48) : (setSram w v s).tb = s.tb := rfl
@[simp] theorem setSram_cfg (w : Nat) (v : W48) : (setSram w v s).cfg = s.cfg := rfl
@[simp] theorem setSram_cnt (w : Nat) (v : W48) : (setSram w v s).cnt = s.cnt := rfl
@[simp] theorem setSram_flags (w : Nat) (v : W48) : (setSram w v s).flags = s.flags := rfl
@[simp] theorem setSram_tab (w : Nat) (v : W48) : (setSram w v s).tab = s.tab := rfl
@[simp] theorem setSram_poisoned (w : Nat) (v : W48) : (setSram w v s).poisoned = s.poisoned.filter (· ≠ sramA w) := rfl
@[simp] theorem setSram_holds (w : Nat) (v : W48) : (setSram w v s).holds = s.holds := rfl
@[simp] theorem setSram_timers (w : Nat) (v : W48) : (setSram w v s).timers = s.timers := rfl
@[simp] theorem setSram_chans (w : Nat) (v : W48) : (setSram w v s).chans = s.chans := rfl
@[simp] theorem setSram_streams (w : Nat) (v : W48) : (setSram w v s).streams = s.streams := rfl
@[simp] theorem setSram_rings (w : Nat) (v : W48) : (setSram w v s).rings = s.rings := rfl
@[simp] theorem setSram_stagerTurn (w : Nat) (v : W48) : (setSram w v s).stagerTurn = s.stagerTurn := rfl
@[simp] theorem setSram_sram (w : Nat) (v : W48) : (setSram w v s).sram = Mem.write (sramD s) s.sram w v := rfl
@[simp] theorem setSram_sramLost (w : Nat) (v : W48) : (setSram w v s).sramLost = s.sramLost := rfl
@[simp] theorem setSram_hostMem (w : Nat) (v : W48) : (setSram w v s).hostMem = s.hostMem := rfl
@[simp] theorem setSram_fes (w : Nat) (v : W48) : (setSram w v s).fes = s.fes := rfl
@[simp] theorem setSram_stages (w : Nat) (v : W48) : (setSram w v s).stages = s.stages := rfl
@[simp] theorem setSram_slots (w : Nat) (v : W48) : (setSram w v s).slots = s.slots := rfl
@[simp] theorem setSram_spus (w : Nat) (v : W48) : (setSram w v s).spus = s.spus := rfl
@[simp] theorem setSram_engines (w : Nat) (v : W48) : (setSram w v s).engines = s.engines := rfl
@[simp] theorem setSram_icu (w : Nat) (v : W48) : (setSram w v s).icu = s.icu := rfl
@[simp] theorem setSram_icuViews (w : Nat) (v : W48) : (setSram w v s).icuViews = s.icuViews := rfl
@[simp] theorem setSram_journalQ (w : Nat) (v : W48) : (setSram w v s).journalQ = s.journalQ := rfl
@[simp] theorem setSram_cvps (w : Nat) (v : W48) : (setSram w v s).cvps = s.cvps := rfl
@[simp] theorem setSram_sbps (w : Nat) (v : W48) : (setSram w v s).sbps = s.sbps := rfl
@[simp] theorem setSram_polls (w : Nat) (v : W48) : (setSram w v s).polls = s.polls := rfl
@[simp] theorem setSram_evps (w : Nat) (v : W48) : (setSram w v s).evps = s.evps := rfl
@[simp] theorem setSram_tchs (w : Nat) (v : W48) : (setSram w v s).tchs = s.tchs := rfl
@[simp] theorem setSram_tchScan (w : Nat) (v : W48) : (setSram w v s).tchScan = s.tchScan := rfl
@[simp] theorem setSram_tchStamp (w : Nat) (v : W48) : (setSram w v s).tchStamp = s.tchStamp := rfl
@[simp] theorem setSram_evos (w : Nat) (v : W48) : (setSram w v s).evos = s.evos := rfl
@[simp] theorem setSram_trigLines (w : Nat) (v : W48) : (setSram w v s).trigLines = s.trigLines := rfl
@[simp] theorem setSram_power (w : Nat) (v : W48) : (setSram w v s).power = s.power := rfl
@[simp] theorem setSram_adm (w : Nat) (v : W48) : (setSram w v s).adm = s.adm := rfl
@[simp] theorem setSram_mgt (w : Nat) (v : W48) : (setSram w v s).mgt = s.mgt := rfl
@[simp] theorem setSram_config (w : Nat) (v : W48) : (setSram w v s).config = s.config := rfl
@[simp] theorem setSram_journal (w : Nat) (v : W48) : (setSram w v s).journal = s.journal := rfl
@[simp] theorem setSram_flash (w : Nat) (v : W48) : (setSram w v s).flash = s.flash := rfl
@[simp] theorem setSram_flashId (w : Nat) (v : W48) : (setSram w v s).flashId = s.flashId := rfl
@[simp] theorem setSram_straps (w : Nat) (v : W48) : (setSram w v s).straps = s.straps := rfl
@[simp] theorem setSram_hl (w : Nat) (v : W48) : (setSram w v s).hl = s.hl := rfl
@[simp] theorem setSram_bgt (w : Nat) (v : W48) : (setSram w v s).bgt = s.bgt := rfl
@[simp] theorem setSram_hws (w : Nat) (v : W48) : (setSram w v s).hws = s.hws := rfl
@[simp] theorem setSram_phase (w : Nat) (v : W48) : (setSram w v s).phase = s.phase := rfl
@[simp] theorem setSram_frz (w : Nat) (v : W48) : (setSram w v s).frz = s.frz := rfl
@[simp] theorem setSram_tap (w : Nat) (v : W48) : (setSram w v s).tap = s.tap := rfl
@[simp] theorem setSram_answer (w : Nat) (v : W48) : (setSram w v s).answer = s.answer := rfl

/-! ### clearSram -/

@[simp] theorem clearSram_pending (w n : Nat) : (clearSram w n s).pending = s.pending := rfl
@[simp] theorem clearSram_fresh (w n : Nat) : (clearSram w n s).fresh = s.fresh := rfl
@[simp] theorem clearSram_tb (w n : Nat) : (clearSram w n s).tb = s.tb := rfl
@[simp] theorem clearSram_cfg (w n : Nat) : (clearSram w n s).cfg = s.cfg := rfl
@[simp] theorem clearSram_cnt (w n : Nat) : (clearSram w n s).cnt = s.cnt := rfl
@[simp] theorem clearSram_flags (w n : Nat) : (clearSram w n s).flags = s.flags := rfl
@[simp] theorem clearSram_tab (w n : Nat) : (clearSram w n s).tab = s.tab := rfl
@[simp] theorem clearSram_poisoned (w n : Nat) : (clearSram w n s).poisoned = s.poisoned.filter (fun a => decide (a < sramA w ∨ sramA (w + n) ≤ a)) := rfl
@[simp] theorem clearSram_holds (w n : Nat) : (clearSram w n s).holds = s.holds := rfl
@[simp] theorem clearSram_timers (w n : Nat) : (clearSram w n s).timers = s.timers := rfl
@[simp] theorem clearSram_chans (w n : Nat) : (clearSram w n s).chans = s.chans := rfl
@[simp] theorem clearSram_streams (w n : Nat) : (clearSram w n s).streams = s.streams := rfl
@[simp] theorem clearSram_rings (w n : Nat) : (clearSram w n s).rings = s.rings := rfl
@[simp] theorem clearSram_stagerTurn (w n : Nat) : (clearSram w n s).stagerTurn = s.stagerTurn := rfl
@[simp] theorem clearSram_sramLost (w n : Nat) : (clearSram w n s).sramLost = s.sramLost := rfl
@[simp] theorem clearSram_hostMem (w n : Nat) : (clearSram w n s).hostMem = s.hostMem := rfl
@[simp] theorem clearSram_fes (w n : Nat) : (clearSram w n s).fes = s.fes := rfl
@[simp] theorem clearSram_stages (w n : Nat) : (clearSram w n s).stages = s.stages := rfl
@[simp] theorem clearSram_slots (w n : Nat) : (clearSram w n s).slots = s.slots := rfl
@[simp] theorem clearSram_spus (w n : Nat) : (clearSram w n s).spus = s.spus := rfl
@[simp] theorem clearSram_engines (w n : Nat) : (clearSram w n s).engines = s.engines := rfl
@[simp] theorem clearSram_icu (w n : Nat) : (clearSram w n s).icu = s.icu := rfl
@[simp] theorem clearSram_icuViews (w n : Nat) : (clearSram w n s).icuViews = s.icuViews := rfl
@[simp] theorem clearSram_journalQ (w n : Nat) : (clearSram w n s).journalQ = s.journalQ := rfl
@[simp] theorem clearSram_cvps (w n : Nat) : (clearSram w n s).cvps = s.cvps := rfl
@[simp] theorem clearSram_sbps (w n : Nat) : (clearSram w n s).sbps = s.sbps := rfl
@[simp] theorem clearSram_polls (w n : Nat) : (clearSram w n s).polls = s.polls := rfl
@[simp] theorem clearSram_evps (w n : Nat) : (clearSram w n s).evps = s.evps := rfl
@[simp] theorem clearSram_tchs (w n : Nat) : (clearSram w n s).tchs = s.tchs := rfl
@[simp] theorem clearSram_tchScan (w n : Nat) : (clearSram w n s).tchScan = s.tchScan := rfl
@[simp] theorem clearSram_tchStamp (w n : Nat) : (clearSram w n s).tchStamp = s.tchStamp := rfl
@[simp] theorem clearSram_evos (w n : Nat) : (clearSram w n s).evos = s.evos := rfl
@[simp] theorem clearSram_trigLines (w n : Nat) : (clearSram w n s).trigLines = s.trigLines := rfl
@[simp] theorem clearSram_power (w n : Nat) : (clearSram w n s).power = s.power := rfl
@[simp] theorem clearSram_adm (w n : Nat) : (clearSram w n s).adm = s.adm := rfl
@[simp] theorem clearSram_mgt (w n : Nat) : (clearSram w n s).mgt = s.mgt := rfl
@[simp] theorem clearSram_config (w n : Nat) : (clearSram w n s).config = s.config := rfl
@[simp] theorem clearSram_journal (w n : Nat) : (clearSram w n s).journal = s.journal := rfl
@[simp] theorem clearSram_flash (w n : Nat) : (clearSram w n s).flash = s.flash := rfl
@[simp] theorem clearSram_flashId (w n : Nat) : (clearSram w n s).flashId = s.flashId := rfl
@[simp] theorem clearSram_straps (w n : Nat) : (clearSram w n s).straps = s.straps := rfl
@[simp] theorem clearSram_hl (w n : Nat) : (clearSram w n s).hl = s.hl := rfl
@[simp] theorem clearSram_bgt (w n : Nat) : (clearSram w n s).bgt = s.bgt := rfl
@[simp] theorem clearSram_hws (w n : Nat) : (clearSram w n s).hws = s.hws := rfl
@[simp] theorem clearSram_phase (w n : Nat) : (clearSram w n s).phase = s.phase := rfl
@[simp] theorem clearSram_frz (w n : Nat) : (clearSram w n s).frz = s.frz := rfl
@[simp] theorem clearSram_tap (w n : Nat) : (clearSram w n s).tap = s.tap := rfl
@[simp] theorem clearSram_answer (w n : Nat) : (clearSram w n s).answer = s.answer := rfl

/-! ### setFlash -/

@[simp] theorem setFlash_pending (a : Nat) (v : BitVec 8) : (setFlash a v s).pending = s.pending := rfl
@[simp] theorem setFlash_fresh (a : Nat) (v : BitVec 8) : (setFlash a v s).fresh = s.fresh := rfl
@[simp] theorem setFlash_tb (a : Nat) (v : BitVec 8) : (setFlash a v s).tb = s.tb := rfl
@[simp] theorem setFlash_cfg (a : Nat) (v : BitVec 8) : (setFlash a v s).cfg = s.cfg := rfl
@[simp] theorem setFlash_cnt (a : Nat) (v : BitVec 8) : (setFlash a v s).cnt = s.cnt := rfl
@[simp] theorem setFlash_flags (a : Nat) (v : BitVec 8) : (setFlash a v s).flags = s.flags := rfl
@[simp] theorem setFlash_tab (a : Nat) (v : BitVec 8) : (setFlash a v s).tab = s.tab := rfl
@[simp] theorem setFlash_poisoned (a : Nat) (v : BitVec 8) : (setFlash a v s).poisoned = s.poisoned := rfl
@[simp] theorem setFlash_holds (a : Nat) (v : BitVec 8) : (setFlash a v s).holds = s.holds := rfl
@[simp] theorem setFlash_timers (a : Nat) (v : BitVec 8) : (setFlash a v s).timers = s.timers := rfl
@[simp] theorem setFlash_chans (a : Nat) (v : BitVec 8) : (setFlash a v s).chans = s.chans := rfl
@[simp] theorem setFlash_streams (a : Nat) (v : BitVec 8) : (setFlash a v s).streams = s.streams := rfl
@[simp] theorem setFlash_rings (a : Nat) (v : BitVec 8) : (setFlash a v s).rings = s.rings := rfl
@[simp] theorem setFlash_stagerTurn (a : Nat) (v : BitVec 8) : (setFlash a v s).stagerTurn = s.stagerTurn := rfl
@[simp] theorem setFlash_sram (a : Nat) (v : BitVec 8) : (setFlash a v s).sram = s.sram := rfl
@[simp] theorem setFlash_sramLost (a : Nat) (v : BitVec 8) : (setFlash a v s).sramLost = s.sramLost := rfl
@[simp] theorem setFlash_hostMem (a : Nat) (v : BitVec 8) : (setFlash a v s).hostMem = s.hostMem := rfl
@[simp] theorem setFlash_fes (a : Nat) (v : BitVec 8) : (setFlash a v s).fes = s.fes := rfl
@[simp] theorem setFlash_stages (a : Nat) (v : BitVec 8) : (setFlash a v s).stages = s.stages := rfl
@[simp] theorem setFlash_slots (a : Nat) (v : BitVec 8) : (setFlash a v s).slots = s.slots := rfl
@[simp] theorem setFlash_spus (a : Nat) (v : BitVec 8) : (setFlash a v s).spus = s.spus := rfl
@[simp] theorem setFlash_engines (a : Nat) (v : BitVec 8) : (setFlash a v s).engines = s.engines := rfl
@[simp] theorem setFlash_icu (a : Nat) (v : BitVec 8) : (setFlash a v s).icu = s.icu := rfl
@[simp] theorem setFlash_icuViews (a : Nat) (v : BitVec 8) : (setFlash a v s).icuViews = s.icuViews := rfl
@[simp] theorem setFlash_journalQ (a : Nat) (v : BitVec 8) : (setFlash a v s).journalQ = s.journalQ := rfl
@[simp] theorem setFlash_cvps (a : Nat) (v : BitVec 8) : (setFlash a v s).cvps = s.cvps := rfl
@[simp] theorem setFlash_sbps (a : Nat) (v : BitVec 8) : (setFlash a v s).sbps = s.sbps := rfl
@[simp] theorem setFlash_polls (a : Nat) (v : BitVec 8) : (setFlash a v s).polls = s.polls := rfl
@[simp] theorem setFlash_evps (a : Nat) (v : BitVec 8) : (setFlash a v s).evps = s.evps := rfl
@[simp] theorem setFlash_tchs (a : Nat) (v : BitVec 8) : (setFlash a v s).tchs = s.tchs := rfl
@[simp] theorem setFlash_tchScan (a : Nat) (v : BitVec 8) : (setFlash a v s).tchScan = s.tchScan := rfl
@[simp] theorem setFlash_tchStamp (a : Nat) (v : BitVec 8) : (setFlash a v s).tchStamp = s.tchStamp := rfl
@[simp] theorem setFlash_evos (a : Nat) (v : BitVec 8) : (setFlash a v s).evos = s.evos := rfl
@[simp] theorem setFlash_trigLines (a : Nat) (v : BitVec 8) : (setFlash a v s).trigLines = s.trigLines := rfl
@[simp] theorem setFlash_power (a : Nat) (v : BitVec 8) : (setFlash a v s).power = s.power := rfl
@[simp] theorem setFlash_adm (a : Nat) (v : BitVec 8) : (setFlash a v s).adm = s.adm := rfl
@[simp] theorem setFlash_mgt (a : Nat) (v : BitVec 8) : (setFlash a v s).mgt = s.mgt := rfl
@[simp] theorem setFlash_config (a : Nat) (v : BitVec 8) : (setFlash a v s).config = s.config := rfl
@[simp] theorem setFlash_journal (a : Nat) (v : BitVec 8) : (setFlash a v s).journal = s.journal := rfl
@[simp] theorem setFlash_flash (a : Nat) (v : BitVec 8) : (setFlash a v s).flash = Mem.write (fun _ => 0xFF) s.flash a v := rfl
@[simp] theorem setFlash_flashId (a : Nat) (v : BitVec 8) : (setFlash a v s).flashId = s.flashId := rfl
@[simp] theorem setFlash_straps (a : Nat) (v : BitVec 8) : (setFlash a v s).straps = s.straps := rfl
@[simp] theorem setFlash_hl (a : Nat) (v : BitVec 8) : (setFlash a v s).hl = s.hl := rfl
@[simp] theorem setFlash_bgt (a : Nat) (v : BitVec 8) : (setFlash a v s).bgt = s.bgt := rfl
@[simp] theorem setFlash_hws (a : Nat) (v : BitVec 8) : (setFlash a v s).hws = s.hws := rfl
@[simp] theorem setFlash_phase (a : Nat) (v : BitVec 8) : (setFlash a v s).phase = s.phase := rfl
@[simp] theorem setFlash_frz (a : Nat) (v : BitVec 8) : (setFlash a v s).frz = s.frz := rfl
@[simp] theorem setFlash_tap (a : Nat) (v : BitVec 8) : (setFlash a v s).tap = s.tap := rfl
@[simp] theorem setFlash_answer (a : Nat) (v : BitVec 8) : (setFlash a v s).answer = s.answer := rfl

/-! ### eraseFlash -/

@[simp] theorem eraseFlash_pending (a n : Nat) : (eraseFlash a n s).pending = s.pending := rfl
@[simp] theorem eraseFlash_fresh (a n : Nat) : (eraseFlash a n s).fresh = s.fresh := rfl
@[simp] theorem eraseFlash_tb (a n : Nat) : (eraseFlash a n s).tb = s.tb := rfl
@[simp] theorem eraseFlash_cfg (a n : Nat) : (eraseFlash a n s).cfg = s.cfg := rfl
@[simp] theorem eraseFlash_cnt (a n : Nat) : (eraseFlash a n s).cnt = s.cnt := rfl
@[simp] theorem eraseFlash_flags (a n : Nat) : (eraseFlash a n s).flags = s.flags := rfl
@[simp] theorem eraseFlash_tab (a n : Nat) : (eraseFlash a n s).tab = s.tab := rfl
@[simp] theorem eraseFlash_poisoned (a n : Nat) : (eraseFlash a n s).poisoned = s.poisoned := rfl
@[simp] theorem eraseFlash_holds (a n : Nat) : (eraseFlash a n s).holds = s.holds := rfl
@[simp] theorem eraseFlash_timers (a n : Nat) : (eraseFlash a n s).timers = s.timers := rfl
@[simp] theorem eraseFlash_chans (a n : Nat) : (eraseFlash a n s).chans = s.chans := rfl
@[simp] theorem eraseFlash_streams (a n : Nat) : (eraseFlash a n s).streams = s.streams := rfl
@[simp] theorem eraseFlash_rings (a n : Nat) : (eraseFlash a n s).rings = s.rings := rfl
@[simp] theorem eraseFlash_stagerTurn (a n : Nat) : (eraseFlash a n s).stagerTurn = s.stagerTurn := rfl
@[simp] theorem eraseFlash_sram (a n : Nat) : (eraseFlash a n s).sram = s.sram := rfl
@[simp] theorem eraseFlash_sramLost (a n : Nat) : (eraseFlash a n s).sramLost = s.sramLost := rfl
@[simp] theorem eraseFlash_hostMem (a n : Nat) : (eraseFlash a n s).hostMem = s.hostMem := rfl
@[simp] theorem eraseFlash_fes (a n : Nat) : (eraseFlash a n s).fes = s.fes := rfl
@[simp] theorem eraseFlash_stages (a n : Nat) : (eraseFlash a n s).stages = s.stages := rfl
@[simp] theorem eraseFlash_slots (a n : Nat) : (eraseFlash a n s).slots = s.slots := rfl
@[simp] theorem eraseFlash_spus (a n : Nat) : (eraseFlash a n s).spus = s.spus := rfl
@[simp] theorem eraseFlash_engines (a n : Nat) : (eraseFlash a n s).engines = s.engines := rfl
@[simp] theorem eraseFlash_icu (a n : Nat) : (eraseFlash a n s).icu = s.icu := rfl
@[simp] theorem eraseFlash_icuViews (a n : Nat) : (eraseFlash a n s).icuViews = s.icuViews := rfl
@[simp] theorem eraseFlash_journalQ (a n : Nat) : (eraseFlash a n s).journalQ = s.journalQ := rfl
@[simp] theorem eraseFlash_cvps (a n : Nat) : (eraseFlash a n s).cvps = s.cvps := rfl
@[simp] theorem eraseFlash_sbps (a n : Nat) : (eraseFlash a n s).sbps = s.sbps := rfl
@[simp] theorem eraseFlash_polls (a n : Nat) : (eraseFlash a n s).polls = s.polls := rfl
@[simp] theorem eraseFlash_evps (a n : Nat) : (eraseFlash a n s).evps = s.evps := rfl
@[simp] theorem eraseFlash_tchs (a n : Nat) : (eraseFlash a n s).tchs = s.tchs := rfl
@[simp] theorem eraseFlash_tchScan (a n : Nat) : (eraseFlash a n s).tchScan = s.tchScan := rfl
@[simp] theorem eraseFlash_tchStamp (a n : Nat) : (eraseFlash a n s).tchStamp = s.tchStamp := rfl
@[simp] theorem eraseFlash_evos (a n : Nat) : (eraseFlash a n s).evos = s.evos := rfl
@[simp] theorem eraseFlash_trigLines (a n : Nat) : (eraseFlash a n s).trigLines = s.trigLines := rfl
@[simp] theorem eraseFlash_power (a n : Nat) : (eraseFlash a n s).power = s.power := rfl
@[simp] theorem eraseFlash_adm (a n : Nat) : (eraseFlash a n s).adm = s.adm := rfl
@[simp] theorem eraseFlash_mgt (a n : Nat) : (eraseFlash a n s).mgt = s.mgt := rfl
@[simp] theorem eraseFlash_config (a n : Nat) : (eraseFlash a n s).config = s.config := rfl
@[simp] theorem eraseFlash_journal (a n : Nat) : (eraseFlash a n s).journal = s.journal := rfl
@[simp] theorem eraseFlash_flash (a n : Nat) : (eraseFlash a n s).flash = s.flash.filter (fun kv => decide (kv.1 < a ∨ a + n ≤ kv.1)) := rfl
@[simp] theorem eraseFlash_flashId (a n : Nat) : (eraseFlash a n s).flashId = s.flashId := rfl
@[simp] theorem eraseFlash_straps (a n : Nat) : (eraseFlash a n s).straps = s.straps := rfl
@[simp] theorem eraseFlash_hl (a n : Nat) : (eraseFlash a n s).hl = s.hl := rfl
@[simp] theorem eraseFlash_bgt (a n : Nat) : (eraseFlash a n s).bgt = s.bgt := rfl
@[simp] theorem eraseFlash_hws (a n : Nat) : (eraseFlash a n s).hws = s.hws := rfl
@[simp] theorem eraseFlash_phase (a n : Nat) : (eraseFlash a n s).phase = s.phase := rfl
@[simp] theorem eraseFlash_frz (a n : Nat) : (eraseFlash a n s).frz = s.frz := rfl
@[simp] theorem eraseFlash_tap (a n : Nat) : (eraseFlash a n s).tap = s.tap := rfl
@[simp] theorem eraseFlash_answer (a n : Nat) : (eraseFlash a n s).answer = s.answer := rfl

/-! ### putLog -/

@[simp] theorem putLog_pending (i : Nat) (v : W64) : (putLog i v s).pending = s.pending := rfl
@[simp] theorem putLog_fresh (i : Nat) (v : W64) : (putLog i v s).fresh = s.fresh := rfl
@[simp] theorem putLog_tb (i : Nat) (v : W64) : (putLog i v s).tb = s.tb := rfl
@[simp] theorem putLog_cfg (i : Nat) (v : W64) : (putLog i v s).cfg = s.cfg := rfl
@[simp] theorem putLog_cnt (i : Nat) (v : W64) : (putLog i v s).cnt = s.cnt := rfl
@[simp] theorem putLog_flags (i : Nat) (v : W64) : (putLog i v s).flags = s.flags := rfl
@[simp] theorem putLog_tab (i : Nat) (v : W64) : (putLog i v s).tab = s.tab := rfl
@[simp] theorem putLog_poisoned (i : Nat) (v : W64) : (putLog i v s).poisoned = s.poisoned := rfl
@[simp] theorem putLog_holds (i : Nat) (v : W64) : (putLog i v s).holds = s.holds := rfl
@[simp] theorem putLog_timers (i : Nat) (v : W64) : (putLog i v s).timers = s.timers := rfl
@[simp] theorem putLog_chans (i : Nat) (v : W64) : (putLog i v s).chans = s.chans := rfl
@[simp] theorem putLog_streams (i : Nat) (v : W64) : (putLog i v s).streams = s.streams := rfl
@[simp] theorem putLog_rings (i : Nat) (v : W64) : (putLog i v s).rings = s.rings := rfl
@[simp] theorem putLog_stagerTurn (i : Nat) (v : W64) : (putLog i v s).stagerTurn = s.stagerTurn := rfl
@[simp] theorem putLog_sram (i : Nat) (v : W64) : (putLog i v s).sram = s.sram := rfl
@[simp] theorem putLog_sramLost (i : Nat) (v : W64) : (putLog i v s).sramLost = s.sramLost := rfl
@[simp] theorem putLog_hostMem (i : Nat) (v : W64) : (putLog i v s).hostMem = s.hostMem := rfl
@[simp] theorem putLog_fes (i : Nat) (v : W64) : (putLog i v s).fes = s.fes := rfl
@[simp] theorem putLog_stages (i : Nat) (v : W64) : (putLog i v s).stages = s.stages := rfl
@[simp] theorem putLog_slots (i : Nat) (v : W64) : (putLog i v s).slots = s.slots := rfl
@[simp] theorem putLog_spus (i : Nat) (v : W64) : (putLog i v s).spus = s.spus := rfl
@[simp] theorem putLog_engines (i : Nat) (v : W64) : (putLog i v s).engines = s.engines := rfl
@[simp] theorem putLog_icu (i : Nat) (v : W64) : (putLog i v s).icu = s.icu := rfl
@[simp] theorem putLog_icuViews (i : Nat) (v : W64) : (putLog i v s).icuViews = s.icuViews := rfl
@[simp] theorem putLog_journalQ (i : Nat) (v : W64) : (putLog i v s).journalQ = s.journalQ := rfl
@[simp] theorem putLog_cvps (i : Nat) (v : W64) : (putLog i v s).cvps = s.cvps := rfl
@[simp] theorem putLog_sbps (i : Nat) (v : W64) : (putLog i v s).sbps = s.sbps := rfl
@[simp] theorem putLog_polls (i : Nat) (v : W64) : (putLog i v s).polls = s.polls := rfl
@[simp] theorem putLog_evps (i : Nat) (v : W64) : (putLog i v s).evps = s.evps := rfl
@[simp] theorem putLog_tchs (i : Nat) (v : W64) : (putLog i v s).tchs = s.tchs := rfl
@[simp] theorem putLog_tchScan (i : Nat) (v : W64) : (putLog i v s).tchScan = s.tchScan := rfl
@[simp] theorem putLog_tchStamp (i : Nat) (v : W64) : (putLog i v s).tchStamp = s.tchStamp := rfl
@[simp] theorem putLog_evos (i : Nat) (v : W64) : (putLog i v s).evos = s.evos := rfl
@[simp] theorem putLog_trigLines (i : Nat) (v : W64) : (putLog i v s).trigLines = s.trigLines := rfl
@[simp] theorem putLog_power (i : Nat) (v : W64) : (putLog i v s).power = s.power := rfl
@[simp] theorem putLog_adm (i : Nat) (v : W64) : (putLog i v s).adm = s.adm := rfl
@[simp] theorem putLog_mgt (i : Nat) (v : W64) : (putLog i v s).mgt = s.mgt := rfl
@[simp] theorem putLog_config (i : Nat) (v : W64) : (putLog i v s).config = s.config := rfl
@[simp] theorem putLog_journal (i : Nat) (v : W64) : (putLog i v s).journal = Mem.write (fun _ => 0) s.journal i v := rfl
@[simp] theorem putLog_flash (i : Nat) (v : W64) : (putLog i v s).flash = s.flash := rfl
@[simp] theorem putLog_flashId (i : Nat) (v : W64) : (putLog i v s).flashId = s.flashId := rfl
@[simp] theorem putLog_straps (i : Nat) (v : W64) : (putLog i v s).straps = s.straps := rfl
@[simp] theorem putLog_hl (i : Nat) (v : W64) : (putLog i v s).hl = s.hl := rfl
@[simp] theorem putLog_bgt (i : Nat) (v : W64) : (putLog i v s).bgt = s.bgt := rfl
@[simp] theorem putLog_hws (i : Nat) (v : W64) : (putLog i v s).hws = s.hws := rfl
@[simp] theorem putLog_phase (i : Nat) (v : W64) : (putLog i v s).phase = s.phase := rfl
@[simp] theorem putLog_frz (i : Nat) (v : W64) : (putLog i v s).frz = s.frz := rfl
@[simp] theorem putLog_tap (i : Nat) (v : W64) : (putLog i v s).tap = s.tap := rfl
@[simp] theorem putLog_answer (i : Nat) (v : W64) : (putLog i v s).answer = s.answer := rfl

/-! ### setHost -/

@[simp] theorem setHost_pending (a : Nat) (v : W64) : (setHost a v s).pending = s.pending := rfl
@[simp] theorem setHost_fresh (a : Nat) (v : W64) : (setHost a v s).fresh = s.fresh := rfl
@[simp] theorem setHost_tb (a : Nat) (v : W64) : (setHost a v s).tb = s.tb := rfl
@[simp] theorem setHost_cfg (a : Nat) (v : W64) : (setHost a v s).cfg = s.cfg := rfl
@[simp] theorem setHost_cnt (a : Nat) (v : W64) : (setHost a v s).cnt = s.cnt := rfl
@[simp] theorem setHost_flags (a : Nat) (v : W64) : (setHost a v s).flags = s.flags := rfl
@[simp] theorem setHost_tab (a : Nat) (v : W64) : (setHost a v s).tab = s.tab := rfl
@[simp] theorem setHost_poisoned (a : Nat) (v : W64) : (setHost a v s).poisoned = s.poisoned := rfl
@[simp] theorem setHost_holds (a : Nat) (v : W64) : (setHost a v s).holds = s.holds := rfl
@[simp] theorem setHost_timers (a : Nat) (v : W64) : (setHost a v s).timers = s.timers := rfl
@[simp] theorem setHost_chans (a : Nat) (v : W64) : (setHost a v s).chans = s.chans := rfl
@[simp] theorem setHost_streams (a : Nat) (v : W64) : (setHost a v s).streams = s.streams := rfl
@[simp] theorem setHost_rings (a : Nat) (v : W64) : (setHost a v s).rings = s.rings := rfl
@[simp] theorem setHost_stagerTurn (a : Nat) (v : W64) : (setHost a v s).stagerTurn = s.stagerTurn := rfl
@[simp] theorem setHost_sram (a : Nat) (v : W64) : (setHost a v s).sram = s.sram := rfl
@[simp] theorem setHost_sramLost (a : Nat) (v : W64) : (setHost a v s).sramLost = s.sramLost := rfl
@[simp] theorem setHost_hostMem (a : Nat) (v : W64) : (setHost a v s).hostMem = Mem.write (fun _ => 0) s.hostMem a v := rfl
@[simp] theorem setHost_fes (a : Nat) (v : W64) : (setHost a v s).fes = s.fes := rfl
@[simp] theorem setHost_stages (a : Nat) (v : W64) : (setHost a v s).stages = s.stages := rfl
@[simp] theorem setHost_slots (a : Nat) (v : W64) : (setHost a v s).slots = s.slots := rfl
@[simp] theorem setHost_spus (a : Nat) (v : W64) : (setHost a v s).spus = s.spus := rfl
@[simp] theorem setHost_engines (a : Nat) (v : W64) : (setHost a v s).engines = s.engines := rfl
@[simp] theorem setHost_icu (a : Nat) (v : W64) : (setHost a v s).icu = s.icu := rfl
@[simp] theorem setHost_icuViews (a : Nat) (v : W64) : (setHost a v s).icuViews = s.icuViews := rfl
@[simp] theorem setHost_journalQ (a : Nat) (v : W64) : (setHost a v s).journalQ = s.journalQ := rfl
@[simp] theorem setHost_cvps (a : Nat) (v : W64) : (setHost a v s).cvps = s.cvps := rfl
@[simp] theorem setHost_sbps (a : Nat) (v : W64) : (setHost a v s).sbps = s.sbps := rfl
@[simp] theorem setHost_polls (a : Nat) (v : W64) : (setHost a v s).polls = s.polls := rfl
@[simp] theorem setHost_evps (a : Nat) (v : W64) : (setHost a v s).evps = s.evps := rfl
@[simp] theorem setHost_tchs (a : Nat) (v : W64) : (setHost a v s).tchs = s.tchs := rfl
@[simp] theorem setHost_tchScan (a : Nat) (v : W64) : (setHost a v s).tchScan = s.tchScan := rfl
@[simp] theorem setHost_tchStamp (a : Nat) (v : W64) : (setHost a v s).tchStamp = s.tchStamp := rfl
@[simp] theorem setHost_evos (a : Nat) (v : W64) : (setHost a v s).evos = s.evos := rfl
@[simp] theorem setHost_trigLines (a : Nat) (v : W64) : (setHost a v s).trigLines = s.trigLines := rfl
@[simp] theorem setHost_power (a : Nat) (v : W64) : (setHost a v s).power = s.power := rfl
@[simp] theorem setHost_adm (a : Nat) (v : W64) : (setHost a v s).adm = s.adm := rfl
@[simp] theorem setHost_mgt (a : Nat) (v : W64) : (setHost a v s).mgt = s.mgt := rfl
@[simp] theorem setHost_config (a : Nat) (v : W64) : (setHost a v s).config = s.config := rfl
@[simp] theorem setHost_journal (a : Nat) (v : W64) : (setHost a v s).journal = s.journal := rfl
@[simp] theorem setHost_flash (a : Nat) (v : W64) : (setHost a v s).flash = s.flash := rfl
@[simp] theorem setHost_flashId (a : Nat) (v : W64) : (setHost a v s).flashId = s.flashId := rfl
@[simp] theorem setHost_straps (a : Nat) (v : W64) : (setHost a v s).straps = s.straps := rfl
@[simp] theorem setHost_hl (a : Nat) (v : W64) : (setHost a v s).hl = s.hl := rfl
@[simp] theorem setHost_bgt (a : Nat) (v : W64) : (setHost a v s).bgt = s.bgt := rfl
@[simp] theorem setHost_hws (a : Nat) (v : W64) : (setHost a v s).hws = s.hws := rfl
@[simp] theorem setHost_phase (a : Nat) (v : W64) : (setHost a v s).phase = s.phase := rfl
@[simp] theorem setHost_frz (a : Nat) (v : W64) : (setHost a v s).frz = s.frz := rfl
@[simp] theorem setHost_tap (a : Nat) (v : W64) : (setHost a v s).tap = s.tap := rfl
@[simp] theorem setHost_answer (a : Nat) (v : W64) : (setHost a v s).answer = s.answer := rfl

/-! ### journal, draw -/

@[simp] theorem journal_pending (k : Nat) (x : Sample) (ws : List W48) : (journal k x ws s).pending = s.pending := by unfold journal; split <;> rfl
@[simp] theorem journal_fresh (k : Nat) (x : Sample) (ws : List W48) : (journal k x ws s).fresh = s.fresh := by unfold journal; split <;> rfl
@[simp] theorem journal_tb (k : Nat) (x : Sample) (ws : List W48) : (journal k x ws s).tb = s.tb := by unfold journal; split <;> rfl
@[simp] theorem journal_cfg (k : Nat) (x : Sample) (ws : List W48) : (journal k x ws s).cfg = s.cfg := by unfold journal; split <;> rfl
@[simp] theorem journal_tab (k : Nat) (x : Sample) (ws : List W48) : (journal k x ws s).tab = s.tab := by unfold journal; split <;> rfl
@[simp] theorem journal_poisoned (k : Nat) (x : Sample) (ws : List W48) : (journal k x ws s).poisoned = s.poisoned := by unfold journal; split <;> rfl
@[simp] theorem journal_holds (k : Nat) (x : Sample) (ws : List W48) : (journal k x ws s).holds = s.holds := by unfold journal; split <;> rfl
@[simp] theorem journal_timers (k : Nat) (x : Sample) (ws : List W48) : (journal k x ws s).timers = s.timers := by unfold journal; split <;> rfl
@[simp] theorem journal_chans (k : Nat) (x : Sample) (ws : List W48) : (journal k x ws s).chans = s.chans := by unfold journal; split <;> rfl
@[simp] theorem journal_streams (k : Nat) (x : Sample) (ws : List W48) : (journal k x ws s).streams = s.streams := by unfold journal; split <;> rfl
@[simp] theorem journal_rings (k : Nat) (x : Sample) (ws : List W48) : (journal k x ws s).rings = s.rings := by unfold journal; split <;> rfl
@[simp] theorem journal_stagerTurn (k : Nat) (x : Sample) (ws : List W48) : (journal k x ws s).stagerTurn = s.stagerTurn := by unfold journal; split <;> rfl
@[simp] theorem journal_sram (k : Nat) (x : Sample) (ws : List W48) : (journal k x ws s).sram = s.sram := by unfold journal; split <;> rfl
@[simp] theorem journal_sramLost (k : Nat) (x : Sample) (ws : List W48) : (journal k x ws s).sramLost = s.sramLost := by unfold journal; split <;> rfl
@[simp] theorem journal_hostMem (k : Nat) (x : Sample) (ws : List W48) : (journal k x ws s).hostMem = s.hostMem := by unfold journal; split <;> rfl
@[simp] theorem journal_fes (k : Nat) (x : Sample) (ws : List W48) : (journal k x ws s).fes = s.fes := by unfold journal; split <;> rfl
@[simp] theorem journal_stages (k : Nat) (x : Sample) (ws : List W48) : (journal k x ws s).stages = s.stages := by unfold journal; split <;> rfl
@[simp] theorem journal_slots (k : Nat) (x : Sample) (ws : List W48) : (journal k x ws s).slots = s.slots := by unfold journal; split <;> rfl
@[simp] theorem journal_spus (k : Nat) (x : Sample) (ws : List W48) : (journal k x ws s).spus = s.spus := by unfold journal; split <;> rfl
@[simp] theorem journal_engines (k : Nat) (x : Sample) (ws : List W48) : (journal k x ws s).engines = s.engines := by unfold journal; split <;> rfl
@[simp] theorem journal_icu (k : Nat) (x : Sample) (ws : List W48) : (journal k x ws s).icu = s.icu := by unfold journal; split <;> rfl
@[simp] theorem journal_icuViews (k : Nat) (x : Sample) (ws : List W48) : (journal k x ws s).icuViews = s.icuViews := by unfold journal; split <;> rfl
@[simp] theorem journal_cvps (k : Nat) (x : Sample) (ws : List W48) : (journal k x ws s).cvps = s.cvps := by unfold journal; split <;> rfl
@[simp] theorem journal_sbps (k : Nat) (x : Sample) (ws : List W48) : (journal k x ws s).sbps = s.sbps := by unfold journal; split <;> rfl
@[simp] theorem journal_polls (k : Nat) (x : Sample) (ws : List W48) : (journal k x ws s).polls = s.polls := by unfold journal; split <;> rfl
@[simp] theorem journal_evps (k : Nat) (x : Sample) (ws : List W48) : (journal k x ws s).evps = s.evps := by unfold journal; split <;> rfl
@[simp] theorem journal_tchs (k : Nat) (x : Sample) (ws : List W48) : (journal k x ws s).tchs = s.tchs := by unfold journal; split <;> rfl
@[simp] theorem journal_tchScan (k : Nat) (x : Sample) (ws : List W48) : (journal k x ws s).tchScan = s.tchScan := by unfold journal; split <;> rfl
@[simp] theorem journal_tchStamp (k : Nat) (x : Sample) (ws : List W48) : (journal k x ws s).tchStamp = s.tchStamp := by unfold journal; split <;> rfl
@[simp] theorem journal_evos (k : Nat) (x : Sample) (ws : List W48) : (journal k x ws s).evos = s.evos := by unfold journal; split <;> rfl
@[simp] theorem journal_trigLines (k : Nat) (x : Sample) (ws : List W48) : (journal k x ws s).trigLines = s.trigLines := by unfold journal; split <;> rfl
@[simp] theorem journal_power (k : Nat) (x : Sample) (ws : List W48) : (journal k x ws s).power = s.power := by unfold journal; split <;> rfl
@[simp] theorem journal_adm (k : Nat) (x : Sample) (ws : List W48) : (journal k x ws s).adm = s.adm := by unfold journal; split <;> rfl
@[simp] theorem journal_config (k : Nat) (x : Sample) (ws : List W48) : (journal k x ws s).config = s.config := by unfold journal; split <;> rfl
@[simp] theorem journal_journal (k : Nat) (x : Sample) (ws : List W48) : (journal k x ws s).journal = s.journal := by unfold journal; split <;> rfl
@[simp] theorem journal_flash (k : Nat) (x : Sample) (ws : List W48) : (journal k x ws s).flash = s.flash := by unfold journal; split <;> rfl
@[simp] theorem journal_flashId (k : Nat) (x : Sample) (ws : List W48) : (journal k x ws s).flashId = s.flashId := by unfold journal; split <;> rfl
@[simp] theorem journal_straps (k : Nat) (x : Sample) (ws : List W48) : (journal k x ws s).straps = s.straps := by unfold journal; split <;> rfl
@[simp] theorem journal_hl (k : Nat) (x : Sample) (ws : List W48) : (journal k x ws s).hl = s.hl := by unfold journal; split <;> rfl
@[simp] theorem journal_bgt (k : Nat) (x : Sample) (ws : List W48) : (journal k x ws s).bgt = s.bgt := by unfold journal; split <;> rfl
@[simp] theorem journal_hws (k : Nat) (x : Sample) (ws : List W48) : (journal k x ws s).hws = s.hws := by unfold journal; split <;> rfl
@[simp] theorem journal_phase (k : Nat) (x : Sample) (ws : List W48) : (journal k x ws s).phase = s.phase := by unfold journal; split <;> rfl
@[simp] theorem journal_frz (k : Nat) (x : Sample) (ws : List W48) : (journal k x ws s).frz = s.frz := by unfold journal; split <;> rfl
@[simp] theorem journal_tap (k : Nat) (x : Sample) (ws : List W48) : (journal k x ws s).tap = s.tap := by unfold journal; split <;> rfl
@[simp] theorem journal_answer (k : Nat) (x : Sample) (ws : List W48) : (journal k x ws s).answer = s.answer := by unfold journal; split <;> rfl
@[simp] theorem draw_pending : (draw s).2.pending = s.pending := rfl
@[simp] theorem draw_fresh : (draw s).2.fresh = s.fresh + 1 := rfl
@[simp] theorem draw_tb : (draw s).2.tb = s.tb := rfl
@[simp] theorem draw_cfg : (draw s).2.cfg = s.cfg := rfl
@[simp] theorem draw_cnt : (draw s).2.cnt = s.cnt := rfl
@[simp] theorem draw_flags : (draw s).2.flags = s.flags := rfl
@[simp] theorem draw_tab : (draw s).2.tab = s.tab := rfl
@[simp] theorem draw_poisoned : (draw s).2.poisoned = s.poisoned := rfl
@[simp] theorem draw_holds : (draw s).2.holds = s.holds := rfl
@[simp] theorem draw_timers : (draw s).2.timers = s.timers := rfl
@[simp] theorem draw_chans : (draw s).2.chans = s.chans := rfl
@[simp] theorem draw_streams : (draw s).2.streams = s.streams := rfl
@[simp] theorem draw_rings : (draw s).2.rings = s.rings := rfl
@[simp] theorem draw_stagerTurn : (draw s).2.stagerTurn = s.stagerTurn := rfl
@[simp] theorem draw_sram : (draw s).2.sram = s.sram := rfl
@[simp] theorem draw_sramLost : (draw s).2.sramLost = s.sramLost := rfl
@[simp] theorem draw_hostMem : (draw s).2.hostMem = s.hostMem := rfl
@[simp] theorem draw_fes : (draw s).2.fes = s.fes := rfl
@[simp] theorem draw_stages : (draw s).2.stages = s.stages := rfl
@[simp] theorem draw_slots : (draw s).2.slots = s.slots := rfl
@[simp] theorem draw_spus : (draw s).2.spus = s.spus := rfl
@[simp] theorem draw_engines : (draw s).2.engines = s.engines := rfl
@[simp] theorem draw_icu : (draw s).2.icu = s.icu := rfl
@[simp] theorem draw_icuViews : (draw s).2.icuViews = s.icuViews := rfl
@[simp] theorem draw_journalQ : (draw s).2.journalQ = s.journalQ := rfl
@[simp] theorem draw_cvps : (draw s).2.cvps = s.cvps := rfl
@[simp] theorem draw_sbps : (draw s).2.sbps = s.sbps := rfl
@[simp] theorem draw_polls : (draw s).2.polls = s.polls := rfl
@[simp] theorem draw_evps : (draw s).2.evps = s.evps := rfl
@[simp] theorem draw_tchs : (draw s).2.tchs = s.tchs := rfl
@[simp] theorem draw_tchScan : (draw s).2.tchScan = s.tchScan := rfl
@[simp] theorem draw_tchStamp : (draw s).2.tchStamp = s.tchStamp := rfl
@[simp] theorem draw_evos : (draw s).2.evos = s.evos := rfl
@[simp] theorem draw_trigLines : (draw s).2.trigLines = s.trigLines := rfl
@[simp] theorem draw_power : (draw s).2.power = s.power := rfl
@[simp] theorem draw_adm : (draw s).2.adm = s.adm := rfl
@[simp] theorem draw_mgt : (draw s).2.mgt = s.mgt := rfl
@[simp] theorem draw_config : (draw s).2.config = s.config := rfl
@[simp] theorem draw_journal : (draw s).2.journal = s.journal := rfl
@[simp] theorem draw_flash : (draw s).2.flash = s.flash := rfl
@[simp] theorem draw_flashId : (draw s).2.flashId = s.flashId := rfl
@[simp] theorem draw_straps : (draw s).2.straps = s.straps := rfl
@[simp] theorem draw_hl : (draw s).2.hl = s.hl := rfl
@[simp] theorem draw_bgt : (draw s).2.bgt = s.bgt := rfl
@[simp] theorem draw_hws : (draw s).2.hws = s.hws := rfl
@[simp] theorem draw_phase : (draw s).2.phase = s.phase := rfl
@[simp] theorem draw_frz : (draw s).2.frz = s.frz := rfl
@[simp] theorem draw_tap : (draw s).2.tap = s.tap := rfl
@[simp] theorem draw_answer : (draw s).2.answer = s.answer := rfl

/-! ### Reading back -/

@[simp] theorem cfgR_setCfg (a : Nat) (v : W32) : cfgR (setCfg a v s) a = v := by simp [cfgR]
@[simp] theorem tabR_setTab (a : Nat) (v : W64) : tabR (setTab a v s) a = v := by simp [tabR]
@[simp] theorem wordR_setWord (a : Nat) (v : W48) : wordR (setWord a v s) a = v := by
  simp only [wordR, setWord, tabR_setTab]
  exact BitVec.setWidth_setWidth_of_le v (by omega)
@[simp] theorem cntR_setCnt (a : Nat) (v : W32) : cntR (setCnt a v s) a = v := by simp [cntR]
@[simp] theorem cntR_bump (a : Nat) : cntR (bump a s) a = satInc (cntR s a) := by simp [bump]
@[simp] theorem cntR_bumpWrap (a : Nat) : cntR (bumpWrap a s) a = cntR s a + 1 := by simp [bumpWrap]
@[simp] theorem flagR_setFlags (a : Nat) (v : W32) : flagR (setFlags a v s) a = v := by simp [flagR]
@[simp] theorem flagR_raise (a i : Nat) : flagR (raise a i s) a = flagR s a ||| (1#32 <<< i) := by simp [raise]
@[simp] theorem flagR_clearFlags (a : Nat) (v : W32) : flagR (clearFlags a v s) a = flagR s a &&& ~~~v := by simp [clearFlags]
@[simp] theorem getHold_setHold (n : Path) (x : Hold) : getHold (setHold n x s) n = x := by simp [getHold]
@[simp] theorem getTimer_setTimer (n : Nat) (x : Timer) : getTimer (setTimer n x s) n = x := by simp [getTimer]
@[simp] theorem getChan_setChan (n : Nat) (x : Chan) : getChan (setChan n x s) n = x := by simp [getChan]
@[simp] theorem getStream_setStream (n : Nat) (x : Stream) : getStream (setStream n x s) n = x := by simp [getStream]
@[simp] theorem getRing_setRing (n : Nat) (x : Ring) : getRing (setRing n x s) n = x := by simp [getRing]
@[simp] theorem getFe_setFe (n : Nat) (x : FilterEngine) : getFe (setFe n x s) n = x := by simp [getFe]
@[simp] theorem getSlot_setSlot (n : Nat) (x : RfSlot) : getSlot (setSlot n x s) n = x := by simp [getSlot]
@[simp] theorem getSpu_setSpu (n : Nat) (x : Spu) : getSpu (setSpu n x s) n = x := by simp [getSpu]
@[simp] theorem getIcu_setIcu (n : Nat) (x : IcuSource) : getIcu (setIcu n x s) n = x := by simp [getIcu]
@[simp] theorem getCvp_setCvp (n : Nat) (x : Cvp) : getCvp (setCvp n x s) n = x := by simp [getCvp]
@[simp] theorem getSbp_setSbp (n : Nat) (x : SbPort) : getSbp (setSbp n x s) n = x := by simp [getSbp]
@[simp] theorem getEvp_setEvp (n : Nat) (x : Evp) : getEvp (setEvp n x s) n = x := by simp [getEvp]
@[simp] theorem getTch_setTch (n : Nat) (x : Tch) : getTch (setTch n x s) n = x := by simp [getTch]
@[simp] theorem getEvo_setEvo (n : Nat) (x : Evo) : getEvo (setEvo n x s) n = x := by simp [getEvo]
@[simp] theorem getHws_setHws (n : Nat) (x : Hws) : getHws (setHws n x s) n = x := by simp [getHws]
@[simp] theorem flashByte_setFlash (a : Nat) (v : BitVec 8) : flashByte (setFlash a v s) a = v := by simp [flashByte]

/-! ### Reading another key -/

theorem cfgR_setCfg_other (a b : Nat) (v : W32) (h : b ≠ a) (hw : Mem.wf cfgReset s.cfg = true) : cfgR (setCfg a v s) b = cfgR s b :=
  Mem.read_write_other _ _ _ _ _ h hw
theorem cntR_setCnt_other (a b : Nat) (v : W32) (h : b ≠ a) (hw : Mem.wf (fun _ => 0) s.cnt = true) : cntR (setCnt a v s) b = cntR s b :=
  Mem.read_write_other _ _ _ _ _ h hw
theorem flagR_setFlags_other (a b : Nat) (v : W32) (h : b ≠ a) (hw : Mem.wf (fun _ => 0) s.flags = true) : flagR (setFlags a v s) b = flagR s b :=
  Mem.read_write_other _ _ _ _ _ h hw
theorem getTimer_setTimer_other (n m : Nat) (x : Timer) (h : m ≠ n) (hw : Mem.wf (fun _ => {}) s.timers = true) : getTimer (setTimer n x s) m = getTimer s m :=
  Mem.read_write_other _ _ _ _ _ h hw
theorem getChan_setChan_other (n m : Nat) (x : Chan) (h : m ≠ n) (hw : Mem.wf (fun _ => {}) s.chans = true) : getChan (setChan n x s) m = getChan s m :=
  Mem.read_write_other _ _ _ _ _ h hw
theorem getStream_setStream_other (n m : Nat) (x : Stream) (h : m ≠ n) (hw : Mem.wf (fun _ => {}) s.streams = true) : getStream (setStream n x s) m = getStream s m :=
  Mem.read_write_other _ _ _ _ _ h hw
theorem getRing_setRing_other (n m : Nat) (x : Ring) (h : m ≠ n) (hw : Mem.wf (fun _ => {}) s.rings = true) : getRing (setRing n x s) m = getRing s m :=
  Mem.read_write_other _ _ _ _ _ h hw
theorem getFe_setFe_other (n m : Nat) (x : FilterEngine) (h : m ≠ n) (hw : Mem.wf (fun _ => {}) s.fes = true) : getFe (setFe n x s) m = getFe s m :=
  Mem.read_write_other _ _ _ _ _ h hw
theorem getSlot_setSlot_other (n m : Nat) (x : RfSlot) (h : m ≠ n) (hw : Mem.wf (fun _ => {}) s.slots = true) : getSlot (setSlot n x s) m = getSlot s m :=
  Mem.read_write_other _ _ _ _ _ h hw
theorem getSpu_setSpu_other (n m : Nat) (x : Spu) (h : m ≠ n) (hw : Mem.wf (fun _ => {}) s.spus = true) : getSpu (setSpu n x s) m = getSpu s m :=
  Mem.read_write_other _ _ _ _ _ h hw
theorem getIcu_setIcu_other (n m : Nat) (x : IcuSource) (h : m ≠ n) (hw : Mem.wf (fun _ => {}) s.icu = true) : getIcu (setIcu n x s) m = getIcu s m :=
  Mem.read_write_other _ _ _ _ _ h hw
theorem getCvp_setCvp_other (n m : Nat) (x : Cvp) (h : m ≠ n) (hw : Mem.wf (fun _ => {}) s.cvps = true) : getCvp (setCvp n x s) m = getCvp s m :=
  Mem.read_write_other _ _ _ _ _ h hw
theorem getSbp_setSbp_other (n m : Nat) (x : SbPort) (h : m ≠ n) (hw : Mem.wf (fun _ => {}) s.sbps = true) : getSbp (setSbp n x s) m = getSbp s m :=
  Mem.read_write_other _ _ _ _ _ h hw
theorem getEvp_setEvp_other (n m : Nat) (x : Evp) (h : m ≠ n) (hw : Mem.wf (fun _ => {}) s.evps = true) : getEvp (setEvp n x s) m = getEvp s m :=
  Mem.read_write_other _ _ _ _ _ h hw
theorem getTch_setTch_other (n m : Nat) (x : Tch) (h : m ≠ n) (hw : Mem.wf (fun _ => {}) s.tchs = true) : getTch (setTch n x s) m = getTch s m :=
  Mem.read_write_other _ _ _ _ _ h hw
theorem getEvo_setEvo_other (n m : Nat) (x : Evo) (h : m ≠ n) (hw : Mem.wf (fun _ => {}) s.evos = true) : getEvo (setEvo n x s) m = getEvo s m :=
  Mem.read_write_other _ _ _ _ _ h hw
theorem getHws_setHws_other (n m : Nat) (x : Hws) (h : m ≠ n) (hw : Mem.wf (fun _ => {}) s.hws = true) : getHws (setHws n x s) m = getHws s m :=
  Mem.read_write_other _ _ _ _ _ h hw

end Sys2Proof.Machine
end

