-- ==== Sys2Proof/Laws/Ops.lean ====
section
/-! SUPPORT. What each shared operation can do, said once: the queue of commands, the stop of all clocks, counting, the
journal, free values, requests for a wake, and the memories with their canonical forms. -/

namespace Sys2Proof.Machine
open Sys2Proof

/-! ### Steps -/

theorem step_nil (s : State) (h : s.pending = []) : step s = .next (idleCycle s) := by simp [step, h]

theorem step_cons (s : State) (c : Instr) (cs : List Instr) (h : s.pending = c :: cs) : step s = exec c { s with pending := cs } := by
  simp [step, h]

theorem live_stopped {s : State} (h : stopped s = true) (r : Host.Outcome State Fault Refusal) : live s r = .next s := by simp [live, h]

theorem live_running {s : State} (h : stopped s = false) (r : Host.Outcome State Fault Refusal) : live s r = r := by simp [live, h]

theorem stopped_false {s : State} (h : stopped s = false) : s.frz.stopped = false ∧ s.phase ≠ .inReset := by
  simpa [stopped] using h

/-! ### Counting and doing for each -/

theorem satInc_toNat (v : W32) : (satInc v).toNat = min (2 ^ 32 - 1) (v.toNat + 1) := by
  unfold satInc
  have := v.isLt
  split
  · next h => subst h; rfl
  · next h =>
    have : v.toNat ≠ 2 ^ 32 - 1 := fun hn => h (BitVec.eq_of_toNat_eq hn)
    rw [BitVec.toNat_add]
    simp
    omega

@[simp] theorem forEach_nil (f : Nat → State → State) (s : State) : forEach [] f s = s := rfl

@[simp] theorem forEach_cons (i : Nat) (l : List Nat) (f : Nat → State → State) (s : State) :
    forEach (i :: l) f s = forEach l f (f i s) := rfl

/-- What each operation of a list keeps, the whole list keeps. -/
theorem forEach_keeps {P : State → Prop} {l : List Nat} {f : Nat → State → State} (h : ∀ i ∈ l, ∀ s, P s → P (f i s)) {s : State}
    (hs : P s) : P (forEach l f s) := by
  induction l generalizing s with
  | nil => exact hs
  | cons i l ih => exact ih (fun j hj => h j (by simp [hj])) (h i (by simp) s hs)

/-! ### The journal and free values -/

theorem journal_kept (k : Nat) (x : Sample) (ws : List W48) (s : State) (h : s.journalQ.length < 256) :
    journal k x ws s = { s with
      journalQ := s.journalQ ++ [{ type := k, stamp := x.stamp, qual := x.qual, era := x.era, words := ws }]
      mgt := { s.mgt with jqMax := max s.mgt.jqMax (s.journalQ.length + 1) } } := by
  simp [journal, h]

theorem journal_lost (k : Nat) (x : Sample) (ws : List W48) (s : State) (h : 256 ≤ s.journalQ.length) :
    journal k x ws s = raise mgtFlagsA 4 (bump jqLostA { s with mgt := { s.mgt with jqLostHeld := s.mgt.jqLostHeld + 1 } }) := by
  simp [journal, Nat.not_lt.mpr h]

theorem roundFree_near (q : Rat) (s : State) :
    ((roundFree q s).1 = q.floor ∨ ((q.floor : Rat) ≠ q ∧ (roundFree q s).1 = q.floor + 1)) ∧
    { (roundFree q s).2 with fresh := s.fresh } = s := by
  unfold roundFree
  simp only
  split
  · exact ⟨.inl rfl, rfl⟩
  · next h =>
    refine ⟨?_, rfl⟩
    rcases Nat.mod_two_eq_zero_or_one (Config.freeWord (draw s).1).toNat with e | e
    · exact .inl (by simp [e])
    · exact .inr ⟨h, by simp [e]⟩

theorem roundFree_whole (n : Int) (s : State) : roundFree (n : Rat) s = (n, s) := by simp [roundFree]

/-! ### Requests for a wake -/

/-- A request touches the power state, and PWR_CANCEL where it ends a preparation. -/
theorem requestWake_only (i : Nat) (s : State) :
    requestWake i s = { s with power := (requestWake i s).power, cnt := (requestWake i s).cnt } := by
  unfold requestWake
  split
  · rfl
  · rfl
  · split
    · rfl
    · split <;> rfl

/-- Awake, with no preparation under way, there is nothing to request. -/
theorem requestWake_awake (i : Nat) (s : State) (h : s.power.cur = .s0) (h' : s.power.phase = .awake) : requestWake i s = s := by
  simp [requestWake, h, h']

theorem pathWake_awake (p : Path) (s : State) (h : s.power.cur = .s0) (h' : s.power.phase = .awake) : pathWake p s = s := by
  cases p <;> simp [pathWake, requestWake_awake, h, h']

theorem pathWake_only (p : Path) (s : State) : pathWake p s = { s with power := (pathWake p s).power, cnt := (pathWake p s).cnt } := by
  cases p
  case ranger => rfl
  all_goals exact requestWake_only _ s

/-! ### The freeze instant -/

theorem freezeNow_stopped (c u : Nat) (f : W32) (s : State) (h : s.frz.stopped = true) : freezeNow c u f s = s := by
  simp [freezeNow, h]

theorem freezeNow_later (c u : Nat) (f : W32) (s : State) (h : s.frz.pending = true) (hb : freezeBefore c u s = false) :
    freezeNow c u f s = s := by
  simp [freezeNow, h, hb]

theorem freezeBefore_pin (u : Nat) (s : State) : freezeBefore 0 u s = false := by simp [freezeBefore]

theorem freezeRecord_only (c u : Nat) (f n : W32) (s : State) : { freezeRecord c u f n s with frz := s.frz } = s := rfl

theorem freezeNow_only (c u : Nat) (f : W32) (s : State) : { freezeNow c u f s with frz := s.frz } = s := by
  unfold freezeNow
  split
  · rfl
  · split
    · split
      · exact freezeRecord_only c u f _ s
      · rfl
    · exact freezeRecord_only c u f _ s

/-! ### Batch SRAM -/

@[simp] theorem sramR_setSram (w : Nat) (v : W48) (s : State) : sramR (setSram w v s) w = v :=
  Mem.read_write_same (sramD s) s.sram w v

theorem sramR_setSram_other (w x : Nat) (v : W48) (s : State) (h : x ≠ w) (hw : Mem.wf (sramD s) s.sram = true) :
    sramR (setSram w v s) x = sramR s x :=
  Mem.read_write_other (sramD s) s.sram w x v h hw

/-- What an unlisted word reads as is the same after a write. -/
@[simp] theorem sramD_setSram (w : Nat) (v : W48) (s : State) : sramD (setSram w v s) = sramD s := rfl

@[simp] theorem sramD_clearSram (w n : Nat) (s : State) : sramD (clearSram w n s) = sramD s := rfl

theorem setSram_wf (w : Nat) (v : W48) (s : State) (h : Mem.wf (sramD s) s.sram = true) :
    Mem.wf (sramD (setSram w v s)) (setSram w v s).sram = true :=
  Mem.wf_write _ _ _ _ h

theorem clearSram_wf (w n : Nat) (s : State) (h : Mem.wf (sramD s) s.sram = true) :
    Mem.wf (sramD (clearSram w n s)) (clearSram w n s).sram = true := by
  rw [sramD_clearSram]
  simp only [clearSram]
  split
  · exact Mem.wfFrom_filter _ _ _ _ h
  · exact Mem.wf_writeList _ _ _ _ (Mem.wfFrom_filter _ _ _ _ h)

/-- A store whose defaults change only at keys it does not list keeps its form. -/
theorem wfFrom_defaults {α : Type} [DecidableEq α] (d e : Nat → α) (m : Mem α) (lo : Nat) (he : ∀ kv ∈ m, d kv.1 = e kv.1)
    (h : Mem.wfFrom d lo m = true) : Mem.wfFrom e lo m = true := by
  induction m generalizing lo with
  | nil => rfl
  | cons kv m ih =>
    obtain ⟨k, v⟩ := kv
    simp only [Mem.wfFrom, Bool.and_eq_true, decide_eq_true_eq] at h ⊢
    have := he (k, v) (by simp)
    exact ⟨⟨h.1.1, this ▸ h.1.2⟩, ih (k + 1) (fun x hx => he x (by simp [hx])) h.2⟩

theorem read_foldl_lost (l : List Nat) (n : Nat) (m : Mem Nat) (i : Nat) (hw : Mem.wf (fun _ => 0) m = true) (h : i ∉ l) :
    Mem.read (fun _ => 0) (l.foldl (fun m i => Mem.write (fun _ => 0) m i n) m) i = Mem.read (fun _ => 0) m i := by
  induction l generalizing m with
  | nil => rfl
  | cons j l ih =>
    simp only [List.mem_cons, not_or] at h
    rw [List.foldl_cons, ih _ (Mem.wf_write _ _ _ _ hw) h.2, Mem.read_write_other _ _ _ _ _ h.1 hw]

theorem wf_foldl_lost (l : List Nat) (n : Nat) (m : Mem Nat) (hw : Mem.wf (fun _ => 0) m = true) :
    Mem.wf (fun _ => 0) (l.foldl (fun m i => Mem.write (fun _ => 0) m i n) m) = true := by
  induction l generalizing m with
  | nil => exact hw
  | cons j l ih => exact ih _ (Mem.wf_write _ _ _ _ hw)

/-- S3 keeps the form of batch SRAM, though what its lost blocks read as changes (R424). -/
theorem loseSram_wf (s : State) (h : Mem.wf (sramD s) s.sram = true) (hl : Mem.wf (fun _ => 0) s.sramLost = true) :
    Mem.wf (sramD (loseSram s)) (loseSram s).sram = true ∧ Mem.wf (fun _ => 0) (loseSram s).sramLost = true := by
  refine ⟨?_, wf_foldl_lost _ _ _ hl⟩
  refine wfFrom_defaults (sramD s) _ _ 0 ?_ (Mem.wfFrom_filter _ _ _ _ h)
  intro kv hkv
  have hk := (List.mem_filter.mp hkv).2
  simp only [Bool.not_eq_true', List.contains_eq_mem, decide_eq_false_iff_not] at hk
  simp only [sramD]
  have e := read_foldl_lost _ ((draw s).1 + 1) s.sramLost (kv.1 / 32768) hl hk
  have e' : Mem.read (fun _ => 0) (loseSram s).sramLost (kv.1 / 32768) = Mem.read (fun _ => 0) s.sramLost (kv.1 / 32768) := e
  rw [e']

/-! ### The flash, the journal log and host memory -/

theorem flashByte_setFlash_other (a b : Nat) (v : BitVec 8) (s : State) (h : b ≠ a) (hw : Mem.wf (fun _ => 0xFF) s.flash = true) :
    flashByte (setFlash a v s) b = flashByte s b :=
  Mem.read_write_other _ _ _ _ _ h hw

theorem setFlash_wf (a : Nat) (v : BitVec 8) (s : State) (h : Mem.wf (fun _ => 0xFF) s.flash = true) :
    Mem.wf (fun _ => 0xFF) (setFlash a v s).flash = true :=
  Mem.wf_write _ _ _ _ h

theorem eraseFlash_wf (a n : Nat) (s : State) (h : Mem.wf (fun _ => 0xFF) s.flash = true) :
    Mem.wf (fun _ => 0xFF) (eraseFlash a n s).flash = true :=
  Mem.wfFrom_filter _ _ _ _ h

theorem programFlash_wf (a : Nat) (bs : List (BitVec 8)) (s : State) (h : Mem.wf (fun _ => 0xFF) s.flash = true) :
    Mem.wf (fun _ => 0xFF) (programFlash a bs s).flash = true := by
  induction bs generalizing a s with
  | nil => exact h
  | cons b bs ih => exact ih _ _ (setFlash_wf _ _ _ h)

theorem spoilFlash_wf (a n : Nat) (s : State) (h : Mem.wf (fun _ => 0xFF) s.flash = true) :
    Mem.wf (fun _ => 0xFF) (spoilFlash a n s).flash = true :=
  programFlash_wf _ _ _ (eraseFlash_wf a n (draw s).2 h)

theorem programFlash_only (a : Nat) (bs : List (BitVec 8)) (s : State) : { programFlash a bs s with flash := s.flash } = s := by
  induction bs generalizing a s with
  | nil => rfl
  | cons b bs ih =>
    have := ih (a + 1) (setFlash a (flashByte s a &&& b) s)
    exact congrArg (fun t : State => { t with flash := s.flash }) this

theorem putLog_wf (i : Nat) (v : W64) (s : State) (h : Mem.wf (fun _ => 0) s.journal = true) :
    Mem.wf (fun _ => 0) (putLog i v s).journal = true :=
  Mem.wf_write _ _ _ _ h

theorem setHost_wf (a : Nat) (v : W64) (s : State) (h : Mem.wf (fun _ => 0) s.hostMem = true) :
    Mem.wf (fun _ => 0) (setHost a v s).hostMem = true :=
  Mem.wf_write _ _ _ _ h

/-- Changing every listed value keeps the canonical form. -/
theorem mapVals_wf {α : Type} [DecidableEq α] (d : Nat → α) (f : α → α) (m : Mem α) (h : Mem.wf d m = true) :
    Mem.wf d (Mem.mapVals d f m) = true := by
  suffices ∀ lo, Mem.wfFrom d lo m = true → Mem.wfFrom d lo (Mem.mapVals d f m) = true from this 0 h
  clear h
  induction m with
  | nil => intro _ _; rfl
  | cons kv m ih =>
    obtain ⟨k, v⟩ := kv
    intro lo hl
    simp only [Mem.wfFrom, Bool.and_eq_true, decide_eq_true_eq] at hl
    have hm := ih (k + 1) hl.2
    simp only [Mem.mapVals, List.map_cons, List.filter_cons] at hm ⊢
    split
    · next hv => simp only [Mem.wfFrom, Bool.and_eq_true, decide_eq_true_eq]; exact ⟨⟨hl.1.1, by simpa using hv⟩, hm⟩
    · exact Mem.wfFrom_mono d _ (k + 1) lo (by omega) hm

/-- The memories of the hub right after reset are in canonical form. -/
theorem reset_memories : Mem.wf (sramD State.reset) State.reset.sram = true ∧ Mem.wf (fun _ => 0xFF) State.reset.flash = true ∧
    Mem.wf (fun _ => 0) State.reset.journal = true ∧ Mem.wf (fun _ => 0) State.reset.hostMem = true := ⟨rfl, rfl, rfl, rfl⟩

end Sys2Proof.Machine
end

