-- ==== Sys2Proof/WellFormed.lean ====
section
/-! DEFINITION. Which commands name units that the UT4896 has (R2, R8 and the block chapters). -/

namespace Sys2Proof

/-- The straps of R470 and R526: role, position, two-wire address; with what each counts. -/
def Straps.units (x : Straps) : List (Nat × Nat) := [(x.role, 3), (x.pos, 8), (x.twtA, 4)]

/-- The unit numbers a command carries, each with the number of such units the hub has: timers, converter ports, sensor bus
ports, pins, trunk ports and their nodes and grants, channels, streams, rings, slots, filter engines, event engines with
Ranger at 16, interrupt sources, spectral units and sets, hops, monitors, and words of a scrubbed memory. -/
def Instr.units : Instr → List (Nat × Nat)
  | .powerUp x | .resetN _ x => x.units
  | .startUp | .imageLoad _ | .admission _ _ _ | .cfgReload _ _ | .reloadRestart | .trimRecomputation _
  | .woscCalibration _ | .handOver _ | .ppsEdge _ _ | .refInterval _ _ | .tbAdj _ _ | .miss | .stepAbs _ | .stepRel _
  | .stepApply | .epoch | .splitLoRead _ _ _ | .splitLoWrite _ _ _ | .splitHiWrite _ _ _ | .registerWrite _ _ _ => []
  | .prescalerTick n _ | .overflow n _ | .cmpMatch n _ | .capture n _ _ | .start _ n | .timerReset _ n
  | .resetStart _ n => [(n, 32)]
  | .stagger _ base n => [(base, 32), (n, 33)]
  | .capA _ n | .capB _ n => [(n, 32)]
  | .converterFrame n _ _ => [(n, 8)]
  | .gapRunClose k => [(k, 4096)]
  | .presenceConfirmed n | .initialisationList n | .cvpCommand _ n _ | .commandResponse n _ | .removal n => [(n, 8)]
  | .listRun p => [(p, 8)]
  | .twoWireEntry p _ => [(p, 4)]
  | .serialEntry p _ | .arbitrationLost p | .strto p => [(p, 8)]
  | .alert p | .alertList p _ => [(p, 4)]
  | .candidate n _ | .evpConfirmed n _ | .eventQueueDrain _ n | .touchMeasurement n _ => [(n, 16)]
  | .pulseEnd n => [(n, 8)]
  | .opiEvoClr _ _ => []
  | .lock n _ _ _ | .header n _ _ _ | .receiverCapture n _ | .packetReceived n _ _ | .packetTransmit n
  | .noiseFloorWindow n _ _ | .g1FrameReceived n _ | .inrushEnd n _ | .stepDetectorArm n | .short n | .retryRestart n
  | .currentStep n _ | .controlSlot n | .joinReq n | .data n => [(n, 8)]
  | .nack n m g => [(n, 8), (m, 31), (g, 8)]
  | .leave n => [(n, 8)]
  | .nodeTimeout n m => [(n, 8), (m, 39)]
  | .joinfail n m => [(n, 8), (m, 31)]
  | .tmfail n => [(n, 8)]
  | .toneMapRebuild n m => [(n, 8), (m, 31)]
  | .g1Poll n a => [(n, 8), (a, 8)]
  | .noresp n => [(n, 8)]
  | .channelValue c _ _ => [(c, 2048)]
  | .rainflowSnapshot slot => [(slot, 128)]
  | .gapNotice c => [(c, 2048)]
  | .feScrub e w _ => [(e, 8), (w, 32768)]
  | .flushDeadline k => [(k, 4096)]
  | .stagerWrite => []
  | .persist r | .leaveFull r | .dmaAcknowledge r | .consumerWrite _ r _ => [(r, 128)]
  | .doorbell _ _ | .doorbellFlush _ _ | .doorbellStatus _ _ | .relay _ _ | .credit _ _ | .confirm _ _ => []
  | .trigger e entry _ _ _ _ => [(e, 16), (entry, 32)]
  | .invocationStart e => [(e, 16)]
  | .nop p | .dup p | .drop p | .swap p | .overOp p | .rot p | .nip p | .tuck p | .depth p | .lit8 p | .litw p
  | .lits p | .pick p | .add p | .sub p | .neg p | .abs p | .mul p | .mulh p | .div p | .mod p | .inc p | .dec p
  | .min p | .max p | .andOp p | .orOp p | .xorOp p | .notOp p | .shl p | .shr p | .sar p | .field p | .popc p | .clz p
  | .shlk p | .shrk p | .sark p | .eqOp p | .neOp p | .ltOp p | .leOp p | .gtOp p | .geOp p | .ult p | .uge p | .zeq p
  | .zlt p | .within p | .bra p | .bz p | .bnz p | .call p | .jmpi p | .calli p | .ret p | .endOp p | .ld p _ | .st p
  | .ldi p _ | .sti p | .ldp p _ | .stp p | .addm p _ | .getOp p | .gett p | .put p | .emit p | .evoa p | .evod p
  | .evoclr p | .swset p | .setlvl p | .now p | .nowf p | .tick p | .tcmpa p | .tcmpb p | .tcnt p | .tcapa p | .tcapb p
  | .tstat p | .tclr p | .tcmd p | .adds p | .subs p | .negs p | .abss p | .mulq p | .macq p | .divq p | .sqrtq p
  | .clampOp p | .rep p | .setrc p | .getrc p | .loop p | .repi p | .splice p | .undefinedOpcode p => [(p, 17)]
  | .idle | .rd32 | .wr32 | .rd48 | .wr48 | .jnl | .wdog | .otprd | .rollup => []
  | .clear _ e | .halt _ e | .resume _ e | .stepEngine _ e | .reloadcnt _ e => [(e, 16)]
  | .sourceAssert n => [(n, 128)]
  | .presentation p => [(p, 17)]
  | .claim p n | .complete p n => [(p, 17), (n, 128)]
  | .retarget _ n _ => [(n, 128)]
  | .icuSwset _ _ => []
  | .iramScrub e w _ => [(e, 16), (w, 4096)]
  | .frameFormed u entry => [(u, 2), (entry, 256)]
  | .spectrum u => [(u, 2)]
  | .evaluation u set => [(u, 2), (set, 8)]
  | .spuScrub u _ w _ => [(u, 2), (w, 16384)]
  | .audit | .snap _ _ | .deferredSnap | .configurationRequest _ _ _ _ | .memoryRead _ _ _ _ | .memoryWrite _ _ _ _
  | .unsupportedRequest | .perstN _ _ => []
  | .linkFailure gen _ lpm | .linkRecovery gen _ lpm => [(gen, 4), (lpm, 5)]
  | .aspmL1Entry | .summaryChange | .hspWriteFrame _ _ | .hspReadFrame _ _ _ _ | .twtPointerWrite _ | .twtWrite _ _
  | .twtRead _ | .twtRsack _ _ | .twtStretchTimeout | .alertResponse _ | .sleepPreparation | .sleepEntry _ | .wake _ _
  | .cfpRead _ _ | .cfpProgram _ _ | .cfpErase4k _ _ | .cfpErase64k _ _ | .cfpReadid _ _ | .cfpReadsr _ _
  | .cfpOperationEnd _ | .watchdog | .prefetchMiss => []
  | .monitorSample m _ => [(m, 19)]
  | .journalWrite | .mbxInfo _ | .mbxBegin _ _ | .mbxWrite _ _ | .mbxVerify _ | .mbxCommit _ | .mbxAbort _
  | .linkTraining _ _ _ | .enum _ _ _ => []
  | .hopCalibration h _ _ => [(h, 8)]
  | .timeFrame _ _ _ | .alignmentTimeout _ | .triggerOrigin | .broadcastTrigger _ _ | .regreq _ _ | .regrsp _ _
  | .windowTimeout | .cause _ _ | .ctrl _ _ | .frameRetry _ _ _ => []
  | .hopBreak h | .hopRetrain h _ _ => [(h, 8)]
  | .ringRelease | .ringWake | .freeze | .stopCycle | .frzStatus | .chainSel _ | .chainShift _ | .memAddr _
  | .memRead _ | .extest _ | .idcode | .samplePreload _ | .bypass _ _ | .testLogicReset => []
  | .fabricParityFailure block _ _ => [(block, 4)]
  | .sramScrub w _ _ => [(w, 4194304)]
  | .pinReturn n => [(n, 16)]
  | .packetLost n m g => [(n, 8), (m, 31), (g, 8)]
  | .pcieLinkChange gen _ lpm => [(gen, 4), (lpm, 5)]
  | .powerLoss => []

/-- Every unit the command names exists. -/
def Instr.wellFormed (i : Instr) : Bool := i.units.all (fun p => decide (p.1 < p.2))

end Sys2Proof
end

