-- ==== Sys2Proof/Tests/Slice0.lean ====
section
/-! SUPPORT. Tests on small states: for each statement about the hub, states and operands that meet what it assumes, with
what it concludes evaluated there; worked examples of the spec; and the well-formedness checks with a term that each refuses. -/

set_option Elab.async false

namespace Sys2Proof.Tests
open Sys2Proof Sys2Proof.Machine Sys2Proof.Claims

/-! ### Helpers -/

/-- The outcome is a next state that passes f. -/
def nextSat (o : Host.Outcome State Fault Refusal) (f : State → Bool) : Bool := match o with | .next s => f s | _ => false

/-- The outcome is the next state t. -/
def nextIs (o : Host.Outcome State Fault Refusal) (t : State) : Bool := nextSat o (· == t)

theorem nextIs_eq {o : Host.Outcome State Fault Refusal} {t : State} (h : nextIs o t = true) : o = .next t := by
  cases o <;> simp_all [nextIs, nextSat]

/-- `At`, evaluated. -/
def isAt (p code : Nat) (s : State) : Bool :=
  !stopped s && procRuns s p && (match fetchSlot s p (procOf s p).pc with | .got c => c == code | _ => false)

theorem isAt_at {p code : Nat} {s : State} (h : isAt p code s = true) : At p code s := by
  unfold isAt at h
  unfold At
  cases hf : fetchSlot s p (procOf s p).pc <;> simp_all

/-- `Affords`, evaluated. -/
def isAble (p n : Nat) (s : State) : Bool := p == rangerP || decide ((procOf s p).cycles + n ≤ (procOf s p).budget)

theorem isAble_affords {p n : Nat} {s : State} (h : isAble p n s = true) : Affords p n s := by
  simpa [isAble, Affords] using h

/-- A fetch that got v. -/
def gets (f : Fetch Nat) (v : Nat) : Bool := match f with | .got c => c == v | _ => false

/-- A hub that runs, with nothing configured. -/
def hub : State :=
  { State.reset with
    phase := .running, config := { locked := true, firstDone := true }, mgt := { running := true, rollback := 3 } }

/-- Processor p runs at pc with an operand stack (top first). -/
def at_ (p pc : Nat) (stack : List W48) (s : State := hub) : State :=
  if p = rangerP then { s with mgt := { s.mgt with proc := { stack := stack, pc := pc } } }
  else setEngine p { state := .on, run := .busy, kind := 2, proc := {
    stack := stack, pc := pc, cycles := 3, budget := 1000, entry := 5, stamp := 777, era := 0 } } s

/-- Slot a of processor p's memory holds a code. -/
def code (p a c : Nat) (s : State) : State :=
  let w := a / 4
  let sh := 36 - 12 * (a % 4)
  let old := if p = rangerP then ramR s (w - 0x10000) else iramR s p w
  let v := (old &&& ~~~(0xFFF#48 <<< sh)) ||| (BitVec.ofNat 48 c <<< sh)
  if p = rangerP then setRam (w - 0x10000) v s else setWord (iramA p w) v s

/-- Where the test programs stand: engines begin at 40, Ranger at its RAM. -/
def org (p : Nat) : Nat := if p = rangerP then 0x40000 + 40 else 40

/-- Processor p about to execute code c with operand slot v and an operand stack (top first). -/
def ready (p c v : Nat) (stack : List W48) (s : State := hub) : State :=
  code p (org p) c (code p (org p + 1) v (at_ p (org p) stack s))

/-- The command c takes s to t, with the instruction about to execute and its cycles within the budget. -/
def runs (p c n : Nat) (i : Instr) (s t : State) : Bool := isAt p c s && isAble p n s && nextIs (exec i s) t

/-- An engine and Ranger. -/
def both : List Nat := [3, rangerP]

/-- Words at the ends of their ranges. -/
def words : List W48 := [0, 1, 47, 48, 0x7FFFFFFFFFFF, 0x800000000000, 0xFFFFFFFFFFFF, 0x123456789ABC]

/-- The command i takes s to t by a fault of processor p. What Ranger's restart leaves rests on free values, so of Ranger
only the count of its resets is compared (R455). -/
def faulted (p : Nat) (i : Instr) (s t : State) : Bool :=
  if p = rangerP then nextSat (exec i s) (fun u => cntR u (mgtA + 0x18) == cntR s (mgtA + 0x18) + 1 && bit (flagR u mgtFlagsA) 3)
  else nextIs (exec i s) t

/-! ### Engine instructions (R289–R310) -/

theorem test_stack_moves : (both.all fun p => stackMoves.all fun r => [r.2.2.1, 20].all fun k =>
    let items := (List.range r.2.2.1).map (fun i => BitVec.ofNat 48 (100 + i))
    let s := ready p r.2.1 0 (items.reverse ++ List.replicate (k - r.2.2.1) 9)
    runs p r.2.1 1 (r.1 p) s (leaves p r.2.2.1 (r.2.2.2 items) (entered p (pcOf s p + 1) 1 s))) = true := by decide +kernel

theorem test_literals : (both.all fun p =>
    let go (c n next : Nat) (i : Instr) (x : W48) (s : State) : Bool :=
      runs p c n i s (leaves p 0 [x] (entered p next n s))
    let st : List W48 := [7, 8, 9]
    go 0x008 1 (org p + 1) (.depth p) 3 (ready p 0x008 0 st) &&
    go 0x020 1 (org p + 1) (.lits p) (BitVec.ofInt 48 (-16)) (ready p 0x020 0 st) &&
    go 0x03F 1 (org p + 1) (.lits p) 15 (ready p 0x03F 0 st) &&
    go 0x040 1 (org p + 1) (.pick p) 7 (ready p 0x040 0 st) &&
    go 0x042 1 (org p + 1) (.pick p) 9 (ready p 0x042 0 st) &&
    go 0x010 1 (org p + 2) (.lit8 p) (BitVec.ofInt 48 (-128)) (ready p 0x010 0x80 st) &&
    go 0x010 1 (org p + 2) (.lit8 p) 127 (ready p 0x010 0x7F st) &&
    go 0x011 2 (org p + 8) (.litw p) 0x123456789ABC (code p (org p + 4) 0x123 (code p (org p + 5) 0x456
      (code p (org p + 6) 0x789 (code p (org p + 7) 0xABC (ready p 0x011 0 st)))))) = true := by decide +kernel

theorem test_pick_underflow : (both.all fun p => [0x042, 0x05F].all fun c =>
    let s := ready p c 0 [7, 8]
    isAt p c s && isAble p 1 s && faulted p (.pick p) s (procFault p 5 (pcOf s p) s)) = true := by decide +kernel

theorem test_one_item : (both.all fun p => oneInOne.all fun r => words.all fun a =>
    let s := ready p r.2.1 0 [a, 6]
    runs p r.2.1 r.2.2.1 (r.1 p) s (leaves p 1 [r.2.2.2 a] (entered p (pcOf s p + 1) r.2.2.1 s))) = true := by decide +kernel

theorem test_two_items : (both.all fun p => twoInOne.all fun r =>
    ([0x7FFFFFFFFFFF, 0xFFFFFFFFFFF0] : List W48).all fun a => ([0, 1, 48, 0x7FFFFFFFFFFF] : List W48).all fun b =>
    let s := ready p r.2.1 0 [b, a, 6]
    (decide (0x204 ≤ r.2.1 ∧ 48 < b.toNat)) ||
    runs p r.2.1 r.2.2.1 (r.1 p) s (leaves p 2 [r.2.2.2 a b] (entered p (pcOf s p + 1) r.2.2.1 s))) = true := by decide +kernel

/-- R300: a count of 48 or more gives 0, or copies of the sign. -/
theorem test_shift_counts : (
    let top (i : Instr) (s : State) (x : W48) : Bool := nextSat (exec i s) (fun t => (procOf t 3).stack.headD 5 == x)
    let st : List W48 := [0xFFFFFFFFFFFF, 0x800000000000]
    top (.shl 3) (ready 3 0x204 0 st) 0 && top (.shr 3) (ready 3 0x205 0 st) 0 &&
    top (.sar 3) (ready 3 0x206 0 st) 0xFFFFFFFFFFFF) = true := by decide +kernel

theorem test_comparisons : (comparisons.all fun r =>
    ([0, 0x7FFFFFFFFFFF, 0x800000000000] : List W48).all fun a => ([0, 1, 0x800000000000] : List W48).all fun b =>
    let s := ready 3 r.2.1 0 [b, a, 6]
    runs 3 r.2.1 1 (r.1 3) s (leaves 3 2 [if r.2.2 a b then BitVec.allOnes 48 else 0] (entered 3 (pcOf s 3 + 1) 1 s)))
    = true := by decide +kernel

theorem test_div_mod : (both.all fun p =>
    ([0x800000000000, 7, 0xFFFFFFFFFFF9] : List W48).all fun a => ([2, 0xFFFFFFFFFFFE, 0xFFFFFFFFFFFF] : List W48).all fun b =>
    let s := ready p 0x106 0 [b, a, 6]
    let m := ready p 0x107 0 [b, a, 6]
    runs p 0x106 26 (.div p) s (leaves p 2 [BitVec.ofInt 48 (a.toInt.tdiv b.toInt)] (entered p (pcOf s p + 1) 26 s)) &&
    runs p 0x107 26 (.mod p) m (leaves p 2 [BitVec.ofInt 48 (a.toInt.tmod b.toInt)] (entered p (pcOf s p + 1) 26 m)))
    = true := by decide +kernel

theorem test_three_items : (both.all fun p =>
    ([(0x123456789ABC, 4, 8), (0xFFFFFFFFFFFF, 0, 48), (5, 9, 2), (0x800000000000, 47, 1)] : List (W48 × W48 × W48)).all fun q =>
    let st := [q.2.2, q.2.1, q.1, 1]
    let go (c : Nat) (i : Instr) (k : Nat) (x : W48) : Bool :=
      let s := ready p c 0 st
      runs p c 1 i s (leaves p k [x] (entered p (pcOf s p + 1) 1 s))
    go 0x207 (.field p) 3 (BitVec.ofNat 48 ((q.1 >>> q.2.1.toNat).toNat % 2 ^ q.2.2.toNat)) &&
    go 0x30A (.within p) 3 (if q.2.1.toInt ≤ q.1.toInt ∧ q.1.toInt ≤ q.2.2.toInt then BitVec.allOnes 48 else 0) &&
    go 0x808 (.clampOp p) 3 (BitVec.ofInt 48 (min (max q.1.toInt q.2.1.toInt) q.2.2.toInt)) &&
    [0, 47].all fun k => go (0x240 + k) (.shlk p) 1 (q.2.2 <<< k) && go (0x270 + k) (.shrk p) 1 (q.2.2 >>> k) &&
      go (0x2A0 + k) (.sark p) 1 (q.2.2.sshiftRight k)) = true := by decide +kernel

theorem test_saturating : (both.all fun p => saturating.all fun r =>
    ([0x7FFFFFFFFFFF, 0x800000000000, 0x000001800000] : List W48).all fun a => ([1, 0xFFFFFFFFFFFF, 0x000003000000] : List W48).all fun b =>
    let s := ready p r.2.1 0 [b, a, 4, 6]
    runs p r.2.1 r.2.2.1 (r.1 p) s (setSat p (saturate (r.2.2.2 a.toInt b.toInt)).2
      (leaves p 2 [(saturate (r.2.2.2 a.toInt b.toInt)).1] (entered p (pcOf s p + 1) r.2.2.1 s)))) = true := by decide +kernel

theorem test_fixed_point : (
    ([(0x800000000000, 1), (3, 0x800000000000), (0x000001000000, 0x7FFFFFFFFFFF), (0x7FFFFFFFFFFF, 0xFFFFFFFFFFFF)]
      : List (W48 × W48)).all fun q =>
    let a := q.1
    let b := q.2
    let x : W48 := 0x7FFFFFFFFFF0
    let go (c n : Nat) (i : Instr) (k : Nat) (v : Int) : Bool :=
      let s := ready 3 c 0 [b, a, x]
      runs 3 c n i s (setSat 3 (saturate v).2 (leaves 3 k [(saturate v).1] (entered 3 (pcOf s 3 + 1) n s)))
    go 0x802 1 (.negs 3) 1 (-b.toInt) && go 0x803 1 (.abss 3) 1 b.toInt.natAbs &&
    go 0x805 2 (.macq 3) 3 (x.toInt + roundDiv (a.toInt * b.toInt) (2 ^ 24)) &&
    go 0x806 26 (.divq 3) 2 (roundDiv (a.toInt * 2 ^ 24 * b.toInt.sign) b.toInt.natAbs) &&
    go 0x807 26 (.sqrtq 3) 1 (roundSqrt (b.toInt.toNat * 2 ^ 24) 1)) = true := by decide +kernel

/-- R306: a half goes to the even neighbour; √2 in Q23.24 is 23,726,566. -/
theorem test_rounds_to_even : roundDiv 5 2 = 2 ∧ roundDiv 7 2 = 4 ∧ roundDiv (-5) 2 = -2 ∧ roundDiv (-7) 4 = -2 ∧
    roundSqrt (2 * 2 ^ 48) 1 = 23726566 := by decide +kernel

theorem test_branches : (both.all fun p => ([0, 5, 0x7F, 0xFD] : List Nat).all fun v => ([0, 9] : List W48).all fun f =>
    let st (c : Nat) : State := ready p c v [f, 5]
    let to_ := (branchTo (org p) v).toNat
    let bra := st 0x400
    let call := st 0x403
    let bz := st 0x401
    let bnz := st 0x402
    slotMapped bra p (branchTo (org p) v) && gets (fetchSlot bra p (org p + 1)) v &&
    runs p 0x400 2 (.bra p) bra (jump p to_ (entered p (org p + 2) 2 bra)) &&
    runs p 0x403 2 (.call p) call (let t := jump p to_ (entered p (org p + 2) 2 call)
      setProc p { procOf t p with rets := [org p + 2] } t) &&
    runs p 0x401 2 (.bz p) bz (if f = 0 then jump p to_ (leaves p 1 [] (entered p (org p + 2) 2 bz))
      else leaves p 1 [] (entered p (org p + 2) 1 bz)) &&
    runs p 0x402 2 (.bnz p) bnz (if f = 0 then leaves p 1 [] (entered p (org p + 2) 1 bnz)
      else jump p to_ (leaves p 1 [] (entered p (org p + 2) 2 bnz)))) = true := by decide +kernel

theorem test_jumps_and_returns : (both.all fun p =>
    let t : W48 := BitVec.ofNat 48 (org p + 37)
    let j := ready p 0x404 0 [t, 5]
    let c := ready p 0x405 0 [t, 5]
    let r0 := ready p 0x406 0 [5]
    let r := setProc p { procOf r0 p with rets := [77, 78] } r0
    slotMapped j p t.toInt &&
    runs p 0x404 2 (.jmpi p) j (jump p (org p + 37) (leaves p 1 [] (entered p (org p + 1) 2 j))) &&
    runs p 0x405 2 (.calli p) c (let u := jump p (org p + 37) (leaves p 1 [] (entered p (org p + 1) 2 c))
      setProc p { procOf u p with rets := [org p + 1] } u) &&
    runs p 0x406 2 (.ret p) r (setProc p { procOf (entered p (org p + 1) 2 r) p with rets := [78], pc := 77 }
      (entered p (org p + 1) 2 r))) = true := by decide +kernel

theorem test_repeat_count_and_loop : (both.all fun p =>
    let sr := ready p 0x901 0 [0x12345, 5]
    let gr0 := ready p 0x902 0 [5]
    let gr := setProc p { procOf gr0 p with rc := 0xFFFF } gr0
    runs p 0x901 1 (.setrc p) sr (let u := leaves p 1 [] (entered p (org p + 1) 1 sr); setProc p { procOf u p with rc := 0x2345 } u) &&
    runs p 0x902 1 (.getrc p) gr (leaves p 0 [0xFFFF] (entered p (org p + 1) 1 gr)) &&
    ([(0, 0, 1), (1, 0, 1), (2, 1, 2), (0xFFFF, 0xFFFE, 2)] : List (BitVec 16 × BitVec 16 × Nat)).all fun q =>
      let l0 := ready p 0x903 0xFE [5]
      let l := setProc p { procOf l0 p with rc := q.1 } l0
      runs p 0x903 2 (.loop p) l (let u := entered p (org p + 2) q.2.2 l
        setProc p { procOf u p with rc := q.2.1, pc := if q.2.2 = 2 then org p else org p + 2 } u)) = true := by decide +kernel

/-- R269, R270: after an ICU invocation, the next ICU trigger may arise at once. -/
theorem test_invocation_ends : ([1, 2, 5].all fun k =>
    let s0 := ready 3 0x407 0 [5]
    let e := setCfg (eeEntryA 3 3) 0xA0000000 (setCfg (eeEntryA 3 3 + 4) 100
      { setEngine 3 { getEngine s0 3 with kind := k, cycMax := 2 } s0 with icuViews := [(3, 0x10)] })
    let r := code 3 40 0x406 e
    let ended (n : Nat) (s : State) : State := setEngine 3 { getEngine s 3 with
      run := .idle, kind := 0, cycMax := max (getEngine s 3).cycMax ((procOf s 3).cycles + n),
      proc := { procOf s 3 with pc := 41, cycles := (procOf s 3).cycles + n, stack := [], rets := [] } } s
    runs 3 0x407 1 (.endOp 3) e (if k = 5 then icuTrigger 3 (ended 1 e) else ended 1 e) &&
    runs 3 0x406 2 (.ret 3) r (if k = 5 then icuTrigger 3 (ended 2 r) else ended 2 r)) = true := by decide +kernel

theorem test_data_space : (both.all fun p => (if p = rangerP then [0x2000, 0x2001] else [0, 4095]).all fun n =>
    let a : W48 := BitVec.ofNat 48 n
    let w : W48 := 0xFFFFFFFFFFFF
    let st (c v : Nat) (k : List W48) : State := setData p n 0xABC (ready p c v k)
    let ld := st 0x500 0 [a, 5]
    let ldp := st 0x504 0 [a, 5]
    let stw := st 0x501 0 [a, w, 5]
    let stp := st 0x505 0 [a, w, 5]
    let addm := st 0x506 0 [a, w, 5]
    decide (n < dataSize p) && !dataBad ld p n &&
    runs p 0x500 2 (.ld p false) ld (leaves p 1 [0xABC] (entered p (org p + 1) 2 ld)) &&
    runs p 0x504 2 (.ldp p false) ldp (leaves p 1 [a + 1, 0xABC] (entered p (org p + 1) 2 ldp)) &&
    runs p 0x501 1 (.st p) stw (leaves p 2 [] (setData p n w (entered p (org p + 1) 1 stw))) &&
    runs p 0x505 1 (.stp p) stp (leaves p 2 [a + 1] (setData p n w (entered p (org p + 1) 1 stp))) &&
    runs p 0x506 3 (.addm p false) addm (leaves p 2 [] (setData p n 0xABB (entered p (org p + 1) 3 addm))) &&
    (p == rangerP ||
      (let ldi := st 0x502 n [5]
       let sti := st 0x503 n [w, 5]
       gets (fetchSlot ldi p 41) n &&
       runs p 0x502 2 (.ldi p false) ldi (leaves p 0 [0xABC] (entered p 42 2 ldi)) &&
       runs p 0x503 1 (.sti p) sti (leaves p 1 [] (setData p n w (entered p 42 1 sti)))))) = true := by decide +kernel

theorem test_data_parity : ([0, 4095].all fun n =>
    let a : W48 := BitVec.ofNat 48 n
    let go (c cyc next : Nat) (i : Instr) (s : State) : Bool :=
      runs 3 c cyc i s (procFault 3 9 40 (withoutEffect 3 next cyc { s with poisoned := dramA 3 n :: s.poisoned }))
    go 0x500 2 41 (.ld 3 true) (ready 3 0x500 0 [a, 5]) && go 0x504 2 41 (.ldp 3 true) (ready 3 0x504 0 [a, 5]) &&
    go 0x502 2 42 (.ldi 3 true) (ready 3 0x502 n [5]) && go 0x506 3 41 (.addm 3 true) (ready 3 0x506 0 [a, 6, 5]) &&
    dataBad { hub with poisoned := [dramA 3 n] } 3 n && !dataBad (setData 3 n 7 { hub with poisoned := [dramA 3 n] }) 3 n)
    = true := by decide +kernel

theorem test_data_address_fault : (both.all fun p =>
    ([BitVec.ofNat 48 (if p = rangerP then dataSize p else 0x1100), 0xFFFFFFFFFFFF] : List W48).all fun a =>
    let go (c cyc : Nat) (i : Instr) : Bool :=
      let s := ready p c 0 [a, 6, 5]
      decide (dataSize p ≤ a.toNat) && isAt p c s && isAble p cyc s && faulted p i s (procFault p 7 (org p) (withoutEffect p (org p + 1) cyc s))
    go 0x500 2 (.ld p false) && go 0x504 2 (.ldp p false) && go 0x501 1 (.st p) && go 0x505 1 (.stp p)) = true := by decide +kernel

theorem test_local_registers : (
    let views : List (Nat × BitVec 128) := [(3, 0x10 ||| (1#128 <<< 100) ||| (1#128 <<< 60))]
    let st (c : Nat) (k : List W48) : State := setIcu 127 { active := some 3 } { ready 3 c 0 k with icuViews := views }
    (([(0x1000, 0x10), (0x1001, 0x1000), (0x1002, 0x10), (0x1003, 4), (0x1006, 0), (0x1008, 0x80000000), (0x1009, 997),
      (0x100A, 3), (0x100B, 0), (0x10FF, 0)] : List (W48 × W48)).all fun q =>
      let s := st 0x500 [q.1, 5]
      runs 3 0x500 2 (.ld 3 false) s (leaves 3 1 [q.2] (entered 3 41 2 s))) &&
    (let c := st 0x501 [0x1004, 4, 5]
     runs 3 0x501 1 (.st 3) c (leaves 3 2 [] (icuClaim 3 4 (entered 3 41 1 c)))) &&
    (let c := st 0x501 [0x1005, 127, 5]
     runs 3 0x501 1 (.st 3) c (leaves 3 2 [] (icuComplete 3 127 (entered 3 41 1 c)))) &&
    (let c := st 0x501 [0x1006, 127, 5]
     runs 3 0x501 1 (.st 3) c (leaves 3 2 [] (entered 3 41 1 c)))) = true := by decide +kernel

theorem test_fabric_reads : (both.all fun p =>
    let y : Sample := { value := 77, stamp := 0x1234567890ABCDEF, qual := .wake, sat := true }
    let on (c : Nat) : State := setWord (chanA 5 0) 0x800000000000 (setChan 5 { last := some y } (ready p c 5 [1, 5]))
    let off (c : Nat) : State := setChan 5 { last := some y } (ready p c 5 [1, 5])
    let none_ (c : Nat) : State := setWord (chanA 5 0) 0x800000000000 (ready p c 5 [1, 5])
    let read (y : Sample) (c : Nat) (i : Instr) (out : List W48) (s : State) : Bool :=
      gets (fetchSlot s p (org p + 1)) 5 && runs p c 4 i s (leaves p 0 out (withRead p y (entered p (org p + 2) 4 s)))
    chEn (on 0) 5 && !chIsEvent (on 0) 5 && !chEn (off 0) 5 &&
    read y 0x600 (.getOp p) [77] (on 0x600) && read y 0x601 (.gett p) [77, 0x567890ABCDEF] (on 0x601) &&
    [off, none_].all fun f =>
      read { filled := true } 0x600 (.getOp p) [0] (f 0x600) && read { filled := true } 0x601 (.gett p) [0, 0] (f 0x601))
    = true := by decide +kernel

theorem test_put : ([0, 255].all fun v =>
    let put := ready 3 0x602 v [77, 9]
    let to_ := setWord (chanA 4 0) (BitVec.ofNat 48 (2 ^ 47 + 8 * 2 ^ 43 + (3 * 256 + v))) put
    (chanOfSource put 8 (3 * 256 + v)).isNone && chanOfSource to_ 8 (3 * 256 + v) == some 4 &&
    runs 3 0x602 2 (.put 3) to_ (channelRaw 4 77 (procSample (procOf to_ 3) 77) (leaves 3 1 [] (entered 3 42 2 to_))) &&
    runs 3 0x602 2 (.put 3) put (procFault 3 11 40 (withoutEffect 3 42 2 put))) = true := by decide +kernel

theorem test_emit : ([(1, 0), (16, 254)].all fun q =>
    let n := q.1
    let v := q.2
    let ws : List W48 := (List.range n).map (fun i => BitVec.ofNat 48 (i + 50))
    let emit := ready 3 0x603 v (BitVec.ofNat 48 n :: (ws.reverse ++ [9]))
    let to_ := setWord (streamA 6 0) (BitVec.ofNat 48 (2 ^ 47 + 2 * 2 ^ 44 + 3 * 2 ^ 20 + v * 2 ^ 12)) emit
    let many := ready 3 0x603 v [17, 5]
    let zero := ready 3 0x603 v [0, 5]
    let y := procSample (procOf to_ 3) 50
    streamOf to_ 2 3 v == some 6 && (streamOf emit 2 3 v).isNone &&
    runs 3 0x603 (2 + n) (.emit 3) to_ (offerRec 6 y
      { type := 11, sub := 0, num := 6, flags := sampleFlags y, time := 777, era := 0, payload := ws }
      (leaves 3 (n + 1) [] (entered 3 42 (2 + n) to_))) &&
    runs 3 0x603 (2 + n) (.emit 3) emit (procFault 3 11 40 (withoutEffect 3 42 (2 + n) emit)) &&
    runs 3 0x603 2 (.emit 3) many (procFault 3 11 40 (withoutEffect 3 42 2 many)) &&
    runs 3 0x603 2 (.emit 3) zero (procFault 3 11 40 (withoutEffect 3 42 2 zero))) = true := by decide +kernel

theorem test_signal_instructions : ([0, 7].all fun v =>
    let st (p c src : Nat) : State := setCfg (evoA v) (BitVec.ofNat 32 (2 * 32 + src * 256)) (ready p c v [0xFFFFFFFFF000, 9])
    ([(0x604, 3), (0x604, 9), (0x605, 3), (0x605, 9)].all fun q =>
      let s := st 3 q.1 q.2
      let on := q.1 == 0x604
      let e := entered 3 42 1 s
      let d := setEngine 3 { getEngine e 3 with evo := if on then 1#8 <<< v else 0 } e
      runs 3 q.1 1 (if on then .evoa 3 else .evod 3) s (if q.2 = 3 then evoFollow v d else bump evoWerrA d)) &&
    both.all fun p =>
      let c := st p 0x606 0
      let w := st p 0x607 0
      let l := st p 0x608 0
      runs p 0x606 1 (.evoclr p) c (evoClear (2 ^ v) (entered p (org p + 2) 1 c)) &&
      runs p 0x607 1 (.swset p) w (ringTrigger 5 v (setIcu (114 + v) { getIcu w (114 + v) with latch := true } (entered p (org p + 2) 1 w))) &&
      runs p 0x608 1 (.setlvl p) l (leaves p 1 [] (setCfg (setLvlA (v / 8) (v % 8)) 0x800 (entered p (org p + 2) 1 l))))
    = true := by decide +kernel

theorem test_time_instructions : (both.all fun p =>
    let st (c : Nat) : State := setTimer 3 { running := true, count := 5 } (setCfg (tmrA 3) (BitVec.ofNat 32 (14 + 16 * 9))
      { ready p c 0 [0x050304, 8] with tb := { fast := 0x123456789ABCDEF011223344 } })
    let now := st 0x700
    let nowf := st 0x701
    let cmd := st 0x717
    runs p 0x700 1 (.now p) now (leaves p 0 [0x56789ABCDEF0] (entered p (org p + 1) 1 now)) &&
    runs p 0x701 1 (.nowf p) nowf (leaves p 0 [0x56789ABCDEF0, 0x1234] (entered p (org p + 1) 1 nowf)) &&
    runs p 0x717 2 (.tcmd p) cmd (leaves p 1 [] (timerCmd 4 3 5 (entered p (org p + 1) 2 cmd))) &&
    (p == rangerP ||
      (let t := setCfg (tmrA 3) (BitVec.ofNat 32 (14 + 16 * 3)) (st 0x702)
       runs p 0x702 1 (.tick p) t (edge 3 (entered p (org p + 1) 1 t))))) = true := by decide +kernel

theorem test_timer_instructions : ([0, 31].all fun n =>
    let st (c : Nat) (x : W48) : State := setWord (tmrA n + 0x10) 0x100 (setFlags (tmrStatA n) 0x1F (setTimer n
      { running := true, count := 5, capA := 9, capTA := 10, capB := 11, capTB := 12 } (ready 3 c n [x, 8])))
    (timerReads.all fun r =>
      let s := st r.2.1 0
      runs 3 r.2.1 2 (r.1 3) s (leaves 3 0 (r.2.2.2 s n) (entered 3 42 r.2.2.1 s))) &&
    ([0x100, 0x101] : List W48).all fun x =>
      let put (a : Nat) (s : State) : State := leaves 3 1 [] (
        let u := setWord (tmrA n + a) x (entered 3 42 2 s)
        if 0x100 < x.toNat then raise (tmrStatA n) 4 u else u)
      let a := st 0x710 x
      let b := st 0x711 x
      let c := st 0x716 x
      runs 3 0x710 2 (.tcmpa 3) a (put 0x18 a) && runs 3 0x711 2 (.tcmpb 3) b (put 0x20 b) &&
      runs 3 0x716 1 (.tclr 3) c (leaves 3 1 [] (setFlags (tmrStatA n) (0x1F &&& ~~~(BitVec.ofNat 32 (x.toNat % 32))) (entered 3 42 1 c))))
    = true := by decide +kernel

/-- R307, R308, with the rule's own SETRC example: RC ends at 9. -/
theorem test_repeats : (both.all fun p =>
    let rc (n : BitVec 16) (s : State) : State := setProc p { procOf s p with rc := n } s
    let a : W48 := 0xFFFFFFFFFFF0
    let done (n : Nat) (s t : State) : Bool := procOf t p == { procOf s p with
        pc := org p + 2, cycles := if p = rangerP then (procOf s p).cycles else (procOf s p).cycles + (1 + n),
        stack := [a + BitVec.ofNat 48 n, 9] } && { t with engines := s.engines, mgt := s.mgt } == s
    let r0 := rc 0 (ready p 0x900 0x108 [a, 9])
    let r7 := rc 7 (ready p 0x900 0x108 [a, 9])
    let i1 := ready p 0x9C0 0x108 [a, 9]
    let i64 := ready p 0x9FF 0x108 [a, 9]
    let skip := rc 0 (ready p 0x900 0x502 [9])
    let set := rc 3 (ready p 0x900 0x901 [7, 8, 9, 1])
    isAt p 0x900 r7 && nextSat (exec (.rep p) r0) (done 0 r0) && nextSat (exec (.rep p) r7) (done 7 r7) &&
    nextSat (exec (.repi p) i1) (done 1 i1) && nextSat (exec (.repi p) i64) (done 64 i64) &&
    nextSat (exec (.rep p) skip) (fun t => pcOf t p == org p + 3) &&
    nextSat (exec (.rep p) set) (fun t => (procOf t p).rc == 9 && (procOf t p).stack == [1])) = true := by decide +kernel

theorem test_repeat_faults : (both.all fun p =>
    let prefix_ : List (Nat × Instr) := [(0x900, .rep p), (0x9C5, .repi p)]
    (prefix_.all fun q => [0x400, 0x4FF, 0xF00, 0x903, 0x900, 0x9C0, 0x9FF, 0x011].all fun c =>
      let s := ready p q.1 c [1, 2]
      isAt p q.1 s && gets (fetchSlot s p (org p + 1)) c && faulted p q.2 s (procFault p 2 (org p) s)) &&
    (prefix_.all fun q => [0x00F, 0xD00, 0x904].all fun c =>
      let s := ready p q.1 c [1, 2]
      !definedCode p c s && faulted p q.2 s (procFault p 1 (org p + 1) s)) &&
    (p == rangerP || prefix_.all fun q =>
      let last := code 3 16383 q.1 (at_ 3 16383 [])
      let word := code 3 39 q.1 { at_ 3 39 [] with poisoned := [iramA 3 10] }
      isAt 3 q.1 last && (match fetchSlot last 3 16384 with | .unmapped => true | _ => false) &&
      nextIs (exec q.2 last) (procFault 3 8 16384 last) &&
      isAt 3 q.1 word && (match fetchSlot word 3 40 with | .poisoned => true | _ => false) &&
      nextIs (exec q.2 word) (procFault 3 10 40 word))) = true := by decide +kernel

/-- R313–R315: nine micro-operations, with their cycles. -/
theorem test_splice : (both.all fun p =>
    let us := [0x049, 0x180, 0x1C1, 0x082, 0x281, 0x240, 0x331, 0x143, 0x0C2]
    let s0 := setWord (spliceA 63 0) (BitVec.ofNat 48 (2 ^ 47 + 8 * 2 ^ 43)) (ready p 0xF3F 0 [5, 0x7FFFFFFFFFFF, 9, 4])
    let s := setWord (spliceA 63 1) 0x0491801C1082 (setWord (spliceA 63 2) 0x281240331143 (setWord (spliceA 63 3) 0x0C2000000000 s0))
    isAt p 0xF3F s && isAble p 11 s &&
    (match microRun p us [0, 0, 0, 0] (entered p (org p + 1) 11 s) with
     | some t => nextIs (exec (.splice p) s) t
     | none => false)) = true := by decide +kernel

theorem test_micro_operations : ([(0, 1, 2), (3, 0, 1), (2, 2, 2)].all fun q =>
    let d := q.1
    let low := q.1 * 16 + q.2.1 * 4 + q.2.2
    let t : List W48 := [0x7FFFFFFFFFFF, 0x800000000000, 7, 40]
    let s := at_ 3 40 [77, 9]
    let ta := t.getD q.2.1 0
    let tb := t.getD q.2.2 0
    let put (u : Nat) (x : W48) (r : State) : Bool := match uopStep 3 (u * 64 + low) t s with
      | .inl y => y.1 == t.set d x && y.2 == r
      | .inr _ => false
    let imm := BitVec.ofNat 4 (q.2.1 * 4 + q.2.2)
    (microOps.all fun r => decide ((r.1 = 0x15 ∨ r.1 = 0x16 ∨ r.1 = 0x17) ∧ 48 < tb.toNat) || put r.1 (r.2 (t.getD d 0) ta tb) s) &&
    (microSat.all fun r => put r.1 (saturate (r.2 ta.toInt tb.toInt)).1 (setSat 3 (saturate (r.2 ta.toInt tb.toInt)).2 s)) &&
    put 0x01 77 (at_ 3 40 [9]) && put 0x03 77 s && put 0x05 (imm.signExtend 48) s && put 0x18 (t.getD d 0 <<< imm.toNat) s &&
    put 0x19 ((t.getD d 0).sshiftRight imm.toNat) s && put 0x26 (t.getD d 0 + imm.signExtend 48) s && put 0x20 0 s) = true := by decide +kernel

theorem test_micro_memory_and_stack : (
    let t : List W48 := [4095, 7, 4096, 40]
    let s := setData 3 4095 99 (at_ 3 40 [])
    let is_ (u : Nat) (r : List W48 × State) : Bool := match uopStep 3 u t s with | .inl y => y.1 == r.1 && y.2 == r.2 | .inr _ => false
    let faults (u n : Nat) (s : State) : Bool := match uopStep 3 u t s with | .inl _ => false | .inr y => y.1 == n && y.2 == s
    is_ (0x1E * 64 + 16) (t.set 1 99, s) && is_ (0x1F * 64 + 4) (t, setData 3 4095 7 s) && is_ (0x02 * 64 + 4) (t, at_ 3 40 [7] s) &&
    faults (0x1E * 64 + 8) 7 s && faults (0x1F * 64 + 2) 7 s && faults 0x40 5 s && faults 0xC0 5 s &&
    faults 0x80 4 (at_ 3 40 (List.replicate 32 1) s)) = true := by decide +kernel

/-- R293, R453: the ends of every class's codes. -/
theorem test_undefined_codes : (both.all fun p =>
    ([0x000, 0x008, 0x009, 0x00F, 0x012, 0x01F, 0x060, 0x10B, 0x10C, 0x20A, 0x23F, 0x2D0, 0x30B, 0x408, 0x507, 0x602, 0x609, 0x702,
      0x703, 0x718, 0x809, 0x904, 0x9BF, 0xA00, 0xDFF, 0xE00, 0xE08, 0xE09, 0xF00, 0xF05, 0xF40, 0xFFF] : List Nat).all fun c =>
    let s := setWord (spliceA 5 0) 0x800000000000 (ready p c 0 [1, 2, 3])
    if definedCode p c s then nextIs (exec (.undefinedOpcode p) s) s
    else faulted p (.undefinedOpcode p) s (procFault p 1 (org p) s)) = true := by decide +kernel

theorem test_fetch_faults : (
    let gone := at_ 3 16384 []
    let bad := { at_ 3 40 [] with poisoned := [iramA 3 10] }
    nextIs (exec (.undefinedOpcode 3) gone) (procFault 3 8 16384 gone) &&
    nextIs (exec (.undefinedOpcode 3) bad) (procFault 3 10 40 bad)) = true := by decide +kernel

theorem test_fault_order : (both.all fun p =>
    let go (c n : Nat) (i : Instr) (s : State) : Bool := isAt p c s && faulted p i s (procFault p n (org p) s)
    let late (c n k : Nat) (i : Instr) (s : State) : Bool :=
      isAt p c s && isAble p n s && faulted p i s (procFault p k (org p) (withoutEffect p (org p + (if c = 0x403 then 2 else 1)) n s))
    let broke (s : State) : State := setProc p { procOf s p with budget := (procOf s p).cycles } s
    (twoInOne.all fun r =>
      (p == rangerP || go r.2.1 3 (r.1 p) (broke (ready p r.2.1 0 []))) && go r.2.1 5 (r.1 p) (ready p r.2.1 0 [1])) &&
    go 0x001 5 (.dup p) (ready p 0x001 0 []) && go 0x001 4 (.dup p) (ready p 0x001 0 (List.replicate 32 7)) &&
    (let s := ready p 0x403 3 []
     go 0x403 6 (.call p) (setProc p { procOf s p with rets := List.replicate 16 4 } s)) &&
    go 0x400 1 (.bra p) (ready p 0x400 256 []) &&
    late 0x106 26 12 (.div p) (ready p 0x106 0 [0, 4]) && late 0x107 26 12 (.mod p) (ready p 0x107 0 [0, 4]) &&
    late 0x806 26 12 (.divq p) (ready p 0x806 0 [0, 4]) &&
    (let s := setProc p { procOf (ready p 0x403 0x80 []) p with pc := org p } (ready p 0x403 0x80 [])
     slotMapped s p (branchTo (org p) 0x80) || late 0x403 2 8 (.call p) s)) = true := by decide +kernel

theorem test_ranger_instructions : (
    let st (c : Nat) (k : List W48) : State := ready rangerP c 0 k
    let e (s : State) : State := entered rangerP (org rangerP + 1) 1 s
    let go (c : Nat) (i : Instr) (s t : State) : Bool := runs rangerP c 1 i s t
    let idle := st 0xE00 []
    let wdog := { st 0xE06 [] with tb := { fast := 0x123400000000 } }
    go 0xE00 .idle idle { e idle with mgt := { (e idle).mgt with idle := true } } &&
    go 0xE00 .idle { idle with mgt := { idle.mgt with mbxBusy := true } } (e { idle with mgt := { idle.mgt with mbxBusy := true } }) &&
    go 0xE06 .wdog wdog { e wdog with mgt := { (e wdog).mgt with wdogAt := 0x1234 } } &&
    (([0, 0x07FFFFFC] : List W48).all fun a =>
      let s := st 0xE01 [a, 9]
      go 0xE01 .rd32 s (leaves rangerP 1 [(read32 .ranger a.toNat (e s)).1.setWidth 48] (read32 .ranger a.toNat (e s)).2)) &&
    (([8, 0x07FFFFF8] : List W48).all fun a =>
      let s := st 0xE03 [a, 9]
      go 0xE03 .rd48 s (leaves rangerP 1 [slotRead a.toNat (e s)] (countParity a.toNat (e s)))) &&
    (let s := ready rangerP 0xE07 0 [15, 9] { hub with mgt := { hub.mgt with otp := List.replicate 16 6 } }; go 0xE07 .otprd s (leaves rangerP 1 [otpWord s 15] (e s))) &&
    (let s := st 0xE08 [64, 9]; go 0xE08 .rollup s (leaves rangerP 1 [] { e s with mgt := { (e s).mgt with rollbackOtp := 64 } })) &&
    (([2, 0x40000000] : List W48).all fun a =>
      let s := st 0xE01 [a, 9]; isAt rangerP 0xE01 s && faulted rangerP .rd32 s s) &&
    (let s := st 0xE03 [4, 9]; isAt rangerP 0xE03 s && faulted rangerP .rd48 s s))
    = true := by decide +kernel

theorem test_ranger_writes : (
    let e (s : State) : State := entered rangerP (org rangerP + 1) 1 s
    (let s := ready rangerP 0xE02 0 [BitVec.ofNat 48 (pwrA + 8), 0x112233445566, 9]
     runs rangerP 0xE02 1 .wr32 s (write32 .ranger (pwrA + 8) 0x33445566 (leaves rangerP 2 [] (e s)))) &&
    (let s := ready rangerP 0xE04 0 [BitVec.ofNat 48 (chanA 5 1), 0x112233445566, 9] { hub with config := {}, phase := .started }
     isLo (chanA 5 1) && mayWriteWord (leaves rangerP 2 [] (e s)) .ranger (chanA 5 1) &&
     runs rangerP 0xE04 1 .wr48 s (commitWord (chanA 5 1) 0x112233445566 (leaves rangerP 2 [] (e s)))) &&
    [2, 7].all fun n =>
      let ws : List W48 := (List.range (n - 1)).map (fun i => BitVec.ofNat 48 (i + 50))
      let s := ready rangerP 0xE05 0 (0x7F :: BitVec.ofNat 48 n :: (ws.reverse ++ [4]))
      runs rangerP 0xE05 1 .jnl s (leaves rangerP (n + 1) [] (journal 0x7F (stampNow s) ws (e s)))) = true := by decide +kernel

/-! ### The queue, the clock and device time (R37–R57) -/

theorem test_first_in_first_out : (
    let s := { hub with pending := [.timerReset .ranger 3, .wdog] }
    nextIs (step s) (setTimer 3 {} { s with pending := [.wdog] })) = true := by decide +kernel

theorem test_idle_cycle : (
    let go (s : State) (b : TimeBase) : Bool := s.pending.isEmpty && !stopped s && nextIs (step s) { s with tb := b }
    let fast : TimeBase := { fast := 0x7FFFFFFFFFFEFFFFFFFF, steer := 0xFFFFFFFF }
    let slow : TimeBase := { acc := 5 * 2 ^ 45, trim := 65537 }
    go { hub with tb := fast } { fast with fast := 0x7FFFFFFFFFFFFFFFFFFE, cycles := 1 } &&
    go { hub with tb := slow, power := { cur := .s2 } }
      { slow with acc := 5 * 2 ^ 45 + 52429600012207, edge := 5 * 2 ^ 45 + 52429600012207 } &&
    nextIs (step State.reset) State.reset) = true := by decide +kernel

/-- R39: 65,537 adds 800,012,207. R55: a boundary of bit 47 that passes in S2 waits for its record. -/
theorem test_boundary_in_sleep : incOf 65537 = 52428800000000 + 800012207 ∧ incOf (-65537) = 52428800000000 - 800012207 ∧
    nextSat (step { hub with tb := { acc := 0x7FFFFFFFFFFF00000000 }, power := { cur := .s2 } })
      (fun t => t.tb.epochDue == some 0x800000000000) = true := by decide +kernel

theorem test_trim_recomputation : ([(400000000, 0), (400000100, 1074), (399999900, -1074)].all fun q =>
    nextIs (exec (.trimRecomputation q.1) hub) { hub with tb := { trim := BitVec.ofInt 24 q.2 } } &&
    decide (2 * (q.2 * 400000000 - 2 ^ 32 * ((q.1 : Int) - 400000000)).natAbs ≤ 400000000)) = true := by decide +kernel

theorem test_trim_limit : (
    nextIs (exec (.trimRecomputation 500000000) hub) (raise tbLeafA 1 { hub with tb := { trim := 8388607, trimLim := true } }))
    = true := by decide +kernel

theorem test_wake_oscillator_period : nextSat (exec (.woscCalibration 2000000) hub) (fun t =>
    t.tb.woscPer == 0x19000000 && { t with tb := hub.tb } == hub) = true := by decide +kernel

/-- R43, in a state whose sum is whole: no free value. -/
theorem test_hand_over : (
    let s := { hub with
      tb := { acc := 1000 * 2 ^ 32, edge := 1000 * 2 ^ 32 }, power := { cur := .s2, wakeReq := 4, phase := .awake } }
    !fastRuns s && nextIs (exec (.handOver 8) s) { s with tb := { s.tb with fast := 1033 * 2 ^ 32, handover := 0, handed := true } })
    = true := by decide +kernel

theorem test_step_write : ([(true, Instr.stepRel .ranger), (false, .stepAbs .ranger)].all fun q =>
    let s := { hub with tb := { fast := 7 * 2 ^ 32, setValue := 99 } }
    let d := { s with straps := { role := 2 } }
    nextIs (exec q.2 s) { s with tb := { s.tb with step := some { relative := q.1, value := 99, tApply := 4103 } } } &&
    nextIs (exec q.2 d) (raise sysFlagsA 0 (bump sysWerrA d))) = true := by decide +kernel

theorem test_step_apply : ([(false, 1000000, 1000007), (true, 1000000, 1004110)].all fun q =>
    let s := { hub with tb := { fast := 4110 * 2 ^ 32, hostRef := 3000, step := some { relative := q.1, value := q.2.1, tApply := 4103 } } }
    let early := { s with tb := { s.tb with fast := 4102 * 2 ^ 32 } }
    fastRuns s && nextIs (exec .stepApply early) early &&
    nextSat (exec .stepApply s) (fun t =>
      ticks t == q.2.2 && t.tb.step.isNone && t.tb.stepCnt == 1 && t.tb.stepInInterval && bit (flagR t tbLeafA) 2 &&
      t.tb.hostRef - ticks t == 3000 - 4110)) = true := by decide +kernel

/-- R55: at a multiple of 2^48 the kind is 0. -/
theorem test_epoch_record : ([(0x800000000000, 0x400000000000), (0x1000000000000, 1)].all fun (q : W64 × W48) =>
    let s := setRing 127 { state := .on } { hub with tb := { epochDue := some q.1 } }
    let z := { s with power := { cur := .s3 } }
    fits s 127 3 && nextIs (exec .epoch z) z &&
    nextIs (exec .epoch s) (makeReady 127
      { type := 5, sub := 8, num := 127, flags := BitVec.ofNat 8 (qcode (qualNow s)), time := q.1, payload := [q.2] }
      { s with tb := {} })) = true := by decide +kernel

/-- R49–R51: a phase of +4,000 ticks a second after the last write, TC 1 s, gives −4,000/4/400,000,000 − 4,000/400,000,000. -/
theorem test_tb_adj : (
    let s := { setCfg tbCtrlA 0x00640054 hub with tb := {
      fast := 400000100 * 2 ^ 32, lastMeas := some 100, loop := .acquiring, misses := 3 } }
    discipline s == 4 && nextSat (exec (.tbAdj .ranger 4000) s) (fun t =>
      t.tb.f == -(1 / 400000 : Rat) && t.tb.steer == BitVec.ofInt 32 (-53687) && t.tb.err == 4000 && t.tb.misses == 0 &&
      t.tb.hostRef == 400000100 && t.tb.lastMeas == some 400000100 && t.tb.loop == loopAfter s (fun n => decide (4000 ≤ 2 ^ n))))
    = true := by decide +kernel

theorem test_ref_interval : ([(399960000, 1 / 10000, 429497), (400040000, -(1 / 10000), -429497), (399000000, 1 / 400, 858993)].all
    fun (q : Nat × Rat × Int) =>
    let s := { setCfg tbCtrlA 0x00643452 hub with tb := { loop := .acquiring, good := 15 } }
    discipline s == 2 && nextSat (exec (.refInterval q.1 true) s) (fun t =>
      t.tb.f == q.2.1 && t.tb.steer == BitVec.ofInt 32 q.2.2 && t.tb.misses == 0 && t.tb.loop == .locked &&
      t.tb.slewLim == decide (q.1 = 399000000))) = true := by decide +kernel

theorem test_pps_edge : ([(0, 0, true), (40000, 40000, true), (40001, 0, false)].all fun (q : Nat × Int × Bool) =>
    let s := { setCfg tbCtrlA 0x00643451 hub with tb := {
      fast := BitVec.ofNat 96 ((800000000 + q.1) * 2 ^ 32), expect := some 800000000, lastMeas := some 400000000, loop := .acquiring } }
    discipline s == 1 && (List.range 32).all (fun n => tmrSrc s n != 5 && capSrc s n false != 2 && capSrc s n true != 2) &&
    (if q.2.2 then nextSat (exec (.ppsEdge true 0) s) (fun t =>
        t.tb.expect == some (BitVec.ofNat 64 (1200000000 + q.1)) && t.tb.err == BitVec.ofInt 32 q.2.1 && t.tb.misses == 0 &&
        t.tb.loop == loopAfter s (fun n => decide (q.2.1.natAbs ≤ 2 ^ n)))
      else nextIs (exec (.ppsEdge true 0) s) s)) = true := by decide +kernel

theorem test_host_misses : (
    let s := { setCfg tbCtrlA 0x00643454 hub with tb := {
      fast := (64 * 400000000 + 5) * 2 ^ 32, hostRef := 5, loop := .locked, misses := 2 } }
    let early := { s with tb := { s.tb with hostRef := 6 } }
    nextSat (exec .miss s) (fun t => t.tb.misses == 3 && t.tb.hostRef == ticks s && cntR t tbMissCntA == 1 && t.tb.loop == .holdover) &&
    nextIs (exec .miss early) early && nextIs (exec .miss hub) hub &&
    nextIs (exec (.tbAdj .ranger 9) hub) (raise sysFlagsA 0 (bump sysWerrA (pathWake .ranger hub)))) = true := by decide +kernel

/-! ### Reset, start-up and configuration (R31, R35, R440–R444, R498, R504, R526–R530) -/

theorem test_held_in_reset : (
    let s := { State.reset with pending := [.registerWrite .pcie 0 0, .startUp] }
    State.reset.phase == .inReset && hubCore State.reset == State.reset &&
    nextSat (step s) (fun t => hubCore t == hubCore s && t.pending == [.startUp])) = true := by decide +kernel

theorem test_frozen : (
    let s := { hub with frz := { stopped := true, cause := 5 }, pending := [.resetN 1000 {}, .add 3] }
    s.pending.all (fun c => !endsFreeze c) && endsFreeze (.resetN 1001 {}) &&
    nextSat (step s) (fun t => hubCore t == hubCore s && nextSat (step t) (fun u => hubCore u == hubCore s))) = true := by decide +kernel

theorem test_hard_reset : (
    let s := { hub with frz := { cause := 9, count := 2 }, mgt := { hub.mgt with cfgKey := true }, answer := [4], tb := { fast := 3 } }
    let x : Straps := { role := 1 }
    let after (k : Nat) (y : Straps) (f : Frz) (t : State) : Bool := t == { State.reset with
      fresh := t.fresh, answer := [4], sramLost := t.sramLost, straps := y, mgt := { cfgKey := true, resetKind := k }, frz := f }
    nextIs (exec (.resetN 1000 x) s) s && nextSat (exec (.resetN 10000 x) s) (after 1 x { cause := 9, count := 2 }) &&
    nextSat (exec (.powerUp x) s) (after 0 x {}) && nextSat (exec .powerLoss s) (after 0 {} {})) = true := by decide +kernel

/-- R465: Ranger journals BOOT; FREEZE follows it where a record stands, and its NEW goes. -/
theorem test_start_up : (
    let s := { State.reset with mgt := { rollback := 3, resetKind := 1 }, frz := { cause := 0x40000000, fault := 7, time := 66 } }
    nextIs (exec .startUp hub) hub &&
    nextSat (exec .startUp s) (fun t => t.phase == .started && t.mgt.running && t.frz.cause == 0 &&
      (t.journalQ.drop (t.journalQ.length - 1)) == [{
        type := 0x60, stamp := 66, qual := s.frz.qual, words := [0x40000000, 7] }] &&
      (t.journalQ.map (·.type)).drop (t.journalQ.length - 2) == [1, 0x60] )) = true := by decide +kernel

theorem test_image_load : (
    let s := { hub with phase := .started, config := {} }
    let ring := { s with straps := { role := 2, bootRing := true }, flashId := 0xEF4018 }
    ([(s, 1), ({ s with flashId := 0xFFFFFF }, 1), (ring, 14)].all fun q =>
      nextSat (exec (.imageLoad []) q.1) (fun t => t.phase == .loaded && t.config.defaults && t.config.reason == q.2 &&
        t.config.loads == 1 && cfgR t (rngA 0) == 0x80400000 && bit (flagR t cfgStatA) 0)) &&
    nextIs (exec (.imageLoad [1, 2]) hub) hub) = true := by decide +kernel

/-- R440: a flash without an image is loaded, fails its header check, and ends in the factory defaults. -/
theorem test_flash_load : (
    let s := { hub with phase := .started, config := {}, flashId := 0xEF4018 }
    nextSat (exec (.imageLoad []) s) (fun t => t.phase == .loaded && t.config.defaults && decide (2 ≤ t.config.reason))) = true := by decide +kernel

theorem test_admission : (
    let s := { hub with phase := .started, config := {} }
    nextSat (exec (.imageLoad []) s) (fun t => nextSat (exec (.admission [] [] 0) t) (fun u =>
      u.phase == .running && u.config.locked && u.adm.done) && (lockConfig t).config.locked) &&
    nextIs (exec (.admission [] [] 0) hub) hub) = true := by decide +kernel

theorem test_cfg_reload : (
    nextIs (exec (.cfgReload .ranger 0x524C0001) hub) (beginReload { hub with config := { hub.config with reloadDue := true } }) &&
    (let b := { hub with config := { hub.config with cfpBusy := true } }
     nextIs (exec (.cfgReload .ranger 0x524C0001) b) { b with config := { b.config with reloadDue := true } }) &&
    nextIs (exec (.cfgReload .ranger 0x524C0000) hub) (raise sysFlagsA 0 (bump sysWerrA hub)) &&
    nextIs (exec (.cfgReload .ranger 0x524D0001) hub) (raise sysFlagsA 0 (bump sysWerrA hub))) = true := by decide +kernel

theorem test_reload_restart : (
    let d := setTimer 4 { running := true } { hub with phase := .draining }
    let busy := setRing 2 { state := .stopping, ready := [{}] } d
    drained (drainRings d) && nextSat (exec .reloadRestart d) (fun t =>
      t.phase == .started && !t.config.locked && t.config.reloading && t.timers == []) &&
    !drained (drainRings busy) && nextIs (exec .reloadRestart busy) (drainRings busy) &&
    nextIs (exec .reloadRestart hub) hub) = true := by decide +kernel

/-! ### Registers (R10–R14, R32, R443) and timers (R61–R82) -/

theorem test_split_reads : (
    let s := setTab (tmrA 31 + 0x10) 0x1234 (setHold .hsp { rd := 9 } hub)
    let a := tmrA 31 + 0x10
    isLo a && accessAt (a + 4) == .hi && accessAt 0x00010050 == .reserved && Mem.wf (fun _ => {}) s.holds &&
    nextSat (exec (.splitLoRead .pcie a .clean) s) (fun t => t.answer == [((quantity s a).setWidth 32).setWidth 64] &&
      (getHold t .pcie).rd == ((quantity s a) >>> 32).setWidth 32 && getHold t .hsp == getHold s .hsp) &&
    nextIs (exec (.splitLoRead .hsp (a + 4) .clean) s) { s with answer := [9] } &&
    nextIs (exec (.splitLoRead .twt (a + 4) .clean) s) { s with answer := [0] } &&
    nextIs (exec (.splitLoRead .pcie 0x00010050 .clean) s) { s with answer := [0] }) = true := by decide +kernel

/-- R12: a commit takes a low half that its own path holds. -/
theorem test_split_writes : (
    let a := 0x00010030
    let h := setHold .hsp { wr := some (a, 0x89ABCDEF) } hub
    isLo a && accessAt (a + 4) == .hi && mayWriteWord h .hsp a && !badWord a 0x0123456789ABCDEF &&
    nextIs (exec (.splitLoWrite .hsp a 0x89ABCDEF) hub) h &&
    nextSat (exec (.splitHiWrite .hsp (a + 4) 0x01234567) h) (fun t => t.tb.setValue == 0x0123456789ABCDEF &&
      (getHold t .hsp).wr.isNone) &&
    nextIs (exec (.splitHiWrite .twt (a + 4) 1) h) (raise sysFlagsA 0 (bump sysWerrA h)) &&
    !mayWriteWord hub .pcie (tmrA 3 + 0x18) &&
    nextIs (exec (.splitLoWrite .pcie (tmrA 3 + 0x18) 1) hub) (raise sysFlagsA 0 (bump sysWerrA hub))) = true := by decide +kernel

theorem test_register_writes : (
    let open_ := { hub with config := {} }
    let counted (s : State) := raise sysFlagsA 0 (bump sysWerrA s)
    nextIs (exec (.registerWrite .pcie 0x00010050 5) hub) hub &&
    nextIs (exec (.registerWrite .pcie 0x00000004 5) hub) (counted hub) &&
    (let f := setFlags 0x14 3 hub
     nextIs (exec (.registerWrite .ranger 0x00000014 0xFFFFFFFE) f) (setFlags 0x14 1 f)) &&
    nextIs (exec (.registerWrite .pcie (tmrA 3) 5) open_) (counted open_) &&
    nextIs (exec (.registerWrite .ranger (tmrA 3) 5) hub) (counted hub) &&
    badValue (tmrA 3) 0x600 && nextIs (exec (.registerWrite .ranger (tmrA 3) 0x600) open_) (counted open_) &&
    !badValue (tmrA 3) 4 && nextIs (exec (.registerWrite .ranger (tmrA 3) 4) open_) (setCfg (tmrA 3) 4 open_)) = true := by decide +kernel

/-- A running timer on FCLK with TOP 9, DIV 1. -/
def clocked (n : Nat) (t : Timer) : State := setTimer n t (setWord (tmrA n + 0x10) 9 (setCfg (tmrA n) 1 hub))

theorem test_timer_ticks : ([0, 31].all fun n =>
    let at9 := clocked n { running := true, count := 9 }
    let at4 := setWord (tmrA n + 0x20) 5 (clocked n { running := true, count := 4 })
    canTick at9 n && tmrHitch at9 n == 0 && (List.range 4).all (fun e => !pacesSomething at9 n e) && cyclePorts at9 n == [] && tmrOutMode at9 n == 0 &&
    (let u := setTimer n { running := true } at9
     let v := setIcu (66 + n) { getIcu u (66 + n) with latch := true } u
     nextIs (exec (.prescalerTick n 0) at9) v && nextIs (exec (.overflow n 0) at9) v) &&
    (let v := setTimer n { running := true, count := 5 } at4
     nextIs (exec (.prescalerTick n 0) at4) v && nextIs (exec (.overflow n 0) at4) at4 && nextIs (exec (.cmpMatch n 0) at4) v))
    = true := by decide +kernel

theorem test_timer_captures : ([0, 31].all fun n => [false, true].all fun b =>
    let s (src : Nat) (old : W32) : State := setFlags (tmrStatA n) old (setTimer n { running := true, count := 77 }
      (setCfg (tmrA n + 0x58) (BitVec.ofNat 32 src <<< (if b then 16 else 0)) { hub with tb := { fast := 0x1234567 * 2 ^ 32 } }))
    let c : Instr := if b then .capB .ranger n else .capA .ranger n
    let i := if b then 2 else 0
    let done (old new : W32) (x t : State) : Bool := flagR t (tmrA n + 0x5C) == new && old == old &&
      (if b then (getTimer t n).capB == 77 && (getTimer t n).capTB == 0x1234567 else (getTimer t n).capA == 77 && (getTimer t n).capTA == 0x1234567) &&
      { t with timers := x.timers, flags := x.flags } == x
    capSrc (s 5 0) n b == 5 &&
    nextSat (exec c (s 5 0)) (done 0 (1#32 <<< i) (s 5 0)) &&
    nextSat (exec c (s 5 (1#32 <<< i))) (done 0 (3#32 <<< i) (s 5 0)) &&
    nextIs (exec c (s 0 0)) (s 0 0) &&
    capSrc (s 6 0) n b == 6 && nextSat (exec (.capture n b 0) (s 6 0)) (done 0 (1#32 <<< i) (s 6 0))) = true := by decide +kernel

theorem test_timer_commands : ([0, 31].all fun n =>
    let run := clocked n { running := true, count := 4, acc := 3 }
    let idle := clocked n { count := 4, acc := 3, out := true }
    nextIs (exec (.start .ranger n) run) run &&
    nextIs (exec (.start .ranger n) idle) (setTimer n { count := 4, running := true } idle) &&
    nextIs (exec (.timerReset .ranger n) run) (setTimer n { running := true } run) &&
    nextSat (exec (.resetStart .ranger n) idle) (fun t => getTimer t n == { running := true } && { t with timers := idle.timers } == idle) &&
    ([Instr.start .pcie n, .timerReset .pcie n, .resetStart .hsp n, .stagger .twt n 2, .capA .pcie n, .capB .pcie n].all fun c =>
      nextIs (exec c hub) (raise sysFlagsA 0 (bump sysWerrA hub)))) = true := by decide +kernel

/-- R77's example: four timers of TOP 399 take the phases 0, 100, 200 and 299. -/
theorem test_stagger : (
    let s := [28, 29, 30, 31].foldl (fun s n => setWord (tmrA n + 0x10) 399 (setCfg (tmrA n) 1 s)) hub
    let one (s : State) : State := raise tmrGstatA 0 (setCnt tmrGstatA 1 s)
    nextSat (exec (.stagger .ranger 28 4) s) (fun t =>
      [28, 29, 30, 31].map (fun n => (getTimer t n).count) == [0, 100, 200, 299] &&
      [28, 29, 30, 31].all (fun n => (getTimer t n).running && (getTimer t n).phase == (getTimer t n).count)) &&
    nextIs (exec (.stagger .ranger 28 5) s) (one s) && nextIs (exec (.stagger .ranger 28 1) s) (one s)) = true := by decide +kernel

/-! ### Converter ports, sensor buses, pins and keys (R83–R139) -/

/-- The nibbles of a number, first one first. -/
def nibbles (n v : Nat) : List (BitVec 4) := ((List.range n).map (fun i => BitVec.ofNat 4 (v / 16 ^ i))).reverse

/-- A frame of one sample: sync word, header, sample, check. -/
def frame (hdr sample : Nat) : List (BitVec 4) :=
  let body := nibbles 4 hdr ++ nibbles 6 sample
  nibbles 4 0xF61E ++ body ++ nibbles 2 (crc8 (body.flatMap msbBits)).toNat

theorem test_converter_frames : ([0, 7].all fun n =>
    let g : Cvp := { state := .on, period := true, launched := true, tfs := some {} }
    let s := setCvp n g (setCfg (cvpA n) 1 hub)
    let bad : List (Nat × Nat × Bool × List (BitVec 4)) := [(1, 0x54, true, frame 0 5), (2, 0x4C, false, (frame 0 5).take 15),
      (3, 0x40, false, (frame 0 5).take 15 ++ [(frame 0 5).getD 15 0 ^^^ 1]), (4, 0x48, false, frame 0x40 5), (4, 0x48, false, frame 0x300 5),
      (5, 0x44, false, frame 1 5), (5, 0x44, false, frame 0x4000 5), (6, 0x50, false, frame 0x800 5)]
    (bad.all fun q => frameCheck s n q.2.2.2 q.2.2.1 == q.1 && (
      let u := raise (cvpA n + 4) 10 (setCvp n { g with examined := 1, synced := false } (bump (cvpA n + q.2.1) s))
      nextIs (exec (.converterFrame n q.2.2.2 q.2.2.1) s) (refuseFrame n 0 u))) &&
    (let f := frame 0 0x800001
     let c := setWord (chanA 9 0) (BitVec.ofNat 48 (2 ^ 47 + 1 * 2 ^ 43 + 256 * n)) s
     let u := bumpWrap (cvpA n + 0x64) (setCvp n { g with examined := 1, synced := true, accounted := [0], seen := [0] } c)
     frameCheck c n f false == 0 && chanOfSource c 1 (256 * n) == some 9 &&
     nextIs (exec (.converterFrame n f false) c) (sourceValue 1 (256 * n) 0xFFFFFF800001 { frameStamp u n 0 with ovr := false } u)))
    = true := by decide +kernel

theorem test_converter_presence : ([0, 7].all fun n =>
    let on := setCvp n { state := .on, pres := true, ck := true, cmdBusy := true } (setCfg (cvpA n) 0x11 hub)
    let off := setCfg (cvpA n) 0x11 hub
    nextIs (exec (.removal n) on) (portEvent 2 0 n (stampNow on) [] (requestWake 3 (setCvp n { state := .off, pres := true, cmdRes := 4 } on))) &&
    nextIs (exec (.presenceConfirmed n) off) (portEvent 1 0 n (stampNow off) [] (bump (cvpA n + 0x68) (requestWake 3
      (setCvp n { pres := true, pin := true, state := .starting, ck := true } off)))) &&
    (let st := setCvp n { state := .starting, ck := true } off
     nextIs (exec (.initialisationList n) st) (setCvp n {
       state := .starting, ck := true, initing := true, initLeft := [0x80000000], cmdBusy := true, cmdTx := 0x80000000 } st))) = true := by decide +kernel

/-- A 24-bit response with its check byte. -/
def response (v : Nat) : List Bool :=
  let bs := (nibbles 6 v).flatMap msbBits
  bs ++ (List.range 8).map (fun i => (crc8 bs).getLsbD (7 - i))

theorem test_converter_commands : ([0, 7].all fun n =>
    let idle := setCvp n { state := .on, ck := true } hub
    let g : Cvp := { state := .on, ck := true, cmdBusy := true, cmdTx := 0x80000000 }
    let s := setCvp n g hub
    let get (bs : List Bool) (g : Cvp) : State := setCvp n g (setCvp n g hub) |> fun t => (match exec (.commandResponse n bs) t with | .next u => u | _ => t)
    nextIs (exec (.cvpCommand .pcie n 5) idle) (raise sysFlagsA 0 (bump sysWerrA idle)) &&
    nextIs (exec (.cvpCommand .ranger n 5) idle) (setCvp n { state := .on, ck := true, cmdBusy := true, cmdTx := 5 } idle) &&
    nextIs (exec (.cvpCommand .ranger n 0xC0000000) idle) idle && nextIs (exec (.cvpCommand .ranger n 5) s) s &&
    (response 0x5A1234).length == 32 &&
    nextIs (exec (.commandResponse n (response 0x5A1234)) s)
      (setCvp n { g with cmdBusy := false, cmdRes := 0, cmdRx := 0x5A1234, assign := true } s) &&
    nextIs (exec (.commandResponse n (response 0x3C0000)) s) (setCvp n { g with cmdBusy := false, cmdRes := 1, cmdRx := 0x3C0000 } s) &&
    nextIs (exec (.commandResponse n (List.replicate 32 true)) s) (setCvp n { g with cmdBusy := false, cmdRes := 3, cmdRx := 0xFFFFFF } s) &&
    nextIs (exec (.commandResponse n (List.replicate 31 false ++ [true])) s) (setCvp n { g with cmdBusy := false, cmdRes := 2, cmdRx := 0 } s) &&
    (let i : Cvp := { g with state := .starting, initing := true, initLeft := [0x80000000], initIndex := 4 }
     getCvp (get (response 0x5A0000) i) n == { i with
       cmdBusy := false, cmdRx := 0x5A0000, assign := true, initLeft := [], initIndex := 5, initing := false, fsPassed := true } &&
     getCvp (get (response 0x3C0000) i) n == { i with cmdRes := 1, cmdRx := 0x3C0000, attempts := 1 } &&
     (let j : Cvp := { i with attempts := 2 }
      let v := setCvp n { j with cmdBusy := false, cmdRes := 1, cmdRx := 0x3C0000, initing := false, failed := true, initLeft := [] } (setCvp n j hub)
      get (response 0x3C0000) j == portEvent 9 0 n (stampNow hub) [4] (raise (cvpA n + 4) 11 v)))) = true := by decide +kernel

/-- R113's own example: a 20-bit field, its bytes in big-endian order, shifted by 4. -/
theorem test_parse_rule : (
    let w : W48 := BitVec.ofNat 48 (2 ^ 47 + 1 * 2 ^ 31 + 2 * 2 ^ 29 + 4 * 2 ^ 23 + 19 * 2 ^ 18 + 2 ^ 17 + 8 * 2 ^ 12)
    parsed w [0, 0x80, 0x00, 0x1F, 7] == BitVec.ofInt 48 ((-0x80000 + 1) * 256) && parseRule w [0, 0x80, 0x00, 0x1F, 7] == parsed w [0, 0x80, 0x00, 0x1F, 7])
    = true := by decide +kernel

/-- Poll entry 5: HEAD and LAST on port p, one command byte, two bytes read into value 0; `chk` as given. -/
def polled (p chk : Nat) (g : SbPort) : State :=
  setSbp p g (setWord (chanA 9 0) (BitVec.ofNat 48 (2 ^ 47 + 2 * 2 ^ 43 + 10))
    (setWord (pollA 5 0) (BitVec.ofNat 48 (2 ^ 47 + p * 2 ^ 37 + 2 ^ 36 + chk * 2 ^ 24 + 0x48 * 2 ^ 14 + 1 * 2 ^ 11 + 2 * 2 ^ 5))
    (setWord (pollA 5 2) (BitVec.ofNat 48 (2 ^ 47 + 1 * 2 ^ 29 + 15 * 2 ^ 18 + 2 ^ 17)) hub)))

theorem test_list_run : ([0, 7].all fun p =>
    let g : SbPort := { state := .on, queue := [.poll 5 {}] }
    let s := polled p 0 g
    nextIs (exec (.listRun p) s) (setSbp p { g with running := some (.poll 5 {}), queue := [], entry := 5 } s)) = true := by decide +kernel

theorem test_two_wire_entry : ([0, 3].all fun p =>
    let g : SbPort := { state := .on, running := some (.poll 5 { stamp := 77 }), entry := 5 }
    let s := polled p 0 g
    let c := polled p 1 g
    let good : BusTrace := { ackCmd := [true], bytes := [0xFF, 0xFE] }
    let noAdr : BusTrace := { ackWrite := false }
    let noCmd : BusTrace := { ackCmd := [false] }
    let x := stampNow s
    let done (t : State) : State := advanceList p 5 (sourceValue 2 10 0xFFFFFFFFFFFE x (bumpWrap (sbpA p + 0x6C) (setPoll 5 (0, 0) t)))
    let failed (code ofs : Nat) (t : State) : State := advanceList p 5 (sourceRefused 2 10 (oneRefused 1 x)
      (setPoll 5 (1, code) (raise (sbpA p + 4) 4 (bump (sbpA p + ofs) t))))
    twoWireResult s 5 good == 0 && nextIs (exec (.twoWireEntry p good) s) (done s) &&
    twoWireResult s 5 noAdr == 1 && nextIs (exec (.twoWireEntry p noAdr) s) (failed 1 0x40 s) &&
    twoWireResult s 5 noCmd == 2 && nextIs (exec (.twoWireEntry p noCmd) s) (failed 2 0x44 s) &&
    twoWireResult c 5 good == 5 && nextIs (exec (.twoWireEntry p good) c) (failed 5 0x50 c) &&
    nextIs (exec (.arbitrationLost p) s) (if 1 ≤ twcRetry s p then setSbp p { g with lost := 1 } (bump (sbpA p + 0x48) s)
      else failed 3 0x48 s) &&
    (let l := polled p 0 { g with lost := twcRetry s p }
     nextIs (exec (.arbitrationLost p) l) (failed 3 0x48 l)) &&
    nextIs (exec (.strto p) s) (failed 4 0x4C s)) = true := by decide +kernel

theorem test_serial_entry : ([4, 7].all fun p =>
    let g : SbPort := { state := .on, running := some (.poll 5 {}), entry := 5 }
    let s := polled p 0 g
    let c := polled p 1 g
    nextIs (exec (.serialEntry p [0, 9, 4]) s)
      (advanceList p 5 (sourceValue 2 10 9 (stampNow s) (bumpWrap (sbpA p + 0x48) (setPoll 5 (0, 0) s)))) &&
    fillFails (pollW c 5 2) [0xFF, 0xFF] &&
    nextIs (exec (.serialEntry p [0xFF, 0xFF]) c) (advanceList p 5 (sourceRefused 2 10 (oneRefused 1 (stampNow c))
      (setPoll 5 (1, 7) (raise (sbpA p + 4) 3 (bump (sbpA p + 0x40) c)))))) = true := by decide +kernel

theorem test_alerts : ([0, 3].all fun p =>
    let g : SbPort := { state := .on }
    let s := setCfg (sbpA p) 0x80000 (polled p 0 g)
    let a := setWord (pollA 5 0) (pollW s 5 0 ||| 0x800000) (setSbp p { g with running := some (.alert { stamp := 6 }) } s)
    twcAlertEn s p && nextIs (exec (.alert p) s) (bump (sbpA p + 0x60)
      (setSbp p { g with alertLevel := true, queue := [.alert (stampNow s)] } s)) &&
    nextIs (exec (.alertList p none) a) (bump (sbpA p + 0x68) (setSbp p { g with
      alertRecs := [{ word := BitVec.ofNat 48 (p * 2 ^ 16 + 2 ^ 15), sample := { stamp := 6 } }] } a)) &&
    alertEntryOf a p 0x48 == some 5 &&
    nextIs (exec (.alertList p (some 0x90)) a) (setSbp p { g with
      running := some (.alert { stamp := 6 }), alertEntry := some 5,
      alertRecs := [{ word := BitVec.ofNat 48 (p * 2 ^ 16 + 0x48), sample := { stamp := 6 } }] } a)) = true := by decide +kernel

theorem test_event_pins : ([0, 15].all fun n =>
    let g : Evp := { started := true }
    let s (cfg : W32) (g : Evp) : State := setEvp n g (setCfg (evpA n) cfg hub)
    let x : Sample := { stamp := 9 }
    let c := s 0x101 { g with candidate := some x }
    evpEn (s 1 g) n && nextIs (exec (.candidate n 0) (s 0x101 g)) (setEvp n { g with candidate := some (stampNow hub) } (s 0x101 g)) &&
    nextIs (exec (.candidate n 0) (s 1 g)) (confirmPin n (stampNow hub) (s 1 g)) &&
    nextIs (exec (.evpConfirmed n 0) c) (confirmPin n x c) &&
    nextIs (exec (.pinReturn n) c) (bump (evpA n + 8) (setEvp n g c)) &&
    (let t := confirmPin n x c
     getEvp t n == { g with level := true, queue := [{ word := BitVec.ofNat 48 (256 + n), sample := x }] } &&
     cntR t (evpA n + 4) == 1 && (getIcu t (34 + n)).latch && { t with evps := c.evps, cnt := c.cnt, icu := c.icu } == c) &&
    (let q := s 1 { g with queue := [{ word := 5, sample := x }] }
     nextIs (exec (.eventQueueDrain false n) q) (channelEvent 5 n 0 x 5 (setEvp n g q)))) = true := by decide +kernel

theorem test_touch_keys : ([1, 15].all fun n =>
    let cfg : W32 := 0x06414301
    let s (g : Tch) : State := setCfg (tchA 0) 1 (setCfg (tchA n) cfg (setTch n g { hub with tchStamp := { stamp := 44 } }))
    let b : Nat := 256 * 1000
    let last := bits cfg 11 8
    let at_ (c : BitVec 16) (g : Tch) (f : State → Bool) : Bool := nextSat (exec (.touchMeasurement n c) (s g)) f
    firstKey (s {}) == some 0 && last == 3 && bits cfg 31 20 == 100 && bits cfg 19 12 == 20 &&
    at_ 1100 { base := some b, pressRun := 2, runStamp := { stamp := 40 } } (fun t =>
      (getTch t n).touched && (getTch t n).pressRun == 0 &&
      (getTch t n).queue.map (fun e => (e.word, e.sample.stamp)) == [(BitVec.ofNat 48 (256 + n), 40)]) &&
    at_ 1100 { base := some b, pressRun := 0 } (fun t => (getTch t n) == {
      base := some b, last := 1100, pressRun := 1, runStamp := { stamp := 44 } }) &&
    at_ 1099 { base := some b, pressRun := 2 } (fun t => !(getTch t n).touched) &&
    at_ 1079 { base := some b, touched := true, relRun := 2 } (fun t => !(getTch t n).touched) &&
    at_ 1080 { base := some b, touched := true, relRun := 2 } (fun t => (getTch t n).touched)) = true := by decide +kernel

theorem test_event_outputs : ([0, 7].all fun n =>
    let s (mode src : Nat) (o : Evo) : State := setEvo n o (setCfg (evoA n) (BitVec.ofNat 32 (mode * 8 + src * 32 + 3 * 256)) hub)
    let drive (s : State) : State := setEngine 3 { getEngine s 3 with evo := 1#8 <<< n } s
    let p := s 2 2 { driven := true, pulse := true, active := true }
    let l := s 1 2 { driven := true, latch := true, active := true }
    let word (set : Nat) : W48 := BitVec.ofNat 48 (n * 2 ^ 40 + set * 256 + 2 * 32 + 3)
    nextIs (exec (.pulseEnd n) p) (setEvo n { driven := true } p) && nextIs (exec (.pulseEnd n) l) l &&
    nextIs (exec (.opiEvoClr .ranger (1#32 <<< n)) l) (journal 0x13 (stampNow l) [word 0] (setEvo n { driven := true } l)) &&
    nextIs (exec (.opiEvoClr .ranger (1#32 <<< n)) p) p &&
    nextIs (exec (.opiEvoClr .pcie 1) hub) (raise sysFlagsA 0 (bump sysWerrA hub)) &&
    (let f := drive (s 0 2 { driven := true })
     evoSource f n && evoFollow n f == setEvo n { driven := true, source := true, active := true } f) &&
    (let f := drive (s 1 2 { driven := true })
     evoFollow n f == journal 0x13 (stampNow f) [word 1] (setEvo n { driven := true, source := true, latch := true, active := true } f)))
    = true := by decide +kernel

/-! ### The Hawser trunk (R140–R196) -/

/-- A hub whose trunk port n is on, its cycles running, at 1,000,000 ticks. -/
def trunk (n : Nat) (g : Hws) : State :=
  setHws n { g with state := .on, cycling := true } (setCfg (hwsA n) 0x06600003 (setCfg (hwsA n + 8) 0x80000010
    (setCfg (hwsA n + 0x100) 0x00180301 { hub with tb := { fast := 1000000 * 2 ^ 32 } })))

theorem test_lock : ([0, 7].all fun n =>
    let s := trunk n {}
    let x := rxStamp s n
    canReceive s n && nextIs (exec (.lock n 0x8000 17 9) s)
      (bump (hwsA n + 0x40) (setHws n { getHws s n with lock := some { metric := 9, stamp := x } } s)) &&
    nextIs (exec (.lock n 0x7FFF 17 9) s) s && nextIs (exec (.lock n 0x8000 16 9) s) s) = true := by decide +kernel

theorem test_header : ([0, 7].all fun n =>
    let l : HLock := { metric := 5, stamp := { stamp := 77 } }
    let s := trunk n { lock := some l }
    let p := trunk n { lock := some l, peaks := [(4, { stamp := 999000 }), (6, { stamp := 999500 }), (9, { stamp := 5 })] }
    let h := mkHeader 3 3 5 0 2 0
    let e := mkHeader 31 8 0 0 2 0
    let r := mkHeader 32 3 5 0 2 0
    let g := getHws s n
    (headerCrc h).toNat == bits h 7 0 && !nodeReserved h && typeFromNode e && nodeReserved r &&
    nextIs (exec (.header n h 8 []) s) (setHws n { g with lock := some { l with hdr := some h }, rssi := 8, rssiNode := 3 } s) &&
    nextIs (exec (.header n e 8 [1]) s) (bump (hwsA n + 0x44) (setHws n { g with
      lock := none, rssi := 8, rssiNode := 31, inbox := [{ hdr := e, stamp := { stamp := 77 }, snr := [1] }] } s)) &&
    nextIs (exec (.header n r 8 []) s) (raise (hwsA n + 4) 2 (bump (hwsA n + 0x48) (setHws n { g with lock := none } s))) &&
    nextSat (exec (.header n (h ^^^ 1) 8 []) s) (fun t => (getHws t n).lock.isNone && cntR t (hwsA n + 0x58) == 1 &&
      cntR t (hwsA n + 0x48) == 1 && flagR t (hwsA n + 4) == 0x14) &&
    (livePeaks p (getHws p n)).length == 2 &&
    nextSat (exec (.header n (h ^^^ 1) 8 []) p) (fun t => (getHws t n).lock == some { metric := 6, stamp := { stamp := 999500 } }))
    = true := by decide +kernel

theorem test_packet_received : ([0, 7].all fun n =>
    let h := mkHeader 3 3 2 0 2 0
    let b := mkHeader 3 3 2 5 2 0
    let s := trunk n { lock := some { hdr := some h, stamp := { stamp := 77 } }, cycle := 40 }
    let v := trunk n { lock := some { hdr := some b } }
    let g := getHws s n
    let coded (c : BitVec 24) : List (BitVec 8) := bytesOfBits (scramble 3 (byteBits [0xAB, 0xCD] ++ msbBits c))
    mapAccepted s n h && !mapAccepted v n b &&
    nextIs (exec (.packetReceived n (coded (crc24 [0xAB, 0xCD])) [4]) s) (bump (hwsA n + 0x44) (setHws n { g with
      lock := none, inbox := [{ hdr := h, payload := [0xAB, 0xCD], stamp := { stamp := 77 }, snr := [4] }] } s)) &&
    nextIs (exec (.packetReceived n (coded (crc24 [0xAB, 0xCD] ^^^ 1)) []) s) (raise (hwsA n + 4) 2 (bump (hwsA n + 0x4C) (setHws n { g with
      lock := none, nodes := Mem.write (fun _ => {}) [] 3 { crcFails := [40] } } s))) &&
    nextIs (exec (.packetReceived n (coded 0) []) v)
      (raise (hwsA n + 4) 2 (bump (hwsA n + 0x50) (setHws n { getHws v n with lock := none } v)))) = true := by decide +kernel

theorem test_receiver_capture : ([0, 7].all fun n =>
    let go (l : HLock) : Bool :=
      let s := trunk n { lock := some l }
      let g := getHws s n
      let x := rxStamp s n
      nextIs (exec (.receiverCapture n (5 + 24)) s) (
        let u := setHws n { g with lock := some { metric := 29, stamp := x, captured := l.hdr.isSome } } s
        if l.hdr.isSome then raise (hwsA n + 4) 3 (bump (hwsA n + 0x54) u) else raise (hwsA n + 4) 4 (bump (hwsA n + 0x58) u)) &&
      nextIs (exec (.receiverCapture n (4 + 24)) s) (setHws n { g with peaks := [(28, x)] } s)
    go { metric := 5 } && go { metric := 5, hdr := some 9 }) = true := by decide +kernel

theorem test_packet_transmit : (
    let p : HPkt := { hdr := mkHeader 63 8 1 0 0 0, payload := [0], stamp := { stamp := 2000000 } }
    let s := trunk 7 { txQueue := [p], lock := some {} }
    let sym := dataSymbols 0 272 1
    mapNcbps s 7 robustMap == 272 && nextIs (exec (.packetTransmit 0) s) s &&
    nextSat (exec (.packetTransmit 7) s) (fun t => (getHws t 7).txQueue == [] && (getHws t 7).lock.isNone && (getHws t 7).txPkt == p &&
      (getHws t 7).txLabels.length == 1 + sym && (getHws t 7).txEnd == 2000000 - 4608 + BitVec.ofNat 64 (2304 * (5 + sym) + 64) &&
      cntR t (hwsA 7 + 0x5C) == 1)) = true := by decide +kernel

/-- R157: full scale in each bin is 118.6 dB, 474 in quarters; 144 of them together are 140.18 dB. -/
theorem test_noise_floor : (
    let s := trunk 7 {}
    nextSat (exec (.noiseFloorWindow 7 (List.replicate 144 1) 0) s) (fun t => (getHws t 7).noiseOn &&
      Mem.read (fun _ => 0) (getHws t 7).nf 0 == 474 && Mem.read (fun _ => 0) (getHws t 7).nf 143 == 474 &&
      (getHws t 7).nfWb == 561)) = true := by decide +kernel

theorem test_feed : ([0, 7].all fun n =>
    let s (g : Hws) : State := setCfg (hwsA n + 0x10C) 0x00050001 (trunk n g)
    let i := s { pstate := 1 }
    let r := s { pstate := 3 }
    let a := s { pstate := 2 }
    nextIs (exec (.inrushEnd n 1023) i) (setHws n { getHws i n with pstate := 2, base := 1023, code := 1023, onSince := 1000000 } i) &&
    nextIs (exec (.retryRestart n) r) (setHws n { getHws r n with pwren := true, pstate := 1 } r) && nextIs (exec (.retryRestart n) a) a &&
    nextIs (exec (.stepDetectorArm n) a) (setHws n { getHws a n with armed := true, scanLeft := 5 } a) &&
    nextIs (exec (.short n) i) i && nextIs (exec (.currentStep n 9) i) i &&
    [0, 7].all fun lim =>
      let b := setCfg (hwsA n + 0x20) (BitVec.ofNat 32 (lim * 256)) a
      let u := setHws n { getHws b n with pstate := if lim = 0 then 0 else 3, shortRun := 1, shortLock := lim == 0 } b
      nextIs (exec (.short n) b) (leaveAll n (trunkEv 3 0 n (stampNow b) (raise (hwsA n + 0x24) 6 (bump (hwsA n + 0x6C) u))))) = true := by decide +kernel

theorem test_current_step : ([0, 7].all fun n =>
    let s (run : Nat) : State := setCfg (hwsA n + 0x20) 0x00023800 (setCfg (hwsA n + 0x30) 20 (setCfg (hwsA n + 0x10C) 0x00050001
      (trunk n { pstate := 2, armed := true, base := 100, stepRun := run, stepStamp := { stamp := 7 } })))
    nextSat (exec (.currentStep n 119) (s 1)) (fun t => getHws t n == { getHws (s 1) n with
      code := 119, stepRun := 0, base := 100 + 19 / 8 }) &&
    nextSat (exec (.currentStep n 120) (s 0)) (fun t => getHws t n == { getHws (s 0) n with
      code := 120, stepRun := 1, stepStamp := stampNow (s 0) }) &&
    (let u := setHws n { getHws (s 1) n with code := 120, stepRun := 0, base := 120 } (s 1)
     let v := trunkEv 4 0 n { stamp := 7 } (raise (hwsA n + 0x24) 5 (bump (hwsA n + 0x70) u))
     nextIs (exec (.currentStep n 120) (s 1)) (requestWake 4 (setHws n { getHws v n with scanLeft := 5 } v))) &&
    (let u := setHws n { getHws (s 1) n with code := 80, stepRun := 0, base := 80 } (s 1)
     let v := trunkEv 5 0 n { stamp := 7 } (raise (hwsA n + 0x24) 5 (bump (hwsA n + 0x70) u))
     nextIs (exec (.currentStep n 80) (s 1)) (requestWake 4 v))) = true := by decide +kernel

theorem test_control_order : (
    let a : HCtl := { type := 7, node := 1, payload := [1] }
    let b : HCtl := { type := 2, node := 2, arg := 1, uid := 9 }
    let c : HCtl := { type := 5, node := 3 }
    let g : Hws := { ctl := [a, c, b], tmchg := some (1, 0, 2, 5) }
    ctlPick g == some b && ctlPick { g with ctl := [c] } == none && ctlPick { g with ctl := [c], tmchg := none } == some c) = true := by decide +kernel

theorem test_control_slot : ([0, 7].all fun n =>
    let go (c : HCtl) (x : HNode) (f : State → State) : Bool :=
      let s := trunk n { ctl := [c], ctlCount := 15, cycle := 60, nodes := Mem.write (fun _ => {}) [] 3 x }
      let u := setHws n { getHws s n with ctl := [], ctlSent := true, ctlCount := 0 } s
      ctlPick (getHws s n) == some c && nextIs (exec (.controlSlot n) s) (f u)
    let unit := 8 + 8 * 3
    let x : HNode := { nstate := 2, cmdSeq := 4, dEst := -5 / 2 }
    go { type := 8, node := 63 } x (schedule n unit (mkHeader 63 8 1 0 0 0) [0]) &&
    go { type := 8, node := 3 } x (fun u => leaveNode n 3 7 (schedule n unit (mkHeader 3 8 1 0 0 0) [0] u)) &&
    go { type := 7, node := 3, payload := [1, 2, 3, 4, 5, 6, 7] } x (fun u => setNode n 3 { x with cmdSent := some 60 }
      (schedule n unit (mkHeader 3 7 7 0 4 0) [1, 2, 3, 4, 5, 6, 7] u)) &&
    go { type := 6, node := 3 } x (fun u => setNode n 3 { x with dly := -3, dlySent := some 60 }
      (schedule n unit (mkHeader 3 6 4 0 0 0) [0xFF, 0xFF, 0xFD, 0] u)) &&
    go { type := 2, node := 3, arg := 1, uid := 0x11 } x (schedule n unit (mkHeader 3 2 64 0 0 0)
      ([0, 0, 0, 0, 0, 0, 0, 0x11, 1, 0xFF, 0xFF, 0xFD, 0, 0, 0, 68] ++ List.replicate 48 0)) &&
    (let s := trunk n {}
     nextIs (exec (.controlSlot n) s) s)) = true := by decide +kernel

/-- Node 5 of port n in the image: any UID, one grant every cycle with a retry, channel 1. -/
def booked5 (n : Nat) (s : State) : State :=
  setWord (chanA 9 1) (BitVec.ofNat 48 (400080 * 256)) (setWord (chanA 9 0) (BitVec.ofNat 48 (2 ^ 47 + 3 * 2 ^ 43 + 1024 * n + 32 * 5 + 1))
    { s with config := { s.config with lists := [(2 * 2 ^ 24 + 32 * n + 5,
      List.replicate 12 0 ++ [2, 0, 1, 0] ++ [0, 1, 0, 0, 0, 2] ++ List.replicate 18 0)] } })

/-- A JOIN_REQ of node m. -/
def joinPkt (m : Nat) (cap : BitVec 8) : HPkt :=
  { hdr := mkHeader m 1 16 0 0 0, payload := [1, 2, 3, 4, 5, 6, 7, 8, 0, 0, 0, cap, 0, 0, 0, 0], stamp := { stamp := 24608 } }

theorem test_join_req : ([0, 7].all fun n =>
    let uid : W64 := 0x0102030405060708
    let x := booked5 n (trunk n { inbox := [joinPkt 5 0x02] })
    let y := booked5 n (trunk n { inbox := [joinPkt 6 0x02] })
    expected x n 5 && !expected x n 6 && !foreignPacket x n (joinPkt 5 2) &&
    nextIs (exec (.joinReq n) y) (bump (hwsA n + 0x154) (bump (hwsA n + 0x144)
      (setHws n { getHws y n with inbox := [], ctl := [{ type := 2, node := 6, arg := 1, uid := uid }] } y))) &&
    nextIs (exec (.joinReq n) x) (bump (hwsA n + 0x144) (setHws n { getHws x n with
      inbox := [], ctl := [{ type := 2, node := 5, uid := uid }],
      nodes := Mem.write (fun _ => {}) [] 5 { cap := 2, snrs := [[]] } } x)) &&
    (let j := nodeJoined n 5 x
     (getNode j n 5).nstate == 2 && (getNode j n 5).first == 8 && cntR j (hwsA n + 0x148) == 1)) = true := by decide +kernel

theorem test_joinfail : ([0, 7].all fun n =>
    let s (c : W32) (heard : Bool) : State := trunk n {
      cycle := c, nodes := Mem.write (fun _ => {}) [] 31 { nstate := 1, first := 10, heard := heard, lost := 2 } }
    nextIs (exec (.joinfail n 31) (s 26 false)) (bump (hwsA n + 0x14C) (setHws n { getHws (s 26 false) n with
      nodes := Mem.write (fun _ => {}) [] 31 { lost := 2 } } (s 26 false))) &&
    nextIs (exec (.joinfail n 31) (s 26 true)) (s 26 true) && nextIs (exec (.joinfail n 31) (s 25 false)) (s 25 false)) = true := by decide +kernel

/-- Node 5 ON, its grant at START 48, in the cycle that began at 900,000. -/
def granted (n : Nat) (g : Hws) : State :=
  booked5 n (trunk n { g with cycle := 9, cycStart := 900000, nodes := Mem.write (fun _ => {}) [] 5 { nstate := 2, uid := 1 } })

theorem test_trunk_data : (
    let n := 7
    let p : HPkt := {
      hdr := mkHeader 5 3 16 0 0 0, stamp := { stamp := 900000 + 2500 * 48 + 4608 }, payload := [1, 1, 0, 0, 0, 0, 0x0F, 0x42, 0x40, 0, 0, 0, 100, 0xFF, 0xFF, 0xFE] }
    let s := granted n { inbox := [p] }
    let w := granted n { inbox := [{ p with hdr := mkHeader 6 3 16 0 0 0 }] }
    let l := granted n { inbox := [{ hdr := mkHeader 5 8 0 0 0 0, stamp := { stamp := 900000 } }] }
    let rest (s : State) : State := setHws n { getHws s n with inbox := [] } s
    ((slotOf s n p.stamp).map (fun q => (q.1.node, q.1.g, q.2))) == some (5, 0, false) &&
    nextSat (exec (.data n) s) (fun t => match slotOf s n p.stamp with | some q => t == takeData n p q.1 q.2 (rest s) | none => false) &&
    nextIs (exec (.data n) w) (raise (hwsA n + 0x104) 6 (bump (hwsA n + 0x164) (rest w))) &&
    !foreignPacket l n (getHws l n).inbox.head! && nextIs (exec (.leave n) l) (leaveNode n 5 7 (rest l))) = true := by decide +kernel

theorem test_trunk_blocks : (
    let s := granted 7 {}
    takeBlock 7 5 (.data 1 false true 1000000 100 [5, 0xFFFFFF]) s ==
      sourceValue 3 (1024 * 7 + 161) 0xFFFFFFFFFFFF { stamp := 1000100, qual := .held }
        (sourceValue 3 (1024 * 7 + 161) 5 { stamp := 1000000, qual := .held } s) &&
    (getNode (delayUpdate 7 5 32 s) 7 5).dEst == 1 &&
    (let t := leaveNode 7 5 8 s
     (getNode t 7 5) == {} && cntR t (hwsA 7 + 0x174) == 1) &&
    (let t := lostPacket 7 5 0 s
     (getNode t 7 5).lost == 1 && cntR t (hwsA 7 + 0x160) == 1)) = true := by decide +kernel

theorem test_nack_and_loss : (
    let s := granted 7 {}
    let x := getNode s 7 5
    let r := match missing s 7 5 0 with | some p => p.rstart | none => 255
    (missing s 7 5 0).isSome && (missing s 7 5 1).isNone && decide (48 < r ∧ r < 160) &&
    nextIs (exec (.nack 7 5 0) s) (bump (hwsA 7 + 0x158) (schedule 7 r (mkHeader 5 4 0 0 0 0) [] (setNode 7 5 { x with nacks := 1 } s))) &&
    nextIs (exec (.nack 7 5 1) s) s && nextIs (exec (.packetLost 7 5 1) s) s &&
    nextIs (exec (.packetLost 7 5 0) s) (lostPacket 7 5 0 s) &&
    (let t (k : Nat) : State := setNode 7 5 { x with lossRun := k } (setCfg (hwsA 7 + 0x100) 0x00180301 s)
     nextIs (exec (.nodeTimeout 7 5) (t 3)) (leaveNode 7 5 8 (t 3)) && nextIs (exec (.nodeTimeout 7 5) (t 2)) (t 2))) = true := by decide +kernel

theorem test_tone_maps : ([7].all fun n =>
    let x : HNode := { nstate := 2, cap := 0x1C, snrs := [List.replicate 144 120], crcFails := [20, 4] }
    let s := trunk n { cycle := 3, nodes := Mem.write (fun _ => {}) [] 5 x }
    let new : TMap := { rate := 3, codes := List.replicate 136 4 }
    let c : Hws := { cycle := 40, tmchg := some (5, 0, 2, 24), maps := [(2, new)], nodes := Mem.write (fun _ => {}) [] 5 x }
    let t := trunk n c
    let early := trunk n { c with cycle := 39 }
    buildMap s n x.cap [List.replicate 144 120] == new && decide (17 * mapCapacity s n robustMap ≤ 16 * mapCapacity s n new) &&
    nextIs (exec (.toneMapRebuild n 5) s) (setHws n { getHws s n with
      nodes := Mem.write (fun _ => {}) [] 5 { x with crcFails := [] }, ctl := [{ type := 5, node := 5, map := new }] } s) &&
    nextIs (exec (.toneMapRebuild n 5) t) t && nextIs (exec (.toneMapRebuild n 6) s) s &&
    nextIs (exec (.tmfail n) t) (bump (hwsA n + 0x16C) (setHws n { getHws t n with tmchg := none, maps := [] } t)) &&
    nextIs (exec (.tmfail n) early) early &&
    (getHws (adoptMap n 5 2 t) n).tmchg.isNone && (getNode (adoptMap n 5 2 t) n 5).tmap == 2 && adoptMap n 6 2 t == t) = true := by decide +kernel

/-- Generation 1 address 0x47 of port n in the image, in READ with one channel. -/
def polled1 (n : Nat) (x : HNode1) (poll : Option HPoll) : State :=
  let s := trunk n { nodes1 := Mem.write (fun _ => {}) [] 7 x, poll := poll }
  { s with config := { s.config with lists := [(4 * 2 ^ 24 + 8 * n + 7, List.replicate 12 0)] } }

theorem test_g1_poll : ([0, 7].all fun n =>
    let x : HNode1 := { nstate := 2, nch := 1, seq := 0xFF, lat := 3 }
    let ref (s : State) : Sample := { stampNow s with stamp := (stampNow s).stamp + 76800 }
    let s := polled1 n x none
    let d : HPoll := { a := 7, cmd := 2, due := true }
    let t := polled1 n x (some d)
    let w := polled1 n x (some { d with due := false })
    nextIs (exec (.g1Poll n 7) s) (bump (hwsA n + 0x68) (bump (hwsA n + 0x178) (setHws n { getHws s n with
      nodes1 := Mem.write (fun _ => {}) [] 7 { x with seq := 0 }, poll := some { a := 7, cmd := 2, ref := ref s } } s))) &&
    nextIs (exec (.g1Poll n 7) t) (bump (hwsA n + 0x68) (bump (hwsA n + 0x178) (setHws n { getHws t n with
      poll := some { a := 7, cmd := 2, retry := true, ref := ref t } } t))) &&
    nextIs (exec (.g1Poll n 7) w) w) = true := by decide +kernel

theorem test_g1_responses : ([0, 7].all fun n =>
    let x : HNode1 := { nstate := 2, nch := 1, seq := 9, lat := 3 }
    let p : HPoll := { a := 7, cmd := 2, ref := { stamp := 500000 } }
    let q := { p with retry := true }
    let s := polled1 n x (some p)
    let r := polled1 n x (some q)
    let i := polled1 n x (some { p with cmd := 1 })
    let y : Sample := { stamp := 501200 }
    let nodes (z : HNode1) := Mem.write (fun _ => ({} : HNode1)) [] 7 z
    let body : List (BitVec 8) := [7, 0x47, 0x82, 9, 0, 0x80, 0, 1]
    let bad := body ++ beBytes 2 ((crc16 body).toNat ^^^ 1)
    let good := body ++ beBytes 2 (crc16 body).toNat
    nextIs (exec (.noresp n) i) (setHws n { getHws i n with poll := none } (bump (hwsA n + 0x17C) i)) &&
    nextIs (exec (.noresp n) s) (setHws n { getHws s n with nodes1 := nodes { x with retries := 1 }, poll := some { p with due := true } }
      (bump (hwsA n + 0x17C) s)) &&
    nextIs (exec (.noresp n) r) (sourceRefused 4 (256 * n + 32 * 7) (oneRefused 1 y) (raise (hwsA n + 0x104) 5 (bump (hwsA n + 0x184)
      (setHws n { getHws r n with poll := none, nodes1 := nodes { x with failRun := 1, lost := 1 } } (bump (hwsA n + 0x17C) r))))) &&
    nextIs (exec (.g1FrameReceived n bad) s) (pollFailed n p (bump (hwsA n + 0x64) s)) &&
    nextIs (exec (.g1FrameReceived n good) s) (sourceValue 4 (256 * n + 32 * 7) 0xFFFFFF800001 y
      (bump (hwsA n + 0x60) (setHws n { getHws s n with poll := none } s)))) = true := by decide +kernel

/-! ### Channels, filter engines, rainflow slots and delivery rings (R197–R239, R336–R366) -/

/-- Channel 9, enabled with its direct stream 6 on ring 2, both running and admitted with a bound of 1,000 ticks. -/
def direct (w7 : Nat) (s : State := hub) : State :=
  setFe 0 { state := .on } (setRing 2 { state := .on } (setCfg (rngA 2) 0x80300000
    (setWord (streamA 6 0) (BitVec.ofNat 48 (2 ^ 47 + 2 * 2 ^ 37 + 3 * 2 ^ 24)) (setWord (streamA 6 1) 500
    (setWord (chanA 9 0) (BitVec.ofNat 48 (2 ^ 47 + 1 * 2 ^ 43)) (setWord (chanA 9 7) (BitVec.ofNat 48 (w7 + 2 ^ 12 + 6))
    { s with adm := { s.adm with done := true, bound := Mem.write (fun _ => 0) [] 6 1000 } }))))))

/-- R203: A0 + A1 × raw, rounded to the nearest, the even one of two, and saturated. -/
theorem test_channel_value : (([(5, 0), (0x7FFFFFFFFFFF, 0), (0x800000000000, 0x7FFFFFFFFFFF), (3, 0xFFFFFFFFFFFF)] : List (W48 × W48)).all fun q =>
    let s := setWord (chanA 9 2) q.2 (setWord (chanA 9 3) 0x4000000000F0 (direct 0))
    let x : Sample := { stamp := 70 }
    let e := calExact s 9 q.1.toInt
    let v := roundDiv e.num e.den
    let u := setFe 0 { state := .on, qmax := 1 } s
    chEn s 9 && !chIsEvent s 9 && calBooked s 9 && sourcesRun s (chKind s 9) && (getFe s (chFe s 9)).state == .on &&
    decide (-1 ≤ 2 * ((v : Rat) - e) ∧ 2 * ((v : Rat) - e) ≤ 1) &&
    nextIs (exec (.channelValue 9 q.1 x) s) (channelCopies 9 { x with value := (saturate v).1, sat := (saturate v).2 }
      (if (saturate v).2 then raise (feA 0) 4 (bump (feA 0 + 0xC) u) else u))) = true := by decide +kernel

theorem test_channel_refusals : (
    let x : Sample := { stamp := 70 }
    let full := setFe 0 { state := .on, queued := 4096 } (direct 0)
    let off := setWord (chanA 9 0) 0 (direct 0)
    nextIs (exec (.channelValue 9 5 x) full) (channelGap 9 { first := 70, last := 70, count := 1, reason := 3 }
      (raise (feA 0) 3 (bump (feA 0 + 0x18) full))) && nextIs (exec (.channelValue 9 5 x) off) off) = true := by decide +kernel

/-- R205: at the limits nothing is out; one step beyond, the bit and an event. -/
theorem test_limits : ([1, 2].all fun mode =>
    let s (h : Chan) : State := setWord (chanA 9 6) 0x000064FFFF9C (setChan 9 h (direct (mode * 2 ^ 18)))
    let at_ (v : W48) : Sample := { value := v, stamp := 3 }
    let ev (is side : Nat) (v : W48) (t : State) : State := if mode = 2 then
      offerEvent 6 3 (at_ v) [BitVec.ofNat 48 (is * 2 ^ 47 + side * 2 ^ 46 + 9), v] t else t
    limitCheck 9 (at_ 100) (s {}) == s {} && limitCheck 9 (at_ (-100)) (s {}) == s {} &&
    limitCheck 9 (at_ 101) (s {}) == ev 1 1 101 (raise (limFA 0) 9 (setChan 9 { out := true, high := true } (s {}))) &&
    limitCheck 9 (at_ (-101)) (s {}) == ev 1 0 (-101) (raise (limFA 0) 9 (setChan 9 { out := true } (s {}))) &&
    limitCheck 9 (at_ 100) (s { out := true, high := true }) == ev 0 1 100 (setChan 9 { high := true } (s { out := true, high := true })))
    = true := by decide +kernel

theorem test_gap_notice : (
    let run : RefRun := { first := 5, last := 6, count := 2, reason := 3 }
    let s := setChan 9 { notice := some run } (direct 0)
    nextIs (exec (.gapNotice 9) (direct 0)) (direct 0) && nextIs (exec (.gapNotice 9) s) (runChain 9 (.gap run false) (setChan 9 {} s)))
    = true := by decide +kernel

theorem test_gap_runs : (
    let s (t : Nat) : State := setStream 6 { run := some { first := 1000, last := 1001, count := 2, reason := 1 } }
      { direct 0 with tb := { fast := BitVec.ofNat 96 (t * 2 ^ 32) } }
    nextIs (exec (.gapRunClose 6) (s 1499)) (s 1499) && nextIs (exec (.gapRunClose 6) (s 1500)) (closeRun 6 (s 1500)) &&
    nextIs (exec (.gapRunClose 6) (direct 0)) (direct 0)) = true := by decide +kernel

theorem test_flush_deadline : (
    let b : Batch := { t0 := 1000, samples := [(7, 1000)] }
    let s (t : Nat) : State := setStream 6 { batch := some b } { direct 0 with tb := { fast := BitVec.ofNat 96 (t * 2 ^ 32) } }
    nextIs (exec (.flushDeadline 6) (s 1499)) (s 1499) && nextIs (exec (.flushDeadline 6) (direct 0)) (direct 0) &&
    nextIs (exec (.flushDeadline 6) (s 1500)) (requestWake 6 (makeReady 2 (batchRec (s 1500) 6 1 b) (setStream 6 {} (s 1500))))) = true := by decide +kernel

/-- Chain 3 of engine 7: one stage of type 7 with a rainflow slot, four words from word 100, for channel 9. -/
def rainflow (clr : Nat) (s : State := hub) : State :=
  setWord (coefA 7 100) (BitVec.ofNat 48 (7 * 2 ^ 44 + 5 * 2 ^ 15)) (setWord (coefA 7 101) (BitVec.ofNat 48 (clr * 2 ^ 32))
  (setWord (coefA 7 104) 2 (setWord (feChainA 7 3) (BitVec.ofNat 48 (2 ^ 47 + 100))
  (setWord (chanA 9 0) (BitVec.ofNat 48 (2 ^ 47 + 1 * 2 ^ 43)) (setWord (chanA 9 7) (BitVec.ofNat 48 (7 * 2 ^ 29 + 3 * 2 ^ 21 + 2 ^ 20)) s)))))

theorem test_coefficient_scrub : (
    let s := rainflow 0
    let bad (w : Nat) : State := journal 0x40 (stampNow s) [BitVec.ofNat 48 (7 * 2 ^ 32 + w)] (raise (feA 7) 6 (bump (feA 7 + 0x14) s))
    nextIs (exec (.feScrub 7 32767 .clean) s) s && nextIs (exec (.feScrub 7 0 .corrected) s) (raise (feA 7) 5 (bump (feA 7 + 0x10) s)) &&
    (match coefUse s 7 32767 with | .unused => true | _ => false) && nextIs (exec (.feScrub 7 32767 .uncorrectable) s) (bad 32767) &&
    (match coefUse s 7 104 with | .chain c => c == 3 | _ => false) &&
    nextSat (exec (.feScrub 7 104 .uncorrectable) s) (fun t => cntR t (feBrkA 7 0) == 8 && { t with cnt := (bad 104).cnt } == bad 104))
    = true := by decide +kernel

theorem test_rainflow_snapshot : (
    let s (k : Nat) : State := setSram 600 9 (setSlot 0 { inUse := true, page := 1, inputs := k, total := 5, residue := [1, 2] } (rainflow 1))
    (slotOwner (s 2) 0).map (·.1) == some 9 && (snapshotPayload (s 2) (getSlot (s 2) 0)).length == 4226 &&
    (snapshotPayload (s 2) (getSlot (s 2) 0)).getD (2 + 88) 0 == 9 && (streamOf (s 2) 5 7 0).isNone &&
    nextIs (exec (.rainflowSnapshot 0) (s 1)) (s 1) &&
    (match slotOwner (s 2) 0 with
     | some q => nextSat (exec (.rainflowSnapshot 0) (s 2)) (fun t => (getSlot t 0).inputs == 0 &&
        (getSlot t 0).total == (if rfClr q.2 then 0 else 5) && sramR t 600 == (if rfClr q.2 then 0 else 9))
     | none => false)) = true := by decide +kernel

/-- A batch record of n samples of stream 6. -/
def batchOf (n : Nat) : Record :=
  { type := 1, num := 6, time := 50, per := 256, samples := (List.range n).map (fun i => (BitVec.ofNat 48 (i + 1), 50)) }

/-- R353, R346: in a body of 512 words the record's last words go round to its beginning. -/
theorem test_stager_write : ([0, 1].all fun mode =>
    let x := batchOf 4
    let s := setRing 2 { state := .on, base := 3, stg := 0xFFFFFFFD, prod := 0xFFFFFFFD, cons := 0xFFFFFFFD, ready := [x] }
      (setCfg (rngA 2) (BitVec.ofNat 32 (0x80000000 + mode * 0x20000000)) (setCfg (rngA 2 + 0x14) 8 (direct 0)))
    let ws := recWords s x 0
    stagerRing s == some 2 && !ringLevel x && ringMode s 2 == mode && !linkCarries s && ws.length == 8 && bodySize s 2 == 512 &&
    nextSat (exec .stagerWrite s) (fun t => t.stagerTurn == 3 && (getRing t 2).stg == 5 && sramR t (3 * 512 + 509) == ws.getD 0 0 &&
      sramR t (3 * 512 + 4) == 4 && sramR t (3 * 512 + 5) == 0 &&
      (if mode = 0 then (getRing t 2).prod == 5 && (getStream t 6).delivered == 4 && (getStream t 6).seq == 1 &&
          cntR t (rngA 2 + 0x38) == 1 && bit (flagR t (rngA 2 + 4)) 3
        else (getRing t 2).prod == 0xFFFFFFFD && (getRing t 2).inflight == [{
          endIdx := 5, startIdx := 0xFFFFFFFD, stream := some 6, samples := 4, stamp := 50 }])) ) = true := by decide +kernel

theorem test_full_ring : (
    let x : Sample := { value := 4, stamp := 50 }
    let off (s : State) : State := setStream 6 { getStream s 6 with offered := (getStream s 6).offered + 1 } s
    let s := direct 0
    let f := setRing 2 { state := .on, full := true } s
    let tight := setRing 2 { state := .on, stg := 4090, cons := 0 } s
    stRing s 6 == 2 && fits s 2 5 && !fits tight 2 5 &&
    offerRing 6 x f == refuseAtRing 6 2 x (off f) && offerRing 6 x s == joinBatch 6 x (off s) &&
    offerRing 6 x tight == entryGap 2 (refuseAtRing 6 2 x (enterFull 2 5 (off tight))) &&
    (let u := enterFull 2 5 tight
     (getRing u 2).full && bit (flagR u (rngA 2 + 4)) 4 && cntR u (rngA 2 + 0x30) == 1) &&
    (let u := refuseAtRing 6 2 x f
     (getStream u 6).refused == 1 && (getRing u 2).refusedNow == 1 && cntR u (rngA 2 + 0x34) == 1)) = true := by decide +kernel

theorem test_persist_and_leave : (
    let f (t : Nat) (g : Ring) : State := setRing 2 { g with state := .on, full := true, fullSince := 1000 }
      { direct 0 with tb := { fast := BitVec.ofNat 96 (t * 2 ^ 32) } }
    let run : RefRun := { first := 5, last := 6, count := 2, reason := 4 }
    let d := f 2000 { deferred := [batchOf 1], refusing := [(6, run)] }
    halfMinBound (f 0 {}) 2 == some 500 && nextIs (exec (.persist 2) (f 1499 {})) (f 1499 {}) &&
    nextIs (exec (.persist 2) (f 1500 {})) (makeReady 2 (ringGap (getRing (f 1500 {}) 2) 2 1) (setRing 2 { getRing (f 1500 {}) 2 with persisted := true } (f 1500 {}))) &&
    nextIs (exec (.persist 2) (direct 0)) (direct 0) && nextIs (exec (.leaveFull 2) (direct 0)) (direct 0) &&
    nextIs (exec (.leaveFull 2) d) (setRing 2 { state := .on, fullSince := 1000, front := [batchOf 1, gapRec 6 run] } d)) = true := by decide +kernel

theorem test_consumer_write : (
    let s := setRing 127 { state := .on, prod := 5, cons := 0xFFFFFFFE } (setCfg (rngA 127) 0x80000000 hub)
    let r := setCfg (rngA 127) 0xC0000000 s
    nextIs (exec (.consumerWrite .pcie 127 5) s) (setRing 127 { state := .on, prod := 5, cons := 5 } s) &&
    nextIs (exec (.consumerWrite .pcie 127 6) s) (raise (rngA 127 + 4) 5 (raise sysFlagsA 0 (bump sysWerrA s))) &&
    nextIs (exec (.consumerWrite .pcie 127 5) r) (raise sysFlagsA 0 (bump sysWerrA r))) = true := by decide +kernel

theorem test_acknowledge : (
    let f : InFlight := { endIdx := 8, stream := some 6, samples := 3, sent := true }
    let s := setRing 2 { state := .on, stg := 8, inflight := [f] } (setCfg (rngA 2) 0xA0000000 (direct 0))
    nextIs (exec (.dmaAcknowledge 2) hub) hub && nextSat (exec (.dmaAcknowledge 2) s) (fun t => (getRing t 2).prod == 8 &&
      (getRing t 2).inflight == [] && (getStream t 6).delivered == 3 && cntR t (rngA 2 + 0x38) == 1 && !bit (flagR t (rngA 2 + 4)) 3))
    = true := by decide +kernel

theorem test_doorbells : (
    let s := setStream 6 { batch := some { t0 := 9, samples := [(7, 9)] } } (direct 0)
    let off := setRing 2 {} s
    ([Instr.doorbell .pcie 0xC0000002, .doorbellFlush .pcie 0x80000002, .doorbellStatus .pcie 0x40000002].all fun c =>
      nextIs (exec c off) (raise sysFlagsA 0 (bump sysWerrA (pathWake .pcie off)))) &&
    nextIs (exec (.doorbellStatus .pcie 0x40000002) s) (keepRec 2 (statusRec s 2 1) s) &&
    nextSat (exec (.doorbellFlush .pcie 0x80000002) s) (fun t => (getStream t 6).batch.isNone && (getRing t 2).ready.length == 1 &&
      nextIs (exec (.doorbell .pcie 0xC0000002) s) (doorbellStatus 0xC0000002 t) && nextIs (exec (.doorbell .pcie 0x80000002) s) t))
    = true := by decide +kernel

/-! ### Event engines and the interrupt controller (R264–R288) -/

/-- Engine e ON with an entry 31 of a kind at word 9, index 77, budget 500. -/
def engine (e kind : Nat) (g : Engine) (s : State := hub) : State :=
  setCfg (eeA e) 0x51 (setCfg (eeEntryA e 31) (BitVec.ofNat 32 (kind * 2 ^ 29 + 1 * 2 ^ 27 + 77 * 2 ^ 12 + 9)) (setCfg (eeEntryA e 31 + 4) 500
    (setEngine e { g with state := .on } s)))

theorem test_invocation_start : ([0, 15].all fun e => [2, 4, 5].all fun k =>
    let t : Trigger := { kind := k, entry := 31, index := 77, evt := 1, value0 := 7, value1 := 8, sample := { stamp := 0x5000, qual := .wake } }
    let s := setView e 0x8000 (engine e k { queue := [t, t] })
    let x := if k = 5 then stampNow s else t.sample
    nextIs (exec (.invocationStart e) s) (bumpWrap (eeA e + 0x20) (setEngine e { getEngine s e with
      run := .busy, kind := k, queue := [t], proc := {
        stack := [meta271 t x false, short x.stamp, if k = 2 then 8 else 0, if k = 2 then 7 else if k = 5 then 15 else 0]
        pc := 36, budget := 500, entry := 31, stamp := x.stamp, qual := x.qual } } s)) &&
    nextIs (exec (.invocationStart e) (engine e k {})) (engine e k {})) = true := by decide +kernel

/-- R269: the queue holds 256. -/
theorem test_trigger : ([0, 15].all fun e => [2, 3, 4].all fun k =>
    let x : Sample := { stamp := 4 }
    let t : Trigger := { kind := k, entry := 31, index := 77, evt := if k = 4 then 1 else 0, value0 := 7, value1 := 8, gap := k == 2, sample := x }
    let a := engine e k { queue := List.replicate 255 {}, qmax := 3 }
    let b := engine e k { queue := List.replicate 256 {} }
    let c := engine e k { run := .faulted }
    nextIs (exec (.trigger e 31 true 7 8 x) a) (setEngine e { getEngine a e with queue := List.replicate 255 {} ++ [t], qmax := 256 } a) &&
    derivedStreams b e == [] && nextIs (exec (.trigger e 31 true 7 8 x) b) (raise (eeA e + 4) 2 (bump (eeA e + 0x24) b)) &&
    nextIs (exec (.trigger e 31 true 7 8 x) c) (raise (eeA e + 4) 2 (bump (eeA e + 0x24) c))) = true := by decide +kernel

theorem test_icu_trigger : (
    let x : Sample := {}
    let s := engine 4 5 {}
    let v := setView 4 1 s
    let w := setView 4 1 (engine 4 5 { kind := 5, run := .busy })
    entryOfKind v 4 5 == some 31 && nextIs (exec (.trigger 4 31 false 0 0 x) s) s && nextIs (exec (.trigger 4 31 false 0 0 x) w) w &&
    nextIs (exec (.trigger 4 31 false 0 0 x) v) (setEngine 4 { getEngine v 4 with
      queue := [{ kind := 5, entry := 31, sample := stampNow v }], qmax := 1 } v)) = true := by decide +kernel

theorem test_engine_commands : ([0, 15].all fun e =>
    let s (g : Engine) : State := engine e 1 g
    let counted (s : State) : State := raise sysFlagsA 0 (bump sysWerrA s)
    let f := s { run := .faulted }
    let g := setEngine e { run := .faulted } hub
    let h := s { run := .halted, kind := 2, proc := { pc := 50, budget := 9 } }
    let i := s { run := .halted, kind := 2, proc := { pc := 16384, budget := 9 } }
    let b := s { run := .busy, kind := 2 }
    ([Instr.clear .pcie e, .halt .hsp e, .resume .twt e, .stepEngine .pcie e, .reloadcnt .pcie e].all fun c => nextIs (exec c b) (counted b)) &&
    nextIs (exec (.clear .ranger e) b) (counted b) && nextIs (exec (.clear .ranger e) g) (setEngine e {} g) &&
    nextIs (exec (.clear .ranger e) f) (setEngine e { getEngine f e with
      run := .idle, queue := [{ kind := 1, entry := 31, sample := stampNow f }], qmax := 1 } f) &&
    nextIs (exec (.halt .ranger e) b) (setEngine e { getEngine b e with run := .halted } b) &&
    nextIs (exec (.resume .ranger e) h) (setEngine e { getEngine h e with run := .busy } h) &&
    nextIs (exec (.resume .ranger e) b) b && nextIs (exec (.stepEngine .ranger e) b) b &&
    nextIs (exec (.stepEngine .ranger e) h) (setEngine e { getEngine h e with proc := { pc := 51, budget := 9, cycles := 1 } } h) &&
    nextIs (exec (.stepEngine .ranger e) i) (engineFault e 8 16384 i) &&
    nextIs (exec (.reloadcnt .ranger e) b) (setEngine e { getEngine b e with restLeft := 5 } b)) = true := by decide +kernel

theorem test_engine_fault : ([0, 15].all fun e =>
    let s (n : Nat) : State := engine e 1 { run := .busy, kind := 2, restLeft := n, proc := { pc := 50, entry := 31, stamp := 99, stack := [4] } }
      { hub with tb := { fast := 0x77 * 2 ^ 32 } }
    let f : W32 := BitVec.ofNat 32 (12 * 2 ^ 28 + 2 * 2 ^ 26 + 31 * 2 ^ 21 + 12)
    let dead (n : Nat) : Engine := { state := .on, run := .faulted, restLeft := n, fault := f, ftime := 0x77 }
    let log (n : Nat) : State := journal 0x41 (stampNow (s n)) [BitVec.ofNat 48 (e * 2 ^ 32 + f.toNat), 99]
      (raise (eeA e + 4) 5 (bump (eeA e + 0x28) (setEngine e (dead n) (s n))))
    !bit (cfgR (s 0) frzA) (16 + e) && (streamOf (s 0) 2 e 255).isNone && engineFault e 12 50 (s 0) == log 0 &&
    engineFault e 12 50 (s 2) == setEngine e { dead 1 with run := .idle, queue := [{ kind := 1, entry := 31, sample := stampNow (s 2) }], qmax := 1 } (log 2))
    = true := by decide +kernel

theorem test_source_assert : (([34, 49, 66, 97, 114, 121, 122, 124].all fun n =>
      nextIs (exec (.sourceAssert n) hub) (setIcu n { latch := true } hub)) &&
    [0, 33, 50, 65, 98, 113, 125, 127].all fun n => nextIs (exec (.sourceAssert n) hub) hub) = true := by decide +kernel

/-- R280: enabled, targeting, asserted and not active; MININT counts from the last claim. -/
theorem test_presentation : ([0, 16].all fun p =>
    let s (t : Nat) : State :=
      setIcu 34 { latch := true } (setIcu 35 { latch := true, active := some 3 } (setIcu 36 { latch := true, lastClaim := some 1000 }
      (setCfg (icuCfgA 34) (BitVec.ofNat 32 (32 + p)) (setCfg (icuCfgA 35) (BitVec.ofNat 32 (32 + p))
      (setCfg (icuCfgA 36) (BitVec.ofNat 32 (0x20000 + 32 + p)) { hub with tb := { fast := BitVec.ofNat 96 (t * 2 ^ 32) } })))))
    nextSat (exec (.presentation p) (s 1799)) (fun t => icuView t p == 1#128 <<< 34) &&
    nextSat (exec (.presentation p) (s 1800)) (fun t => icuView t p == 5#128 <<< 34)) = true := by decide +kernel

theorem test_claim_and_complete : ([0, 16].all fun p => [0, 127].all fun n =>
    let s := setView p (1#128 <<< n) (setIcu n { latch := true } { hub with tb := { fast := 9 * 2 ^ 32 } })
    let a := setIcu n { active := some p } hub
    nextIs (exec (.claim p n) s) (setView p 0 (setIcu n { active := some p, lastClaim := some 9 } s)) &&
    nextIs (exec (.claim p n) hub) (badView p true hub) && cntR (badView p true hub) (icuPA p + 0x30) == 0x10000 &&
    nextIs (exec (.complete p n) a) (setIcu n {} a) && nextIs (exec (.complete p n) hub) (badView p false hub)) = true := by decide +kernel

theorem test_retarget : ([0, 127].all fun n =>
    let s := setCfg (icuCfgA n) 0x24 (setCfg (icuAltA n) 0x10001 hub)
    let to_ (v : W32) : State := setCfg (icuCfgA n) (0x20 ||| v) (setIcu n { moved := some 4 } s)
    let counted := raise sysFlagsA 0 (bump sysWerrA s)
    nextIs (exec (.retarget .ranger n 0) s) (to_ 0) && nextIs (exec (.retarget .ranger n 16) s) (to_ 16) &&
    nextIs (exec (.retarget .ranger n 4) s) (to_ 4) && nextIs (exec (.retarget .ranger n 5) s) counted &&
    nextIs (exec (.retarget .pcie n 0) s) counted && nextIs (exec (.icuSwset .pcie 1) s) counted &&
    nextSat (exec (.icuSwset .ranger 0x81) s) (fun t => (getIcu t 114).latch && (getIcu t 121).latch && !(getIcu t 115).latch))
    = true := by decide +kernel

theorem test_iram_scrub : ([0, 15].all fun e =>
    let bad := journal 0x40 (stampNow hub) [BitVec.ofNat 48 (2 * 2 ^ 36 + e * 2 ^ 32 + 4095)] (raise (eeA e + 4) 4 (bump (eeA e + 0x30) hub))
    nextIs (exec (.iramScrub e 4095 .clean) hub) hub &&
    nextIs (exec (.iramScrub e 4095 .corrected) hub) (raise (eeA e + 4) 3 (bump (eeA e + 0x2C) hub)) &&
    nextIs (exec (.iramScrub e 4095 .uncorrectable) hub) { bad with poisoned := [iramA e 4095] }) = true := by decide +kernel

/-! ### Spectral units and the ledger (R241–R263, R331–R333) -/

/-- Unit u ON with set 3, N = 256 or less, its entry 9 and an admitted alarm stream 40. -/
def spectral (u : Nat) (ctl : W32) (g : Spu) : State :=
  setSpu u { g with state := .on } (setCfg (spuSetA u 3) ctl (setCfg (spuSetA u 3 + 8) 0x00020001 (setCfg (spuWlA u 9) 0xB0000000
    (setWord (streamA 40 0) (BitVec.ofNat 48 (2 ^ 47 + 3 * 2 ^ 44 + u * 2 ^ 20 + 7 * 2 ^ 12)) { hub with adm := { done := true } }))))

/-- R246: words at the ends of the format. -/
theorem test_psd_words : psdWord 0 = (0, false) ∧ psdWord (1 / 2 ^ 59) = (1, false) ∧ psdWord ((2 ^ 41 - 1) / 2 ^ 59) = (0x1FFFFFFFFFF, false) ∧
    psdWord (2 ^ 41 / 2 ^ 59) = (0x060000000000, false) ∧ psdWord ((2 ^ 42 - 1) * 8) = (0xFFFFFFFFFFFF, false) ∧
    psdWord (2 ^ 42 * 8) = (0xFFFFFFFFFFFF, true) := by decide +kernel

/-- R249: 0 dB is code 2,048; every code is a sixteenth of a decibel; 0 has code 0. -/
theorem test_level_codes : levelCode 0 = 0 ∧ levelCode (psdWord 1).1 = 2048 ∧ levelCode (psdWord 10).1 = 2208 ∧
    levelCode (psdWord (1 / 10)).1 = 1888 := by decide +kernel

theorem test_frame_formed : ([0, 1].all fun u =>
    let y : Sample := { value := 3 }
    let n := setN (spectral u 0x80000000 {}) u 3
    let buf (b : List (Option Sample)) : Spu := setEntry 9 { buffer := b, frameNo := 5 } {}
    let s (b : List (Option Sample)) : State := spectral u 0x80000000 (buf b)
    let whole := List.replicate n (some y)
    let after (b : List (Option Sample)) (q : List Frame) : State := setSpu u { setEntry 9 { buffer := b.take (b.length - n), frameNo := 6 } {} with
      state := .on, queue := q } (s b)
    setRuns (s []) u 3 && wlEn (s []) u 9 && nextIs (exec (.frameFormed u 9) (s (whole.drop 1))) (s (whole.drop 1)) &&
    nextIs (exec (.frameFormed u 9) (s whole)) (bumpWrap (spuA u + 0x10) (after whole [{ entry := 9, index := 5, inputs := List.replicate n y }])) &&
    nextIs (exec (.frameFormed u 9) (s (none :: whole.drop 1))) (raise (spuA u + 4) 2 (bump (spuA u + 0x14)
      (loseFrame u 9 5 (after (none :: whole.drop 1) []))))) = true := by decide +kernel

theorem test_frame_refused : (
    let y : Sample := { value := 3 }
    let n := setN (spectral 0 0x80000000 {}) 0 3
    let q := List.replicate 512 ({ entry := 8, inputs := [y] } : Frame)
    let g : Spu := { setEntry 9 { buffer := List.replicate n (some y) } {} with queue := q }
    let s := spectral 0 0x80000000 g
    nextSat (exec (.frameFormed 0 9) s) (fun t => cntR t (spuA 0 + 0x20) == 1 && bit (flagR t (spuA 0 + 4)) 3 && (getSpu t 0).queue == q))
    = true := by decide +kernel

/-- The lines of a spectrum carry free values: what they are is not evaluated (R245). -/
theorem test_spectrum : (
    let y : Sample := { value := 3 }
    let s0 := spectral 0 0x80400000 {}
    let f : Frame := { entry := 9, index := 5, inputs := List.replicate (setN s0 0 3) y }
    let s := spectral 0 0x80400000 { queue := [f] }
    setExp s 0 3 && windowEnergy s 0 3 != 0 && (getSpu s 0).queue == [f] && (getEntry (getSpu s 0) 9).frames == 0 &&
    (windowed s 0 3 f.inputs).length == setN s 0 3 && nextSat (exec (.spectrum 0) s) (fun _ => true)) = true := by decide +kernel

theorem test_evaluation : ([0, 1].all fun u =>
    let ready : Spu := setEntry 9 { resolved := 1 } {}
    let s (c : W32) (g : Spu) : State := spectral u c g
    let a := s 0x80000000 ready
    let c := s 0x80100000 ready
    let off := s 0x80000000 {}
    setRuns a u 3 && evalDue a u 3 && !evalDue off u 3 && nextIs (exec (.evaluation u 3) off) off &&
    nextSat (exec (.evaluation u 3) a) (fun t => evalIndex t u 3 == 1 && (getSpu t u).rules == [] && cntR t (spuA u + 0x18) == 0) &&
    nextSat (exec (.evaluation u 3) c) (fun t => evalIndex t u 3 == 1 && cntR t (spuA u + 0x18) == 1)) = true := by decide +kernel

theorem test_rules : (
    let lvl : Int := 0
    let r (persist : Nat) : W32 := BitVec.ofNat 32 (2 ^ 30 + 2 ^ 29 + persist * 2 ^ 23)
    let s (p : Nat) (st : RuleState) : State := setCfg (spuRuleA 0 3 2) (r p) (setCfg (spuRuleA 0 3 2 + 4) 0x00010001
      (setSpu 0 (setRule (ruleKey 3 2 9) st { state := .on }) { spectral 0 0x80000000 {} with adm := {}, tab := [] }))
    let at_ (v : W48) (s : State) : State := runRule 0 3 2 9 9 lvl [v, 0] {} s
    let x := (psdWord 1).1
    let rule (s : State) : RuleState := getRule (getSpu s 0) (ruleKey 3 2 9)
    (ruleCheck (s 2 {}) 0 3 2 9 lvl [x, 0]).1 && !(ruleCheck (s 2 {}) 0 3 2 9 lvl [0, 0]).1 &&
    rule (at_ x (s 2 {})) == { run := 1 } && rule (at_ x (s 2 { run := 1 })) == { run := 2, firing := true } &&
    bit (flagR (at_ x (s 2 { run := 1 })) (spuSetA 0 3 + 0x1C)) 8 && rule (at_ 0 (s 2 { run := 2, firing := true })) == {} &&
    (let f := at_ x (s 2 { run := 1 })
     abortFires f 0 && refreshAbort 0 f == evoRefresh (ringTrigger 3 0 (setSpu 0 { getSpu f 0 with abort := true } f)) &&
     refreshAbort 0 (refreshAbort 0 f) == refreshAbort 0 f)) = true := by decide +kernel

theorem test_spectral_scrub : ([0, 1].all fun u =>
    let s := setCfg (spuA u) 0 (setCfg (spuSetA u 3 + 0xC) 100 (spectral u 0x80000000 {}))
    let bad := journal 0x40 (stampNow s) [BitVec.ofNat 48 (2 ^ 36 + u * 2 ^ 32 + 16384 + 101)] (raise (spuA u + 4) 6 (bump (spuA u + 0x2C) s))
    nextIs (exec (.spuScrub u true 101 .clean) s) s &&
    nextIs (exec (.spuScrub u true 101 .corrected) s) (raise (spuA u + 4) 5 (bump (spuA u + 0x28) s)) &&
    setsUsing s u true 101 == [3] && setsUsing s u true 99 == [] &&
    nextIs (exec (.spuScrub u true 101 .uncorrectable) s) (setSpu u { getSpu bad u with broken := [3] } bad)) = true := by decide +kernel

theorem test_snapshot : (
    let s := setRing 2 { state := .on, prod := 9, cons := 4 } (setStream 6 { offered := 12, refused := 2, delivered := 10 } (direct 0))
    let z := { s with power := { cur := .s1 } }
    let b := { s with adm := { s.adm with snapBusy := true } }
    let ok (t : State) : Bool := t.adm.snapSeq == 1 && !t.adm.snapBusy && t.adm.snapBal &&
      Mem.read (fun _ => (0, 0, 0)) t.adm.snapRings 2 == (9, 4, BitVec.ofNat 32 (ringSize s 2)) &&
      Mem.read (fun _ => (0, 0, 0, 0)) t.adm.snapStreams 6 == (12, 2, 10, 0)
    nextSat (exec (.snap .pcie 1) s) ok && nextIs (exec (.snap .pcie 0) s) s &&
    nextIs (exec (.snap .pcie 1) z) { z with adm := { z.adm with snapBusy := true } } &&
    nextSat (exec .deferredSnap b) ok && nextIs (exec .deferredSnap s) s) = true := by decide +kernel

theorem test_audit : (
    let s := setRing 2 { state := .on, prod := 9, cons := 4 } (direct 0)
    let failed (flag unit : Nat) (u : State) : State :=
      journal 0x31 (stampNow u) [BitVec.ofNat 48 (flag * 2 ^ 32 + unit)] (bump admAuditErrA (raise admFlagsA flag u))
    let pages := { hub with adm := { ringPages := 9000 } }
    let ring := setRing 2 { prod := 9, cons := 10 } (setCfg (rngA 2) 0x80300000 hub)
    let late (l : Option W64) : State := setRing 2 { state := .on, ready := [batchOf 1] } (setStream 6 { lateStamp := l }
      { direct 0 with tb := { fast := 1051 * 2 ^ 32 } })
    pagesBalance s && nextIs (exec .audit s) s && !pagesBalance pages && nextIs (exec .audit pages) (failed 0 0 pages) &&
    !ringBalance ring 2 && nextIs (exec .audit ring) (failed 1 2 ring) &&
    nextIs (exec .audit (late (some 50))) (late (some 50)) &&
    nextIs (exec .audit (late none)) (formFault 6 2 0 0 50 (failed 2 6 (setStream 6 { lateStamp := some 50 } (late none)))) &&
    nextIs (exec .audit { s with power := { cur := .s2 } }) { s with power := { cur := .s2 } }) = true := by decide +kernel

/-! ### Host link (R374–R385) -/

/-- The link trained, in L0s, with Bus Master Enable. -/
def linked : State := { hub with hl := { hub.hl with linkGen := 2, linkW := 2, lpm := 1, bme := true } }

theorem test_link_booking : (
    let b : State := { linked with adm := { linkGen := 2, linkW := 2, done := true } }
    let f : State := { b with hl := { b.hl with failing := true } }
    let fails (g w l : Nat) : State := { b with hl := { trained g w l b.hl with failing := true } }
    let idle (at0 : W64) : State := { linked with hl := { linked.hl with aspm := true, lpm := 0, busyAt := at0 } }
    ([(0, 0, 4), (2, 2, 4), (2, 1, 0), (1, 2, 0)].all fun x =>
      let u := fails x.1 x.2.1 x.2.2
      let t := if x.1 = 0 ∨ 4 ≤ x.2.2 then bump (hlA + 0x40) (raise (hlA + 8) 0 u) else bump (hlA + 0x44) (raise (hlA + 8) 1 u)
      nextIs (exec (.linkFailure x.1 x.2.1 x.2.2) b) t && nextIs (exec (.pcieLinkChange x.1 x.2.1 x.2.2) b) t &&
      nextIs (exec (.linkRecovery x.1 x.2.1 x.2.2) b) b) &&
    ([(2, 2, 0), (3, 4, 1)].all fun x =>
      let t : State := { f with hl := { trained x.1 x.2.1 x.2.2 f.hl with failing := false } }
      nextIs (exec (.linkRecovery x.1 x.2.1 x.2.2) f) t && nextIs (exec (.pcieLinkChange x.1 x.2.1 x.2.2) f) t &&
      nextIs (exec (.linkFailure x.1 x.2.1 x.2.2) f) f) &&
    nextIs (exec (.pcieLinkChange 3 4 1) linked) { linked with hl := trained 3 4 1 linked.hl } &&
    ([(4, 1, 0), (1, 5, 0), (1, 1, 5), (1, 0, 0)].all fun x => nextIs (exec (.pcieLinkChange x.1 x.2.1 x.2.2) b) b) &&
    nextIs (exec (.pcieLinkChange 1 1 2) (setCfg (hlA + 4) 0 b)) (setCfg (hlA + 4) 0 b) &&
    nextIs (exec .aspmL1Entry { idle 0 with tb := { fast := 25600 <<< 32 } })
      { idle 0 with tb := { fast := 25600 <<< 32 }, hl := { (idle 0).hl with lpm := 1 } } &&
    nextIs (exec .aspmL1Entry { idle 0 with tb := { fast := 25599 <<< 32 } }) { idle 0 with tb := { fast := 25599 <<< 32 } }) = true := by decide +kernel

theorem test_port_reset : (
    let b : State := { linked with adm := { linkGen := 2, linkW := 2, done := true } }
    let low (s : State) : State := { s with hl := { linkReset s.hl with perst := true, hostWake := false } }
    let soft (s : State) : State := { s with hl := linkReset s.hl }
    let fails (u : State) : State := bump (hlA + 0x40) (raise (hlA + 0x08) 0 { u with hl := { u.hl with failing := true } })
    nextIs (exec (.perstN true false) linked) (low linked) && nextIs (exec (.perstN false true) linked) (soft linked) &&
    nextIs (exec (.perstN true true) b) (fails (low b)) && nextIs (exec (.perstN false true) b) (fails (soft b)) &&
    nextIs (exec (.perstN false false) (low b)) { low b with hl := { (low b).hl with perst := false } }) = true := by decide +kernel

theorem test_interrupts : (
    let up (h : Hl) : State := raise sysFlagsA 0 (setCfg sysSumEnA 0x800 { hub with hl := h })
    let carried (h : Hl) : Hl := { h with summary := 0x800 }
    let on : Hl := { linked.hl with space := [(0x54, 0xFEE00000), (0x58, 1), (0x5C, 0x4021)] }
    let e := up { on with msiEn := true }
    let noBme := up { on with msiEn := true, bme := false }
    let pin := up on
    let fall : State := { hub with hl := { on with summary := 0x800, inta := true } }
    let d3 (g : Nat) : State := up { on with d3 := true, pmeEn := true, msiEn := true, linkGen := g, lpm := if g = 0 then 4 else 1 }
    sysSummary e == 0x800 && sysSummary fall == 0 && nextIs (exec .summaryChange hub) hub &&
    nextIs (exec .summaryChange e) (bumpWrap (hlA + 0x50) { e with hl := linkSends (.msi 0x1FEE00000 0x4021) e (carried e.hl) }) &&
    nextIs (exec .summaryChange noBme) { noBme with hl := { carried noBme.hl with msiHeld := true } } &&
    nextIs (exec .summaryChange pin) { pin with hl := linkSends .assertInta pin { carried pin.hl with inta := true } } &&
    nextIs (exec .summaryChange fall) { fall with hl := linkSends .deassertInta fall { fall.hl with summary := 0, inta := false } } &&
    nextIs (exec .summaryChange (d3 2)) { d3 2 with hl := linkSends .pmPme (d3 2) { carried (d3 2).hl with pmeStatus := true } } &&
    nextIs (exec .summaryChange (d3 0)) { d3 0 with hl := { carried (d3 0).hl with pmeStatus := true, hostWake := true } }) = true := by decide +kernel

theorem test_host_requests : (
    let u : State := { linked with hl := { linked.hl with lpm := 0 } }
    let early : State := { linked with config := {} }
    let s : State := { linked with power := { cur := .s2 }, hl := { linked.hl with bme := false } }
    let v : State := { s with power := { s.power with wakeReq := 1#11 <<< 7, wakeBegan := short (ticks s) } }
    let refused (o : Host.Outcome State Fault Refusal) : Bool := nextSat o (fun t => t.answer == [1] && cntR t (hlA + 0x4C) == 1)
    nextIs (exec (.configurationRequest false 0 0 0xF) hub) hub &&
    nextIs (exec (.configurationRequest false 0 0 0xF) early) { early with answer := [2] } &&
    nextIs (exec (.configurationRequest false 0 0 0xF) linked) { u with answer := [0, 0x48961EC7] } &&
    nextIs (exec (.configurationRequest false 0x34 0 0xF) linked) { u with answer := [0, 0x40] } &&
    nextIs (exec (.memoryRead 0 [0xF] .clean false) linked) { u with answer := [0, 0x489600A1] } &&
    nextIs (exec (.memoryRead 0 [0x3] .clean false) linked) { u with answer := [0, 0x00A1] } &&
    nextIs (exec (.memoryWrite 0x10 [(5, 0xF)] false false) linked) (write32 .pcie 0x10 5 u) &&
    nextIs (exec (.memoryWrite 0x10 [(5, 7), (6, 0xF)] false false) linked) (write32 .pcie 0x14 6 (raise sysFlagsA 0 (bump sysWerrA u))) &&
    refused (exec .unsupportedRequest linked) && refused (exec (.memoryRead 0 (List.replicate 17 0xF) .clean false) linked) &&
    refused (exec (.memoryRead 0x40000000 [0xF] .clean false) linked) && refused (exec (.memoryWrite 0x3FFFFFFC [(0, 0xF), (0, 0xF)] false false) linked) &&
    nextSat (exec (.memoryWrite 0x10 [(5, 0xF)] true false) linked) (fun t => cntR t (hlA + 0x4C) == 1 && cfgR t 0x10 == cfgR linked 0x10) &&
    nextIs (exec (.memoryRead 0 [0xF] .clean false) s) { v with hl := { s.hl with lpm := 0, held := [.read 0 [0xF] .clean] } } &&
    nextIs (exec (.memoryWrite 0x10 [(5, 0xF)] false false) s) { v with hl := { s.hl with lpm := 0, held := [.write 0x10 [(5, 0xF)]] } })
    = true := by decide +kernel

/-- The serial and two-wire ports are enabled. -/
def ported : State := setCfg (hlA + 4) 0xE hub

theorem test_serial_port : (
    let s := ported
    let u (n : Nat) : State := { s with answer := 0x8A :: List.replicate (n - 1) 0 }
    let whole := bumpWrap (hlA + 0x54)
    let a := hspHead 1 1 0 0x10 ++ msbFirst 5
    let c := crc16 a
    let cb (c : BitVec 16) : List (BitVec 8) := [c.extractLsb' 8 8, c.extractLsb' 0 8]
    let wr0 := hspHead 1 0 0 0x10 ++ msbFirst 5
    let zzz : State := { s with power := { cur := .s1 } }
    let v : State := { zzz with power := { zzz.power with wakeReq := 1#11 <<< 8, wakeBegan := short (ticks zzz) }, answer := 0x0A :: List.replicate 7 0 }
    let asks := setCfg (hlA + 4) 0x12 hub
    let ua (n : Nat) : State := { asks with answer := 0x8A :: List.replicate (n - 1) 0 }
    nextIs (exec (.hspWriteFrame wr0 0) (setCfg (hlA + 4) 0 hub)) (setCfg (hlA + 4) 0 hub) && hspState s == 0x8A &&
    nextIs (exec (.hspWriteFrame wr0 0) zzz) (bump (hlA + 0x68) (hspFlag 5 v)) &&
    nextIs (exec (.hspReadFrame (hspHead 0 0 0 0 ++ [0, 0, 0, 0]) 0 [0] []) zzz) (bump (hlA + 0x68) (hspFlag 5 v)) &&
    nextIs (exec (.hspWriteFrame wr0 0) s) (whole (busWrite .hsp 0x10 5 (u 8))) &&
    nextIs (exec (.hspWriteFrame (a ++ cb c) 0) s) (whole (busWrite .hsp 0x10 5 (u 10))) &&
    nextIs (exec (.hspWriteFrame (a ++ cb (c ^^^ 1)) 0) s) (whole (bump (hlA + 0x60) (hspFlag 3 (u 10)))) &&
    nextIs (exec (.hspReadFrame (hspHead 0 0 0 0x12) 0 [0] []) s) (whole (hspFlag 4 (u 4))) &&
    nextIs (exec (.hspWriteFrame wr0 0) asks) (whole (bump (hlA + 0x6C) (hspFlag 6 (ua 8)))) &&
    nextIs (exec (.hspWriteFrame [0x80, 0] 0) s) (bump (hlA + 0x58) (hspFlag 0 (u 2))) &&
    nextIs (exec (.hspWriteFrame (hspHead 1 0 0 0x10) 3) s) (bump (hlA + 0x5C) (hspFlag 0 (whole (u 4)))) &&
    nextIs (exec (.hspWriteFrame (hspHead 1 0 0 0x10) 4) s) (bump (hlA + 0x58) (hspFlag 0 (whole (u 4)))))
    = true := by decide +kernel

/-- The worked frame of R389: SYS_ID over HSP, with two busy bytes. -/
theorem test_hsp_worked : nextSat (exec (.hspReadFrame (List.replicate 11 0) 0 [2] []) ported)
    (fun t => t.answer == [0x8A, 0, 0, 0, 0x96, 0x96, 0x69, 0x48, 0x96, 0x00, 0xA1]) = true := by decide +kernel

theorem test_two_wire_port : (
    let s := ported
    let w := bump (hlA + 0x70) s
    let r := bump (hlA + 0x74) s
    let at0 (p : Nat) (t : State) : State := { t with hl := { t.hl with twtPtr := p } }
    let al : State := { s with hl := { s.hl with alert := true } }
    let zzz : State := { s with power := { cur := .s1 } }
    let v : State := { zzz with power := { zzz.power with wakeReq := 1#11 <<< 9, wakeBegan := short (ticks zzz) } }
    let held (t : W64) : State := { s with hl := { s.hl with twtHeld := some (.read 2, t) }, tb := { fast := 800000 <<< 32 } }
    let free : State := { held 0 with hl := s.hl }
    nextIs (exec (.twtRead 1) (setCfg (hlA + 4) 0 hub)) (setCfg (hlA + 4) 0 hub) && nextIs (exec (.twtRead 1) (held 1)) (held 1) &&
    nextIs (exec (.twtPointerWrite 0x10) s) (at0 0x10 w) &&
    nextIs (exec (.twtWrite 0x1F [7]) s) (bump (hlA + 0x78) (twtFlag 1 (at0 0 w))) &&
    nextIs (exec (.twtRsack (some 0x10) []) s) (bump (hlA + 0x7C) (twtFlag 2 (at0 0x10 w))) &&
    nextIs (exec (.twtRsack none []) s) (bump (hlA + 0x7C) (twtFlag 2 w)) &&
    ((windowRows s).all fun x => nextIs (exec (.twtWrite (BitVec.ofNat 16 x.1) [1, 2, 3, 4]) s) (at0 (x.1 + 4) (write32 .twt x.2.2 0x04030201 w))) &&
    nextIs (exec (.twtRead 4) s) { at0 4 r with answer := [0xA1, 0, 0x96, 0x48] } &&
    nextIs (exec (.twtWrite 0x1100 [1, 2, 3, 4]) s) (at0 0x1104 w) &&
    nextIs (exec (.twtRead 4) (at0 0x6FE0 s)) { at0 0x6FE4 r with answer := [0, 0, 0, 0] } &&
    nextIs (exec (.alertResponse true) al) (bump (hlA + 0x84) { s with answer := [BitVec.ofNat 64 (2 * (0x58 + s.straps.twtA % 4))] }) &&
    nextIs (exec (.alertResponse false) al) (bump (hlA + 0x88) { al with answer := [] }) && nextIs (exec (.alertResponse true) s) s &&
    nextIs (exec (.twtWrite 0x10 [7]) zzz) { v with hl := { v.hl with twtHeld := some (.write (some 0x10) [7] false, 0) } } &&
    nextIs (exec .twtStretchTimeout (held 0)) { bump (hlA + 0x80) (twtFlag 3 free) with answer := [0xFF, 0xFF] } &&
    nextIs (exec .twtStretchTimeout (held 1)) (held 1) && nextIs (exec .twtStretchTimeout s) s) = true := by decide +kernel

/-! ### Sleep, the configuration flash, the mailbox and Ranger (R417–R467) -/

theorem test_sleep : (
    let pwr (v : W32) (s : State) : State := setCfg (pwrA + 4) v s
    let s : State := { pwr 7 hub with adm := { hub.adm with deepest := .s2 }, mgt := { hub.mgt with idle := true } }
    let one : State := { pwr 5 hub with adm := { hub.adm with deepest := .s2 } }
    let idle (t : W64) (s : State) : State := { s with power := { s.power with idleSince := some t } }
    let prep (p : PState) (s : State) : State := { s with power := { s.power with phase := .preparing p } }
    let held : State := setEngine 3 { state := .on, run := .busy, kind := 2 } (prep .s1 s)
    choice s == .s2 && choice one == .s1 && choice hub == .s0 && nextIs (exec .sleepPreparation hub) hub &&
    nextIs (exec .sleepPreparation s) (idle 0 s) && nextIs (exec (.sleepEntry 0) s) s &&
    nextIs (exec .sleepPreparation (idle 0 (setCfg (pwrA + 8) 1 s))) (idle 0 (setCfg (pwrA + 8) 1 s)) &&
    nextIs (exec .sleepPreparation (idle 0 (setCfg (pwrA + 8) 0 s))) (prep .s2 (setCfg (pwrA + 8) 0 s)) &&
    nextIs (exec .sleepPreparation held) (bump (pwrA + 0x6C) { held with power := { held.power with phase := .awake } }) &&
    nextIs (exec .sleepPreparation (prep .s1 s)) (prep .s1 s) &&
    ([PState.s1, .s2].all fun p => nextSat (exec (.sleepEntry 0) (prep p s)) (fun t => t.power == { s.power with cur := p, last := p, entered := ticks s } &&
      cntR t (pwrA + 0x5C + 4 * pcode p) == 1 && ticks t == 0)) &&
    nextSat (exec (.sleepEntry 0) (prep .s3 { s with sram := [(32767, 5), (32768, 6)], power := { s.power with retain := [1, 0, 0, 0] } })) (fun t =>
      t.power.cur == .s3 && sramR t 32767 == 5 && t.tb.tEnt == 0)) = true := by decide +kernel

theorem test_wake : (
    let s (p : PState) (b : Bool) : State := { hub with
      power := { cur := p, wakeReq := 4, wakeBegan := 9 }, tb := { hub.tb with handed := b, epochDue := none } }
    let quiet (s : State) : State := { s with power := { s.power with wakeReq := 0 } }
    let ok (d late : Nat) (s : State) : Bool := nextSat (exec (.wake d true) s) (fun t => t.power.cur == .s0 && t.power.phase == .awake &&
      t.power.wakeSrc == 4 && t.power.wakeT == 9 && t.power.wakeDur == BitVec.ofNat 32 d && t.power.wakeReq == 0 &&
      cntR t (pwrA + 0x70) == late && flagR t (pwrA + 0x20) == BitVec.ofNat 32 late)
    ok 200 0 (s .s1 false) && ok 201 1 (s .s1 false) && ok 10000 0 (s .s2 true) && ok 10001 1 (s .s2 true) &&
    nextIs (exec (.wake 0 true) hub) hub && nextIs (exec (.wake 0 true) (quiet (s .s1 false))) (quiet (s .s1 false)) &&
    nextIs (exec (.wake 0 true) (s .s2 false)) (s .s2 false)) = true := by decide +kernel

theorem test_flash_pass_through : (
    let at1 (a : BitVec 24) (s : State) : State := { s with config := { s.config with cfpAddr := a } }
    let s := at1 0x1000 hub
    let v (op n : Nat) : W32 := BitVec.ofNat 32 (0xC5000000 + (n - 1) * 256 + op)
    let refused (w : Nat) (u : State) : State := raise cfgStatA 2 { u with config := { u.config with cfpReason := w } }
    let rows : List (Nat × (Path → W32 → Instr)) :=
      [(1, .cfpRead), (2, .cfpProgram), (3, .cfpErase4k), (4, .cfpErase64k), (5, .cfpReadid), (6, .cfpReadsr)]
    let ended (op a n : Nat) : State := { hub with
      flash := [(0x1000, 0x12), (0x1001, 0x34), (0x2000, 0x56)], flashId := 0xC22018
      config := { hub.config with cfpBusy := true, cfpLast := op, cfpOp := (op, a, n), cfpBuf := [(0, 0x0F)] } }
    let done (s : State) : State := { s with config := { s.config with cfpBusy := false } }
    (rows.all fun r => nextIs (exec (r.2 .hsp (v 7 4)) s) s && nextIs (exec (r.2 .hsp (BitVec.ofNat 32 r.1)) s) s &&
      (let u := at1 0x10000 s
       nextIs (exec (r.2 .pcie (v r.1 4)) u)
        { u with config := { u.config with cfpBusy := true, cfpLast := r.1, cfpOp := (r.1, 0x10000, 4) } } &&
       nextIs (exec (r.2 .pcie (v r.1 4)) { u with config := { u.config with cfpBusy := true } })
        (refused 3 { u with config := { u.config with cfpBusy := true } }))) &&
    nextIs (exec (.cfpProgram .pcie (v 2 2)) (at1 0x7FFFFF s)) (refused 1 (at1 0x7FFFFF s)) &&
    nextIs (exec (.cfpErase4k .pcie (v 3 1)) (at1 0x800000 s)) (refused 1 (at1 0x800000 s)) &&
    nextIs (exec (.cfpRead .pcie (v 1 2)) (at1 0xFFFFFF s)) (refused 2 (at1 0xFFFFFF s)) &&
    nextIs (exec (.cfpProgram .pcie (v 2 2)) (at1 0x10FF s)) (refused 2 (at1 0x10FF s)) &&
    nextIs (exec (.cfpErase64k .pcie (v 4 1)) s) (refused 2 s) && nextIs (exec (.cfpOperationEnd true) s) s &&
    nextSat (exec (.cfpOperationEnd true) (ended 1 0x1000 2)) (fun t => t.config.cfpBuf == [(0, 0x12), (1, 0x34)] && !t.config.cfpBusy) &&
    nextSat (exec (.cfpOperationEnd true) (ended 5 0 1)) (fun t => t.config.cfpBuf == [(0, 0xC2), (1, 0x20), (2, 0x18)]) &&
    nextIs (exec (.cfpOperationEnd true) (ended 2 0x1000 1)) { done (ended 2 0x1000 1) with
      flash := [(0x1000, 0x02), (0x1001, 0x34), (0x2000, 0x56)] } &&
    nextIs (exec (.cfpOperationEnd true) (ended 3 0x1000 1)) { done (ended 3 0x1000 1) with flash := [(0x2000, 0x56)] } &&
    nextSat (exec (.cfpOperationEnd true) (ended 6 0 1)) (fun t => !t.config.cfpBusy)) = true := by decide +kernel

/-- A program that fails leaves a free value in the bytes it covered (R445, log entry 49). -/
theorem test_flash_timeout : (
    let s : State := { hub with
      flash := [(0x1000, 0x12), (0x2000, 0x56)], config := { hub.config with cfpBusy := true, cfpLast := 2, cfpOp := (2, 0x1000, 1) } }
    nextSat (exec (.cfpOperationEnd false) s) (fun t => t.config.cfpReason == 4 && flagR t cfgStatA == 8)) = true := by decide +kernel

theorem test_mailbox : (
    let rows : List (Nat × (Path → Bool → Instr)) :=
      [(1, fun p _ => .mbxInfo p), (2, .mbxBegin), (3, .mbxWrite), (4, fun p _ => .mbxVerify p), (5, fun p _ => .mbxCommit p), (6, fun p _ => .mbxAbort p)]
    let down : State := { hub with mgt := { hub.mgt with running := false } }
    let entry (r op : Nat) : JEntry := { type := 3, stamp := 0, qual := qualNow hub, era := hub.tb.stepCnt, words := [BitVec.ofNat 48 (r * 16 + op)] }
    let m (b v : Bool) (arg : W32) : State := { hub with
      mgt := { hub.mgt with begun := b, verified := v, mbxArg := arg, mbxBuf := [(0, 0x0F)] }, flash := [(0xC00000, 0x12), (0xC00200, 0x34)] }
    let ends (op : Nat) (i : Instr) (s : State) (r : Nat) (f : State → Bool) : Bool := nextSat (exec i s) (fun t =>
      t.mgt.mbxResult == r && !t.mgt.mbxBusy && t.journalQ == [entry r op] && bit (flagR t mgtFlagsA) 7 && f t)
    (rows.all fun r => nextIs (exec (r.2 .pcie true) down) { down with mgt := { down.mgt with mbxBusy := true, mbxOp := r.1 } } &&
      (let s : State := { hub with mgt := { hub.mgt with mbxBusy := true, mbxOp := 7 } }
       nextIs (exec (r.2 .pcie true) s) (raise sysFlagsA 0 (bump sysWerrA s)))) &&
    ends 1 (.mbxInfo .pcie) hub 0 (fun t => t.flash == []) &&
    ends 2 (.mbxBegin .pcie true) (m false true 0) 0 (fun t => t.mgt.begun && !t.mgt.verified && t.flash == []) &&
    nextSat (exec (.mbxBegin .pcie false) hub) (fun _ => true) &&
    ends 3 (.mbxWrite .pcie true) (m false true 0) 1 (fun t => t.flash == (m false true 0).flash) &&
    ends 3 (.mbxWrite .pcie true) (m true true 1) 1 (fun _ => true) && ends 3 (.mbxWrite .pcie true) (m true true 0x400000) 1 (fun _ => true) &&
    ends 3 (.mbxWrite .pcie true) (m true true 0) 0 (fun t => !t.mgt.verified && flashByte t 0xC00000 == 0x02 && flashByte t 0xC00200 == 0x34) &&
    ends 4 (.mbxVerify .pcie) (m true true 0) (slotCheck (m true true 0) true) (fun t => !t.mgt.verified) &&
    ends 5 (.mbxCommit .pcie) (m true false 0) 1 (fun t => bootRead t == bootRead (m true false 0)) &&
    ends 6 (.mbxAbort .pcie) (m true true 0) 0 (fun t => !t.mgt.begun && !t.mgt.verified)) = true := by decide +kernel

theorem test_watchdog : (
    let s : State := { setCfg (mgtA + 0x0C) 1 hub with tb := { hub.tb with fast := 400000 <<< 32 } }
    let early : State := { s with tb := { hub.tb with fast := 399999 <<< 32 } }
    let frz := setCfg frzA 0xA s
    nextIs (exec .watchdog early) early && nextIs (exec .watchdog { s with power := { cur := .s3 } }) { s with power := { cur := .s3 } } &&
    nextSat (exec .watchdog frz) (fun t => t.frz.pending && t.frz.driving && t.frz.time == 400000 && t.frz.count == 1 && t.frz.cause == 0xC1020000) &&
    nextSat (exec .watchdog s) (fun t => t.mgt.running && !t.mgt.idle && t.mgt.wdogAt == 400000 && cntR t (mgtA + 0x18) == 1 &&
      bit (flagR t mgtFlagsA) 3)) = true := by decide +kernel

theorem test_prefetch_and_monitors : (
    let s : State := { hub with mgt := { hub.mgt with proc := { pc := 0x400000 } }, flash := [(0x800000, 0x12)] }
    let off : State := { s with mgt := { s.mgt with idle := true } }
    let y : W48 := 0x7FFF00000000
    let high : W48 := 0x000200000000
    let lim := setCfg (mgtA + 0x108) 0x00010000 hub
    let out : State := { lim with mgt := { lim.mgt with monitors := [(0, { reading := high, qual := qualNow hub, out := true })] } }
    fetchWord s rangerP 0x100000 == .absent && nextIs (exec .prefetchMiss off) off &&
    nextSat (exec .prefetchMiss s) (fun t => fetchWord t rangerP 0x100000 == .got (slotWord s s.mgt.slot 0) && t.mgt.lines.length == 2 && cntR t (mgtA + 0x1C) == 1) &&
    nextIs (exec (.monitorSample 19 y) hub) hub && nextIs (exec (.monitorSample 0 y) { hub with power := { cur := .s3 } }) { hub with power := { cur := .s3 } } &&
    nextIs (exec (.monitorSample 0 0x10000) lim) { lim with mgt := { lim.mgt with monitors := [(0, { reading := 0x10000, qual := qualNow hub, out := false })] } } &&
    nextSat (exec (.monitorSample 0 high) lim) (fun t => t.mgt.monitors == out.mgt.monitors && bit (flagR t mgtFlagsA) 0 &&
      t.journalQ == [{ type := 0x50, stamp := 0, qual := qualNow hub, era := hub.tb.stepCnt, words := [0, high] }]) &&
    nextIs (exec (.monitorSample 0 high) out) out &&
    nextSat (exec (.monitorSample 15 0) { hub with mgt := { hub.mgt with sramCorr := 3 } }) (fun t =>
      (Mem.read (fun _ => {}) t.mgt.monitors 15).reading == 0x3000000)) = true := by decide +kernel

theorem test_journal_entries : (
    let e (ws : List W48) : JEntry := { type := 0x10, stamp := 0x1234, qual := .fine, era := 0, words := ws }
    let s (h : Nat) (ws : List W48) : State := { hub with journalQ := [e ws], mgt := { hub.mgt with jnlHead := h, jnlSeq := 0x103 } }
    let r (t : State) (w : Nat) : W64 := Mem.read (fun _ => 0) t.journal w
    nextIs (exec .journalWrite hub) hub &&
    nextSat (exec .journalWrite (s 0x21000 [7, 8])) (fun t => r t 0x21000 == 0x9810000000001234 ||| BitVec.ofNat 64 (qcode Quality.fine * 2 ^ 57) &&
      r t 0x21001 == 0x4103000000000103 && r t 0x21002 == 0x4103000000000007 && r t 0x21003 == 0x4103000000000008 && r t 0x21004 == 0 &&
      t.journalQ == [] && t.mgt.jnlHead == 0x21004 && t.mgt.jnlSeq == 0x104 && cntR t (mgtA + 0x24) == 0) &&
    nextSat (exec .journalWrite (s 0x7FFFF [])) (fun t => r t 0x21000 == 0x4103000000000103 && t.mgt.jnlHead == 0x21001 && cntR t (mgtA + 0x24) == 1))
    = true := by decide +kernel

theorem test_journal_queue : (
    let full : State := { hub with journalQ := List.replicate 256 {} }
    let s : State := { hub with journalQ := [{}], mgt := { hub.mgt with jqLostHeld := 2 } }
    let t := journal 0x40 (stampNow full) [5] full
    t.journalQ == full.journalQ && bit (flagR t mgtFlagsA) 4 && cntR t (mgtA + 0x20) == 1 && t.mgt.jqLostHeld == 1 &&
    (journal 0x40 (stampNow hub) [5] hub).journalQ == [{ type := 0x40, stamp := 0, qual := qualNow hub, era := hub.tb.stepCnt, words := [5] }] &&
    nextSat (exec .journalWrite s) (fun t => t.mgt.jqLostHeld == 0 &&
      t.journalQ == [{ type := 5, stamp := 0, qual := qualNow hub, era := hub.tb.stepCnt, words := [2] }])) = true := by decide +kernel

/-! ### The Bight ring (R470–R488) -/

/-- The hub at position p of a ring of n. -/
def ringed (n p : Nat) : State := { hub with
  straps := { hub.straps with role := if p = 0 then 1 else 2, pos := p }
  bgt := { hub.bgt with hubs := n, state := .on, rstate := 2, dport := 2, uport := 2, reach := BitVec.ofNat 8 (2 ^ n - 1) } }

/-- The same hub in start-up step 5. -/
def joining (n p : Nat) : State := { ringed n p with phase := .loaded }

/-- The ring's ports and clocks after a state's own change. -/
def setBgt (f : Bgt → Bgt) (s : State) : State := { s with bgt := f s.bgt }

theorem test_ring_start : ([(2, 0), (2, 1), (8, 7), (5, 2)].all fun np =>
    let n := np.1
    let p := np.2
    let s := joining n p
    let up := setBgt (fun b => { b with state := .starting, rstate := 1, dport := 2, uport := 2, sleep := 0 }) s
    let f (i : Nat) : BFrame := { kind := 9, info := BitVec.ofNat 32 i }
    nextIs (exec (.linkTraining true true false) (ringed n p)) (ringed n p) && nextIs (exec (.enum false none []) (ringed n p)) (ringed n p) &&
    nextIs (exec (.alignmentTimeout [1]) (ringed n p)) (ringed n p) &&
    (if p = 0 then
      nextIs (exec (.linkTraining true true false) s) (queued true { kind := 9 } up) &&
      nextSat (exec (.enum false (some (f (n - 1))) []) s) (fun t => t.bgt.hubs == n && t.bgt.rstate == 2 && t.bgt.reach == BitVec.ofNat 8 (2 ^ n - 1)) &&
      nextSat (exec (.enum false none [1]) { s with config := { s.config with hubs := n } }) (fun t => t.bgt.hubs == n && t.bgt.rstate == 3 && t.bgt.reach == 3) &&
      nextSat (exec (.alignmentTimeout [1]) s) (fun t => t.bgt.reachExcl == 2 && flagR t (bgtA + 8) == 8 && t.journalQ.length == 1)
    else
      nextIs (exec (.linkTraining true true false) s) up && (match exec (.hopBreak p) up with | .next t => nextIs (exec (.linkTraining false true false) s) t | _ => false) &&
      nextIs (exec (.enum false (some (f (p - 1))) []) s) (queued true (f p) s) && nextIs (exec (.enum false none []) s) s &&
      nextSat (exec (.enum false (some (f p)) []) s) (fun t => t.bgt.excl) &&
      nextIs (exec (.alignmentTimeout [1]) { s with tb := { s.tb with aligned := true } }) { s with tb := { s.tb with aligned := true } } &&
      nextSat (exec (.alignmentTimeout []) { s with tb := { s.tb with aligned := false } }) (fun t => t.bgt.excl)) &&
    (let d : State := setBgt (fun b => { b with hopDly := [(p, 50)] }) (ringed n p)
     nextIs (exec (.hopCalibration p (List.replicate 64 100) (4 / 5)) (ringed n p)) d &&
     nextIs (exec (.hopCalibration p (List.replicate 63 100) 0) (ringed n p)) (ringed n p) &&
     (p == 0 || match exec (.hopBreak p) (ringed n p) with | .next t => nextIs (exec (.hopCalibration p (List.replicate 64 100) 1) (ringed n p)) t | _ => false)))
    = true := by decide +kernel

theorem test_ring_time : (
    let prim := ringed 5 0
    let time : BFrame := { kind := 1, info := BitVec.ofNat 32 (4 * loopCode prim.tb.loop + qcode (qualNow prim)), payload := [0] }
    let s (t : Nat) : State := { ringed 5 2 with tb := { (ringed 5 2).tb with fast := BitVec.ofNat 96 ((1000 + t) * 2 ^ 32), aligned := false } }
    let f : BFrame := { kind := 1, info := BitVec.ofNat 32 (16 * 80), payload := [990] }
    let good (k : Nat) (t : State) : State := setBgt (fun b => { b with alignGood := k, measured := true }) t
    nextIs (exec (.timeFrame true {} 0) (setBgt (fun b => { b with sleep := 1 }) prim)) (setBgt (fun b => { b with sleep := 1 }) prim) &&
    nextIs (exec (.timeFrame true {} 0) prim) (queued true time (queued false time prim)) &&
    nextIs (exec (.timeFrame true f 3) (s 0)) (queued false { f with info := BitVec.ofNat 32 (16 * 83) } (s 0)) &&
    nextSat (exec (.timeFrame false f 3) (s 2)) (fun t => t.bgt.ofs == 2 && t.bgt.measured && t.bgt.alignGood == 1 && !t.tb.aligned && !t.bgt.excl) &&
    nextSat (exec (.timeFrame false f 3) (good 7 (s 0))) (fun t => t.bgt.ofs == 0 && t.bgt.alignGood == 8 && t.tb.aligned) &&
    nextSat (exec (.timeFrame false f 3) (good 7 (s 3))) (fun t => t.bgt.ofs == 3 && t.bgt.alignGood == 0 && !t.tb.aligned) &&
    nextSat (exec (.timeFrame false f 3) (s 400000)) (fun t => !t.bgt.excl) && nextSat (exec (.timeFrame false f 3) (s 400001)) (fun t => t.bgt.excl))
    = true := by decide +kernel

theorem test_ring_passes_on : ([0, 2].all fun p =>
    let s := ringed 5 p
    let f (k : Nat) : BFrame := { kind := k, src := 3, dst := 4, info := 7, payload := [9] }
    ([true, false].all fun d => nextIs (exec (.relay d (f 2)) s) (queued (!d) (f 2) s) && nextIs (exec (.regreq d (f 5)) s) (queued (!d) (f 5) s) &&
      nextIs (exec (.regrsp d (f 6)) s) (queued (!d) (f 6) s) && nextIs (exec (.cause d (f 7)) s) (queued (!d) (f 7) s) &&
      nextIs (exec (.ctrl d (f 8)) s) (queued (!d) (f 8) s) &&
      (p == 0 || nextIs (exec (.credit d (f 3)) s) (queued (!d) (f 3) s) && nextIs (exec (.confirm d (f 4)) s) (queued (!d) (f 4) s)))) = true := by
  decide +kernel

theorem test_ring_relays : (
    let s := setRing 6 { state := .on } (ringed 5 0)
    let f (last : Nat) : BFrame := { kind := 2, src := 3, dst := 0, info := BitVec.ofNat 32 (9 * 2 ^ 25 + 6 * 2 ^ 18 + last * 2 ^ 16), payload := [1, 2] }
    let half := setBgt (fun b => { b with assembly := [(128 * 3 + 9, [1, 2])] }) (bump (ringCount 9) s)
    let credit : BFrame := { kind := 3, src := 3, dst := 3, info := 512, payload := [6] }
    let conf : BFrame := { kind := 4, src := 0, dst := 3, payload := [6] }
    let due := setBgt (fun b => { b with relayIdx := [(128 * 3 + 6, some 77)] }) s
    nextIs (exec (.relay true (f 0)) s) half &&
    nextSat (exec (.relay true (f 1)) half) (fun t => (getRing t 6).ready.getLast? == some {
      payload := [1, 2, 1, 2], relayed := some { pos := 3, ring := 9, idx := 4 } } && t.bgt.assembly == []) &&
    nextIs (exec (.credit true credit) s) (if fits s 6 512 then queued false { credit with src := 0 } (setBgt (fun b => { b with credit := [(128 * 3 + 6, 512)] }) s) else s) &&
    nextIs (exec (.credit true credit) (ringed 5 0)) (ringed 5 0) &&
    nextIs (exec (.confirm true conf) due) (queued false { kind := 4, src := 0, dst := 3, info := 77, payload := [6] } s) &&
    nextIs (exec (.confirm true conf) s) s) = true := by decide +kernel

theorem test_ring_confirms : (
    let r : Ring := { state := .on, inflight := [{ endIdx := 44, sent := true }] }
    let s := setRing 6 r (setCfg (rngA 6) 0xC0000000 (ringed 5 2))
    let c : BFrame := { kind := 3, src := 0, dst := 2, info := 512, payload := [6] }
    nextIs (exec (.credit true c) (ringed 5 2)) (setBgt (fun b => { b with credit := [(128 * 2 + 6, 512)] }) (ringed 5 2)) &&
    ringMode s 6 == 2 && nextSat (exec (.confirm true { c with kind := 4, info := 44 }) s) (fun t => (getRing t 6).prod == 44 && (getRing t 6).inflight == []) &&
    nextIs (exec (.confirm true { c with kind := 4 }) (ringed 5 2)) (ringed 5 2)) = true := by decide +kernel

theorem test_ring_requests : (
    let s := ringed 5 2
    let wr : BFrame := { kind := 5, src := 0, dst := 2, info := 0x80000000, payload := [0x10, 5] }
    let rd : BFrame := { wr with info := 0, payload := [0] }
    let w (path : Path) : BReq := { path := path, target := 3, since := 5 }
    let asks (path : Path) : State := setBgt (fun b => { b with waiting := [w path] }) (ringed 5 0)
    let late : State := { asks .pcie with tb := { (asks .pcie).tb with fast := 800005 <<< 32 } }
    let early : State := { asks .pcie with tb := { (asks .pcie).tb with fast := 800004 <<< 32 } }
    let rsp : BFrame := { kind := 6, src := 3, dst := 0, info := 0x99 }
    let rg : State := { asks .ranger with mgt := { (asks .ranger).mgt with asked := 1, proc := { stack := [0, 8] } } }
    nextIs (exec (.regreq true wr) s) (write32 .pcie 0x10 5 s) &&
    nextIs (exec (.regreq true rd) s) (queued false { kind := 6, src := 2, dst := 0, info := readValue s .pcie 0 } (readEffect .pcie 0 s)) &&
    nextIs (exec (.regrsp true rsp) (ringed 5 0)) (ringed 5 0) &&
    nextIs (exec (.regrsp true rsp) (asks .pcie)) { ringed 5 0 with answer := [0, 0x99] } &&
    nextIs (exec (.regrsp true rsp) rg) { ringed 5 0 with mgt := { rg.mgt with asked := 0, proc := { stack := [0x99, 8] } } } &&
    nextIs (exec .windowTimeout s) s && nextIs (exec .windowTimeout early) early &&
    nextIs (exec .windowTimeout late) { raise (bgtA + 8) 5 (bump (ringCount 8) late) with bgt := (ringed 5 0).bgt, answer := [0, 0] }) = true := by decide +kernel

theorem test_ring_control : (
    let s := ringed 5 2
    let prim := ringed 5 0
    let c (code arg : Nat) : BFrame := { kind := 8, src := 0, dst := 2, info := BitVec.ofNat 32 (code * 2 ^ 28 + arg) }
    let cause : BFrame := { kind := 7, src := 3, dst := 0, info := 1 }
    nextIs (exec (.cause true cause) prim) (setBgt (fun b => { b with secs := 8 }) prim) &&
    nextIs (exec (.cause true { cause with info := 0 }) (setBgt (fun b => { b with secs := 8 }) prim)) prim &&
    nextIs (exec (.cause true { cause with dst := 2 }) s) s && nextIs (exec (.ctrl true { c 4 0 with src := 2 }) s) s &&
    nextIs (exec (.ctrl true (c 4 2)) s) (setBgt (fun b => { b with choices := [(0, 2)] }) s) &&
    nextIs (exec (.ctrl true (c 6 0)) s) (setBgt (fun b => { b with sleep := 1, dport := 3, uport := 3 }) s) &&
    nextIs (exec (.ctrl true (c 8 0x16)) s) (setBgt (fun b => { b with hubs := 6, rstate := 3, state := .on }) s) &&
    nextIs (exec (.ctrl true { c 2 1 with payload := [5, 1, 7, 0] }) s) { s with
      tb := { s.tb with step := some { relative := true, value := 0x1000000000005, tApply := 7 } } }) = true := by decide +kernel

theorem test_ring_breaks : ([(2, 0), (2, 1), (5, 2)].all fun np =>
    let n := np.1
    let p := np.2
    let s := setCfg (bgtA + 4) 0x3000 (ringed n p)
    let whole := setBgt (fun b => { b with broken := [p], rstate := 3, dport := 1 }) s
    let trips := List.replicate 64 100
    let sends (q : Nat) : State := setBgt (fun b => { b with replayD := List.replicate q {} }) s
    nextIs (exec (.hopBreak (p + 1)) s) s = !(p + 1 == (p + n - 1) % n) && nextIs (exec (.hopBreak p) whole) whole &&
    nextSat (exec (.hopBreak p) s) (fun t => t.bgt.broken == [p] && t.bgt.rstate == 3 && t.bgt.dport == 1 && t.bgt.uport == 2 &&
      cntR t (ringCount 4) == 1 && (p != 0 || bit (flagR t (bgtA + 8)) 0 && t.journalQ.length == 1)) &&
    nextIs (exec (.hopRetrain p trips 0) s) s && nextIs (exec (.hopRetrain p trips 1) whole) whole &&
    nextSat (exec (.hopRetrain p trips (4 / 5)) whole) (fun t => t.bgt.broken == [] && t.bgt.rstate == 2 && t.bgt.dport == 2 &&
      cntR t (ringCount 5) == 1 && bit (flagR t (bgtA + 8)) 1) &&
    nextIs (exec (.frameRetry true true 0) s) (bump (ringCount 2) s) && nextIs (exec (.frameRetry false true 0) s) (bump (ringCount 0) s) &&
    nextIs (exec (.frameRetry true false 2) (sends 2)) (sends 2) &&
    nextIs (exec (.frameRetry true false 1) (sends 2)) (bump (ringCount 3) (setBgt (fun b => { b with failsD := 1 }) (sends 1))) &&
    (let f := setBgt (fun b => { b with failsD := 1 }) (sends 2)
     nextIs (exec (.frameRetry true false 0) f) (raise (bgtA + 8) 4 (bump (ringCount 3) (setBgt (fun b => { b with failsD := 2 }) (sends 2))))) &&
    (let f := setBgt (fun b => { b with failsD := 2 }) (sends 2)
     p == 0 || match exec (.hopBreak p) (raise (bgtA + 8) 4 (bump (ringCount 3) (setBgt (fun b => { b with failsD := 3 }) (sends 2)))) with
     | .next t => nextIs (exec (.frameRetry true false 0) f) t
     | _ => false)) = true := by decide +kernel

theorem test_triggers : (
    let b : BTrig := { chan := 3 }
    let log (s : State) : State := bump (ringCount 7) (setBgt (fun g => { g with trigLog := b, seen := [b] }) s)
    let off := setCfg (bgtA + 4) 0 (ringed 5 2)
    let on := setCfg (bgtA + 4) 8 off
    let due (s : State) : State := setBgt (fun g => { g with trigDue := [b] }) s
    let out (s : State) : State := setBgt (fun g => { g with trigTx := [b, b, b] }) s
    let seen := setBgt (fun g => { g with seen := [b] }) off
    nextIs (exec .triggerOrigin off) off && nextIs (exec .triggerOrigin { due off with power := { cur := .s2 } }) { off with power := { cur := .s2 } } &&
    nextIs (exec .triggerOrigin (due off)) (bump (ringCount 6) (log (out off))) &&
    nextSat (exec .triggerOrigin (due on)) (fun t => (getIcu t 122).latch && t.bgt == (log (out on)).bgt) &&
    nextIs (exec (.broadcastTrigger b true) seen) seen && nextIs (exec (.broadcastTrigger b true) hub) hub &&
    nextIs (exec (.broadcastTrigger b false) off) off && nextIs (exec (.broadcastTrigger b true) off) (log (out off)) &&
    nextSat (exec (.broadcastTrigger b true) on) (fun t => (getIcu t 122).latch && t.bgt == (log (out on)).bgt)) = true := by decide +kernel

theorem test_ring_sleep : (
    let ready (s : State) : State := { setCfg (pwrA + 4) 7 s with adm := { s.adm with deepest := .s2 }, mgt := { s.mgt with idle := true } }
    let prim := setBgt (fun b => { b with choices := [(1, 2)], sleep := 0 }) (ready (ringed 2 0))
    let one := setBgt (fun b => { b with choices := [(1, 1)], sleep := 0 }) (ready (ringed 2 0))
    let sec := ready (ringed 2 1)
    let zzz := setBgt (fun b => { b with sleep := 1, dport := 3, uport := 3 }) (ringed 2 1)
    let deep : State := { zzz with power := { cur := .s2 } }
    choiceForRing prim == .s2 && nextSat (exec .ringRelease prim) (fun t => t.bgt.sleep == 1 && t.bgt.dport == 3 && t.bgt.uport == 3) &&
    nextIs (exec .ringRelease one) one &&
    nextSat (exec .ringRelease sec) (fun t => Mem.read (fun _ => 0) t.bgt.choices 1 == 2) && nextIs (exec .ringWake hub) hub &&
    nextIs (exec .ringWake sec) sec && nextIs (exec .ringWake zzz) { zzz with
      tb := { zzz.tb with aligned := false }, bgt := { zzz.bgt with sleep := 0, dport := 2, uport := 2, alignGood := 0, lastTime := none } } &&
    nextIs (exec .ringWake deep) { deep with
      power := { deep.power with wakeReq := 1#11 <<< 10, wakeBegan := short (ticks deep) }, bgt := { deep.bgt with sleep := 2, dport := 1, uport := 1 } })
    = true := by decide +kernel

/-! ### Integrity, the freeze and the test port (R490–R505) -/

theorem test_integrity : (
    let bad : State := { hub with poisoned := [sramA 7] }
    let corr : State := { hub with mgt := { hub.mgt with sramCorr := 1 } }
    let entry (w : W48) : JEntry := { type := 0x40, stamp := 0, qual := qualNow hub, era := hub.tb.stepCnt, words := [w] }
    nextIs (exec (.fabricParityFailure 4 0 true) hub) hub && nextIs (exec (.fabricParityFailure 3 4095 false) hub) (bump 0x100 hub) &&
    nextSat (exec (.fabricParityFailure 3 4095 true) hub) (fun t => cntR t 0x104 == 1 && cntR t 0x100 == 1 &&
      t.journalQ == [entry 0x4300000FFF]) &&
    nextIs (exec (.sramScrub 4194304 .uncorrectable none) hub) hub && nextIs (exec (.sramScrub 7 .clean none) hub) hub &&
    nextIs (exec (.sramScrub 7 .corrected none) hub) corr && nextIs (exec (.sramScrub 7 .uncorrectable none) bad) bad &&
    nextSat (exec (.sramScrub 7 .uncorrectable none) hub) (fun t => t.poisoned == [sramA 7] && t.mgt.sramUnc == 1 && bit (flagR t mgtFlagsA) 5 &&
      t.journalQ == [entry 0x5000000007] && (setSram 7 0 t).poisoned == [])) = true := by decide +kernel

theorem test_freezes : (
    let s := setCfg frzA 1 hub
    let f : State := { s with frz := { s.frz with pending := true, driving := false, fault := 0, time := 0, qual := qualNow hub, count := 1, cause := 0xC0000000 } }
    let q : State := { f with journalQ := [{}, {}] }
    let full : State := { f with journalQ := List.replicate 512 {} }
    nextIs (exec .freeze (setCfg frzA 0 hub)) (setCfg frzA 0 hub) && nextIs (exec .freeze f) f && nextIs (exec .freeze s) f && nextIs (exec .stopCycle s) s &&
    nextIs (exec .stopCycle q) { q with frz := { f.frz with pending := false, stopped := true, cause := 0xC0000002 } } &&
    nextSat (exec .stopCycle full) (fun t => t.frz.cause == 0xC00001FF) &&
    (let d := setCfg frzA 3 f
    let e := freezeNow 2 5 0xAA d
    e.frz.cause == 0xC2520000 && e.frz.fault == 0xAA && e.frz.count == 1 && freezeNow 2 6 0xBB e == e &&
      (freezeNow 1 0 0 e).frz.cause == 0xC1020000 && freezeNow 2 5 0xAA { d with frz := { d.frz with time := 1 } } == { d with frz := { d.frz with time := 1 } })) = true := by decide +kernel

theorem test_test_port : (
    let cold : State := { hub with frz := { hub.frz with stopped := true, cause := 0xC1000002, fault := 0x55 }, sram := [(7, 0x123)], poisoned := [sramA 7] }
    let at0 (a : W32) : State := { cold with tap := { cold.tap with addr := a } }
    let by0 (ir : BitVec 8) : State := { hub with tap := { hub.tap with ir := ir }, answer := [0] }
    let got (a : W32) (x : W64) : Bool := nextIs (exec (.memRead [.corrected]) (at0 a)) { at0 a with tap := { (at0 a).tap with ir := 0x84 }, answer := [x] }
    nextIs (exec .frzStatus hub) (by0 0x80) && nextIs (exec (.chainSel 3) hub) (by0 0x81) && nextIs (exec (.chainShift 9) hub) (by0 0x82) &&
    nextIs (exec (.memAddr 8) hub) (by0 0x83) && nextIs (exec (.memRead [.clean]) hub) (by0 0x84) &&
    nextIs (exec .frzStatus cold) { cold with tap := { cold.tap with ir := 0x80 }, answer := [0xC100000200000055] } &&
    nextIs (exec (.chainSel 3) cold) { cold with tap := { cold.tap with ir := 0x81, chain := 3 }, answer := [] } &&
    nextIs (exec (.memAddr 0x1000) cold) { cold with tap := { cold.tap with ir := 0x83, addr := 0x1000 }, answer := [] } &&
    got 0x01000004 0x0800000000000000 && got 0x001FFFF8 0x0800000000000000 && got 0x05040000 0x0800000000000000 && 
    nextSat (exec (.memRead [.corrected]) (at0 0x01000038)) (fun t => t.answer.length == 1 && sramR t 7 == 0x123) && nextIs (exec .idcode hub) { hub with tap := { hub.tap with ir := 1 }, answer := [0x14896F2F] } &&
    nextIs (exec .testLogicReset cold) { cold with tap := { cold.tap with ir := 1 } } &&
    nextIs (exec (.bypass 0xFF [true, false, true]) hub) { hub with tap := { hub.tap with ir := 0xFF }, answer := [2] } &&
    nextSat (exec (.extest [true]) hub) (fun t => t.tap == { hub.tap with ir := 0x00, boundary := [true] }) &&
    nextSat (exec (.samplePreload [true]) hub) (fun t => t.tap == { hub.tap with ir := 0x02, boundary := [true] })) = true := by decide +kernel

theorem test_chain_shift : (
    let cold (c at0 : Nat) : State := { hub with frz := { hub.frz with stopped := true }, tap := { hub.tap with chain := c, turned := if at0 = 0 then [] else [(c, at0)] } }
    nextSat (exec (.chainShift 5) (cold 3 0)) (fun t => Mem.read (fun _ => 0) t.tap.turned 3 == 5 % max 1 (chainBits 3)) &&
    nextSat (exec (.chainShift (chainBits 3 - 5)) (cold 3 5)) (fun t => Mem.read (fun _ => 0) t.tap.turned 3 == 0) &&
    nextSat (exec (.chainShift 64) (cold 10 0)) (fun t => t.answer == [0])) = true := by decide +kernel

/-! ### Well-formedness: for each check a command that passes at the last unit and one that is refused one above -/

theorem test_ill_formed_boundaries :
    ([Instr.powerUp { role := 2, pos := 7, twtA := 3 }, .prescalerTick 31 0, .stagger .pcie 31 32, .converterFrame 7 [] false, .gapRunClose 4095,
      .presenceConfirmed 7, .listRun 7, .twoWireEntry 3 {}, .alert 3, .eventQueueDrain true 15, .pulseEnd 7, .data 7, .nack 7 30 7, .nodeTimeout 7 38,
      .joinfail 7 30, .g1Poll 7 7, .channelValue 2047 0 {}, .rainflowSnapshot 127, .gapNotice 2047, .feScrub 7 32767 .clean, .persist 127,
      .invocationStart 15, .add 16, .clear .pcie 15, .sourceAssert 127, .presentation 16, .claim 16 127, .retarget .pcie 127 0,
      .iramScrub 15 4095 .clean, .frameFormed 1 255, .evaluation 1 7, .spuScrub 1 true 16383 .clean, .linkFailure 3 4 4, .monitorSample 18 0,
      .hopCalibration 7 [] 0, .hopBreak 7, .fabricParityFailure 3 0 false, .sramScrub 4194303 .clean none, .pinReturn 15, .packetLost 7 30 7,
      .pcieLinkChange 3 4 4].all Instr.wellFormed) = true ∧
    ([Instr.powerUp { role := 3 }, .resetN 0 { pos := 8 }, .powerUp { twtA := 4 }, .prescalerTick 32 0, .start .pcie 32, .stagger .pcie 32 0,
      .stagger .pcie 0 33, .capA .pcie 32, .converterFrame 8 [] false, .gapRunClose 4096, .presenceConfirmed 8, .removal 8, .listRun 8,
      .twoWireEntry 4 {}, .strto 8, .alert 4, .eventQueueDrain true 16, .pulseEnd 8, .data 8, .nack 8 0 0, .nack 0 31 0, .nack 0 0 8, .leave 8,
      .nodeTimeout 8 0, .nodeTimeout 0 39, .joinfail 8 0, .joinfail 0 31, .tmfail 8, .toneMapRebuild 0 31, .g1Poll 8 0, .g1Poll 0 8, .noresp 8,
      .channelValue 2048 0 {}, .rainflowSnapshot 128, .gapNotice 2048, .feScrub 8 0 .clean, .feScrub 0 32768 .clean, .flushDeadline 4096,
      .persist 128, .trigger 16 0 false 0 0 {}, .trigger 0 32 false 0 0 {}, .invocationStart 16, .add 17, .clear .pcie 16, .sourceAssert 128,
      .presentation 17, .claim 17 0, .complete 0 128, .retarget .pcie 128 0, .iramScrub 16 0 .clean, .iramScrub 0 4096 .clean, .frameFormed 2 0,
      .frameFormed 0 256, .spectrum 2, .evaluation 2 0, .evaluation 0 8, .spuScrub 2 true 0 .clean, .spuScrub 0 true 16384 .clean,
      .linkFailure 4 0 0, .linkRecovery 0 0 5, .monitorSample 19 0, .hopCalibration 8 [] 0, .hopBreak 8, .fabricParityFailure 4 0 false,
      .sramScrub 4194304 .clean none, .pinReturn 16, .packetLost 8 0 0, .packetLost 0 31 0, .packetLost 0 0 8, .pcieLinkChange 4 0 0].all
      (fun i => !i.wellFormed)) = true := by decide +kernel

/-! ### Reset -/

theorem test_reset : (
    let s := State.reset
    hubCore s == s && ticks s == 0 && s.pending == [] && s.journalQ == [] && [0, 1, 4194303].all (fun w => sramR s w == 0) &&
    cfgR s tbCtrlA == 0x643450 && cfgR s (hlA + 4) == 7 && (List.range 32).all (fun n => cfgR s (tmrA n + 4) == 1) &&
    (List.range 16).all (fun n => cfgR s (tchA n) == 0x04010360) && (List.range 128).all (fun n => cfgR s (icuCfgA n) == 0x10)) = true := by decide +kernel

/-- The host's question on a row's word: no row has bits, and the queue stays empty. -/
theorem test_words : decodeTableWord 32 0 = none ∧ State.reset.withFetchWord 32 0 = State.reset := by decide +kernel

end Sys2Proof.Tests
end

section
/-! SUPPORT. The reset tables of the register blocks (R59, R81, R82, R104, R124, R138, R139, R165, R195, R287, R288, R402, R428,
R468, R506) as rules over a unit's number and the offset of its register, and what reset leaves (R4, R527). -/

namespace Sys2Proof.Machine
open Sys2Proof Sys2Proof.Claims

/-! ### Reset values by block -/

/-- No configuration register has been written at reset: each holds its table's value. -/
@[simp] theorem cfgR_reset (a : Nat) : cfgR State.reset a = cfgReset a := rfl

/-- A converter port's reset table (R104). -/
def cvpReset (o : Nat) : W32 := match o with | 0 => 0x0100_0010 | 8 => 0x028F | 0xC => 0x0148 | _ => 0

/-- The reset table of a two-wire sensor port (R124). -/
def twcReset (o : Nat) : W32 := match o with | 0 => 0x0060_0000 | 8 => 0x78 | 0xC => 0x3E8 | 0x10 => 0x2710 | _ => 0

/-- The reset table of a serial sensor port (R124). -/
def sspReset (o : Nat) : W32 := match o with | 0 => 0x0010_0000 | 8 => 0x0002_0101 | _ => 0

/-- Of a timer's registers TMRn_DIV alone is not zero (R81). -/
theorem cfgReset_tmr {n o : Nat} (hn : n < 32) (ho : o < 0x80) : cfgReset (tmrA n + o) = if o = 4 then 1 else 0 := by
  unfold tmrA
  rw [cfgReset]
  repeat rw [if_neg (by omega)]
  rw [if_pos (by omega)]
  by_cases h : o = 4
  · rw [if_pos (by omega), if_pos h]
  · rw [if_neg (by omega), if_neg h]

theorem cfgReset_cvp {n o : Nat} (hn : n < 8) (ho : o < 0x100) : cfgReset (cvpA n + o) = cvpReset o := by
  unfold cvpA
  rw [cfgReset]
  repeat rw [if_neg (by omega)]
  rw [if_pos (by omega), if_pos (by omega), show (0x0003_0100 + n * 0x100 + o - 0x0003_0100) % 0x100 = o by omega]
  rfl

theorem cfgReset_twc {p o : Nat} (hp : p < 4) (ho : o < 0x100) : cfgReset (sbpA p + o) = twcReset o := by
  unfold sbpA
  rw [cfgReset]
  repeat rw [if_neg (by omega)]
  rw [if_pos (by omega), if_pos (by omega), show (0x0004_0100 + p * 0x100 + o - 0x0004_0100) % 0x100 = o by omega]
  rfl

theorem cfgReset_ssp {p o : Nat} (hp : p < 4) (ho : o < 0x100) : cfgReset (sbpA (p + 4) + o) = sspReset o := by
  unfold sbpA
  rw [cfgReset]
  repeat rw [if_neg (by omega)]
  rw [if_pos (by omega), if_neg (by omega), if_pos (by omega),
    show (0x0004_0100 + (p + 4) * 0x100 + o - 0x0004_0500) % 0x100 = o by omega]
  rfl

theorem cfgReset_hws {n o : Nat} (hn : n < 8) (ho : o < 0x2000) : cfgReset (hwsA n + o) = cfgReset.hwsReset o := by
  unfold hwsA
  rw [cfgReset]
  repeat rw [if_neg (by omega)]
  rw [if_pos (by omega), show (0x0005_0000 + n * 0x2000 + o - 0x0005_0000) % 0x2000 = o by omega]

/-- The event engines' registers are zero (R287). -/
theorem cfgReset_ee {e o : Nat} (he : e < 16) (ho : o < 0x80) : cfgReset (eeA e + o) = 0 := by
  unfold eeA
  rw [cfgReset]
  repeat rw [if_neg (by omega)]
  rw [if_pos (by omega)]

theorem cfgReset_icuCfg {n : Nat} (hn : n < 128) : cfgReset (icuCfgA n) = 0x10 := by
  unfold icuCfgA
  rw [cfgReset]
  repeat rw [if_neg (by omega)]
  rw [if_pos (by omega)]

/-- TCHn_CFG (R138). -/
theorem cfgReset_tch {n : Nat} (hn : n < 16) : cfgReset (tchA n) = 0x0401_0360 := by
  unfold tchA
  rw [cfgReset]
  repeat rw [if_neg (by omega)]
  rw [if_pos (by omega), if_neg (by omega), if_pos (by omega)]

/-- EVOn_CFG (R139). -/
theorem cfgReset_evo {n : Nat} (hn : n < 8) : cfgReset (evoA n) = 0x0001_0000 := by
  unfold evoA
  rw [cfgReset]
  repeat rw [if_neg (by omega)]
  rw [if_pos (by omega), if_neg (by omega), if_neg (by omega), if_pos (by omega)]

/-- TMRn_TOP is all ones (R82). -/
theorem wordR_reset_tmrTop {n : Nat} (hn : n < 32) : wordR State.reset (tmrA n + 0x10) = BitVec.allOnes 48 := by
  have htop : tabR State.reset (tmrA n + 0x10) = 0xFFFF_FFFF_FFFF := by
    change tabReset (tmrA n + 0x10) = _
    unfold tmrA
    rw [tabReset, if_pos (by omega)]
  rw [wordR, htop]
  rfl

/-! ### What reset leaves -/

/-- The hub after reset is held there, and nothing has happened to it yet (R4, R527). -/
theorem reset_state : ResetState :=
  ⟨⟨rfl, List.forall_mem_nil _, rfl⟩, rfl, rfl, fun _ => rfl, fun _ => ⟨rfl, rfl⟩, rfl, rfl⟩

theorem reset_registers : ResetRegisters := by
  simp only [ResetRegisters, cfgR_reset]
  refine ⟨rfl, rfl, rfl, rfl, rfl, rfl, rfl, rfl, rfl, rfl, rfl, fun n hn => ?timers, fun n hn => ?ports, fun p hp => ?sensors,
    fun n hn => ?keysAndEngines, fun n hn => cfgReset_icuCfg hn⟩
  case timers => exact ⟨cfgReset_tmr hn (o := 0) (by omega), cfgReset_tmr hn (by omega), wordR_reset_tmrTop hn⟩
  case ports =>
    exact ⟨cfgReset_cvp hn (o := 0) (by omega), cfgReset_cvp hn (by omega), cfgReset_cvp hn (by omega),
      cfgReset_hws hn (o := 0) (by omega), cfgReset_hws hn (by omega), cfgReset_hws hn (by omega), cfgReset_evo hn⟩
  case sensors => exact ⟨cfgReset_twc hp (o := 0) (by omega), cfgReset_ssp hp (o := 0) (by omega)⟩
  case keysAndEngines => exact ⟨cfgReset_tch hn, cfgReset_ee hn (o := 0) (by omega)⟩

/-- Settles O18, from the reset state as the model writes it down and from the reset tables block by block. -/
theorem resetValues : Obligations.ResetValues := ⟨reset_state, reset_registers⟩

end Sys2Proof.Machine
end

section
/-! SUPPORT. What a 32-bit access does, by the access type of its address (R10-R12, R14, R32, R443): one rule per kind of
location, for the path's holding registers, and for the rights of the paths. -/

namespace Sys2Proof.Machine
open Sys2Proof Sys2Proof.Claims

variable {p q : Path} {a m : Nat} {v w : W32} {s : State}

/-! ### What a wake request leaves alone (R421) -/

@[simp] theorem pathWake_ranger (s : State) : pathWake .ranger s = s := rfl
@[simp] theorem pathWake_tb (p : Path) (s : State) : (pathWake p s).tb = s.tb := by rw [pathWake_only]
@[simp] theorem pathWake_holds (p : Path) (s : State) : (pathWake p s).holds = s.holds := by rw [pathWake_only]
@[simp] theorem pathWake_config (p : Path) (s : State) : (pathWake p s).config = s.config := by rw [pathWake_only]
@[simp] theorem pathWake_poisoned (p : Path) (s : State) : (pathWake p s).poisoned = s.poisoned := by rw [pathWake_only]
@[simp] theorem stopped_pathWake (p : Path) (s : State) : stopped (pathWake p s) = stopped s := by rw [pathWake_only]; rfl

/-! ### The holding registers of a path (R11) -/

theorem holdOf_injective : Function.Injective holdOf := by
  intro p q h
  cases p <;> cases q <;> simp_all [holdOf]

theorem getHold_setHold_other (x : Hold) (h : q ≠ p) (hw : Mem.wf (fun _ => {}) s.holds = true) :
    getHold (setHold p x s) q = getHold s q :=
  Mem.read_write_other _ _ _ _ _ (holdOf_injective.ne h) hw

@[simp] theorem getHold_pathWake (p q : Path) (s : State) : getHold (pathWake p s) q = getHold s q := by
  rw [getHold, getHold, pathWake_holds]

@[simp] theorem getHold_setTb (x : TimeBase) (p : Path) (s : State) : getHold (setTb x s) p = getHold s p := rfl

@[simp] theorem stopped_setHold (x : Hold) (p : Path) (s : State) : stopped (setHold p x s) = stopped s := rfl

/-- No path holds anything at reset. -/
theorem getHold_reset (p : Path) : getHold State.reset p = {} := rfl

@[simp] theorem latchLo_rd (p : Path) (a : Nat) (s : State) :
    (getHold (latchLo p a s) p).rd = (quantity s a >>> 32).setWidth 32 := by
  simp only [latchLo, getHold_setHold]
  split <;> rfl

@[simp] theorem latchLo_wr (p : Path) (a : Nat) (s : State) : (getHold (latchLo p a s) p).wr = (getHold s p).wr := by
  simp only [latchLo, getHold_setHold]
  split <;> rfl

theorem latchLo_other (a : Nat) (h : q ≠ p) (hw : Mem.wf (fun _ => {}) s.holds = true) :
    getHold (latchLo p a s) q = getHold s q :=
  getHold_setHold_other _ h hw

/-! ### Reads by access type (R10, R11) -/

theorem isLo_iff : isLo a = true ↔ accessAt a = .loRo ∨ (∃ m, accessAt a = .loLk m) ∨ accessAt a = .loRw := by
  unfold isLo
  cases accessAt a <;> simp

/-- A word without a parity error is read without a count (R265). -/
theorem countParity_clean (h : s.poisoned.contains a = false) : countParity a s = s :=
  if_neg fun ⟨_, _, _, hc⟩ => Bool.false_ne_true (h.symm.trans hc)

theorem readValue_lo (h : isLo a = true) : readValue s p a = (quantity s a).setWidth 32 := by
  obtain h | ⟨m, h⟩ | h := isLo_iff.mp h <;> simp only [readValue, h]

theorem readEffect_lo (h : isLo a = true) : readEffect p a s = countParity a (latchLo p a s) := by
  obtain h | ⟨m, h⟩ | h := isLo_iff.mp h <;> simp only [readEffect, h]

theorem readValue_hi (h : accessAt a = .hi) : readValue s p a = (getHold s p).rd := by simp only [readValue, h]

theorem readEffect_hi (h : accessAt a = .hi) : readEffect p a s = s := by simp only [readEffect, h]

theorem readValue_reserved (h : accessAt a = .reserved) : readValue s p a = 0 := by simp only [readValue, readReg, h]

theorem readEffect_reserved (h : accessAt a = .reserved) : readEffect p a s = s := by simp only [readEffect, h]

/-- SPLIT_LO_READ of a word whose check finds nothing. -/
theorem exec_splitLoRead_clean (h : stopped s = false) : exec (.splitLoRead p a .clean) s =
    .next { readEffect p a (pathWake p s) with answer := [(readValue (pathWake p s) p a).setWidth 64] } :=
  live_running h _

/-! ### The rights of the paths (R32, R443) -/

theorem mayWrite_host (own : Bool) (h : p ≠ .ranger) : mayWrite s p own = false := by simp [mayWrite, h]

theorem mayWrite_locked (h : s.config.locked = true) : mayWrite s p false = false := by simp [mayWrite, h]

theorem mayWrite_ranger {own : Bool} (h : s.config.locked = false ∨ own = true) : mayWrite s .ranger own = true := by
  simpa [mayWrite, or_comm] using h

/-! ### Writes to 32-bit registers (R10, R14) -/

theorem exec_registerWrite (h : stopped s = false) : exec (.registerWrite p a v) s = .next (write32 p a v (pathWake p s)) :=
  live_running h _

theorem write32_reserved (h : accessAt a = .reserved) : write32 p a v s = s := by simp only [write32, h]

theorem write32_ro (h : accessAt a = .ro) : write32 p a v s = werr s := by simp only [write32, h]

/-- Ranger's write to W1C flags clears those written with 1, and sends no MSI (R382). -/
theorem write32_w1c_ranger (h : accessAt a = .w1c m) :
    write32 .ranger a v s = setFlags a (flagR s a &&& ~~~(v &&& BitVec.ofNat 32 m)) s := by
  simp only [write32, h, writeW1c, true_or, if_true, clearFlags]

/-- A write to an LK register that is no ICU_SRCn_CFG. -/
theorem write32_lk (h : accessAt a = .lk m) (hi : ¬(0x000A_4000 ≤ a ∧ a < 0x000A_4200)) :
    write32 p a v s =
      if !mayWrite s p (rangerReg a) || badValue a (v.toNat &&& m) then werr s else putLk a m v s := by
  simp only [write32, h, writeLk, hi, and_false, if_false]

theorem write32_lk_forbidden (h : accessAt a = .lk m) (hi : ¬(0x000A_4000 ≤ a ∧ a < 0x000A_4200))
    (hm : mayWrite s p (rangerReg a) = false) : write32 p a v s = werr s := by
  rw [write32_lk h hi, if_pos (by simp [hm])]

theorem write32_lk_badValue (h : accessAt a = .lk m) (hi : ¬(0x000A_4000 ≤ a ∧ a < 0x000A_4200))
    (hb : badValue a (v.toNat &&& m) = true) : write32 p a v s = werr s := by
  rw [write32_lk h hi, if_pos (by simp [hb])]

/-- TB_TRIM lies in the time base; every other LK register is a configuration register. -/
theorem write32_lk_set (h : accessAt a = .lk m) (hi : ¬(0x000A_4000 ≤ a ∧ a < 0x000A_4200))
    (hm : mayWrite s p (rangerReg a) = true) (hb : badValue a (v.toNat &&& m) = false) (ht : a ≠ 0x0001_0024) :
    write32 p a v s = setCfg a (v &&& BitVec.ofNat 32 m) s := by
  rw [write32_lk h hi, if_neg (by simp [hm, hb]), putLk, if_neg ht]

/-! ### Writes to split quantities (R12) -/

theorem exec_splitLoWrite (h : stopped s = false) (ha : isLo a = true) :
    exec (.splitLoWrite p a v) s = .next (writeLo p a v (pathWake p s)) :=
  (live_running h _).trans (if_pos ha)

theorem exec_splitHiWrite (h : stopped s = false) (ha : accessAt a = .hi) :
    exec (.splitHiWrite p a v) s = .next (writeHi p a v (pathWake p s)) :=
  (live_running h _).trans (if_pos ha)

theorem writeLo_held (h : mayWriteWord s p a = true) :
    writeLo p a v s = setHold p { getHold s p with wr := some (a, v) } s := by simp only [writeLo, h, if_true]

theorem writeLo_forbidden (h : mayWriteWord s p a = false) : writeLo p a v s = werr s := by
  simp [writeLo, h]

/-- The two halves of a quantity as one number. -/
theorem halves_eq_ofNat (v w : W32) :
    v.setWidth 64 <<< 32 ||| w.setWidth 64 = BitVec.ofNat 64 (v.toNat * 2 ^ 32 + w.toNat) := by
  have hw := w.isLt
  have hv := v.isLt
  have hsum : v.toNat <<< 32 ||| w.toNat = v.toNat * 2 ^ 32 + w.toNat := by
    rw [← Nat.shiftLeft_add_eq_or_of_lt hw, Nat.shiftLeft_eq]
  have hshift : v.toNat <<< 32 < 2 ^ 64 := by rw [Nat.shiftLeft_eq]; omega
  apply BitVec.eq_of_toNat_eq
  rw [BitVec.toNat_or, BitVec.toNat_shiftLeft, BitVec.toNat_setWidth_of_le (by omega), BitVec.toNat_setWidth_of_le (by omega),
    Nat.mod_eq_of_lt hshift, hsum, BitVec.toNat_ofNat, Nat.mod_eq_of_lt (by omega)]

/-- A write to _HI commits both halves where its path holds the _LO of the same quantity. -/
theorem writeHi_commit (h : (getHold s p).wr = some (a, w)) (hm : mayWriteWord s p a = true)
    (hb : badWord a (v.toNat * 2 ^ 32 + w.toNat) = false) : writeHi p (a + 4) v s =
      putWord a (BitVec.ofNat 64 (v.toNat * 2 ^ 32 + w.toNat)) (setHold p { getHold s p with wr := none } s) := by
  have hlt : v.toNat * 2 ^ 32 + w.toNat < 2 ^ 64 := by have := v.isLt; have := w.isLt; omega
  simp only [writeHi, h, hm, decide_true, Bool.and_self, if_true, commitWord, halves_eq_ofNat, BitVec.toNat_ofNat,
    Nat.mod_eq_of_lt hlt, hb, Bool.false_eq_true, if_false]

theorem writeHi_unmatched (h : ∀ x, (getHold s p).wr ≠ some (a, x)) : writeHi p (a + 4) v s = werr s := by
  unfold writeHi
  split
  · next lo x hx =>
    have hlo : lo ≠ a := by rintro rfl; exact h x hx
    simp [hlo]
  · rfl

/-- TB_SET lies in the time base (R58). -/
theorem putWord_tbSet (x : W64) (s : State) : putWord 0x0001_0030 x s = setTb { s.tb with setValue := x } s := rfl

/-! ### The access types of some addresses (R508) -/

/-- The registers of each timer are laid out as those of timer 0. -/
theorem accTmr_unit {n o : Nat} (hn : n < 32) (ho : o < 0x80) : accTmr (0x100 + n * 0x80 + o) = accTmr (0x100 + o) := by
  have hr : (0x100 + n * 0x80 + o) % 0x80 = o := by omega
  have hr0 : (0x100 + o) % 0x80 = o := by omega
  unfold accTmr
  rw [if_neg (by omega), if_pos (by omega), if_neg (by omega), if_pos (by omega), hr, hr0]

theorem accessAt_tmr {n o : Nat} (hn : n < 32) (ho : o < 0x80) (h4 : o % 4 = 0) :
    accessAt (tmrA n + o) = accTmr (0x100 + o) := by
  have hb : (tmrA n + o) / 0x1_0000 = 2 := by unfold tmrA; omega
  have hr : (tmrA n + o) % 0x1_0000 = 0x100 + n * 0x80 + o := by unfold tmrA; omega
  simp only [accessAt, hb, hr, accTmr_unit hn ho]
  exact if_neg (by unfold tmrA; omega)

/-- Above the register blocks lie the memories. -/
theorem accessAt_mem (h : 0x0015_0000 ≤ a) (h4 : a % 4 = 0) : accessAt a = accMem a := by
  obtain ⟨b, hb⟩ : ∃ b, a / 0x1_0000 = b + 0x15 := ⟨a / 0x1_0000 - 0x15, by omega⟩
  simp only [accessAt, hb]
  exact if_neg (by omega)

/-- IRAM and DRAM words are LK, of 48 bits. -/
theorem accessAt_engineWord (h : 0x0020_0000 ≤ a) (h' : a < 0x0030_0000) (h8 : a % 8 = 0) : accessAt a = .loLk all48 := by
  rw [accessAt_mem (by omega) (by omega), accMem, if_neg (by omega), if_pos ⟨h, h'⟩, slotAcc, if_pos h8]

theorem accessAt_engineWord_hi (h : 0x0020_0000 ≤ a) (h' : a < 0x0030_0000) (h8 : a % 8 = 4) : accessAt a = .hi := by
  rw [accessAt_mem (by omega) (by omega), accMem, if_neg (by omega), if_pos ⟨h, h'⟩, slotAcc, if_neg (by omega)]

theorem accessAt_dram {e w : Nat} (he : e < 16) (hw : w < 0x1000) :
    accessAt (dramA e w) = .loLk all48 ∧ accessAt (dramA e w + 4) = .hi := by
  unfold dramA
  exact ⟨accessAt_engineWord (by omega) (by omega) (by omega), accessAt_engineWord_hi (by omega) (by omega) (by omega)⟩

/-! ### The statements of R10-R12 -/

/-- A read of _LO without a parity error: beside the wake request, its path's holding registers alone change. -/
theorem exec_splitLoRead_lo (h : stopped s = false) (ha : isLo a = true)
    (hp : s.poisoned.contains a = false) : exec (.splitLoRead p a .clean) s =
      .next { latchLo p a (pathWake p s) with answer := [((quantity (pathWake p s) a).setWidth 32).setWidth 64] } := by
  have hc : countParity a (latchLo p a (pathWake p s)) = latchLo p a (pathWake p s) :=
    countParity_clean (by simpa [latchLo] using hp)
  rw [exec_splitLoRead_clean h, readEffect_lo ha, readValue_lo ha, hc]

theorem split_reads : SplitReads := by
  intro p a s hs hw
  refine ⟨fun ha hp => ⟨_, exec_splitLoRead_lo hs ha hp, rfl, latchLo_rd p a _, ?written, fun q hq => ?others, ?frame⟩,
    fun ha => ?hi, fun ha => ?reserved, congrArg Hold.rd (getHold_reset p)⟩
  case written => exact (latchLo_wr p a _).trans (congrArg Hold.wr (getHold_pathWake p p s))
  case others => exact (latchLo_other a hq (by rwa [pathWake_holds])).trans (getHold_pathWake p q s)
  case frame => rfl
  case hi => rw [exec_splitLoRead_clean hs, readValue_hi ha, readEffect_hi ha, getHold_pathWake]
  case reserved =>
    rw [exec_splitLoRead_clean hs, readValue_reserved ha, readEffect_reserved ha]
    rfl

/-- TB_SET written half by half, through one path (R12, R58). -/
theorem tbSet_written (p : Path) (v w : W32) (hs : stopped s = false) :
    ∃ t1 t2, exec (.splitLoWrite p 0x0001_0030 w) s = .next t1 ∧ t1.tb = s.tb ∧
      exec (.splitHiWrite p 0x0001_0034 v) t1 = .next t2 ∧
      t2.tb = { s.tb with setValue := BitVec.ofNat 64 (v.toNat * 2 ^ 32 + w.toNat) } ∧ (getHold t2 p).wr = none := by
  have hlo := exec_splitLoWrite (p := p) (a := 0x0001_0030) (v := w) hs rfl
  rw [writeLo_held rfl] at hlo
  have hhi := exec_splitHiWrite (p := p) (a := 0x0001_0034) (v := v)
    (s := setHold p { getHold (pathWake p s) p with wr := some (0x0001_0030, w) } (pathWake p s)) (by simpa using hs) rfl
  rw [writeHi_commit (a := 0x0001_0030) (w := w) (by simp) rfl rfl, putWord_tbSet] at hhi
  exact ⟨_, _, hlo, by simp, hhi, by simp, by simp⟩

theorem split_writes : SplitWrites := by
  intro p a v w s hs
  refine ⟨fun ha hm => ?held, fun ha hm => ?forbidden, fun ha hh hm hb => ?committed, fun ha hh => ?unmatched,
    tbSet_written p v w hs⟩
  case held => rw [exec_splitLoWrite hs ha, writeLo_held hm]
  case forbidden => rw [exec_splitLoWrite hs ha, writeLo_forbidden hm, werr]
  case committed => rw [exec_splitHiWrite hs ha, writeHi_commit hh hm hb]
  case unmatched => rw [exec_splitHiWrite hs ha, writeHi_unmatched hh, werr]

/-- Settles O24, from what the holding registers of a path keep of a read and of a write. -/
theorem splitQuantities : Obligations.SplitQuantities := ⟨split_reads, split_writes⟩

/-- Settles O25, from the rule of each access type and from the layout of the timers and of the engines' memories. -/
theorem registerWrites : Obligations.RegisterWrites := by
  refine ⟨fun p a v s hs => ⟨fun ha => ?reserved, fun ha => ?readOnly, fun m ha hp => ?flags, fun m ha hi =>
      ⟨fun hp => ?host, fun hl ho => ?locked, fun hb => ?badValue, fun hp hl hb ht => ?taken⟩⟩,
    rfl, rfl, rfl, rfl, rfl, rfl, rfl, rfl, rfl, rfl,
    fun n hn => ⟨accessAt_tmr hn (by omega) rfl, accessAt_tmr hn (by omega) rfl⟩, fun e he w hw => accessAt_dram he (by omega)⟩
  case reserved => rw [exec_registerWrite hs, write32_reserved ha]
  case readOnly => rw [exec_registerWrite hs, write32_ro ha, werr]
  case flags =>
    subst hp
    rw [exec_registerWrite hs, write32_w1c_ranger ha, pathWake_ranger]
  case host => rw [exec_registerWrite hs, write32_lk_forbidden ha hi (mayWrite_host _ hp), werr]
  case locked =>
    have hm : mayWrite (pathWake p s) p (rangerReg a) = false := by
      rw [ho]
      exact mayWrite_locked (by rwa [pathWake_config])
    rw [exec_registerWrite hs, write32_lk_forbidden ha hi hm, werr]
  case badValue => rw [exec_registerWrite hs, write32_lk_badValue ha hi hb, werr]
  case taken =>
    subst hp
    rw [exec_registerWrite hs, pathWake_ranger, write32_lk_set ha hi (mayWrite_ranger hl) hb ht]

end Sys2Proof.Machine
end

section
/-! SUPPORT. Counting device time (R37-R44, R55): rounding to integers by the claims' own measures of nearness, INC_Q, a cycle
of the clock and what may follow it in that cycle, the trim, the wake oscillator and the hand-over. -/

namespace Sys2Proof.Machine
open Sys2Proof Sys2Proof.Claims

variable {s : State}

/-! ### Rounding -/

theorem floor_mul_bounds {q : Rat} {n : Int} {d : Nat} (hd : 0 < d) (hq : q * d = n) :
    q.floor * d ≤ n ∧ n < q.floor * d + d := by
  have hpos : (0 : Rat) < d := Rat.natCast_pos.mpr hd
  have hle : (q.floor : Rat) * d ≤ q * d := Rat.mul_le_mul_of_nonneg_right (Rat.floor_le q) (Rat.le_of_lt hpos)
  have hlt : q * d < ((q.floor + 1 : Int) : Rat) * d := Rat.mul_lt_mul_of_pos_right (Rat.lt_floor_add_one q) hpos
  rw [hq] at hle hlt
  have hlt' : n < (q.floor + 1) * d := by exact_mod_cast hlt
  rw [Int.add_mul, Int.one_mul] at hlt'
  exact ⟨by exact_mod_cast hle, hlt'⟩

/-- The nearest integer by the floor: within half a unit, and on the upper side on a tie. -/
theorem floor_add_half_bounds {q : Rat} {n : Int} {d : Nat} (hd : 0 < d) (hq : q * d = n) :
    2 * ((q + 1 / 2).floor * d) ≤ 2 * n + d ∧ 2 * n < 2 * ((q + 1 / 2).floor * d) + d := by
  have hdouble : (q + 1 / 2) * (2 * d : Nat) = (2 * n + d : Int) := by
    push_cast
    grind
  obtain ⟨hle, hlt⟩ := floor_mul_bounds (by omega) hdouble
  rw [Int.natCast_mul, Int.mul_left_comm] at hle hlt
  omega

theorem roundFree_beside {q : Rat} {n : Int} {d : Nat} (hd : 0 < d) (hq : q * d = n) (s : State) :
    ∃ v k, roundFree q s = (v, { s with fresh := k }) ∧ Beside v n d := by
  obtain ⟨hle, hlt⟩ := floor_mul_bounds hd hq
  obtain ⟨hv, hs⟩ := roundFree_near q s
  generalize roundFree q s = r at hv hs ⊢
  refine ⟨r.1, r.2.fresh, Prod.ext rfl (congrArg (fun u => { u with fresh := r.2.fresh }) hs), ?_⟩
  rcases hv with hv | ⟨hpart, hv⟩
  · rw [hv, Beside]
    omega
  · have hne : q.floor * d ≠ n := by
      intro h
      have hd0 : (d : Rat) ≠ 0 := Rat.ne_of_gt (Rat.natCast_pos.mpr hd)
      have hmul : (q.floor : Rat) * d = q * d := by rw [hq]; exact_mod_cast h
      exact hpart (by rw [← Rat.mul_div_cancel (a := (q.floor : Rat)) hd0, hmul, Rat.mul_div_cancel hd0])
    rw [hv, Beside, Int.add_mul, Int.one_mul]
    omega

theorem roundNear_nearest {q : Rat} {n : Int} {d : Nat} (hd : 0 < d) (hq : q * d = n) (s : State) :
    ∃ v k, roundNear q s = (v, { s with fresh := k }) ∧ Nearest v n d := by
  obtain ⟨hle, hlt⟩ := floor_add_half_bounds hd hq
  by_cases ht : ((q + 1 / 2).floor : Rat) - 1 / 2 = q
  · have htie : 2 * ((q + 1 / 2).floor * d) - d = 2 * n := by
      have hmul : 2 * (((q + 1 / 2).floor : Rat) * d) - d = 2 * n := by grind
      exact_mod_cast hmul
    refine ⟨_, _, if_pos ht, ?_⟩
    unfold Nearest
    rcases Nat.mod_two_eq_zero_or_one (Config.freeWord (draw s).1).toNat with h | h <;> rw [h]
    · rw [Int.natCast_zero, Int.sub_zero]
      omega
    · rw [Int.natCast_one, Int.sub_mul, Int.one_mul]
      omega
  · refine ⟨_, s.fresh, if_neg ht, ?_⟩
    unfold Nearest
    omega

/-- The rounded correction of R39 in whole numbers, by the size of the trim and its sign. -/
theorem roundAway_trim (t : Int) :
    roundAway ((390625 / 32 : Rat) * t) = t.sign * ((390625 * t.natAbs + 16) / 32 : Nat) := by
  have hfloor (m : Int) : ((390625 / 32 : Rat) * m + 1 / 2).floor = (390625 * m + 16) / 32 := by
    have hq : ((390625 / 32 : Rat) * m + 1 / 2) * (32 : Nat) = (390625 * m + 16 : Int) := by
      push_cast
      grind
    have hbounds := floor_mul_bounds (by omega) hq
    omega
  unfold roundAway
  rcases Int.lt_or_le t 0 with ht | ht
  · have hcast : (t : Rat) < 0 := Rat.intCast_neg_iff.mpr ht
    have hneg : -((390625 / 32 : Rat) * t) = (390625 / 32 : Rat) * (-t : Int) := by
      push_cast
      grind
    rw [if_neg (by grind), hneg, hfloor, Int.sign_eq_neg_one_of_neg ht]
    omega
  · have hcast : (0 : Rat) ≤ t := Rat.intCast_nonneg.mpr ht
    rw [if_pos (by grind), hfloor]
    rcases Decidable.em (t = 0) with rfl | hne
    · rfl
    · have hpos : 0 < t := by omega
      rw [Int.sign_eq_one_of_pos hpos]
      omega

/-- INC_Q of R39 as the model computes it is the claims' integer formula. -/
theorem incQ_eq (s : State) : incQ s = incOf s.tb.trim.toInt := by
  rw [incQ, roundAway_trim, incOf]

/-! ### A cycle of the counting domain (R37, R39, R55) -/

theorem countTime_fast (h : fastRuns s = true) : countTime s =
    setTb { s.tb with fast := s.tb.fast + BitVec.ofInt 96 (2 ^ 32 + s.tb.steer.toInt), cycles := s.tb.cycles + 1 } s :=
  if_pos h

theorem countTime_asleep (h : fastRuns s = false) : countTime s =
    setTb { s.tb with acc := s.tb.acc + BitVec.ofInt 96 (incOf s.tb.trim.toInt),
                      edge := s.tb.acc + BitVec.ofInt 96 (incOf s.tb.trim.toInt), woscN := 0 } s := by
  rw [← incQ_eq]
  exact if_neg (by simp [h])

@[simp] theorem countTime_power (s : State) : (countTime s).power = s.power := by
  unfold countTime
  split <;> rfl

theorem tickTime_sameHalf (h : bit (ticks (countTime s)) 47 = bit (ticks s) 47) : tickTime s = countTime s := by
  simp [tickTime, epochBetween, h]

/-- In sleep a boundary of bit 47 is held for the wake (R55). -/
theorem tickTime_asleep (h : s.power.cur = .s2 ∨ s.power.cur = .s3) : tickTime s =
    setTb { (countTime s).tb with
      epochDue := if bit (ticks (countTime s)) 47 = bit (ticks s) 47 then (countTime s).tb.epochDue
        else some ((ticks (countTime s) >>> 47) <<< 47) } (countTime s) := by
  have hs : ¬((countTime s).power.cur = .s0 ∨ (countTime s).power.cur = .s1) := by
    rw [countTime_power]
    rcases h with h | h <;> simp [h]
  by_cases hb : bit (ticks (countTime s)) 47 = bit (ticks s) 47
  · rw [tickTime_sameHalf hb, if_pos hb]
    rfl
  · simp only [tickTime, epochBetween, if_neg hb, if_neg (Ne.symm hb), if_neg hs]

/-! ### What follows in the same cycle (R359, R418, R483) -/

theorem watchIdle_only (s : State) : watchIdle s = { s with power := (watchIdle s).power } := by
  unfold watchIdle
  repeat' split
  all_goals rfl

theorem watchArmed_only (s : State) :
    watchArmed s = { s with power := (watchArmed s).power, cnt := (watchArmed s).cnt } := by
  unfold watchArmed
  split
  · exact requestWake_only 6 s
  · rfl

theorem sendOut_only (down : Bool) (f : BFrame) (s : State) :
    sendOut down f s = { s with bgt := (sendOut down f s).bgt } := by
  unfold sendOut
  repeat' split
  all_goals rfl

theorem bgtSend_only (f : BFrame) (s : State) : bgtSend f s = { s with bgt := (bgtSend f s).bgt } := by
  unfold bgtSend
  split
  · rfl
  · split
    · exact sendOut_only _ f s
    · rfl

theorem reportChoice_only (s : State) : reportChoice s = { s with bgt := (reportChoice s).bgt } := by
  unfold reportChoice
  dsimp only
  split
  · rfl
  · exact bgtSend_only _ _

/-- Beside device time, a cycle of a running hub touches the power state, the counters and the ring's port alone. -/
theorem idleCycle_only (h : stopped s = false) : idleCycle s =
    { tickTime s with power := (idleCycle s).power, cnt := (idleCycle s).cnt, bgt := (idleCycle s).bgt } := by
  rw [idleCycle, h]
  simp only [Bool.false_eq_true, if_false]
  split
  · rw [reportChoice_only, watchIdle_only]
  · rw [watchArmed_only]

theorem step_idle (hq : s.pending = []) (h : stopped s = false) : ∃ p c g,
    step s = .next { tickTime s with power := p, cnt := c, bgt := g } :=
  ⟨_, _, _, by rw [step_nil s hq]; exact congrArg _ (idleCycle_only h)⟩

theorem fastRuns_awake (h : s.power.cur = .s0 ∨ s.power.cur = .s1) : fastRuns s = true := by
  rcases h with h | h <;> simp [fastRuns, h]

theorem fastRuns_asleep (h : s.power.cur = .s2 ∨ s.power.cur = .s3) (hh : s.tb.handed = false) : fastRuns s = false := by
  rcases h with h | h <;> simp [fastRuns, h, hh]

theorem idleCycleCounts : IdleCycleCounts := by
  intro s hq
  refine ⟨fun hs => ?stopped, fun hs hp => ?awake, fun hs hp hh => ?asleep⟩
  case stopped => rw [step_nil s hq, idleCycle, if_pos hs]
  case awake =>
    intro b hb
    have hc : countTime s = setTb b s := countTime_fast (fastRuns_awake hp)
    obtain ⟨p, c, g, hstep⟩ := step_idle hq hs
    rw [tickTime_sameHalf (by rw [hc]; exact hb), hc] at hstep
    exact ⟨_, hstep, rfl, rfl, rfl, rfl, rfl, hq⟩
  case asleep =>
    intro a b now
    have hc : countTime s = setTb b s := countTime_asleep (fastRuns_asleep hp hh)
    obtain ⟨p, c, g, hstep⟩ := step_idle hq hs
    rw [tickTime_asleep hp, hc] at hstep
    exact ⟨_, hstep, rfl, rfl, rfl, rfl, rfl, hq⟩

/-! ### The trim, the wake oscillator and the hand-over (R40, R41, R43) -/

theorem exec_trimRecomputation (hs : stopped s = false) (hf : fastRuns s = true) (delta : Nat) : ∃ v k,
    Nearest v (2 ^ 32 * ((delta : Int) - 400000000)) 400000000 ∧
    exec (.trimRecomputation delta) s = .next (
      let u := setTb { s.tb with trim := BitVec.ofInt 24 (limited 8388607 v),
                                 trimLim := decide (limited 8388607 v ≠ v) } { s with fresh := k }
      if limited 8388607 v ≠ v then raise tbLeafA 1 u else u) := by
  have hq : ((delta : Rat) / 400000000 * 2 ^ 32 - 2 ^ 32) * (400000000 : Nat) =
      (2 ^ 32 * ((delta : Int) - 400000000) : Int) := by
    push_cast
    grind
  obtain ⟨v, k, hround, hv⟩ := roundNear_nearest (by omega) hq s
  have hlim : (decide (v < -8388607) || decide (8388607 < v)) = decide (limited 8388607 v ≠ v) := by
    rw [← Bool.decide_or, decide_eq_decide, limited]
    omega
  refine ⟨v, k, hv, ?_⟩
  change execTrimRecomputation delta s = _
  simp only [execTrimRecomputation, live_running hs, hf, hround, hlim, decide_eq_true_eq]
  rfl

theorem exec_woscCalibration (hs : stopped s = false) {n : Nat} (hn : n ≠ 0) (hp : s.power.cur ≠ .s3) : ∃ v k,
    Beside v (4096 * incOf s.tb.trim.toInt * 2 ^ 24) (n * 2 ^ 32) ∧
    exec (.woscCalibration n) s = .next (setTb { s.tb with woscPer := BitVec.ofInt 32 v } { s with fresh := k }) := by
  have hpos : (0 : Rat) < n := Rat.natCast_pos.mpr (Nat.pos_of_ne_zero hn)
  have hq : 4096 * (incQ s : Rat) * 2 ^ 24 / (n * 2 ^ 32) * (n * 2 ^ 32 : Nat) =
      (4096 * incOf s.tb.trim.toInt * 2 ^ 24 : Int) := by
    rw [incQ_eq]
    push_cast
    grind
  obtain ⟨v, k, hround, hv⟩ := roundFree_beside (by omega) hq s
  refine ⟨v, k, hv, ?_⟩
  change execWoscCalibration n s = _
  simp only [execWoscCalibration, live_running hs, hn, hp, or_self, if_false, hround]

theorem exec_handOver (hs : stopped s = false) (hf : fastRuns s = false) (hw : s.power.wakeReq ≠ 0) (d : Nat) : ∃ r v k,
    Nearest r (8 * (s.tb.edge.toNat : Int) + d * 2 ^ 32) (2 ^ 35) ∧
    Beside v (8 * (s.tb.edge.toNat : Int) + d * 2 ^ 32 - r * 2 ^ 35) (2 ^ 32) ∧
    exec (.handOver d) s = .next (setTb { s.tb with
      fast := BitVec.ofInt 96 ((r + 32) * 2 ^ 32), handover := BitVec.ofInt 8 v, handed := true } { s with fresh := k }) := by
  have ha : ((s.tb.edge.toNat : Rat) / 2 ^ 32 + (d : Rat) / 8) * (2 ^ 35 : Nat) =
      (8 * (s.tb.edge.toNat : Int) + d * 2 ^ 32 : Int) := by
    push_cast
    grind
  obtain ⟨r, k, hsum, hr⟩ := roundNear_nearest (by omega) ha s
  have hb : (((s.tb.edge.toNat : Rat) / 2 ^ 32 + (d : Rat) / 8 - r) * 8) * (2 ^ 32 : Nat) =
      (8 * (s.tb.edge.toNat : Int) + d * 2 ^ 32 - r * 2 ^ 35 : Int) := by
    push_cast
    grind
  obtain ⟨v, k', hrest, hv⟩ := roundFree_beside (by omega) hb { s with fresh := k }
  refine ⟨r, v, k', hr, hv, ?_⟩
  change execHandOver d s = _
  simp only [execHandOver, live_running hs, hf, hw, Bool.false_eq_true, or_self, if_false, hsum, hrest]

theorem trimAndHandOver : TrimAndHandOver := by
  intro s hs
  refine ⟨fun delta hf => ?trim, fun n hn hp => ?period, fun d hf hw => ?handOver⟩
  case trim =>
    obtain ⟨v, k, hv, hexec⟩ := exec_trimRecomputation hs hf delta
    refine ⟨_, v, hexec, hv, ?_⟩
    by_cases hl : limited 8388607 v ≠ v
    · simp only [if_pos hl]
      rfl
    · simp only [if_neg hl]
      rfl
  case period =>
    obtain ⟨v, k, hv, hexec⟩ := exec_woscCalibration hs hn hp
    exact ⟨_, v, hexec, hv, rfl⟩
  case handOver =>
    obtain ⟨r, v, k, hr, hv, hexec⟩ := exec_handOver hs hf hw d
    exact ⟨_, r, v, hexec, hr, hv, rfl⟩

/-- Settles O15, from what a cycle of the clock does to device time and what it may do beside it, and from how far a rounded
value lies from its fraction. -/
theorem clockCounting : Obligations.ClockCounting := ⟨idleCycleCounts, trimAndHandOver⟩

end Sys2Proof.Machine
end

section
/-! SUPPORT. The timers (R61-R82): what a timer's update leaves, what a tick does where nothing watches the timer, what a capture
stores, and what the commands of TMR_CMD do. -/

namespace Sys2Proof.Machine
open Sys2Proof Sys2Proof.Claims

variable {n m : Nat} {x y : Timer} {s : State}

/-! ### A running timer is listed, so that its writes need no canonical store -/

theorem ne_default_of_running (hx : x.running = true) : x ≠ {} := by
  rintro rfl
  exact absurd hx (by decide)

theorem setTimer_setTimer (y : Timer) (hx : x.running = true) : setTimer n y (setTimer n x s) = setTimer n y s := by
  simp only [setTimer, Mem.write_write_of_ne (fun _ => ({} : Timer)) s.timers n x y (ne_default_of_running hx)]

theorem getTimer_setTimer_running (hx : x.running = true) (h : m ≠ n) : getTimer (setTimer n x s) m = getTimer s m := by
  simp only [getTimer, setTimer, Mem.write, if_neg (ne_default_of_running hx), Mem.read_insert_other _ _ _ _ _ h]

@[simp] theorem flagR_setTimer (n a : Nat) (x : Timer) (s : State) : flagR (setTimer n x s) a = flagR s a := rfl
@[simp] theorem getTimer_raise (n a i : Nat) (s : State) : getTimer (raise a i s) n = getTimer s n := rfl
@[simp] theorem tmrTop_setTimer (n m : Nat) (x : Timer) (s : State) : tmrTop (setTimer m x s) n = tmrTop s n := rfl
@[simp] theorem getTimer_icuLatch (n k : Nat) (s : State) : getTimer (icuLatch k s) n = getTimer s n := rfl
@[simp] theorem getTimer_atWosc (n w : Nat) (s : State) : getTimer (atWosc w s) n = getTimer s n := by
  unfold atWosc
  split <;> rfl
@[simp] theorem tmrDq_atWosc (n w : Nat) (s : State) : tmrDq (atWosc w s) n = tmrDq s n := by
  unfold atWosc
  split <;> rfl
@[simp] theorem tmrTop_atWosc (n w : Nat) (s : State) : tmrTop (atWosc w s) n = tmrTop s n := by
  unfold atWosc
  split <;> rfl

/-! ### What an event does that nothing looks for (R71, R74, R111, R267, R421) -/

theorem captureAll_unselected {src : Nat} (idx : Option Nat) (h : ∀ k < 32, ∀ b, capSrc s k b ≠ src) : captureAll src idx s = s := by
  refine forEach_keeps (P := (· = s)) (fun k hk t ht => ?_) rfl
  subst ht
  have hk := h k (List.mem_range.mp hk)
  simp [hk]

theorem sourceEdges_uncounted {src : Nat} (edge : Nat → State → State) (idx : Option Nat) (h : ∀ k < 32, tmrSrc s k ≠ src) :
    sourceEdges edge src idx s = s := by
  have hnone : (List.range 32).filter (fun k => tmrSrc s k = src && (idx = none || idx = some (tmrIdx s k))) = [] := by
    simp +contextual [h]
  rw [sourceEdges, hnone, forEach_nil]

theorem ringTrigger_unused {src : Nat} (idx : Nat) (h : ∀ k < 8, bits (cfgR s (bgtA + 0x80 + 4 * k)) 3 1 ≠ src) :
    ringTrigger src idx s = s := by
  have hnone : (List.range 8).filter (fun k =>
      let c := cfgR s (bgtA + 0x80 + 4 * k)
      bit c 0 && bits c 3 1 = src && bits c 12 8 = idx) = [] := by
    simp +contextual [h]
  simp only [ringTrigger, hnone, List.map_nil, List.append_nil]

theorem timerEvent_unpaced {evt : Nat} (hp : pacesSomething s n evt = false) (hw : bit (cfgR s (pwrA + 0x18)) n = false) :
    timerEvent n evt s = s := by
  have hboth := hp
  rw [pacesSomething, Bool.or_eq_false_iff, Bool.not_eq_false', List.isEmpty_iff, List.any_eq_false] at hboth
  obtain ⟨hlists, hentries⟩ := hboth
  have hpace (z : Sample) : paceLists n evt z s = s := by
    rw [paceLists, List.filter_eq_nil_iff.mpr hlists, forEach_nil]
  simp only [timerEvent, hp, hw, Bool.or_self, Bool.false_eq_true, if_false, hpace, timerTriggers, hentries, List.foldl_nil]

theorem outChanged_same {old : Bool} (edge : Nat → State → State) (h : old = timerOut s n) : outChanged edge n old s = s :=
  if_pos h

theorem timerOut_low (h : (getTimer s n).out = false) : timerOut s n = bit (cfgR s (tmrA n)) 12 := by
  simp [timerOut, h]

/-- With TMRn_HITCH zero every action that an event selects is 0, none (R74). -/
theorem hitchActions_none (a b ovf : Bool) (h : tmrHitch s n = 0) : ∀ p ∈ hitchActions s n a b ovf, p.2 = 0 := by
  have hz (hi lo : Nat) : bits (tmrHitch s n) hi lo = 0 := by simp [h, bits]
  have hevent (c : Bool) (link : Nat) : ∀ p ∈ (if c then [(n, 0), (link, 0)] else []), p.2 = 0 := by cases c <;> simp
  simp only [hitchActions, hz, List.forall_mem_append]
  exact ⟨⟨hevent a _, hevent b _⟩, hevent ovf _⟩

theorem applyHitches_none {l : List (Nat × Nat)} (h : ∀ p ∈ l, p.2 = 0) : applyHitches l s = s := by
  have hreset : l.filter (fun p => p.2 % 2 = 1) = [] := by simp +contextual [h]
  have hstart : l.filter (fun p => 2 ≤ p.2) = [] := by simp +contextual [h]
  simp only [applyHitches, hreset, hstart, List.map_nil, forEach_nil]

/-! ### The tick of an unwatched timer (R64, R65, R68) -/

theorem out_unwatched (h : Unwatched n s) : (getTimer s n).out = false := by
  obtain ⟨-, -, -, -, -, -, -, hout⟩ := h
  exact hout

theorem unwatched_setTimer (h : Unwatched n s) (hx : x.out = false) : Unwatched n (setTimer n x s) := by
  obtain ⟨hsrc, hhitch, hpace, hwake, hcyc, htrig, hmode, -⟩ := h
  exact ⟨hsrc, hhitch, hpace, hwake, hcyc, htrig, hmode, by rwa [getTimer_setTimer]⟩

theorem unwatched_icuLatch (k : Nat) (h : Unwatched n s) : Unwatched n (icuLatch k s) := h

theorem unwatched_atWosc (w : Nat) (h : Unwatched n s) : Unwatched n (atWosc w s) := by
  unfold atWosc
  split
  · exact h
  · exact h

/-- What a tick leaves where nothing watches the timer: COUNT moved on, with the interrupt source at TOP (R65, R279). -/
def ticked (n acc : Nat) (s : State) : State :=
  let m := getTimer s n
  let u := setTimer n { m with count := if m.count = tmrTop s n then 0 else m.count + 1, acc := acc } s
  if m.count = tmrTop s n then icuLatch (66 + n) u else u

theorem ticked_setAcc (n k k' : Nat) (hr : (getTimer s n).running = true) :
    ticked n k (setTimer n { getTimer s n with acc := k' } s) = ticked n k s := by
  have hx : ({ getTimer s n with acc := k' } : Timer).running = true := hr
  simp only [ticked, getTimer_setTimer, tmrTop_setTimer, setTimer_setTimer _ hx]

theorem timerEvent_unwatched (evt : Nat) (h : Unwatched n s) : timerEvent n evt s = s := by
  obtain ⟨-, -, hpace, hwake, -⟩ := h
  exact timerEvent_unpaced (hpace evt) hwake

/-- A CMP_A match of an unwatched timer, and what selects it (R71, R479). -/
theorem matchA_unwatched (h : Unwatched n s) : ringTrigger 1 n (captureAll 4 (some n) (timerEvent n 0 s)) = s := by
  have hevent := timerEvent_unwatched 0 h
  obtain ⟨hsrc, -, -, -, -, htrig, -⟩ := h
  rw [hevent, captureAll_unselected _ fun k hk b => ((hsrc k hk).2.2 b).2, ringTrigger_unused _ htrig]

/-- An overflow of an unwatched timer, and what selects it (R71, R279). -/
theorem overflow_unwatched (h : Unwatched n s) :
    icuLatch (66 + n) (captureAll 3 (some n) (timerEvent n 2 s)) = icuLatch (66 + n) s := by
  have hevent := timerEvent_unwatched 2 h
  obtain ⟨hsrc, -⟩ := h
  rw [hevent, captureAll_unselected _ fun k hk b => ((hsrc k hk).2.2 b).1]

/-- OUT of an unwatched timer is held low by its mode (R70). -/
theorem outAfter_unwatched (a b : Bool) (h : Unwatched n s) :
    outAfter (tmrOutMode s n) (getTimer s n).out a b = (getTimer s n).out := by
  have hout := out_unwatched h
  obtain ⟨-, -, -, -, -, -, hmode, -⟩ := h
  rw [hmode, hout]
  rfl

theorem cyclePorts_unwatched (h : Unwatched n s) : cyclePorts s n = [] := by
  obtain ⟨-, -, -, -, hcyc, -⟩ := h
  exact hcyc

/-- A tick that leaves the timer unwatched leaves OUT as it was (R70). -/
theorem outChanged_unwatched {t : State} (edge : Nat → State → State) (h : Unwatched n s) (ht : Unwatched n t) (hc : t.cfg = s.cfg) :
    outChanged edge n (timerOut s n) t = t := by
  refine outChanged_same edge ?_
  rw [timerOut_low (out_unwatched h), timerOut_low (out_unwatched ht), cfgR, cfgR, hc]

/-- No timer counts an overflow or a match (R61). -/
theorem cascade_unwatched (edge : Nat → State → State) (h : Unwatched n s) :
    sourceEdges edge 8 (some n) s = s ∧ sourceEdges edge 9 (some n) s = s := by
  obtain ⟨hsrc, -⟩ := h
  exact ⟨sourceEdges_uncounted edge _ fun k hk => (hsrc k hk).1, sourceEdges_uncounted edge _ fun k hk => (hsrc k hk).2.1⟩

theorem applyHitches_unwatched (a b ovf : Bool) (h : Unwatched n s) : applyHitches (hitchActions s n a b ovf) s = s := by
  obtain ⟨-, hhitch, -⟩ := h
  exact applyHitches_none (hitchActions_none a b ovf hhitch)

theorem tickTimer_unwatched (edge : Nat → State → State) (h : Unwatched n s) :
    tickTimer edge n s = ticked n (getTimer s n).acc s := by
  have hu (c : W48) : Unwatched n (setTimer n { getTimer s n with count := c } s) := unwatched_setTimer h (out_unwatched h)
  by_cases htop : (getTimer s n).count = tmrTop s n
  · have hv := unwatched_icuLatch (66 + n) (hu 0)
    simp only [tickTimer, ticked, htop, decide_true, if_true, outAfter_unwatched _ _ h, matchA_unwatched (hu _),
      timerEvent_unwatched 1 (hu _), overflow_unwatched (hu _), ite_self, cyclePorts_unwatched hv, forEach_nil,
      outChanged_unwatched edge h hv rfl, cascade_unwatched edge hv, applyHitches_unwatched _ _ _ hv]
  · simp only [tickTimer, ticked, htop, decide_false, if_false, Bool.false_eq_true, outAfter_unwatched _ _ h,
      matchA_unwatched (hu _), timerEvent_unwatched 1 (hu _), ite_self, outChanged_unwatched edge h (hu _) rfl,
      cascade_unwatched edge (hu _), applyHitches_unwatched _ _ _ (hu _)]

/-! ### The edges up to a tick (R64) -/

/-- The prescaler once the edges up to the next tick have come, and that tick has taken dq from it (R64). -/
def accAfterTick (s : State) (n : Nat) : Nat :=
  let acc := (getTimer s n).acc
  let dq := tmrDq s n
  let edges := max 1 ((dq - acc + 2 ^ 24 - 1) / 2 ^ 24)
  acc + edges * 2 ^ 24 - dq

@[simp] theorem accAfterTick_atWosc (n w : Nat) (s : State) : accAfterTick (atWosc w s) n = accAfterTick s n := by
  simp only [accAfterTick, getTimer_atWosc, tmrDq_atWosc]

/-- Where no hitch is due, the edges up to the next tick fill the prescaler and do nothing else. -/
theorem runToTick_plain (hsd : (getTimer s n).startDue = false) (hrd : (getTimer s n).resetDue = false) :
    runToTick n s = tickTimer (timerEdge cascade) n (setTimer n { getTimer s n with acc := accAfterTick s n } s) := by
  have hdue : ((getTimer s n).startDue || (getTimer s n).resetDue) = false := by rw [hsd, hrd]; rfl
  have hland : ((getTimer s n).resetDue && ticksNext s n) = false := by rw [hrd]; rfl
  simp only [runToTick, hdue, hland, Bool.false_eq_true, if_false, accAfterTick]

theorem runToTick_unwatched (h : Unwatched n s) (hr : (getTimer s n).running = true) (hsd : (getTimer s n).startDue = false)
    (hrd : (getTimer s n).resetDue = false) : runToTick n s = ticked n (accAfterTick s n) s := by
  have hu (k : Nat) : Unwatched n (setTimer n { getTimer s n with acc := k } s) := unwatched_setTimer h (out_unwatched h)
  rw [runToTick_plain hsd hrd, tickTimer_unwatched _ (hu _), getTimer_setTimer, ticked_setAcc n _ _ hr]

theorem running_of_canTick (h : canTick s n = true) : (getTimer s n).running = true := by
  simp only [canTick, Bool.and_eq_true] at h
  obtain ⟨⟨⟨-, hr⟩, -⟩, -⟩ := h
  exact hr

theorem countAtTick_plain (h : (getTimer s n).resetDue = false) : countAtTick s n = (getTimer s n).count := by
  simp [countAtTick, h]

theorem ticked_atWosc (n k w : Nat) (s : State) : ticked n k (atWosc w s) =
    let m := getTimer s n
    let u := setTimer n { m with count := if m.count = tmrTop s n then 0 else m.count + 1, acc := k } (atWosc w s)
    if m.count = tmrTop s n then setIcu (66 + n) { getIcu u (66 + n) with latch := true } u else u := by
  simp only [ticked, getTimer_atWosc, tmrTop_atWosc, icuLatch]

/-- Settles O26, from the tick that nothing watches: COUNT, the prescaler and the source of the overflow are all it changes. -/
theorem timerTicks : Obligations.TimerTicks := by
  intro n w s hs hcan hun hsd hrd m top dq c edges at_ u v
  have hrun : runToTick n (atWosc w s) = v := by
    have hm := getTimer_atWosc n w s
    have hr := running_of_canTick hcan
    rw [runToTick_unwatched (unwatched_atWosc w hun) (by rwa [hm]) (by rwa [hm]) (by rwa [hm]), accAfterTick_atWosc,
      ticked_atWosc]
    rfl
  refine ⟨?tick, ?overflow, ?arrival⟩
  case tick =>
    change execPrescalerTick n w s = _
    rw [execPrescalerTick, live_running hs, if_pos hcan, hrun]
  case overflow =>
    change execOverflow n w s = _
    rw [execOverflow, live_running hs, countAtTick_plain hrd, hrun, hcan]
    simp only [Bool.true_and, decide_eq_true_eq]
    exact (apply_ite Host.Outcome.next (m.count = top) v s).symm
  case arrival =>
    change execCmpMatch n w s = _
    rw [execCmpMatch, live_running hs, nextCount, countAtTick_plain hrd, hrun, hcan]
    simp only [Bool.true_and, Bool.or_eq_true, decide_eq_true_eq]
    exact (apply_ite Host.Outcome.next (c = wordR s (tmrA n + 0x18) ∨ c = wordR s (tmrA n + 0x20)) v s).symm

/-! ### A capture (R71-R73) -/

theorem stampWosc_awake (hp : s.power.cur = .s0 ∨ s.power.cur = .s1) : stampWosc s = stampNow s := by
  rcases hp with hp | hp <;> simp [stampWosc, hp]

theorem stampEdge_awake (hp : s.power.cur = .s0 ∨ s.power.cur = .s1) : stampEdge s = stampNow s := by
  have hw := stampWosc_awake hp
  rcases hp with hp | hp <;> simp [stampEdge, hp, hw]

theorem atWosc_awake (w : Nat) (hp : s.power.cur = .s0 ∨ s.power.cur = .s1) : atWosc w s = s := by
  rcases hp with hp | hp <;> simp [atWosc, hp]

/-- Only an edge from outside on the fast clock meets a COUNT that has moved on (log entry 65). -/
theorem capturedCount_now {b : Bool} (h : capSrc s n b = 1 ∨ capSrc s n b = 2 → tmrSrc s n ≠ 0) :
    capturedCount s n b = (getTimer s n).count := by
  refine if_neg fun hc => ?_
  simp only [Bool.and_eq_true, Bool.or_eq_true, decide_eq_true_eq] at hc
  obtain ⟨⟨⟨hpin, -⟩, -⟩, hsrc⟩ := hc
  exact h hpin hsrc

/-- What one capture of a timer holds once the timer has been captured now. -/
def withCapture (n : Nat) (b : Bool) (s : State) : Timer :=
  let m := getTimer s n
  if b then { m with capB := m.count, capTB := (ticks s).setWidth 48, capQB := qualNow s }
  else { m with capA := m.count, capTA := (ticks s).setWidth 48, capQA := qualNow s }

/-- The flag of a capture and, where it stands already, the overrun flag behind it (R73). -/
def captureFlags (b : Bool) (old : W32) : W32 :=
  let i := if b then 2 else 0
  old ||| (1#32 <<< i) ||| (if bit old i then 1#32 <<< (i + 1) else 0#32)

/-- A capture while the hub is awake: the copies, and the flags that it sets (R72, R73). -/
theorem capture_awake {b : Bool} (hp : s.power.cur = .s0 ∨ s.power.cur = .s1)
    (h : capSrc s n b = 1 ∨ capSrc s n b = 2 → tmrSrc s n ≠ 0) : capture n b s =
      let i := if b then 2 else 0
      let u := raise (tmrStatA n) i (setTimer n (withCapture n b s) s)
      if bit (flagR s (tmrStatA n)) i then raise (tmrStatA n) (i + 1) u else u := by
  have hx : (if capSrc s n b = 2 then stampEdge s else stampWosc s) = stampNow s := by
    rw [stampEdge_awake hp, stampWosc_awake hp, ite_self]
  simp only [capture, hx, capturedCount_now h]
  rfl

theorem capture_stores {b : Bool} (hp : s.power.cur = .s0 ∨ s.power.cur = .s1)
    (h : capSrc s n b = 1 ∨ capSrc s n b = 2 → tmrSrc s n ≠ 0) :
    getTimer (capture n b s) n = withCapture n b s ∧
      flagR (capture n b s) (tmrStatA n) = captureFlags b (flagR s (tmrStatA n)) ∧
      { capture n b s with timers := s.timers, flags := s.flags } = s := by
  rw [capture_awake hp h, captureFlags]
  by_cases hold : bit (flagR s (tmrStatA n)) (if b then 2 else 0) = true
  · simp only [hold, if_true]
    exact ⟨by simp, by simp, by simp⟩
  · simp only [hold, if_false, Bool.false_eq_true]
    exact ⟨by simp, by simp, by simp⟩

theorem exec_capture {b : Bool} (hs : stopped s = false) (hn : n < 32) (hp : s.power.cur = .s0 ∨ s.power.cur = .s1)
    (h : capSrc s n b = 1 ∨ capSrc s n b = 2 ∨ capSrc s n b = 6 ∨ capSrc s n b = 7) (w : Nat) :
    exec (.capture n b w) s = .next (capture n b s) := by
  change execCapture n b w s = _
  rw [execCapture, live_running hs, if_pos ⟨hn, h⟩, atWosc_awake w hp]

/-! ### The commands of TMR_CMD (R66, R71, R76, R77, R80) -/

theorem writeTmrCmd_ranger {op : Nat} (k : Nat) (hn : n < 32) : writeTmrCmd .ranger op n k s = timerCmd op n (k % 64) s := by
  rw [writeTmrCmd, if_pos rfl, Nat.mod_eq_of_lt hn]

theorem writeTmrCmd_host {path : Path} (op n k : Nat) (h : path ≠ .ranger) : writeTmrCmd path op n k s = werr s := if_neg h

theorem exec_softCapture (b : Bool) (hs : stopped s = false) (hn : n < 32) :
    exec (if b then .capB .ranger n else .capA .ranger n) s = .next (softCapture n b s) := by
  cases b
  case false =>
    change execCapA .ranger n s = _
    rw [execCapA, live_running hs, writeTmrCmd_ranger _ hn]
    rfl
  case true =>
    change execCapB .ranger n s = _
    rw [execCapB, live_running hs, writeTmrCmd_ranger _ hn]
    rfl

theorem timerCaptures : TimerCaptures := by
  intro n b s hn hs hp m x i old now done
  have hdone (h : capSrc s n b = 1 ∨ capSrc s n b = 2 → tmrSrc s n ≠ 0) : done (capture n b s) := capture_stores hp h
  refine ⟨fun w h => ?event, fun c hc => ⟨fun h5 => ?selected, fun h5 => ?other⟩⟩
  case event =>
    refine ⟨_, exec_capture hs hn hp (by omega) w, hdone fun h' => ?_⟩
    omega
  case selected =>
    refine ⟨capture n b s, ?_, hdone fun h' => ?_⟩
    · rw [hc, exec_softCapture b hs hn, softCapture, if_pos h5]
    · omega
  case other => rw [hc, exec_softCapture b hs hn, softCapture, if_neg h5]

theorem exec_start (hs : stopped s = false) (hn : n < 32) : exec (.start .ranger n) s = .next (startTimer n s) := by
  change execStart .ranger n s = _
  rw [execStart, live_running hs, writeTmrCmd_ranger _ hn]
  rfl

theorem exec_timerReset (hs : stopped s = false) (hn : n < 32) : exec (.timerReset .ranger n) s = .next (resetTimer n s) := by
  change execTimerReset .ranger n s = _
  rw [execTimerReset, live_running hs, writeTmrCmd_ranger _ hn]
  rfl

theorem exec_resetStart (hs : stopped s = false) (hn : n < 32) :
    exec (.resetStart .ranger n) s = .next (startTimer n (resetTimer n s)) := by
  change execResetStart .ranger n s = _
  rw [execResetStart, live_running hs, writeTmrCmd_ranger _ hn]
  rfl

theorem exec_stagger {k : Nat} (hs : stopped s = false) (hn : n < 32) (hk : k < 64) :
    exec (.stagger .ranger n k) s = .next (stagger n k s) := by
  change execStagger .ranger n k s = _
  rw [execStagger, live_running hs, writeTmrCmd_ranger _ hn, Nat.mod_eq_of_lt hk]
  rfl

/-- The host's commands are ignored and counted (R80). -/
theorem exec_hostCommand {path : Path} {k : Nat} (hs : stopped s = false) (h : path ≠ .ranger) {c : Instr}
    (hc : c ∈ [Instr.start path n, .timerReset path n, .resetStart path n, .stagger path n k, .capA path n, .capB path n]) :
    exec c s = .next (werr s) := by
  have hwrite (op k : Nat) : live s (.next (writeTmrCmd path op n k s)) = .next (werr s) := by
    rw [live_running hs, writeTmrCmd_host op n k h]
  simp only [List.mem_cons, List.not_mem_nil, or_false] at hc
  rcases hc with rfl | rfl | rfl | rfl | rfl | rfl
  · exact hwrite 1 0
  · exact hwrite 2 0
  · exact hwrite 3 0
  · exact hwrite 4 k
  · exact hwrite 5 0
  · exact hwrite 6 0

theorem startTimer_running (h : (getTimer s n).running = true) : startTimer n s = s := if_pos h

theorem startTimer_idle (h : (getTimer s n).running = false) :
    startTimer n s = setTimer n { getTimer s n with running := true, acc := 0, out := false } s := by
  rw [startTimer, h, if_neg Bool.false_ne_true]

theorem timerOnly_setTimer (n : Nat) (x : Timer) (s : State) : timerOnly n x s (setTimer n x s) :=
  ⟨getTimer_setTimer s n x, rfl, fun hw m h => getTimer_setTimer_other s n m x h hw⟩

theorem timerOnly_setTimer_setTimer (n : Nat) (x y : Timer) (s : State) : timerOnly n y s (setTimer n y (setTimer n x s)) := by
  refine ⟨getTimer_setTimer _ n y, by simp, fun hw m h => ?_⟩
  rw [getTimer_setTimer_other _ n m y h (Mem.wf_write _ _ _ _ hw), getTimer_setTimer_other s n m x h hw]

/-- RESET_START: COUNT and the prescaler are cleared, and a timer that is not started starts with OUT low (R66, R80). -/
theorem startTimer_resetTimer (n : Nat) (s : State) : timerOnly n { getTimer s n with
      count := 0, acc := 0, running := true, out := (getTimer s n).running && (getTimer s n).out, resetDue := false,
      startDue := false } s (startTimer n (resetTimer n s)) := by
  cases hr : (getTimer s n).running
  case true =>
    rw [startTimer_running (by rw [resetTimer, getTimer_setTimer]; exact hr)]
    simp only [resetTimer, hr, Bool.true_and]
    exact timerOnly_setTimer n _ s
  case false =>
    rw [startTimer_idle (by rw [resetTimer, getTimer_setTimer]; exact hr), resetTimer, getTimer_setTimer]
    exact timerOnly_setTimer_setTimer n _ _ s

/-! ### Stagger groups (R76, R77) -/

/-- A member of a group of k timers once it is loaded with its phase (R77). -/
def staggerMember (k : Nat) (top : W48) (i : Nat) (x : Timer) : Timer :=
  let c : W48 := BitVec.ofNat 48 (staggerPhase top.toNat i k)
  { x with
    count := c, phase := c, acc := 0, running := true, out := x.running && x.out, resetDue := false, startDue := false }

/-- The first j members of a group are loaded. -/
def staggerLoads (base k j : Nat) (s : State) : State :=
  forEach (List.range j) (fun i t => setTimer (base + i) (staggerMember k (tmrTop t base) i (getTimer t (base + i))) t) s

theorem staggerLoads_succ (base k j : Nat) (s : State) : staggerLoads base k (j + 1) s =
    setTimer (base + j) (staggerMember k (tmrTop (staggerLoads base k j s) base) j (getTimer (staggerLoads base k j s) (base + j)))
      (staggerLoads base k j s) := by
  simp only [staggerLoads, forEach, List.range_succ, List.foldl_append, List.foldl_cons, List.foldl_nil]

/-- Loading a group touches the timers alone. -/
theorem staggerLoads_only (base k j : Nat) (s : State) :
    staggerLoads base k j s = { s with timers := (staggerLoads base k j s).timers } := by
  refine forEach_keeps (P := fun t => t = { s with timers := t.timers }) (fun i _ t ht => ?_) rfl
  generalize t.timers = l at ht
  subst ht
  rfl

theorem tmrTop_staggerLoads (base k j n : Nat) (s : State) : tmrTop (staggerLoads base k j s) n = tmrTop s n := by
  rw [staggerLoads_only]
  rfl

theorem getTimer_staggerLoads (base k j i : Nat) (s : State) : getTimer (staggerLoads base k j s) (base + i) =
    if i < j then staggerMember k (tmrTop s base) i (getTimer s (base + i)) else getTimer s (base + i) := by
  induction j with
  | zero => rfl
  | succ j ih =>
    rw [staggerLoads_succ, tmrTop_staggerLoads]
    by_cases hij : i = j
    · subst hij
      rw [if_neg (Nat.lt_irrefl i)] at ih
      rw [getTimer_setTimer, ih, if_pos (Nat.lt_succ_self i)]
    · rw [getTimer_setTimer_running rfl (by omega), ih]
      simp only [show i < j + 1 ↔ i < j by omega]

theorem stagger_accepted {base k : Nat} (h : staggerOk s base k = true) : stagger base k s = staggerLoads base k k s := if_pos h

theorem stagger_refused {base k : Nat} (h : staggerOk s base k = false) : stagger base k s =
    raise tmrGstatA 0 (setCnt tmrGstatA (BitVec.ofNat 32 (min 65535 ((cntR s tmrGstatA).toNat + 1))) s) := by
  rw [stagger, h, if_neg Bool.false_ne_true]

theorem timerCommands : TimerCommands := by
  intro n s hn hs m
  refine ⟨fun hr => ?again, fun hr => ?start, exec_timerReset hs hn, ⟨_, exec_resetStart hs hn, startTimer_resetTimer n s⟩,
    fun k h2 h32 hnk hagree => ?group, fun k h64 hk => ?refused, fun path k hpath c hc => exec_hostCommand hs hpath hc⟩
  case again => rw [exec_start hs hn, startTimer_running hr]
  case start => rw [exec_start hs hn, startTimer_idle hr]
  case group =>
    have hok : staggerOk s n k = true := by
      simp only [staggerOk, Bool.and_eq_true, decide_eq_true_eq, List.all_eq_true, List.mem_range]
      exact ⟨⟨h2, h32, hnk⟩, hagree⟩
    refine ⟨staggerLoads n k k s, ?_, ?_, fun i hi => ?_⟩
    · rw [exec_stagger hs hn (by omega), stagger_accepted hok]
    · rw [staggerLoads_only]
    · rw [getTimer_staggerLoads, if_pos hi]
      rfl
  case refused =>
    have hno : staggerOk s n k = false := by
      rw [staggerOk, decide_eq_false (by omega), Bool.false_and]
    rw [exec_stagger hs hn h64, stagger_refused hno]

/-- Settles O27, from what a capture stores and what each command of TMR_CMD does. -/
theorem timerCapturesAndCommands : Obligations.TimerCapturesAndCommands := ⟨timerCaptures, timerCommands⟩

end Sys2Proof.Machine
end

section
/-! SUPPORT. The sensor bus ports (R110-R123): the value of a parse rule, the entry that a port runs, what an entry leaves that
completes or fails, and how a port sees and serves ALERT_N. -/

namespace Sys2Proof.Machine
open Sys2Proof Sys2Proof.Claims

variable {p e h code : Nat} {g : SbPort} {x pace : Sample} {s : State}

/-! ### Words and counters -/

theorem satInc_eq_plusOne (v : W32) : satInc v = plusOne v := by
  have htop : v = BitVec.allOnes 32 ↔ v.toNat = 2 ^ 32 - 1 := by rw [← BitVec.toNat_inj, BitVec.toNat_allOnes]
  simp only [satInc, plusOne, htop]

/-- A number that fits its width, read in two's complement. -/
theorem signed_of_lt {k f : Nat} (hf : f < 2 ^ (k + 1)) :
    signed (k + 1) f = if 2 ^ k ≤ f then (f : Int) - 2 ^ (k + 1) else (f : Int) := by
  simp only [signed, Nat.mod_eq_of_lt hf, Nat.add_sub_cancel, Int.natCast_pow, Int.cast_ofNat_Int]
  by_cases hk : f < 2 ^ k
  · rw [if_pos hk, if_neg (Nat.not_le.mpr hk)]
  · rw [if_neg hk, if_pos (Nat.not_lt.mp hk)]

/-- The value the model forms is the one the bytes spell (R113). -/
theorem parseRule_eq_parsed (w : W48) (bs : List (BitVec 8)) : parseRule w bs = parsed w bs := by
  have hsign (u : Nat) := signed_of_lt (Nat.mod_lt u (Nat.two_pow_pos (bits w 22 18 + 1)))
  by_cases hb : bit w 17 = true
  · simp only [parseRule, parsed, ofInt, hb, if_true, true_and, hsign]
  · simp only [parseRule, parsed, ofInt, hb, if_false, false_and, Bool.false_eq_true]

@[simp] theorem getSbp_bump (n a : Nat) (s : State) : getSbp (bump a s) n = getSbp s n := rfl

theorem sbpErrF_eq (p : Nat) : sbpErrF p = if p < 4 then 4 else 3 := by
  simp only [sbpErrF, sbpTwoWire, decide_eq_true_eq]

/-- The counters of result codes 1 to 6 follow one another (R124). -/
theorem sbpCounter_twoWire (hp : p < 4) (h1 : 1 ≤ code) (h6 : code ≤ 6) : sbpCounter p code = sbpA p + (0x3C + 4 * code) := by
  simp only [sbpCounter, sbpTwoWire, decide_eq_true hp, if_true]
  have hcode : code = 1 ∨ code = 2 ∨ code = 3 ∨ code = 4 ∨ code = 5 ∨ code = 6 := by omega
  rcases hcode with rfl | rfl | rfl | rfl | rfl | rfl <;> rfl

theorem sbpCounter_fill (hp : 4 ≤ p) : sbpCounter p 7 = sbpA p + 0x40 := by
  rw [sbpCounter, sbpTwoWire, decide_eq_false (Nat.not_lt.mpr hp), if_neg Bool.false_ne_true]

/-! ### An entry's end (R113, R114, R118) -/

theorem currentEntry_poll (hr : g.running = some (.poll h x)) : currentEntry g = some (g.entry, x) := by
  rw [currentEntry, hr]

/-- The values of an entry, as its bytes spell them, reach their channels. -/
def giveParsed (e : Nat) (bs : List (BitVec 8)) (x : Sample) (s : State) : State :=
  forEach [0, 1] (fun v t =>
    if bit (pollW t e (2 + v)) 47 then sourceValue 2 (2 * e + v) (parsed (pollW t e (2 + v)) bs) x t else t) s

/-- A completed entry: its result, its count, its values, and the list goes on. -/
theorem completeEntry_eq (bs : List (BitVec 8)) : completeEntry p e bs x s =
    advanceList p e (giveParsed e bs x
      (bumpWrap (if p < 4 then sbpA p + 0x6C else sbpA p + 0x48) (setPoll e ((getPoll s e).1, 0) s))) := by
  simp only [completeEntry, pollResult, giveParsed, parseRule_eq_parsed, sbpTwoWire, decide_eq_true_eq, if_true]

/-- A failed entry once its count is made: the flag, the result with one more failure, the values refused, and the list goes on. -/
theorem failEntry_bump (a : Nat) (hc : code ≠ 0) : failEntry p e code false x (bump a s) =
    advanceList p e (refuseEntry e x (setPoll e (min 65535 ((getPoll s e).1 + 1), code)
      (raise (sbpA p + 4) (if p < 4 then 4 else 3) (bump a s)))) := by
  simp only [failEntry, pollResult, if_neg hc, sbpErrF_eq, Bool.false_eq_true, if_false]
  rfl

theorem failEntry_counted : failEntry p e code true x s = failEntry p e code false x (bump (sbpCounter p code) s) := rfl

/-- A lost attempt within RETRY is tried again (R120). -/
theorem lostAttempt_retried (hr : (getSbp s p).lost + 1 ≤ twcRetry s p) : lostAttempt p e x s =
    setSbp p { getSbp s p with lost := (getSbp s p).lost + 1 } (bump (sbpCounter p 3) s) := if_pos hr

theorem lostAttempt_failed (hr : twcRetry s p < (getSbp s p).lost + 1) : lostAttempt p e x s =
    failEntry p e 3 false x (bump (sbpCounter p 3) s) := if_neg (Nat.not_le.mpr hr)

/-! ### The commands of a list (R114-R120, R123) -/

theorem exec_listRun_poll {rest : List SbList} (hs : stopped s = false) (hpow : s.power.cur = .s0)
    (hon : (getSbp s p).state = .on) (hfree : (getSbp s p).running = none) (hq : (getSbp s p).queue = .poll h x :: rest) :
    exec (.listRun p) s = .next (setSbp p { getSbp s p with
      running := some (.poll h x), queue := rest, entry := h, lost := 0, alertEntry := none } s) := by
  change execListRun p s = _
  simp only [execListRun, live_running hs, hpow, hon, hfree, hq, ne_eq, not_true_eq_false, or_self, if_false]

/-- With nothing acknowledging its address, a command write fails as NOADR (R115, R118). -/
theorem twoWireResult_noAddress {bus : BusTrace} (hsda : bus.sdaLow = false) (herr : bus.busErr = false) (hnc : 0 < pollNc s e)
    (hack : bus.ackWrite = false) : twoWireResult s e bus = 1 := by
  simp only [twoWireResult, hsda, herr, Bool.false_and, Bool.false_eq_true, if_false, hnc, hack, and_self, if_true]

section
variable (hs : stopped s = false) (hce : currentEntry (getSbp s p) = some (e, pace))
include hs hce

/-- A transaction whose bus was free at its START (R119). -/
theorem exec_twoWireEntry {bus : BusTrace} (hp : p < 4) (hpow : s.power.cur = .s0) (hsda : bus.sdaLow = false) :
    exec (.twoWireEntry p bus) s =
      if twoWireResult s e bus = 0 then .next (completeEntry p e bus.bytes (entryStamp s e pace) s)
      else if twoWireResult s e bus = 6 ∧ twcShared s p then
        .next (lostAttempt p e (entryStamp s e pace) (bump (sbpCounter p 6) s))
      else .next (failEntry p e (twoWireResult s e bus) true (entryStamp s e pace) s) := by
  change execTwoWireEntry p bus s = _
  simp only [execTwoWireEntry, live_running hs, sbpTwoWire, decide_eq_true hp, hpow, decide_true, Bool.and_self, hce, hsda,
    Bool.false_eq_true, if_false]

theorem exec_twoWireEntry_done {bus : BusTrace} (hp : p < 4) (hpow : s.power.cur = .s0) (hsda : bus.sdaLow = false)
    (h0 : twoWireResult s e bus = 0) :
    exec (.twoWireEntry p bus) s = .next (completeEntry p e bus.bytes (entryStamp s e pace) s) := by
  rw [exec_twoWireEntry hs hce hp hpow hsda, if_pos h0]

theorem exec_twoWireEntry_failed {bus : BusTrace} (hp : p < 4) (hpow : s.power.cur = .s0) (hsda : bus.sdaLow = false)
    (hr : twoWireResult s e bus = code) (h0 : code ≠ 0) (h6 : code ≠ 6) :
    exec (.twoWireEntry p bus) s = .next (failEntry p e code true (entryStamp s e pace) s) := by
  rw [exec_twoWireEntry hs hce hp hpow hsda, hr, if_neg h0, if_neg (fun hc => h6 hc.1)]

theorem exec_serialEntry (bs : List (BitVec 8)) (hp : 4 ≤ p) (hp' : p < 8) (hpow : s.power.cur = .s0) :
    exec (.serialEntry p bs) s =
      if pollChk s e && (fillFails (pollW s e 2) bs || fillFails (pollW s e 3) bs) then
        .next (failEntry p e 7 true (entryStamp s e pace) s)
      else .next (completeEntry p e (bs.take (pollNr s e)) (entryStamp s e pace) s) := by
  change execSerialEntry p bs s = _
  simp only [execSerialEntry, live_running hs, hp, hp', hpow, and_self, decide_true, hce]

theorem exec_serialEntry_done (bs : List (BitVec 8)) (hp : 4 ≤ p) (hp' : p < 8) (hpow : s.power.cur = .s0)
    (hchk : pollChk s e = false) :
    exec (.serialEntry p bs) s = .next (completeEntry p e (bs.take (pollNr s e)) (entryStamp s e pace) s) := by
  rw [exec_serialEntry hs hce bs hp hp' hpow, hchk, Bool.false_and, if_neg Bool.false_ne_true]

theorem exec_serialEntry_failed {bs : List (BitVec 8)} (hp : 4 ≤ p) (hp' : p < 8) (hpow : s.power.cur = .s0)
    (hchk : pollChk s e = true) (hfill : fillFails (pollW s e 2) bs = true) :
    exec (.serialEntry p bs) s = .next (failEntry p e 7 true (entryStamp s e pace) s) := by
  rw [exec_serialEntry hs hce bs hp hp' hpow, hchk, hfill, Bool.true_or, Bool.true_and, if_pos rfl]

theorem exec_arbitrationLost (hp : p < 4) :
    exec (.arbitrationLost p) s = .next (lostAttempt p e (entryStamp s e pace) s) := by
  change execArbitrationLost p s = _
  simp only [execArbitrationLost, live_running hs, sbpTwoWire, decide_eq_true hp, hce]

theorem exec_strto (hp : p < 4) : exec (.strto p) s = .next (failEntry p e 4 true (entryStamp s e pace) s) := by
  change execStrto p s = _
  simp only [execStrto, live_running hs, sbpTwoWire, decide_eq_true hp, hce]

end

/-! ### ALERT_N (R121) -/

/-- A free port that watches ALERT_N and has served none yet queues the alert list. -/
theorem seeAlert_queued (hlow : (getSbp s p).alertLevel = true) (hen : twcAlertEn s p = true) (hon : (getSbp s p).state = .on)
    (hlast : (getSbp s p).lastAlert = none) (hfree : (getSbp s p).running = none) (hq : (getSbp s p).queue = []) :
    seeAlert p s = bump (sbpA p + 0x60) (setSbp p { getSbp s p with queue := [.alert (stampNow s)] } s) := by
  have hready : alertReady s p (getSbp s p) = true := by rw [alertReady, hlast]
  have hidle : alertBusy (getSbp s p) = false := by rw [alertBusy, hfree, hq]; rfl
  simp only [seeAlert, hlow, hen, hon, hready, hidle, decide_true, Bool.not_false, Bool.and_self, if_true, hq, List.nil_append]

theorem exec_alert_awake (hs : stopped s = false) (hp : p < 4) (hpow : s.power.cur = .s0) :
    exec (.alert p) s = .next (seeAlert p (setSbp p { getSbp s p with alertLevel := true } s)) := by
  change execAlert p s = _
  have hpow' (y : SbPort) : (setSbp p y s).power.cur = .s0 := hpow
  simp only [execAlert, live_running hs, sbpTwoWire, decide_eq_true hp, hpow', if_true]

/-- ALERT_N goes low at such a port while the hub is awake. -/
theorem exec_alert_queued (hs : stopped s = false) (hp : p < 4) (hpow : s.power.cur = .s0) (hen : twcAlertEn s p = true)
    (hon : (getSbp s p).state = .on) (hlast : (getSbp s p).lastAlert = none) (hfree : (getSbp s p).running = none)
    (hq : (getSbp s p).queue = []) :
    exec (.alert p) s = .next (bump (sbpA p + 0x60) (setSbp p { getSbp s p with alertLevel := true, queue := [.alert (stampNow s)] }
      (setSbp p { getSbp s p with alertLevel := true } s))) := by
  have hset : getSbp (setSbp p { getSbp s p with alertLevel := true } s) p = { getSbp s p with alertLevel := true } :=
    getSbp_setSbp s p _
  have hsee := seeAlert_queued (p := p) (s := setSbp p { getSbp s p with alertLevel := true } s) (by rw [hset]) hen
    (by rwa [hset]) (by rwa [hset]) (by rwa [hset]) (by rwa [hset])
  rw [exec_alert_awake hs hp hpow, hsee, hset]
  rfl

/-- The payload word of an alert that none answered: the port, with bit 15 set. -/
theorem pack_unanswered (p : Nat) : pack [(p, 16), (1, 15)] = BitVec.ofNat 48 (p * 2 ^ 16 + 2 ^ 15) := by
  simp only [pack, List.foldl_cons, List.foldl_nil, Nat.zero_add, Nat.one_mul]

/-- The payload word of an answered alert: the port and the address. -/
theorem pack_answered (p a : Nat) : pack [(p, 16), (a, 0)] = BitVec.ofNat 48 (p * 2 ^ 16 + a) := by
  simp only [pack, List.foldl_cons, List.foldl_nil, Nat.zero_add, Nat.pow_zero, Nat.mul_one]

section
variable (hs : stopped s = false) (hp : p < 4) (hr : (getSbp s p).running = some (.alert x)) (ha : (getSbp s p).alertEntry = none)
include hs hp hr ha

theorem exec_alertList_unanswered : exec (.alertList p none) s = .next (bump (sbpA p + 0x68) (setSbp p { getSbp s p with
    running := none, alertLevel := false,
    alertRecs := { word := BitVec.ofNat 48 (p * 2 ^ 16 + 2 ^ 15), sample := x } :: (getSbp s p).alertRecs } s)) := by
  change execAlertList p none s = _
  simp only [execAlertList, live_running hs, sbpTwoWire, decide_eq_true hp, hr, ha, pack_unanswered]

theorem exec_alertList_matched {b : BitVec 8} (he : alertEntryOf s p (b.toNat / 2) = some e) :
    exec (.alertList p (some b)) s = .next (setSbp p { getSbp s p with
      alertEntry := some e, alertLevel := false,
      alertRecs := { word := BitVec.ofNat 48 (p * 2 ^ 16 + b.toNat / 2), sample := x } :: (getSbp s p).alertRecs } s) := by
  change execAlertList p (some b) s = _
  simp only [execAlertList, live_running hs, sbpTwoWire, decide_eq_true hp, hr, ha, he, pack_answered]

end

/-- Settles O29, from what an entry leaves that completes or fails, and from how a port sees ALERT_N and serves it. That an
alert's record goes to the port's own list and to no stream is the model's choice (log entry 81). -/
theorem sensorPorts : Obligations.SensorPorts := by
  intro p s hs g
  refine ⟨fun h x rest hpow hon hfree hq => exec_listRun_poll hs hpow hon hfree hq, fun h pace e hrun hent => ?entry,
    fun hp hpow hen hon hlast hfree hq => ?alert,
    fun x hp hrun ha => ⟨exec_alertList_unanswered hs hp hrun ha, fun b e he => exec_alertList_matched hs hp hrun ha he⟩⟩
  case entry =>
    have hce : currentEntry (getSbp s p) = some (e, pace) := by rw [currentEntry_poll hrun, hent]
    intro x done failed
    refine ⟨fun bus hp hpow hsda => ⟨fun h0 => ?twoWireDone, fun r hr hcode => ?twoWireFailed,
        fun herr hnc hack => twoWireResult_noAddress hsda herr hnc hack⟩,
      fun bs hp hp' hpow hchk => ?serialDone, fun bs hp hp' hpow hchk hfill => ?serialFailed,
      fun hp hlost => ?retried, fun hp hlost => ?arbitrationFailed, fun hp => ?stretched⟩
    case twoWireDone =>
      rw [exec_twoWireEntry_done hs hce hp hpow hsda h0, completeEntry_eq, if_pos hp]
      rfl
    case twoWireFailed =>
      have hr' : 1 ≤ r.1 ∧ r.1 ≤ 5 ∧ r.2 = 0x3C + 4 * r.1 := by
        simp only [List.mem_cons, List.not_mem_nil, or_false] at hr
        rcases hr with rfl | rfl | rfl <;> decide
      obtain ⟨h1, h5, hofs⟩ := hr'
      rw [exec_twoWireEntry_failed hs hce hp hpow hsda hcode (by omega) (by omega), failEntry_counted,
        sbpCounter_twoWire hp h1 (by omega), ← hofs, failEntry_bump _ (by omega)]
      rfl
    case serialDone =>
      rw [exec_serialEntry_done hs hce bs hp hp' hpow hchk, completeEntry_eq, if_neg (Nat.not_lt.mpr hp)]
      rfl
    case serialFailed =>
      rw [exec_serialEntry_failed hs hce hp hp' hpow hchk hfill, failEntry_counted, sbpCounter_fill hp,
        failEntry_bump _ (by decide)]
      rfl
    case retried =>
      rw [exec_arbitrationLost hs hce hp, lostAttempt_retried hlost, sbpCounter_twoWire hp (by decide) (by decide)]
    case arbitrationFailed =>
      rw [exec_arbitrationLost hs hce hp, lostAttempt_failed hlost, sbpCounter_twoWire hp (by decide) (by decide),
        failEntry_bump _ (by decide)]
      rfl
    case stretched =>
      rw [exec_strto hs hce hp, failEntry_counted, sbpCounter_twoWire hp (by decide) (by decide),
        failEntry_bump _ (by decide)]
      rfl
  case alert =>
    refine ⟨_, exec_alert_queued hs hp hpow hen hon hlast hfree hq, ?port, ?count, ?frame⟩
    case port => rw [getSbp_bump, getSbp_setSbp]
    case count =>
      rw [cntR_bump, satInc_eq_plusOne]
      rfl
    case frame => simp only [bump, setCnt, setSbp]

end Sys2Proof.Machine
end

section
/-! SUPPORT. The event outputs (R133-R135): the output that a clear mask selects, the journal entry of a latch, and what an output
does in each mode. -/

namespace Sys2Proof.Machine
open Sys2Proof

variable {n : Nat} {s : State}

/-- The blocks run in the phase RUNNING (R31). -/
theorem blocksRun_of_running (h : s.phase = .running) : blocksRun s = true := by simp [blocksRun, h]

/-- The mask that OPI_EVO_CLR takes from the word with bit n alone. -/
theorem bits_evoMask (hn : n < 8) : bits (1#32 <<< n) 7 0 = 2 ^ n := by
  revert n
  decide

/-- The event outputs under the mask with bit n alone. -/
theorem filter_testBit_evoMask (hn : n < 8) : (List.range 8).filter (fun m => (2 ^ n).testBit m) = [n] := by
  revert n
  decide

/-! ### The journal entry of a latch (R133) -/

theorem pack_latchEntry (n set src idx : Nat) :
    pack [(n, 40), (set, 8), (src, 5), (idx, 0)] = BitVec.ofNat 48 (n * 2 ^ 40 + set * 2 ^ 8 + src * 2 ^ 5 + idx) := by
  simp only [pack, List.foldl_cons, List.foldl_nil, Nat.zero_add, Nat.pow_zero, Nat.mul_one]

theorem evoJournal_set (n : Nat) (s : State) : evoJournal n true s = journal 0x13 (stampNow s)
    [BitVec.ofNat 48 (n * 2 ^ 40 + 2 ^ 8 + evoSrc s n * 2 ^ 5 + evoIdx s n)] s := by
  rw [evoJournal, pack_latchEntry, b2n, if_pos rfl, Nat.one_mul]

theorem evoJournal_cleared (n : Nat) (s : State) : evoJournal n false s = journal 0x13 (stampNow s)
    [BitVec.ofNat 48 (n * 2 ^ 40 + evoSrc s n * 2 ^ 5 + evoIdx s n)] s := by
  rw [evoJournal, pack_latchEntry, b2n, if_neg Bool.false_ne_true, Nat.zero_mul, Nat.add_zero]

/-! ### The end of a pulse and the clear of a latch (R135) -/

theorem exec_pulseEnd (hs : stopped s = false) : exec (.pulseEnd n) s =
    if n < 8 ∧ evoMode s n = 2 ∧ (getEvo s n).pulse ∧ blocksRun s then
      .next (setEvo n { getEvo s n with pulse := false, active := false } s)
    else .next s :=
  live_running hs _

theorem exec_opiEvoClr_ranger (hs : stopped s = false) (v : W32) :
    exec (.opiEvoClr .ranger v) s = .next (evoClear (bits v 7 0) s) :=
  live_running hs _

theorem exec_opiEvoClr_host {path : Path} (hs : stopped s = false) (hp : path ≠ .ranger) (v : W32) :
    exec (.opiEvoClr path v) s = .next (werr s) :=
  (live_running hs _).trans (if_neg hp)

theorem evoClear_single (hn : n < 8) : evoClear (2 ^ n) s =
    if evoMode s n = 1 ∧ (getEvo s n).latch ∧ blocksRun s then
      evoJournal n false (setEvo n { getEvo s n with latch := false, active := false } s)
    else s := by
  rw [evoClear, filter_testBit_evoMask hn, forEach_cons, forEach_nil]

/-! ### An output and its source (R134, R135) -/

section
variable (hd : (getEvo s n).driven = true) (hb : blocksRun s = true)
include hd hb

theorem evoFollow_level (hm : evoMode s n = 0) :
    evoFollow n s = setEvo n { getEvo s n with source := evoSource s n, active := evoSource s n } s := by
  simp [evoFollow, hd, hb, hm]

theorem evoFollow_latch_sets (hm : evoMode s n = 1) (hlow : (getEvo s n).source = false) (hclear : (getEvo s n).latch = false)
    (hrise : evoSource s n = true) : evoFollow n s =
      evoJournal n true (setEvo n { getEvo s n with source := true, latch := true, active := true } s) := by
  simp [evoFollow, hd, hb, hm, hlow, hclear, hrise]

end

/-- Settles O31, from what the end of a pulse, a clear of the one output n and the source's level make of it in each mode. -/
theorem eventOutputs : Obligations.EventOutputs := by
  intro n s hn hs hrun o mode
  have hb := blocksRun_of_running hrun
  have hclr : exec (.opiEvoClr .ranger (1#32 <<< n)) s = .next (evoClear (2 ^ n) s) := by
    rw [exec_opiEvoClr_ranger hs, bits_evoMask hn]
  refine ⟨fun hm hp => ?pulseEnds, fun h => ?noPulse, fun hm hl => ?latchClears, fun h => ?noLatch,
    fun path v hp => exec_opiEvoClr_host hs hp v, fun hm hd => evoFollow_level hd hb hm,
    fun hm hd hlow hclear hrise => ?latchSets⟩
  case pulseEnds => rw [exec_pulseEnd hs, if_pos ⟨hn, hm, hp, hb⟩]
  case noPulse =>
    rw [exec_pulseEnd hs, if_neg fun ⟨_, hm, hp, _⟩ => h.elim (· hm) (Bool.eq_false_iff.mp · hp)]
  case latchClears =>
    rw [hclr, evoClear_single hn, if_pos ⟨hm, hl, hb⟩, evoJournal_cleared]
    rfl
  case noLatch =>
    rw [hclr, evoClear_single hn, if_neg fun ⟨hm, hl, _⟩ => h.elim (· hm) (Bool.eq_false_iff.mp · hl)]
  case latchSets =>
    rw [evoFollow_latch_sets hd hb hm hlow hclear hrise, evoJournal_set]
    rfl

end Sys2Proof.Machine
end

section
/-! SUPPORT. The state of the trunk ports: what the update of one port leaves, and the counts and flags that pass it by. -/

namespace Sys2Proof.Machine
open Sys2Proof Sys2Proof.Claims

variable {n : Nat} {s t : State}

/-- From s to t nothing has moved but trunk port n; the other ports of a store in its canonical form are as they were. -/
def PortMoved (n : Nat) (s t : State) : Prop :=
  { t with hws := s.hws } = s ∧
  (Mem.wf (fun _ => {}) s.hws = true → Mem.wf (fun _ => {}) t.hws = true ∧ ∀ m, m ≠ n → getHws t m = getHws s m)

theorem portMoved_refl (n : Nat) (s : State) : PortMoved n s s := ⟨rfl, fun hw => ⟨hw, fun _ _ => rfl⟩⟩

theorem PortMoved.write (h : PortMoved n s t) (x : Hws) : PortMoved n s (setHws n x t) := by
  obtain ⟨honly, hother⟩ := h
  refine ⟨honly, fun hw => ?_⟩
  obtain ⟨hwt, hm⟩ := hother hw
  exact ⟨Mem.wf_write _ _ _ _ hwt, fun m hne => (getHws_setHws_other _ n m x hne hwt).trans (hm m hne)⟩

theorem PortMoved.trunkOnly_setHws (h : PortMoved n s t) (x : Hws) : trunkOnly n x s (setHws n x t) := by
  obtain ⟨honly, hother⟩ := h.write x
  exact ⟨getHws_setHws _ n x, honly, fun hw => (hother hw).2⟩

theorem trunkOnly_setHws (n : Nat) (x : Hws) (s : State) : trunkOnly n x s (setHws n x s) :=
  (portMoved_refl n s).trunkOnly_setHws x

/-- A port written twice holds the second value. -/
theorem trunkOnly_setHws_setHws (n : Nat) (x y : Hws) (s : State) : trunkOnly n y s (setHws n y (setHws n x s)) :=
  ((portMoved_refl n s).write x).trunkOnly_setHws y

@[simp] theorem getHws_bump (n a : Nat) (s : State) : getHws (bump a s) n = getHws s n := rfl
@[simp] theorem getHws_raise (n a i : Nat) (s : State) : getHws (raise a i s) n = getHws s n := rfl
@[simp] theorem setHws_bump (n a : Nat) (x : Hws) (s : State) : setHws n x (bump a s) = bump a (setHws n x s) := rfl

/-- A count leaves every other counter as it was, in any store: the new value is never 0. -/
theorem cntR_bump_other {a b : Nat} (h : b ≠ a) (s : State) : cntR (bump a s) b = cntR s b := by
  have hne : satInc (cntR s a) ≠ 0 := by
    rw [ne_eq, ← BitVec.toNat_inj, satInc_toNat]
    simp
  have hput : (bump a s).cnt = Mem.insert s.cnt a (satInc (cntR s a)) := if_neg hne
  rw [cntR, cntR, hput, Mem.read_insert_other _ _ _ _ _ h]

@[simp] theorem cntR_raise (a b i : Nat) (s : State) : cntR (raise a i s) b = cntR s b := rfl
@[simp] theorem flagR_bump (a b : Nat) (s : State) : flagR (bump a s) b = flagR s b := rfl
@[simp] theorem cntR_setHws (n a : Nat) (x : Hws) (s : State) : cntR (setHws n x s) a = cntR s a := rfl
@[simp] theorem flagR_setHws (n a : Nat) (x : Hws) (s : State) : flagR (setHws n x s) a = flagR s a := rfl

end Sys2Proof.Machine
end

section
/-! SUPPORT. Bits and bytes of the trunk's data field (R144, R149): bytes spell their bits, and scrambling undoes itself. -/

namespace Sys2Proof.Machine
open Sys2Proof

/-! ### Bits of a value -/

theorem ofBits_concat (l : List Bool) (b : Bool) : ofBits (l ++ [b]) = 2 * ofBits l + b.toNat := by
  simp [ofBits, Bool.toNat, Bool.cond_eq_ite]

/-- The k leading bits of a value spell its upper part. -/
theorem ofBits_leading {w : Nat} (v : BitVec w) {k : Nat} (hk : k ≤ w) :
    ofBits ((List.range k).map (fun i => v.getLsbD (w - 1 - i))) = v.toNat >>> (w - k) := by
  induction k with
  | zero =>
    rw [Nat.sub_zero, Nat.shiftRight_eq_div_pow, Nat.div_eq_of_lt v.isLt]
    rfl
  | succ k ih =>
    have hlast : (v.getLsbD (w - 1 - k)).toNat = v.toNat >>> (w - 1 - k) % 2 := by
      rw [Nat.shiftRight_eq_div_pow, ← Nat.toNat_testBit]
      rfl
    have hshift : v.toNat >>> (w - k) = v.toNat >>> (w - 1 - k) / 2 := by
      rw [show w - k = w - 1 - k + 1 by omega, Nat.shiftRight_succ]
    rw [List.range_succ, List.map_append, List.map_singleton, ofBits_concat, ih (by omega), hlast, hshift,
      show w - (k + 1) = w - 1 - k by omega]
    omega

theorem ofBits_msbBits {w : Nat} (v : BitVec w) : ofBits (msbBits v) = v.toNat := by
  rw [msbBits, ofBits_leading v (Nat.le_refl w), Nat.sub_self, Nat.shiftRight_zero]

@[simp] theorem length_msbBits {w : Nat} (v : BitVec w) : (msbBits v).length = w := by simp [msbBits]

/-- Eight bits are those of the byte they spell. -/
theorem msbBits_ofBits {l : List Bool} (h : l.length = 8) : msbBits (BitVec.ofNat 8 (ofBits l)) = l := by
  have hall : ∀ a b c d e f g h : Bool, msbBits (BitVec.ofNat 8 (ofBits [a, b, c, d, e, f, g, h])) = [a, b, c, d, e, f, g, h] := by
    decide
  match l, h with
  | [a, b, c, d, e, f, g, h], _ => exact hall a b c d e f g h

/-! ### Bytes of a bit list -/

theorem bytesOfBits_append {l : List Bool} (h : l.length = 8) (r : List Bool) :
    bytesOfBits (l ++ r) = BitVec.ofNat 8 (ofBits l) :: bytesOfBits r := by
  have hlen : (l ++ r).length / 8 = r.length / 8 + 1 := by rw [List.length_append, h]; omega
  rw [bytesOfBits, hlen, List.range_succ_eq_map, List.map_cons, List.map_map, bytesOfBits]
  congr 1
  · rw [Nat.mul_zero, List.drop_zero, ← h, List.take_left]
  · refine List.map_congr_left fun i _ => ?_
    rw [Function.comp_apply, Nat.succ_eq_add_one, Nat.mul_add, Nat.mul_one, Nat.add_comm, ← List.drop_drop, ← h, List.drop_left, h]

theorem byteBits_cons (b : BitVec 8) (bs : List (BitVec 8)) : byteBits (b :: bs) = msbBits b ++ byteBits bs := List.flatMap_cons

@[simp] theorem length_byteBits (bs : List (BitVec 8)) : (byteBits bs).length = 8 * bs.length := by
  induction bs with
  | nil => rfl
  | cons b bs ih => rw [byteBits_cons, List.length_append, length_msbBits, ih, List.length_cons]; omega

@[simp] theorem length_bytesOfBits (l : List Bool) : (bytesOfBits l).length = l.length / 8 := by simp [bytesOfBits]

/-- Bytes before further bits come out as they went in. -/
theorem bytesOfBits_byteBits_append (bs : List (BitVec 8)) (r : List Bool) : bytesOfBits (byteBits bs ++ r) = bs ++ bytesOfBits r := by
  induction bs with
  | nil => rfl
  | cons b bs ih =>
    rw [byteBits_cons, List.append_assoc, bytesOfBits_append (length_msbBits b), ih, ofBits_msbBits, BitVec.ofNat_toNat,
      BitVec.setWidth_eq, List.cons_append]

/-- Whole bytes of bits come back as the bits they were. -/
theorem byteBits_bytesOfBits {k : Nat} {l : List Bool} (h : l.length = 8 * k) : byteBits (bytesOfBits l) = l := by
  induction k generalizing l with
  | zero => rw [List.eq_nil_of_length_eq_zero h]; rfl
  | succ k ih =>
    have htake : (l.take 8).length = 8 := by rw [List.length_take]; omega
    have hdrop : (l.drop 8).length = 8 * k := by rw [List.length_drop]; omega
    calc byteBits (bytesOfBits l) = byteBits (bytesOfBits (l.take 8 ++ l.drop 8)) := by rw [List.take_append_drop]
      _ = l.take 8 ++ l.drop 8 := by rw [bytesOfBits_append htake, byteBits_cons, msbBits_ofBits htake, ih hdrop]
      _ = l := List.take_append_drop 8 l

/-! ### The data scrambler (R144) -/

@[simp] theorem length_scrBits (k : Nat) (x : BitVec 7) : (scrBits k x).length = k := by
  induction k generalizing x with
  | zero => rfl
  | succ k ih => rw [scrBits, List.length_cons, ih]

@[simp] theorem length_scramble (node : Nat) (l : List Bool) : (scramble node l).length = l.length := by simp [scramble]

/-- XOR with the same sequence twice is no change. -/
theorem map_xor_zip_twice {l q : List Bool} (h : l.length = q.length) :
    (((l.zip q).map (fun p => p.1 != p.2)).zip q).map (fun p => p.1 != p.2) = l := by
  induction l generalizing q with
  | nil => rfl
  | cons b l ih =>
    cases q with
    | nil => cases h
    | cons c q =>
      simp only [List.zip_cons_cons, List.map_cons, ih (Nat.succ.inj h)]
      cases b <;> cases c <;> rfl

theorem scramble_scramble (node : Nat) (l : List Bool) : scramble node (scramble node l) = l := by
  conv => lhs; rw [scramble, length_scramble, scramble]
  exact map_xor_zip_twice (length_scrBits _ _).symm

/-- A data field as it is sent: payload and CRC-24, scrambled (R149). -/
def sentField (node : Nat) (p : List (BitVec 8)) (c : BitVec 24) : List (BitVec 8) :=
  bytesOfBits (scramble node (byteBits p ++ msbBits c))

theorem length_sentField (node : Nat) (p : List (BitVec 8)) (c : BitVec 24) : (sentField node p c).length = p.length + 3 := by
  simp [sentField]
  omega

/-- The receiver's scrambler gives the payload back, with the bytes of the CRC behind it. -/
theorem descrambled_sentField (node : Nat) (p : List (BitVec 8)) (c : BitVec 24) :
    bytesOfBits (scramble node (byteBits (sentField node p c))) = p ++ bytesOfBits (msbBits c) := by
  have hlen : (scramble node (byteBits p ++ msbBits c)).length = 8 * (p.length + 3) := by
    rw [length_scramble, List.length_append, length_byteBits, length_msbBits]
    omega
  rw [sentField, byteBits_bytesOfBits hlen, scramble_scramble, bytesOfBits_byteBits_append]

/-- The bytes of a CRC-24 spell it. -/
theorem ofBits_bytes_crc24 (c : BitVec 24) : ofBits (byteBits (bytesOfBits (msbBits c))) = c.toNat := by
  rw [byteBits_bytesOfBits (k := 3) (length_msbBits c), ofBits_msbBits]

end Sys2Proof.Machine
end

section
/-! SUPPORT. Reception on a trunk (R148, R153, R155, R158, R159): what a lock, a header, a packet and a capture make of the port. -/

namespace Sys2Proof.Machine
open Sys2Proof Sys2Proof.Claims

variable {n : Nat} {s : State} {l : HLock} {h : BitVec 62}

/-! ### Errors and good packets -/

theorem rxError_eq (n i : Nat) (s : State) : rxError n i s = raise (hwsA n + 4) 2 (bump (hwsA n + hwsPhyCnt i) s) := rfl

/-- A header that a node may send names a NODE of its own (R147, R170). -/
theorem nodeReserved_of_typeFromNode (ht : typeFromNode h = true) : nodeReserved h = false := by
  simp only [typeFromNode, Bool.and_eq_true, decide_eq_true_eq] at ht
  exact decide_eq_false (by omega)

/-- The packet that the link finds in the port's inbox. -/
def packetOf (l : HLock) (h : BitVec 62) (payload : List (BitVec 8)) (snr : List Int) : HPkt :=
  { hdr := h, payload := payload, stamp := l.stamp, snr := snr, captured := l.captured }

theorem packetGood_node (payload : List (BitVec 8)) (snr : List Int) (ht : typeFromNode h = true) (s : State) :
    packetGood n l h payload snr s = bump (hwsA n + 0x44) (setHws n
      { getHws s n with lock := none, inbox := (getHws s n).inbox ++ [packetOf l h payload snr] }
      (setHws n { getHws s n with lock := none } s)) := by
  simp only [packetGood, if_pos ht, hwsCount, setHws_bump, getHws_bump, getHws_setHws]
  rfl

/-- A failed CRC-24 is remembered for its node (R184). -/
theorem noteCrcFail_lockEnded (m : Nat) : noteCrcFail n m (setHws n { getHws s n with lock := none } s) =
    setHws n { getHws s n with
      lock := none
      nodes := Mem.write (fun _ => {}) (getHws s n).nodes m
        { getNode s n m with crcFails := ((getHws s n).cycle :: (getNode s n m).crcFails).take 2 } }
      (setHws n { getHws s n with lock := none } s) := by
  simp only [noteCrcFail, getHws_setHws]
  rfl

/-! ### False locks (R159) -/

/-- The peak it finds is in the list, and none is above it. -/
theorem bestPeak_eq_some {ps : List (Int × Sample)} {p : Int × Sample} (hp : bestPeak ps = some p) :
    p ∈ ps ∧ ∀ q ∈ ps, q.1 ≤ p.1 := by
  induction ps generalizing p with
  | nil => cases hp
  | cons a ps ih =>
    rw [bestPeak] at hp
    split at hp
    case h_1 b hb =>
      obtain ⟨hmem, hmax⟩ := ih hb
      split at hp
      case isTrue hlt =>
        cases hp
        exact ⟨List.mem_cons_of_mem _ hmem, List.forall_mem_cons.mpr ⟨Int.le_of_lt hlt, hmax⟩⟩
      case isFalse hge =>
        cases hp
        exact ⟨List.mem_cons_self, List.forall_mem_cons.mpr ⟨Int.le_refl _, fun q hq => Int.le_trans (hmax q hq) (Int.not_lt.mp hge)⟩⟩
    case h_2 hb =>
      cases hp
      cases ps with
      | nil => exact ⟨List.mem_cons_self, List.forall_mem_cons.mpr ⟨Int.le_refl _, fun _ hq => nomatch hq⟩⟩
      | cons c ps =>
        rw [bestPeak] at hb
        split at hb
        case h_1 => split at hb <;> cases hb
        case h_2 => cases hb

theorem bestPeak_eq_none {ps : List (Int × Sample)} (hp : bestPeak ps = none) : ps = [] := by
  cases ps with
  | nil => rfl
  | cons a ps =>
    rw [bestPeak] at hp
    split at hp
    case h_1 => split at hp <;> cases hp
    case h_2 => cases hp

/-- What a false lock makes of the port: the best peak it holds becomes its lock, or it hunts. -/
def relocked (s : State) (g : Hws) : Hws :=
  match bestPeak (livePeaks s g) with
  | some p => { g with lock := some { metric := p.1, stamp := p.2 }, peaks := (livePeaks s g).filter (fun q => q ≠ p) }
  | none => { g with lock := none, peaks := [] }

theorem falseLock_eq (n : Nat) (s : State) :
    falseLock n s = raise (hwsA n + 4) 4 (bump (hwsA n + 0x58) (setHws n (relocked s (getHws s n)) s)) := by
  rw [falseLock, relocked]
  cases bestPeak (livePeaks s (getHws s n)) <;> rfl

theorem relocked_none {g : Hws} (hp : livePeaks s g = []) : relocked s g = { g with lock := none, peaks := [] } := by
  rw [relocked, hp]
  rfl

theorem relocked_some {g : Hws} (hp : livePeaks s g ≠ []) : ∃ p ∈ livePeaks s g, (∀ q ∈ livePeaks s g, q.1 ≤ p.1) ∧
    (relocked s g).lock = some { metric := p.1, stamp := p.2 } := by
  cases hb : bestPeak (livePeaks s g) with
  | none => exact absurd (bestPeak_eq_none hb) hp
  | some p =>
    obtain ⟨hmem, hmax⟩ := bestPeak_eq_some hb
    exact ⟨p, hmem, hmax, by rw [relocked, hb]⟩

/-! ### The commands -/

theorem exec_lock (hs : stopped s = false) (mq : Nat) (margin metric : Int) : exec (.lock n mq margin metric) s =
    if canReceive s n && (getHws s n).lock.isNone && decide (bits (cfgR s (hwsA n + 8)) 31 16 ≤ mq) &&
        decide ((bits (cfgR s (hwsA n + 8)) 7 0 : Int) < margin) then
      .next (bump (hwsA n + 0x40) (setHws n { getHws s n with lock := some { metric := metric, stamp := rxStamp s n } } s))
    else .next s :=
  live_running hs _

theorem exec_lock_taken (hs : stopped s = false) {mq : Nat} {margin metric : Int} (hr : canReceive s n = true)
    (hl : (getHws s n).lock = none) (hmq : bits (cfgR s (hwsA n + 8)) 31 16 ≤ mq)
    (hm : (bits (cfgR s (hwsA n + 8)) 7 0 : Int) < margin) : exec (.lock n mq margin metric) s =
      .next (bump (hwsA n + 0x40) (setHws n { getHws s n with lock := some { metric := metric, stamp := rxStamp s n } } s)) := by
  rw [exec_lock hs, if_pos]
  simp only [hr, hl, Option.isNone_none, decide_eq_true hmq, decide_eq_true hm, Bool.and_self]

theorem exec_lock_below (hs : stopped s = false) {mq : Nat} {margin metric : Int}
    (hb : mq < bits (cfgR s (hwsA n + 8)) 31 16 ∨ margin ≤ (bits (cfgR s (hwsA n + 8)) 7 0 : Int)) :
    exec (.lock n mq margin metric) s = .next s := by
  rw [exec_lock hs, if_neg]
  simp only [Bool.and_eq_true, decide_eq_true_eq]
  omega

section
variable (hs : stopped s = false) (hl : (getHws s n).lock = some l)
include hs hl

section
variable (rssi : BitVec 16) (snr : List Int) (hno : l.hdr = none)
include hno

theorem exec_header : exec (.header n h rssi snr) s =
    if (headerCrc h).toNat ≠ bits h 7 0 then .next (falseLock n (rxError n 2 s))
    else if nodeReserved h then .next (rxError n 2 (setHws n { getHws s n with lock := none } s))
    else
      let l' := { l with hdr := some h }
      let u := setHws n { getHws s n with lock := some l', rssi := rssi, rssiNode := hNode h } s
      if hLen h = 0 then .next (packetGood n l' h [] snr u) else .next u := by
  change execHeader n h rssi snr s = _
  simp only [execHeader, live_running hs, hl, hno, Option.isSome_none, Bool.false_eq_true, if_false]

theorem exec_header_bad (hc : (headerCrc h).toNat ≠ bits h 7 0) :
    exec (.header n h rssi snr) s = .next (falseLock n (rxError n 2 s)) := by
  rw [exec_header hs hl rssi snr hno, if_pos hc]

section
variable (hc : (headerCrc h).toNat = bits h 7 0)
include hc

theorem exec_header_reserved (hr : nodeReserved h = true) :
    exec (.header n h rssi snr) s = .next (rxError n 2 (setHws n { getHws s n with lock := none } s)) := by
  rw [exec_header hs hl rssi snr hno, if_neg (not_not_intro hc), if_pos hr]

theorem exec_header_held (hr : nodeReserved h = false) (h0 : hLen h ≠ 0) : exec (.header n h rssi snr) s =
    .next (setHws n { getHws s n with lock := some { l with hdr := some h }, rssi := rssi, rssiNode := hNode h } s) := by
  rw [exec_header hs hl rssi snr hno, if_neg (not_not_intro hc), if_neg (Bool.eq_false_iff.mp hr)]
  exact if_neg h0

theorem exec_header_empty (ht : typeFromNode h = true) (h0 : hLen h = 0) : exec (.header n h rssi snr) s =
    .next (packetGood n { l with hdr := some h } h [] snr
      (setHws n { getHws s n with lock := some { l with hdr := some h }, rssi := rssi, rssiNode := hNode h } s)) := by
  rw [exec_header hs hl rssi snr hno, if_neg (not_not_intro hc),
    if_neg (Bool.eq_false_iff.mp (nodeReserved_of_typeFromNode ht))]
  exact if_pos h0

end
end

section
variable {p : List (BitVec 8)} {c : BitVec 24} (snr : List Int) (hh : l.hdr = some h) (hp : p.length = hLen h)
include hh hp

theorem exec_packetReceived : exec (.packetReceived n (sentField (hNode h) p c) snr) s =
    if !mapAccepted s n h then .next (rxError n 4 (setHws n { getHws s n with lock := none } s))
    else if crc24 p ≠ c then .next (rxError n 3 (noteCrcFail n (hNode h) (setHws n { getHws s n with lock := none } s)))
    else .next (packetGood n l h p snr s) := by
  change execPacketReceived n (sentField (hNode h) p c) snr s = _
  have hlen : ¬ (sentField (hNode h) p c).length ≠ p.length + 3 := not_not_intro (length_sentField _ _ _)
  have hcrc : (crc24 p).toNat ≠ c.toNat ↔ crc24 p ≠ c := by rw [ne_eq, BitVec.toNat_inj]
  simp only [execPacketReceived, live_running hs, hl, hh, ← hp, if_neg hlen, descrambled_sentField, List.take_left,
    List.drop_left, ofBits_bytes_crc24, hcrc]

theorem exec_packetReceived_good (hm : mapAccepted s n h = true) (ht : typeFromNode h = true) (hc : c = crc24 p) :
    exec (.packetReceived n (sentField (hNode h) p c) snr) s = .next (bump (hwsA n + 0x44) (setHws n
      { getHws s n with lock := none, inbox := (getHws s n).inbox ++ [packetOf l h p snr] }
      (setHws n { getHws s n with lock := none } s))) := by
  rw [exec_packetReceived hs hl snr hh hp, hm, Bool.not_true, if_neg Bool.false_ne_true, if_neg (not_not_intro hc.symm),
    packetGood_node _ _ ht]

theorem exec_packetReceived_badCrc (hm : mapAccepted s n h = true) (hc : c ≠ crc24 p) :
    exec (.packetReceived n (sentField (hNode h) p c) snr) s = .next (raise (hwsA n + 4) 2 (bump (hwsA n + 0x4C) (setHws n
      { getHws s n with
        lock := none
        nodes := Mem.write (fun _ => {}) (getHws s n).nodes (hNode h)
          { getNode s n (hNode h) with crcFails := ((getHws s n).cycle :: (getNode s n (hNode h)).crcFails).take 2 } }
      (setHws n { getHws s n with lock := none } s)))) := by
  rw [exec_packetReceived hs hl snr hh hp, hm, Bool.not_true, if_neg Bool.false_ne_true, if_pos hc.symm, noteCrcFail_lockEnded]
  rfl

theorem exec_packetReceived_noMap (hm : mapAccepted s n h = false) :
    exec (.packetReceived n (sentField (hNode h) p c) snr) s =
      .next (rxError n 4 (setHws n { getHws s n with lock := none } s)) := by
  rw [exec_packetReceived hs hl snr hh hp, hm, Bool.not_false, if_pos rfl]

end

theorem exec_receiverCapture (metric : Int) : exec (.receiverCapture n metric) s =
    if l.metric + 4 * bits (cfgR s (hwsA n)) 27 24 ≤ metric then
      let u := setHws n { getHws s n with lock := some { metric := metric, stamp := rxStamp s n, captured := l.hdr.isSome } } s
      .next (if l.hdr.isSome then raise (hwsA n + 4) 3 (bump (hwsA n + 0x54) u) else raise (hwsA n + 4) 4 (bump (hwsA n + 0x58) u))
    else .next (setHws n { getHws s n with peaks := (metric, rxStamp s n) :: livePeaks s (getHws s n) } s) := by
  change execReceiverCapture n metric s = _
  simp only [execReceiverCapture, live_running hs, hl, apply_ite Host.Outcome.next]
  rfl

end

/-- What a header that fails its CRC leaves: both counters, both flags, and the port locked again or hunting. -/
theorem falseLock_rxError (n : Nat) (s : State) : ∃ u, falseLock n (rxError n 2 s) = u ∧
    { u with hws := s.hws, cnt := s.cnt, flags := s.flags } = s ∧
    cntR u (hwsA n + 0x58) = plusOne (cntR s (hwsA n + 0x58)) ∧ cntR u (hwsA n + 0x48) = plusOne (cntR s (hwsA n + 0x48)) ∧
    flagR u (hwsA n + 4) = flagR s (hwsA n + 4) ||| 0x14 ∧ getHws u n = relocked s (getHws s n) := by
  refine ⟨_, falseLock_eq n _, ?frame, ?falseLocks, ?headerErrors, ?flags, ?port⟩
  case frame => simp only [raise, setFlags, bump, setCnt, setHws, rxError_eq]
  case falseLocks =>
    rw [cntR_raise, cntR_bump, cntR_setHws, rxError_eq, cntR_raise, cntR_bump_other (by simp [hwsPhyCnt]), satInc_eq_plusOne]
  case headerErrors =>
    rw [cntR_raise, cntR_bump_other (by simp), cntR_setHws, rxError_eq, cntR_raise]
    exact (cntR_bump _ _).trans (satInc_eq_plusOne _)
  case flags =>
    rw [flagR_raise, flagR_bump, flagR_setHws, rxError_eq, flagR_raise, flagR_bump, BitVec.or_assoc]
    rfl
  case port =>
    rw [getHws_raise, getHws_bump, getHws_setHws]
    rfl

/-- Settles O32, from what each of the receiver's four commands makes of the port. -/
theorem trunkReception : Obligations.TrunkReception := by
  intro n s hs g det
  refine ⟨fun mq margin metric hr hl => ⟨fun hmq hm => ?locks, fun hb => exec_lock_below hs hb⟩,
    fun l hl => ⟨fun h rssi snr hno => ?header, fun h p c snr hh hp => ?packet, fun metric => ⟨fun habove => ?captures, fun hbelow => ?buffered⟩⟩⟩
  case locks => exact ⟨_, trunkOnly_setHws n _ s, exec_lock_taken hs hr hl hmq hm⟩
  case header =>
    refine ⟨fun hc hr h0 => ?held, fun hc ht h0 => ?empty, fun hc hr => ?reserved, fun hc => ?bad⟩
    case held => exact ⟨_, trunkOnly_setHws n _ s, exec_header_held hs hl rssi snr hno hc hr h0⟩
    case empty =>
      have hexec := exec_header_empty hs hl rssi snr hno hc ht h0
      rw [packetGood_node _ _ ht, getHws_setHws] at hexec
      exact ⟨_, (((portMoved_refl n s).write _).write _).trunkOnly_setHws _, hexec⟩
    case reserved => exact ⟨_, trunkOnly_setHws n _ s, exec_header_reserved hs hl rssi snr hno hc hr⟩
    case bad =>
      obtain ⟨u, hu, honly, hfalse, hhdr, hflags, hport⟩ := falseLock_rxError n s
      refine ⟨u, by rw [exec_header_bad hs hl rssi snr hno hc, hu], honly, hfalse, hhdr, hflags, fun hp => ?_, fun hp => ?_⟩
      · rw [hport, relocked_none hp]
      · rw [hport]
        exact relocked_some hp
  case packet =>
    refine ⟨fun hm ht hc => ?good, fun hm hc => ?badCrc, fun hm => ?noMap⟩
    case good => exact ⟨_, trunkOnly_setHws_setHws n _ _ s, exec_packetReceived_good hs hl snr hh hp hm ht hc⟩
    case badCrc => exact ⟨_, trunkOnly_setHws_setHws n _ _ s, exec_packetReceived_badCrc hs hl snr hh hp hm hc⟩
    case noMap => exact ⟨_, trunkOnly_setHws n _ s, exec_packetReceived_noMap hs hl snr hh hp hm⟩
  case captures => exact ⟨_, trunkOnly_setHws n _ s, (exec_receiverCapture hs hl metric).trans (if_pos habove)⟩
  case buffered => exact ⟨_, trunkOnly_setHws n _ s, (exec_receiverCapture hs hl metric).trans (if_neg (Int.not_le.mpr hbelow))⟩

end Sys2Proof.Machine
end

section
/-! SUPPORT. Generation 1 transactions on a trunk (R161, R187–R189): what a poll sends, how one fails, and what a frame that comes
back makes of it. -/

namespace Sys2Proof.Machine
open Sys2Proof Sys2Proof.Claims

variable {n a : Nat} {s : State} {p : HPoll} {b : List (BitVec 8)}

/-! ### Frames -/

theorem beNat_beBytes_two {v : Nat} (hv : v < 2 ^ 16) : beNat (beBytes 2 v) = v := by
  simp only [beBytes, beNat, List.foldl_cons, List.foldl_nil, BitVec.toNat_ofNat]
  omega

theorem length_beBytes (k v : Nat) : (beBytes k v).length = k := by
  induction k with
  | zero => rfl
  | succ k ih => rw [beBytes, List.length_cons, ih]

/-- Length byte and payload of a generation 1 frame (R161). -/
def g1Body (b : List (BitVec 8)) : List (BitVec 8) := BitVec.ofNat 8 b.length :: b

/-- A frame with the CRC it carries. -/
def g1Frame (b : List (BitVec 8)) (crc : BitVec 16) : List (BitVec 8) := g1Body b ++ beBytes 2 crc.toNat

theorem g1Frame_lengthByte (hb : b.length ≤ 64) (crc : BitVec 16) : ((g1Frame b crc).getD 0 0).toNat = b.length := by
  change (BitVec.ofNat 8 b.length).toNat = b.length
  rw [BitVec.toNat_ofNat, Nat.mod_eq_of_lt (by omega)]

theorem length_g1Frame (b : List (BitVec 8)) (crc : BitVec 16) : (g1Frame b crc).length = b.length + 3 := by
  rw [g1Frame, List.length_append, length_beBytes]
  rfl

theorem take_g1Frame (b : List (BitVec 8)) (crc : BitVec 16) : (g1Frame b crc).take (b.length + 1) = g1Body b :=
  List.take_left' rfl

theorem drop_g1Frame (b : List (BitVec 8)) (crc : BitVec 16) : (g1Frame b crc).drop (b.length + 1) = beBytes 2 crc.toNat :=
  List.drop_left' rfl

theorem drop_g1Body (b : List (BitVec 8)) : (g1Body b).drop 1 = b := rfl

/-! ### Sending a poll (R161, R188) -/

@[simp] theorem getNode1_bump (n a k : Nat) (s : State) : getNode1 (bump k s) n a = getNode1 s n a := rfl

theorem setNode1_eq (n a : Nat) (x : HNode1) (s : State) : setNode1 n a x s =
    setHws n { getHws s n with nodes1 := Mem.write (fun _ => {}) (getHws s n).nodes1 a x } s := rfl

/-- The transaction that a frame sent now begins: its reference instant is the end of the sync word. -/
def sentPoll (s : State) (a cmd : Nat) (retry : Bool) : HPoll :=
  { a := a, cmd := cmd, retry := retry, due := false, ref := { stampNow s with stamp := (stampNow s).stamp + 76800 } }

theorem sendPoll_retry (n a cmd : Nat) (s : State) : sendPoll n a cmd true s =
    bump (hwsA n + 0x68) (bump (hwsA n + 0x178) (setHws n { getHws s n with poll := some (sentPoll s a cmd true) } s)) := by
  simp only [sendPoll, if_true, hwsCount, setHws_bump, getHws_bump]
  rfl

theorem sendPoll_first (n a cmd : Nat) (s : State) : sendPoll n a cmd false s =
    bump (hwsA n + 0x68) (bump (hwsA n + 0x178)
      (setHws n { getHws s n with
        nodes1 := Mem.write (fun _ => {}) (getHws s n).nodes1 a { getNode1 s n a with seq := (getNode1 s n a).seq + 1 }
        poll := some (sentPoll s a cmd false) }
      (setNode1 n a { getNode1 s n a with seq := (getNode1 s n a).seq + 1 } s))) := by
  simp only [sendPoll, Bool.false_eq_true, if_false, setNode1_eq, hwsCount, setHws_bump, getHws_bump, getHws_setHws, getNode1_bump]
  rfl

section
variable (hs : stopped s = false) (hn : n < 8) (ha : a < 8) (hpow : s.power.cur = .s0) (hon : (getHws s n).state = .on)
  (hcyc : (getHws s n).cycling = true) (hen : hwsG1En s n = true) (hex : expected1 s n a = true)
include hs hn ha hpow hon hcyc hen hex

theorem exec_g1Poll_first (hp : (getHws s n).poll = none) :
    exec (.g1Poll n a) s = .next (sendPoll n a (pollCmdOf (getNode1 s n a)) false s) := by
  change execG1Poll n a s = _
  simp [execG1Poll, live_running hs, Nat.not_le.mpr hn, Nat.not_le.mpr ha, hpow, hon, hcyc, hen, hex, hp]

theorem exec_g1Poll_again (hp : (getHws s n).poll = some p) :
    exec (.g1Poll n a) s = if p.due then .next (sendPoll n p.a p.cmd true s) else .next s := by
  change execG1Poll n a s = _
  simp [execG1Poll, live_running hs, Nat.not_le.mpr hn, Nat.not_le.mpr ha, hpow, hon, hcyc, hen, hex, hp]

end

/-! ### A transaction that fails (R187, R188) -/

theorem exec_noresp (hs : stopped s = false) (hp : (getHws s n).poll = some p) (hd : p.due = false) :
    exec (.noresp n) s = .next (pollFailed n p (bump (hwsA n + 0x17C) s)) := by
  change execNoresp n s = _
  simp only [execNoresp, live_running hs, hp, hd, Bool.false_eq_true, if_false]
  rfl

theorem pollFailed_ends (hc : p.cmd ≠ 2) (s : State) : pollFailed n p s = setHws n { getHws s n with poll := none } s := if_pos hc

theorem pollFailed_retryDue (hc : p.cmd = 2) (hr : p.retry = false) (s : State) : pollFailed n p s =
    setHws n { getHws s n with
      nodes1 := Mem.write (fun _ => {}) (getHws s n).nodes1 p.a
        { getNode1 s n p.a with retries := min 65535 ((getNode1 s n p.a).retries + 1) }
      poll := some { p with due := true } }
    (setNode1 n p.a { getNode1 s n p.a with retries := min 65535 ((getNode1 s n p.a).retries + 1) } s) := by
  simp only [pollFailed, hc, hr, ne_eq, not_true_eq_false, if_false, Bool.not_false, if_true, setNode1_eq, getHws_setHws]

/-- The stamp of what a node answers to a poll: its latency after the poll's reference instant (R188). -/
def answerStamp (x : HNode1) (p : HPoll) : Sample := { p.ref with stamp := p.ref.stamp + BitVec.ofNat 64 (400 * x.lat) }

theorem pollFailed_lost (hc : p.cmd = 2) (hr : p.retry = true) (s : State) : pollFailed n p s =
    forEach (List.range (getNode1 s n p.a).nch)
      (fun c => sourceRefused 4 (256 * n + 32 * p.a + c) (oneRefused 1 (answerStamp (getNode1 s n p.a) p)))
      (raise (hwsA n + 0x104) 5 (bump (hwsA n + 0x184) (setHws n
        { getHws s n with
          poll := none
          nodes1 := Mem.write (fun _ => {}) (getHws s n).nodes1 p.a
            { getNode1 s n p.a with failRun := (getNode1 s n p.a).failRun + 1, lost := min 65535 ((getNode1 s n p.a).lost + 1) } }
        (setHws n { getHws s n with poll := none } s)))) := by
  simp only [pollFailed, hc, hr, ne_eq, not_true_eq_false, if_false, Bool.not_true, Bool.false_eq_true, setNode1_eq, getHws_setHws]
  rfl

/-! ### A response (R161, R187–R189) -/

theorem responseMatches_read {x : HNode1} (hc : p.cmd = 2) (hl : b.length = 4 + 3 * x.nch) (haddr : (b.getD 0 0).toNat = 0x40 + p.a)
    (hcmd : b.getD 1 0 = 0x82) (hseq : b.getD 2 0 = x.seq) : responseMatches x p b = true := by
  rw [responseMatches, haddr, hcmd, hseq, hc]
  simp [hl]

section
variable (hs : stopped s = false) (hn : n < 8) (hpow : s.power.cur = .s0) (hen : hwsG1En s n = true)
  (hp : (getHws s n).poll = some p) (hd : p.due = false) (hb : b.length ≤ 64)
include hs hn hpow hen hp hd hb

/-- A frame that comes back in a transaction: good or bad by its CRC, and then an answer or a failure. -/
theorem exec_g1FrameReceived (crc : BitVec 16) : exec (.g1FrameReceived n (g1Frame b crc)) s =
      if crc16 (g1Body b) = crc ∧ responseMatches (getNode1 s n p.a) p b then .next (takeResponse n p b (bump (hwsA n + 0x60) s))
      else .next (pollFailed n p (bump (hwsA n + hwsPhyCnt (if crc16 (g1Body b) = crc then 8 else 9)) s)) := by
  change execG1FrameReceived n (g1Frame b crc) s = _
  have hcrc : (crc16 (g1Body b)).toNat = crc.toNat ↔ crc16 (g1Body b) = crc := BitVec.toNat_inj
  have hpoll (k : Nat) : (getHws (bump k s) n).poll = some p := hp
  simp only [execG1FrameReceived, live_running hs, g1Frame_lengthByte hb, take_g1Frame, drop_g1Frame, length_g1Frame, drop_g1Body,
    beNat_beBytes_two crc.isLt, hcrc, Nat.not_le.mpr hn, hpow, hen, hb, hwsCount, hpoll, hd, getNode1_bump, ne_eq,
    not_true_eq_false, Bool.not_true, Bool.false_eq_true, or_self, if_false, decide_true, Bool.true_and, Bool.and_eq_true,
    decide_eq_true_eq]
  split
  case isTrue h => rw [if_pos h.1]; rfl
  case isFalse => rfl

theorem exec_g1FrameReceived_badCrc {crc : BitVec 16} (hc : crc ≠ crc16 (g1Body b)) :
    exec (.g1FrameReceived n (g1Frame b crc)) s = .next (pollFailed n p (bump (hwsA n + 0x64) s)) := by
  rw [exec_g1FrameReceived hs hn hpow hen hp hd hb, if_neg fun h => hc h.1.symm, if_neg hc.symm]
  rfl

theorem exec_g1FrameReceived_answer (hm : responseMatches (getNode1 s n p.a) p b = true) :
    exec (.g1FrameReceived n (g1Frame b (crc16 (g1Body b)))) s = .next (takeResponse n p b (bump (hwsA n + 0x60) s)) := by
  rw [exec_g1FrameReceived hs hn hpow hen hp hd hb, if_pos ⟨rfl, hm⟩]

end

/-- A good answer to a poll gives its samples, and counts where the poll was the retry. -/
theorem takeResponse_read (hc : p.cmd = 2) (s : State) : takeResponse n p b s =
    forEach (List.range (getNode1 s n p.a).nch) (fun c => sourceValue 4 (256 * n + 32 * p.a + c)
        ((BitVec.ofNat 24 (beNat ((b.drop (4 + 3 * c)).take 3))).signExtend 48) (answerStamp (getNode1 s n p.a) p))
      (let u := setHws n { getHws s n with
          poll := none
          nodes1 := Mem.write (fun _ => {}) (getHws s n).nodes1 p.a { getNode1 s n p.a with failRun := 0 } }
        (setHws n { getHws s n with poll := none } s)
       if p.retry then bump (hwsA n + 0x180) u else u) := by
  simp only [takeResponse, hc]
  cases p.retry
  case false => simp only [if_false, Bool.false_eq_true, setNode1_eq, getHws_setHws]; rfl
  case true => simp only [if_true, setNode1_eq, hwsCount, getHws_bump, setHws_bump, getHws_setHws]; rfl

/-- Settles O36, from what a poll sends, the three ways a transaction fails, and the answer that a frame brings. -/
theorem generationOne : Obligations.GenerationOne := by
  intro n a s hn ha hs g x sent other
  refine ⟨fun hpow hon hcyc hen hex => ?polls, fun p hp hpa hd => ?transaction⟩
  case polls =>
    refine ⟨fun hp => ?first, fun p hp hpa hd => ?retry, fun p hp hd => ?running⟩
    case first =>
      have hexec := exec_g1Poll_first hs hn ha hpow hon hcyc hen hex hp
      rw [sendPoll_first] at hexec
      exact ⟨_, trunkOnly_setHws_setHws n _ _ s, hexec⟩
    case retry =>
      have hexec := exec_g1Poll_again hs hn ha hpow hon hcyc hen hex hp
      rw [if_pos hd, hpa, sendPoll_retry] at hexec
      exact ⟨_, trunkOnly_setHws n _ s, hexec⟩
    case running =>
      rw [exec_g1Poll_again hs hn ha hpow hon hcyc hen hex hp, hd, if_neg Bool.false_ne_true]
  case transaction =>
    subst hpa
    refine ⟨exec_noresp hs hp hd, fun hc => ?ends, fun hc hr => ?retryDue, fun hc hr => ?lost,
      fun b hpow hen => ⟨fun crc hbad hb => ?badCrc, fun hc hl hb haddr hcmd hseq => ?answer⟩⟩
    case ends => exact ⟨_, trunkOnly_setHws n _ s, pollFailed_ends hc s⟩
    case retryDue => exact ⟨_, trunkOnly_setHws_setHws n _ _ s, pollFailed_retryDue hc hr s⟩
    case lost => exact ⟨_, trunkOnly_setHws_setHws n _ _ s, pollFailed_lost hc hr s⟩
    case badCrc => exact exec_g1FrameReceived_badCrc hs hn hpow hen hp hd hb hbad
    case answer =>
      refine ⟨_, trunkOnly_setHws_setHws n { g with poll := none } _ s,
        (exec_g1FrameReceived_answer hs hn hpow hen hp hd hb (responseMatches_read hc hl haddr hcmd hseq)).trans ?_⟩
      rw [takeResponse_read hc]
      rfl

end Sys2Proof.Machine
end

section
/-! SUPPORT. Levels and the noise floor of a trunk port (R157): a power that reaches a level reaches every lower one, so the
search finds the level, and what a window leaves bin by bin. -/

namespace Sys2Proof.Mem

variable {α : Type} [DecidableEq α]

/-- A write of a value that is listed leaves every other key, in any store. -/
theorem read_write_other_of_ne (d : Nat → α) (m : Mem α) {a b : Nat} {v : α} (hv : v ≠ d a) (h : b ≠ a) :
    Mem.read d (Mem.write d m a v) b = Mem.read d m b := by
  rw [Mem.write, if_neg hv, read_insert_other d m a b v h]

end Sys2Proof.Mem

namespace Sys2Proof.Machine
open Sys2Proof Sys2Proof.Claims

variable {n gain : Nat} {s t : State} {x : Rat}

/-! ### Levels -/

/-- A level reached is reached one step lower too: the power of ten falls by a factor of ten. -/
theorem levelAtLeast_pred {e : Int} (h : levelAtLeast x (e + 1) = true) : levelAtLeast x e = true := by
  simp only [levelAtLeast] at h ⊢
  generalize x ^ 400 = q at h ⊢
  rcases Int.lt_or_le e 0 with he | he
  case inl =>
    rw [if_neg (Int.not_le.mpr he), decide_eq_true_eq]
    split at h
    case isTrue h0 =>
      obtain rfl : e = -1 := by omega
      have hq : (10 : Rat) ^ 0 ≤ q := of_decide_eq_true h
      have hpow : (10 : Rat) ^ 1 = 10 ^ 0 * 10 := Rat.pow_succ 10 0
      change 1 ≤ q * 10 ^ 1
      grind
    case isFalse h0 =>
      have hq : 1 ≤ q * 10 ^ (-(e + 1)).toNat := of_decide_eq_true h
      have hpow : (10 : Rat) ^ ((-(e + 1)).toNat + 1) = 10 ^ (-(e + 1)).toNat * 10 := Rat.pow_succ 10 _
      rw [show (-e).toNat = (-(e + 1)).toNat + 1 by omega, hpow]
      grind
  case inr =>
    rw [if_pos he, decide_eq_true_eq]
    rw [if_pos (by omega), decide_eq_true_eq, show (e + 1).toNat = e.toNat + 1 by omega] at h
    have hpow : (10 : Rat) ^ (e.toNat + 1) = 10 ^ e.toNat * 10 := Rat.pow_succ 10 _
    have hpos : (0 : Rat) < 10 ^ e.toNat := Rat.pow_pos (by decide)
    grind

theorem levelAtLeast_anti {d e : Int} (hde : d ≤ e) (h : levelAtLeast x e = true) : levelAtLeast x d = true := by
  obtain ⟨k, hk⟩ := Int.eq_ofNat_of_zero_le (show 0 ≤ e - d by omega)
  obtain rfl : e = d + k := by omega
  clear hde hk
  induction k with
  | zero => exact Int.add_zero d ▸ h
  | succ k ih => exact ih (levelAtLeast_pred (by rwa [Int.add_assoc]))

/-- The search ends at the last level that the power reaches, where that lies in its span. -/
theorem levelSearch_eq {off v : Int} (hat : levelAtLeast x (10 * v - 5 - off) = true)
    (habove : levelAtLeast x (10 * v + 5 - off) = false) {b : Nat} {lo : Int} (hlo : lo ≤ v) (hhi : v < lo + 2 ^ b) :
    levelSearch x off b lo = v := by
  induction b generalizing lo with
  | zero =>
    rw [levelSearch]
    omega
  | succ b ih =>
    rw [Int.pow_succ] at hhi
    simp only [levelSearch]
    split
    case isTrue hm =>
      have hle : lo + 2 ^ b ≤ v := by
        refine Int.not_lt.mp fun hlt => ?_
        rw [levelAtLeast_anti (by omega) hm] at habove
        cases habove
      exact ih hle (by omega)
    case isFalse hm =>
      have hlt : v < lo + 2 ^ b := Int.not_le.mp fun hle => hm (levelAtLeast_anti (by omega) hat)
      exact ih hlo hlt

theorem levelOf_eq {v : Int} (h : levelIs x gain v) : levelOf x gain = v := by
  obtain ⟨hlo, hhi, hat, habove⟩ := h
  exact levelSearch_eq hat habove hlo (by omega)

theorem levelReg_pos (hx : 0 < x) (gain : Nat) (s : State) : levelReg x gain s = (BitVec.ofInt 16 (levelOf x gain), s) := if_pos hx

/-! ### The bins of a window -/

/-- A_k after a window: the bin's power at the first one, and then the old value moved by the shift of NF_SHIFT. -/
def movedBin (s : State) (n : Nat) (bins : List Rat) (j : Nat) : Rat :=
  let o := Mem.read (fun _ => (0 : Rat)) (getHws s n).noise j
  if (getHws s n).noiseOn then o + (bins.getD j 0 - o) / 2 ^ hwsNfShift s n else bins.getD j 0

/-- From s to t the first k bins of port n have taken their powers of a window. -/
structure BinsMoved (n gain : Nat) (bins : List Rat) (s : State) (k : Nat) (t : State) : Prop where
  only : { t with hws := s.hws } = s
  noiseOn : (getHws t n).noiseOn = (getHws s n).noiseOn
  wf : Mem.wf (fun _ => 0) (getHws t n).nf = true
  moved : ∀ j < k, Mem.read (fun _ => (0 : Rat)) (getHws t n).noise j = movedBin s n bins j
  still : ∀ j, k ≤ j → Mem.read (fun _ => (0 : Rat)) (getHws t n).noise j = Mem.read (fun _ => (0 : Rat)) (getHws s n).noise j
  level : ∀ j < k, Mem.read (fun _ => 0) (getHws t n).nf j = BitVec.ofInt 16 (levelOf (movedBin s n bins j) gain)

theorem binsMoved_zero (bins : List Rat) (hw : Mem.wf (fun _ => 0) (getHws s n).nf = true) : BinsMoved n gain bins s 0 s where
  only := rfl
  noiseOn := rfl
  wf := hw
  moved _ hj := absurd hj (Nat.not_lt_zero _)
  still _ _ := rfl
  level _ hj := absurd hj (Nat.not_lt_zero _)

variable {bins : List Rat} {k : Nat}

/-- The next bin writes A_k and NF_k of its own entry. -/
theorem BinsMoved.noiseBin_eq (h : BinsMoved n gain bins s k t) (hpos : 0 < movedBin s n bins k) :
    noiseBin n gain k (bins.getD k 0) t = setHws n { getHws t n with
      noise := Mem.write (fun _ => 0) (getHws t n).noise k (movedBin s n bins k)
      nf := Mem.write (fun _ => 0) (getHws t n).nf k (BitVec.ofInt 16 (levelOf (movedBin s n bins k) gain)) } t := by
  have hshift : hwsNfShift t n = hwsNfShift s n := by rw [← h.only]; rfl
  have hbin : (if (getHws t n).noiseOn then Mem.read (fun _ => (0 : Rat)) (getHws t n).noise k +
      (bins.getD k 0 - Mem.read (fun _ => (0 : Rat)) (getHws t n).noise k) / 2 ^ hwsNfShift t n else bins.getD k 0) =
      movedBin s n bins k := by
    rw [h.noiseOn, h.still k (Nat.le_refl k), hshift, movedBin]
  simp only [noiseBin, hbin, levelReg_pos hpos]

theorem BinsMoved.succ (h : BinsMoved n gain bins s k t) (hpos : 0 < movedBin s n bins k) :
    BinsMoved n gain bins s (k + 1) (noiseBin n gain k (bins.getD k 0) t) := by
  have hne : movedBin s n bins k ≠ (fun _ : Nat => (0 : Rat)) k := Rat.ne_of_gt hpos
  rw [h.noiseBin_eq hpos]
  constructor <;> simp only [getHws_setHws]
  case only => exact h.only
  case noiseOn => exact h.noiseOn
  case wf => exact Mem.wf_write _ _ _ _ h.wf
  case moved =>
    intro j hj
    rcases Nat.lt_succ_iff_lt_or_eq.mp hj with hlt | rfl
    · rw [Mem.read_write_other_of_ne _ _ hne (Nat.ne_of_lt hlt), h.moved j hlt]
    · rw [Mem.read_write_same]
  case still =>
    intro j hj
    rw [Mem.read_write_other_of_ne _ _ hne (by omega), h.still j (by omega)]
  case level =>
    intro j hj
    rcases Nat.lt_succ_iff_lt_or_eq.mp hj with hlt | rfl
    · rw [Mem.read_write_other _ _ _ _ _ (Nat.ne_of_lt hlt) h.wf, h.level j hlt]
    · rw [Mem.read_write_same]

/-- The state after the first k bins of a window. -/
def binsTaken (n gain : Nat) (bins : List Rat) (k : Nat) (s : State) : State :=
  (List.range k).foldl (fun s j => noiseBin n gain j (bins.getD j 0) s) s

theorem binsMoved_binsTaken (hw : Mem.wf (fun _ => 0) (getHws s n).nf = true) (hpos : ∀ j < k, 0 < movedBin s n bins j) :
    BinsMoved n gain bins s k (binsTaken n gain bins k s) := by
  induction k with
  | zero => exact binsMoved_zero bins hw
  | succ k ih =>
    rw [binsTaken, List.range_succ, List.foldl_append]
    exact (ih fun j hj => hpos j (Nat.lt_succ_of_lt hj)).succ (hpos k (Nat.lt_succ_self k))

/-- A list beside its indices. -/
theorem range_zip_eq_map (bins : List Rat) : (List.range bins.length).zip bins =
    (List.range bins.length).map (fun j => (j, bins.getD j 0)) := by
  refine List.ext_getElem (by simp) fun i h1 h2 => ?_
  have hi : i < bins.length := by simpa using h2
  simp [List.getD_eq_getElem?_getD, hi]

theorem sum_nonneg_of_pos {l : List Rat} (h : ∀ q ∈ l, 0 < q) : 0 ≤ l.sum := by
  induction l with
  | nil => exact Rat.le_refl
  | cons q l ih =>
    obtain ⟨hq, hl⟩ := List.forall_mem_cons.mp h
    have hsum := ih hl
    rw [List.sum_cons]
    grind

theorem sum_pos_of_pos {l : List Rat} (hne : l ≠ []) (h : ∀ q ∈ l, 0 < q) : 0 < l.sum := by
  cases l with
  | nil => exact absurd rfl hne
  | cons q l =>
    obtain ⟨hq, hl⟩ := List.forall_mem_cons.mp h
    have hsum := sum_nonneg_of_pos hl
    rw [List.sum_cons]
    grind

/-- The sum of A_k over the used carriers. -/
def noiseSum (t : State) (n : Nat) : Rat := ((List.range 144).map (fun j => Mem.read (fun _ => (0 : Rat)) (getHws t n).noise j)).sum

theorem exec_noiseFloorWindow (hs : stopped s = false) (hr : canReceive s n = true) (hl : (getHws s n).lock = none)
    (hb : bins.length = 144) : exec (.noiseFloorWindow n bins gain) s =
      let t := binsTaken n gain bins 144 s
      let v := levelReg (noiseSum t n) gain t
      .next (setHws n { getHws v.2 n with nfWb := v.1, noiseOn := true } v.2) := by
  change execNoiseFloorWindow n bins gain s = _
  have hzip : (List.range 144).zip bins = (List.range 144).map (fun j => (j, bins.getD j 0)) := hb ▸ range_zip_eq_map bins
  simp only [execNoiseFloorWindow, live_running hs, hr, hl, hb, hzip, List.foldl_map, Bool.not_true, Option.isSome_none, ne_eq,
    not_true_eq_false, decide_false, Bool.or_self, Bool.false_eq_true, if_false]
  rfl

/-- A window whose powers all stay above zero: every bin takes its own, and the wide level is that of their sum. -/
theorem exec_noiseFloorWindow_pos (hs : stopped s = false) (hr : canReceive s n = true) (hl : (getHws s n).lock = none)
    (hb : bins.length = 144) (hw : Mem.wf (fun _ => 0) (getHws s n).nf = true) (hpos : ∀ j < 144, 0 < movedBin s n bins j) :
    ∃ t, BinsMoved n gain bins s 144 t ∧ exec (.noiseFloorWindow n bins gain) s = .next (setHws n { getHws t n with
      nfWb := BitVec.ofInt 16 (levelOf ((List.range 144).map (movedBin s n bins)).sum gain), noiseOn := true } t) := by
  have ht : BinsMoved n gain bins s 144 (binsTaken n gain bins 144 s) := binsMoved_binsTaken hw hpos
  have hsum : noiseSum (binsTaken n gain bins 144 s) n = ((List.range 144).map (movedBin s n bins)).sum :=
    congrArg List.sum (List.map_congr_left fun j hj => ht.moved j (List.mem_range.mp hj))
  have hsumPos : 0 < ((List.range 144).map (movedBin s n bins)).sum :=
    sum_pos_of_pos (by simp) fun q hq => by
      obtain ⟨j, hj, rfl⟩ := List.mem_map.mp hq
      exact hpos j (List.mem_range.mp hj)
  refine ⟨_, ht, ?_⟩
  rw [exec_noiseFloorWindow hs hr hl hb]
  simp only [hsum, levelReg_pos hsumPos]

/-! ### Transmission (R142, R143, R145, R149) -/

/-- The labels of a packet: its header symbol, and the data symbols of its map. -/
def sentLabels (s : State) (n : Nat) (p : HPkt) : List (List (List Bool)) :=
  let m := portMap s n (hTmap p.hdr)
  let b := mapBits s n m
  symbolLabels (dataCarriers.map (fun c => if hwsOff s n c then 0 else 1)) (headerField p.hdr) ::
    (if hLen p.hdr = 0 then []
     else packetLabels b b.sum (dataField m.rate b.sum (hNode p.hdr) p.payload) (dataSymbols m.rate b.sum (hLen p.hdr)))

theorem length_sentLabels (s : State) (n : Nat) (p : HPkt) : let m := portMap s n (hTmap p.hdr)
    (sentLabels s n p).length = 1 + dataSymbols m.rate (mapNcbps s n m) (hLen p.hdr) := by
  simp only [sentLabels, List.length_cons]
  split
  case isTrue h0 => rw [h0, dataSymbols, if_pos rfl]; rfl
  case isFalse => rw [packetLabels, List.length_map, List.length_range, mapNcbps, Nat.add_comm]

theorem portMap_setHws (m : Nat) {y : Hws} (hy : y.maps = (getHws s n).maps) : portMap (setHws n y s) n m = portMap s n m := by
  rw [portMap, getHws_setHws, hy]
  rfl

theorem transmit_dequeued (p : HPkt) (rest : List HPkt) (s : State) :
    transmit n p (setHws n { getHws s n with txQueue := rest } s) = bump (hwsA n + 0x5C) (setHws n { getHws s n with
      txQueue := rest, lock := none, txPkt := p, txLabels := sentLabels s n p
      txEnd := presentTime s p.stamp - 4608 + BitVec.ofNat 64 (packetTicks s n p.hdr) }
      (setHws n { getHws s n with txQueue := rest } s)) := by
  simp only [transmit, packetTicks, getHws_setHws, portMap_setHws]
  rfl

theorem exec_packetTransmit {p : HPkt} {rest : List HPkt} (hs : stopped s = false) (hn : n < 8) (hpow : s.power.cur = .s0)
    (hen : hwsG2En s n = true) (hq : (getHws s n).txQueue = p :: rest) :
    exec (.packetTransmit n) s = .next (bump (hwsA n + 0x5C) (setHws n { getHws s n with
      txQueue := rest, lock := none, txPkt := p, txLabels := sentLabels s n p
      txEnd := presentTime s p.stamp - 4608 + BitVec.ofNat 64 (packetTicks s n p.hdr) }
      (setHws n { getHws s n with txQueue := rest } s))) := by
  change execPacketTransmit n s = _
  simp only [execPacketTransmit, live_running hs, hq, hn, hpow, hen, and_self, if_true, transmit_dequeued]

theorem exec_packetTransmit_empty (hs : stopped s = false) (hq : (getHws s n).txQueue = []) : exec (.packetTransmit n) s = .next s := by
  change execPacketTransmit n s = _
  simp only [execPacketTransmit, live_running hs, hq]

theorem trunkSignal : TrunkSignal := by
  intro n s hs g
  refine ⟨fun p rest hq hn hpow hen => ?sends, fun hq => exec_packetTransmit_empty hs hq, fun bins gain hr hl hb hw => ?window⟩
  case sends =>
    exact ⟨_, sentLabels s n p, length_sentLabels s n p, trunkOnly_setHws_setHws n _ _ s, exec_packetTransmit hs hn hpow hen hq⟩
  case window =>
    intro a hpos
    obtain ⟨t, ht, hexec⟩ := exec_noiseFloorWindow_pos (gain := gain) hs hr hl hb hw hpos
    refine ⟨_, hexec, ht.only, ?_⟩
    rw [getHws_setHws]
    refine ⟨rfl, fun j hj => ⟨ht.moved j hj, fun v hv => ?bin⟩, fun v hv => ?wide⟩
    case bin => exact (ht.level j hj).trans (congrArg (BitVec.ofInt 16) (levelOf_eq hv))
    case wide => exact congrArg (BitVec.ofInt 16) (levelOf_eq hv)

end Sys2Proof.Machine
end

section
/-! SUPPORT. The power feed of a trunk port (R162–R164, R175): the end of the inrush, the restart, a short, and what the step
detector makes of one value. -/

namespace Sys2Proof.Machine
open Sys2Proof Sys2Proof.Claims

variable {n : Nat} {s : State}

section
variable (hs : stopped s = false) (hn : n < 8)
include hs hn

theorem exec_inrushEnd {code : Nat} (hcode : code < 1024) (hp : (getHws s n).pstate = 1) : exec (.inrushEnd n code) s =
    .next (setHws n { getHws s n with pstate := 2, base := code, code := code, onSince := ticks s } s) :=
  (live_running hs _).trans (if_pos ⟨hn, hp, hcode⟩)

theorem exec_retryRestart (hp : (getHws s n).pstate = 3) : exec (.retryRestart n) s =
    .next (setHws n { getHws s n with pwren := true, pstate := 1, armed := false, stepRun := 0 } s) :=
  (live_running hs _).trans (if_pos ⟨hn, hp⟩)

/-- The detector is armed, and its join scan starts (R162, R175). -/
theorem exec_stepDetectorArm (hp : (getHws s n).pstate = 2) (ha : (getHws s n).armed = false) : exec (.stepDetectorArm n) s =
    .next (setHws n { getHws s n with armed := true, stepRun := 0, scanLeft := bits (cfgR s (hwsA n + 0x10C)) 31 16 }
      (setHws n { getHws s n with armed := true, stepRun := 0 } s)) := by
  change execStepDetectorArm n s = _
  simp only [execStepDetectorArm, live_running hs, hn, hp, ha, Bool.not_false, and_self, if_true, startScan, getHws_setHws]
  rfl

/-- The feed goes off at a short: retried, or locked off once the restarts are used up (R163). -/
def shorted (s : State) (n : Nat) : Hws :=
  let g := getHws s n
  let last := decide (bits (cfgR s (hwsA n + 0x20)) 10 8 < shortRunNext s g)
  { g with
    pwren := false, pstate := if last then 0 else 3, shortRun := shortRunNext s g, shortLock := g.shortLock || last
    armed := false, stepRun := 0 }

theorem exec_short (hp : (getHws s n).pstate = 2) : exec (.short n) s = .next (leaveAll n (trunkEvent 3 0 n (stampNow s)
    (raise (hwsA n + 0x24) 6 (bump (hwsA n + 0x6C) (setHws n (shorted s n) s))))) :=
  (live_running hs _).trans (if_neg (by omega))

end

theorem exec_retryRestart_idle (hs : stopped s = false) (hp : (getHws s n).pstate ≠ 3) : exec (.retryRestart n) s = .next s :=
  (live_running hs _).trans (if_neg fun h => hp h.2)

theorem exec_short_idle (hs : stopped s = false) (hp : (getHws s n).pstate ≠ 2) : exec (.short n) s = .next s :=
  (live_running hs _).trans (if_pos (.inr hp))

/-! ### Current steps (R164) -/

theorem exec_currentStep_idle (hs : stopped s = false) (hp : (getHws s n).pstate ≠ 2) (x : Rat) :
    exec (.currentStep n x) s = .next s :=
  (live_running hs _).trans (if_pos (.inr (.inl hp)))

/-- A value at or above the threshold from the baseline, either way. -/
def isStep (s : State) (n : Nat) (d : Rat) : Prop :=
  (bits (cfgR s (hwsA n + 0x30)) 9 0 : Rat) ≤ d ∨ d ≤ -(bits (cfgR s (hwsA n + 0x30)) 9 0 : Rat)

theorem isStep_iff (s : State) (n : Nat) (d : Rat) :
    isStep s n d ↔ (bits (hwsR s n 0x30) 9 0 : Rat) ≤ if d < 0 then -d else d := by
  have hpos : (0 : Rat) ≤ (bits (hwsR s n 0x30) 9 0 : Rat) := Rat.natCast_nonneg
  change (bits (hwsR s n 0x30) 9 0 : Rat) ≤ d ∨ d ≤ -(bits (hwsR s n 0x30) 9 0 : Rat) ↔ _
  split
  case isTrue hneg => exact ⟨fun h => by grind, fun h => .inr (by grind)⟩
  case isFalse hge => exact ⟨fun h => by grind, .inl⟩

/-- The stamp of the first cycle in a row at or above the threshold. -/
def firstStep (s : State) (n : Nat) : Sample := if (getHws s n).stepRun = 0 then stampNow s else (getHws s n).stepStamp

section
variable {x : Rat} (hs : stopped s = false) (hn : n < 8) (hp : (getHws s n).pstate = 2) (ha : (getHws s n).armed = true)
include hs hn hp ha

theorem exec_currentStep_below (hd : ¬ isStep s n (x - (getHws s n).base)) : exec (.currentStep n x) s =
    .next (setHws n { getHws s n with
      code := x.floor.toNat % 1024, stepRun := 0
      base := (getHws s n).base + (x - (getHws s n).base) / 2 ^ bits (cfgR s (hwsA n + 0x20)) 15 12 } s) := by
  change execCurrentStep n x s = _
  simp only [execCurrentStep, live_running hs, Nat.not_le.mpr hn, hp, ha, ← isStep_iff, hd, ne_eq, not_true_eq_false, Bool.not_true,
    Bool.false_eq_true, or_self, if_false]
  rfl

theorem exec_currentStep_above (hd : isStep s n (x - (getHws s n).base)) : exec (.currentStep n x) s =
    if bits (cfgR s (hwsA n + 0x20)) 19 16 ≤ (getHws s n).stepRun + 1 then
      .next (currentStep n (decide (0 < x - (getHws s n).base)) (firstStep s n)
        (setHws n { getHws s n with code := x.floor.toNat % 1024, base := x, stepRun := 0 } s))
    else .next (setHws n { getHws s n with
      code := x.floor.toNat % 1024, stepRun := (getHws s n).stepRun + 1, stepStamp := firstStep s n } s) := by
  change execCurrentStep n x s = _
  simp only [execCurrentStep, live_running hs, Nat.not_le.mpr hn, hp, ha, ← isStep_iff, hd, ne_eq, not_true_eq_false, Bool.not_true,
    Bool.false_eq_true, or_self, if_false, if_true]
  rfl

end

/-- A step as it is counted, flagged and recorded, a positive one with its join scan, and with a wake where it may ask for one. -/
theorem currentStep_eq (n : Nat) (up : Prop) [Decidable up] (y : Sample) (s : State) :
    let v := trunkEvent (if up then 4 else 5) 0 n y (raise (hwsA n + 0x24) 5 (bump (hwsA n + 0x70) s))
    let w := if up then setHws n { getHws v n with scanLeft := bits (cfgR v (hwsA n + 0x10C)) 31 16 } v else v
    currentStep n (decide up) y s = if bit (cfgR w (hwsA n + 0x20)) 11 then requestWake 4 w else w := by
  by_cases h : up <;> simp only [currentStep, h, decide_true, decide_false, if_true, if_false, Bool.false_eq_true] <;> rfl

theorem trunkPower : TrunkPower := by
  intro n s hn hs g ctrl
  refine ⟨fun code hcode hp => ?inrush, fun hp => ?restart, exec_retryRestart_idle hs, fun hp => ?on,
    fun hp => ⟨exec_short_idle hs hp, exec_currentStep_idle hs hp⟩⟩
  case inrush => exact ⟨_, trunkOnly_setHws n _ s, exec_inrushEnd hs hn hcode hp⟩
  case restart => exact ⟨_, trunkOnly_setHws n _ s, exec_retryRestart hs hn hp⟩
  case on =>
    refine ⟨fun ha => ?arms, ?short, fun x ha => ?value⟩
    case arms => exact ⟨_, trunkOnly_setHws_setHws n _ _ s, exec_stepDetectorArm hs hn hp ha⟩
    case short => exact ⟨_, trunkOnly_setHws n (shorted s n) s, exec_short hs hn hp⟩
    case value =>
      intro d big code first
      refine ⟨fun hd => ?below, fun hd hrun => ?running, fun hd hrun => ?step⟩
      case below => exact ⟨_, trunkOnly_setHws n _ s, exec_currentStep_below hs hn hp ha hd⟩
      case running =>
        exact ⟨_, trunkOnly_setHws n _ s, (exec_currentStep_above hs hn hp ha hd).trans (if_neg (Nat.not_le.mpr hrun))⟩
      case step =>
        have hexec := (exec_currentStep_above hs hn hp ha hd).trans (if_pos hrun)
        rw [currentStep_eq] at hexec
        refine ⟨_, _, _, trunkOnly_setHws n _ s, rfl, ?scan, hexec⟩
        split
        case isTrue => exact trunkOnly_setHws n _ _
        case isFalse => rfl

/-- Settles O33, from what a packet's transmission, a window of the noise floor and each step of the feed make of the port. -/
theorem trunkSignalAndPower : Obligations.TrunkSignalAndPower := ⟨trunkSignal, trunkPower⟩

end Sys2Proof.Machine
end

section
/-! SUPPORT. The nodes of a trunk port (R177, R190): what an update leaves of them and of what is computed for them, and how a
node leaves. -/

namespace Sys2Proof.Machine
open Sys2Proof Sys2Proof.Claims

variable {n m : Nat} {s : State}

/-! ### Updates of a node and of the port -/

theorem setNode_eq (n m : Nat) (x : HNode) (s : State) : setNode n m x s =
    setHws n { getHws s n with nodes := Mem.write (fun _ => {}) (getHws s n).nodes m x } s := rfl

@[simp] theorem getNode_setNode (n m : Nat) (x : HNode) (s : State) : getNode (setNode n m x s) n m = x := by
  rw [getNode, setNode, getHws_setHws, Mem.read_write_same]

@[simp] theorem getNode_bump (n m a : Nat) (s : State) : getNode (bump a s) n m = getNode s n m := rfl
@[simp] theorem getNode_raise (n m a i : Nat) (s : State) : getNode (raise a i s) n m = getNode s n m := rfl
@[simp] theorem setNode_bump (n m a : Nat) (x : HNode) (s : State) : setNode n m x (bump a s) = bump a (setNode n m x s) := rfl

@[simp] theorem stampNow_setHws (n : Nat) (y : Hws) (s : State) : stampNow (setHws n y s) = stampNow s := rfl
@[simp] theorem stampNow_bump (a : Nat) (s : State) : stampNow (bump a s) = stampNow s := rfl
@[simp] theorem stampNow_raise (a i : Nat) (s : State) : stampNow (raise a i s) = stampNow s := rfl

/-- An update of the port that keeps its store of nodes keeps each node. -/
theorem getNode_setHws (m : Nat) (y : Hws) (hy : y.nodes = (getHws s n).nodes) : getNode (setHws n y s) n m = getNode s n m := by
  rw [getNode, getHws_setHws, hy, getNode]

/-- Where the grants lie in a cycle comes from the image and the masks alone, so a slot depends on the port only by its cycle. -/
theorem slotOf_setHws (y : Hws) (hcyc : y.cycle = (getHws s n).cycle) (hst : y.cycStart = (getHws s n).cycStart) (x : Sample) :
    slotOf (setHws n y s) n x = slotOf s n x := by
  rw [slotOf, getHws_setHws, hcyc, hst]
  rfl

/-! ### Packets received -/

/-- A port without the oldest packet that it has received. -/
def dequeued (g : Hws) (rest : List HPkt) : Hws := { g with inbox := rest }

theorem takeInbox_eq {g : Hws} {p : HPkt} {rest : List HPkt} {k : Nat} (hg : g.inbox = p :: rest) (hk : hType p.hdr = k) :
    takeInbox g k = some (p, dequeued g rest) := by
  rw [takeInbox, hg]
  exact if_pos hk

section
variable (n m : Nat) (rest : List HPkt) (s : State)

theorem getNode_dequeued : getNode (setHws n (dequeued (getHws s n) rest) s) n m = getNode s n m := getNode_setHws m _ rfl
theorem slotOf_dequeued (x : Sample) : slotOf (setHws n (dequeued (getHws s n) rest) s) n x = slotOf s n x :=
  slotOf_setHws (dequeued (getHws s n) rest) rfl rfl x
theorem foreignPacket_dequeued (p : HPkt) :
    foreignPacket (setHws n (dequeued (getHws s n) rest) s) n p = foreignPacket s n p := by
  rw [foreignPacket, slotOf_dequeued, foreignPacket]

end

/-- A count and a flag beside an update of the port touch nothing else. -/
theorem PortMoved.counted {t : State} (h : PortMoved n s t) (a b i : Nat) :
    { bump a (raise b i t) with hws := s.hws, cnt := s.cnt, flags := s.flags } = s :=
  congrArg (fun u : State => { u with cnt := s.cnt, flags := s.flags }) h.1

/-! ### Leaving (R190) -/

theorem trunkEvent_eq (kind node n : Nat) (x : Sample) (s : State) : trunkEvent kind node n x s = trunkEv kind node n x s := rfl

/-- What is left of a node that is absent again: what it lost. -/
def absentNode (x : HNode) : HNode := { lost := x.lost, nacks := x.nacks }

theorem dropCtl_eq (n m : Nat) (s : State) : dropCtl n m s =
    setHws n { getHws s n with
      ctl := (getHws s n).ctl.filter (fun c => c.node ≠ m)
      tmchg := (getHws s n).tmchg.bind (fun c => if c.1 = m then none else some c) } s := by
  rw [dropCtl]
  cases (getHws s n).tmchg <;> rfl

theorem leaveNode_absent (kind : Nat) (h : (getNode s n m).nstate = 0) : leaveNode n m kind s = s := if_pos h

theorem leaveNode_present (kind : Nat) (h : (getNode s n m).nstate ≠ 0) : leaveNode n m kind s =
    trunkEv kind m n (stampNow s) (bump (hwsA n + (if kind = 8 then 0x174 else 0x170))
      (raise (hwsA n + 0x104) 4 (setNode n m (absentNode (getNode s n m)) (dropCtl n m s)))) := by
  have hcnt : hwsLinkCnt (if kind = 8 then 13 else 12) = if kind = 8 then 0x174 else 0x170 := by split <;> rfl
  rw [leaveNode, if_neg h]
  simp only [trunkEvent_eq, hwsCount, hwsRaise, hcnt, stampNow_bump, stampNow_raise, setNode_eq, dropCtl_eq, stampNow_setHws]
  rfl

end Sys2Proof.Machine
end

section
/-! SUPPORT. Data of trunk nodes (R173, R174, R180, R182, R190, R192): what becomes of a packet in a granted slot, of a block's
values and of a packet that is missing. -/

namespace Sys2Proof.Machine
open Sys2Proof Sys2Proof.Claims

variable {n m : Nat} {s : State} {p : HPkt} {rest : List HPkt} {pl : Placed} {retry : Bool}

/-! ### Packets received (R190, R192) -/

/-- In a granted slot a packet is foreign that captured the receiver or comes from another node than the owner. -/
theorem foreignPacket_slot (hsl : slotOf s n p.stamp = some (pl, retry)) :
    foreignPacket s n p = true ↔ p.captured = true ∨ hNode p.hdr ≠ pl.node := by
  rw [foreignPacket, hsl]
  simp only [Bool.or_eq_true, decide_eq_true_eq]

section
variable (hs : stopped s = false) (hg : (getHws s n).inbox = p :: rest)
include hs hg

theorem exec_data (hk : hType p.hdr = 3) (hsl : slotOf s n p.stamp = some (pl, retry)) : exec (.data n) s =
    let u := setHws n (dequeued (getHws s n) rest) s
    if foreignPacket s n p then .next (raise (hwsA n + 0x104) 6 (bump (hwsA n + 0x164) u))
    else if (getNode s n pl.node).nstate = 0 ∨ bits p.hdr 31 30 ≠ pl.g then .next u
    else .next (takeData n p pl retry u) := by
  change execData n s = _
  rw [execData, live_running hs, takeInbox_eq hg hk]
  simp only [slotOf_dequeued, foreignPacket_dequeued, getNode_dequeued, hsl]
  rfl

theorem exec_leave (hk : hType p.hdr = 8) (hf : foreignPacket s n p = false) : exec (.leave n) s =
    .next (leaveNode n (hNode p.hdr) 7 (setHws n (dequeued (getHws s n) rest) s)) := by
  change execLeave n s = _
  rw [execLeave, live_running hs, takeInbox_eq hg hk]
  simp only [foreignPacket_dequeued, hf, Bool.false_eq_true, if_false]

end

/-! ### The delay and the values of a block (R173, R174, R182) -/

theorem dEst_delayUpdate (n m : Nat) (o : Int) (s : State) : (getNode (delayUpdate n m o s) n m).dEst =
    (getNode s n m).dEst + (((o + (getNode s n m).dly : Int) : Rat) / 2 - (getNode s n m).dEst) / 16 := by
  rw [delayUpdate]
  dsimp only
  generalize (_ && _ && _ : Bool) = far
  cases far with
  | true =>
    rw [if_pos rfl, getNode_setHws, getNode_setNode]
    rfl
  | false => rw [if_neg Bool.false_ne_true, getNode_setNode]

theorem takeBlock_two_values (hon : (getNode s n m).nstate = 2) (ch : Nat) (ovr nsync : Bool) (t0 : W48) (per : Nat) (v w : BitVec 24) :
    takeBlock n m (.data ch ovr nsync t0 per [v, w]) s =
      let put (i : Nat) (v : BitVec 24) (u : State) : State :=
        sourceValue 3 (1024 * n + 32 * m + ch) (v.signExtend 48) (blockStamp u n t0 per i nsync ovr) u
      put 1 w (put 0 v s) := by
  rw [takeBlock, if_neg (not_not_intro hon)]
  rfl

/-! ### Packets that do not come (R180) -/

theorem lostPacket_eq (n m k : Nat) (s : State) : lostPacket n m k s =
    let v := raise (hwsA n + 0x104) 5 (bump (hwsA n + 0x160)
      (setNode n m { getNode s n m with lost := min 65535 ((getNode s n m).lost + 1) } s))
    if (getNode s n m).nstate = 2 then refuseGrant n m k (stampNow s) v else v := rfl

section
variable (hs : stopped s = false) (hn : n < 8)
include hs hn

theorem exec_nack (hpow : s.power.cur = .s0) {k : Nat} (hm : missing s n m k = some pl) : exec (.nack n m k) s =
    if pl.rstart = 255 then .next s
    else .next (bump (hwsA n + 0x158) (schedule n pl.rstart (mkHeader m 4 0 0 0 (k * 2 ^ 22)) []
      (setNode n m { getNode s n m with nacks := min 65535 ((getNode s n m).nacks + 1) } s))) := by
  change execNack n m k s = _
  simp only [execNack, live_running hs, Nat.not_le.mpr hn, hpow, ne_eq, not_true_eq_false, or_self, if_false, hm]
  rfl

theorem exec_packetLost (hpow : s.power.cur = .s0) {k : Nat} (hm : missing s n m k = some pl) : exec (.packetLost n m k) s =
    .next (lostPacket n m k (setNode n m { getNode s n m with
      seqs := Mem.write (fun _ => none) (getNode s n m).seqs k
        ((Mem.read (fun _ => none) (getNode s n m).seqs k).map (fun q => (q + 1) % 16)) } s)) := by
  change execPacketLost n m k s = _
  simp only [execPacketLost, live_running hs, Nat.not_le.mpr hn, hpow, ne_eq, not_true_eq_false, or_self, if_false, hm]

theorem exec_nodeTimeout (hm : m < 32) : exec (.nodeTimeout n m) s =
    if (getNode s n m).nstate ≠ 0 ∧ bits (cfgR s (hwsA n + 0x100)) 15 8 ≤ (getNode s n m).lossRun then .next (leaveNode n m 8 s)
    else .next s := by
  change execNodeTimeout n m s = _
  simp only [execNodeTimeout, live_running hs, Nat.not_le.mpr hn, if_false, hm, if_true]
  rfl

end

theorem exec_nack_none (hs : stopped s = false) {k : Nat} (hm : missing s n m k = none) : exec (.nack n m k) s = .next s := by
  change execNack n m k s = _
  simp only [execNack, live_running hs, hm, ite_self]

theorem exec_packetLost_none (hs : stopped s = false) {k : Nat} (hm : missing s n m k = none) : exec (.packetLost n m k) s = .next s := by
  change execPacketLost n m k s = _
  simp only [execPacketLost, live_running hs, hm, ite_self]

/-- Settles O34, from what becomes of a packet in a slot, of a block's values, of a missing packet and of a node that leaves. -/
theorem trunkData : Obligations.TrunkData := by
  intro n s hn hs g
  refine ⟨fun p rest hg => ⟨fun pl retry hk hsl => ?data, fun hk hf => ?leave⟩, fun m => ⟨fun o => dEst_delayUpdate n m o s,
    fun ch ovr nsync t0 per v w hon => takeBlock_two_values hon ch ovr nsync t0 per v w, fun kind hx => ?leaves, fun k => ?lost,
    fun k pl hpow hm => ⟨fun hr => ?asked, fun hr => ?unasked, exec_packetLost hs hn hpow hm⟩,
    fun k hm => ⟨exec_nack_none hs hm, exec_packetLost_none hs hm⟩, fun hm hx hl => ?timesOut, fun hm hl => ?inTime⟩⟩
  case data =>
    have hexec := exec_data hs hg hk hsl
    have hforeign := foreignPacket_slot hsl
    refine ⟨_, trunkOnly_setHws n (dequeued g rest) s, fun hf => ?foreign, fun hc hown hx hgr => ?taken⟩
    case foreign => exact hexec.trans (if_pos (hforeign.mpr hf))
    case taken =>
      have hnot : ¬ foreignPacket s n p = true := fun h => (hforeign.mp h).elim (Bool.eq_false_iff.mp hc) (· hown)
      exact hexec.trans ((if_neg hnot).trans (if_neg (not_or.mpr ⟨hx, not_not_intro hgr⟩)))
  case leave => exact ⟨_, trunkOnly_setHws n (dequeued g rest) s, exec_leave hs hg hk hf⟩
  case leaves =>
    refine ⟨_, leaveNode_present kind hx, ?node, ?count, ?frame⟩
    case node => rw [getNode_bump, getNode_raise, getNode_setNode]; rfl
    case count => simp only [cntR_bump, cntR_raise, setNode_eq, dropCtl_eq, cntR_setHws, satInc_eq_plusOne]
    case frame =>
      rw [dropCtl_eq]
      exact (((portMoved_refl n s).write _).write _).counted _ _ _
  case lost => exact ⟨_, getNode_setNode n m _ s, rfl, lostPacket_eq n m k s⟩
  case asked => exact (exec_nack hs hn hpow hm).trans (if_neg hr)
  case unasked => exact (exec_nack hs hn hpow hm).trans (if_pos hr)
  case timesOut => exact (exec_nodeTimeout hs hn hm).trans (if_pos ⟨hx, hl⟩)
  case inTime => exact (exec_nodeTimeout hs hn hm).trans (if_neg fun h => Nat.not_le.mpr hl h.2)

end Sys2Proof.Machine
end

section
/-! SUPPORT. The control slot and joins (R173, R176–R178, R186): which packet the slot takes, what each kind of packet does as it
is sent, and what a JOIN_REQ, its acknowledgement and its failure make of the node. -/

namespace Sys2Proof.Machine
open Sys2Proof Sys2Proof.Claims

variable {n m : Nat} {s : State} {c : HCtl}

/-! ### The packet that the slot takes (R186) -/

theorem ctlPrio_lt (c : HCtl) : ctlPrio c < 6 := by
  rw [ctlPrio]
  split
  case h_3 => split <;> omega
  all_goals omega

/-- The priorities that the slot looks through are all that there are: one finds nothing where no ready packet has it. -/
theorem ctlFind_eq_none (g : Hws) (k : Nat) : g.ctl.find? (fun c => ctlPrio c = k && ctlReady g c) = none ↔
    ∀ d ∈ g.ctl, ctlReady g d = true → ctlPrio d ≠ k := by
  simp only [List.find?_eq_none, Bool.and_eq_true, decide_eq_true_eq, not_and]
  exact forall₂_congr fun d _ => ⟨fun h hr hk => h hk hr, fun h hk hr => h hr hk⟩

theorem ctlPick_eq_some {g : Hws} (hc : ctlPick g = some c) : c ∈ g.ctl ∧ ctlReady g c = true ∧
    ∀ d ∈ g.ctl, ctlReady g d = true → ctlPrio c ≤ ctlPrio d := by
  obtain ⟨before, k, after, hrange, hfind, hnone⟩ := List.findSome?_eq_some_iff.mp hc
  have hsel := List.find?_some hfind
  simp only [Bool.and_eq_true, decide_eq_true_eq] at hsel
  obtain ⟨hk, hready⟩ := hsel
  have hsorted : (before ++ k :: after).Pairwise (· < ·) := hrange ▸ List.pairwise_lt_range
  refine ⟨List.mem_of_find?_eq_some hfind, hready, fun d hd hr => Nat.le_of_not_lt fun hlt => ?_⟩
  have hmem : ctlPrio d ∈ before ++ k :: after := hrange ▸ List.mem_range.mpr (ctlPrio_lt d)
  rw [hk] at hlt
  have hbefore : ctlPrio d ∈ before := by
    rcases List.mem_append.mp hmem with h | h
    · exact h
    · obtain ⟨-, hfrom, -⟩ := List.pairwise_append.mp hsorted
      have hge : k ≤ ctlPrio d := by
        rcases List.mem_cons.mp h with h | h
        · exact Nat.le_of_eq h.symm
        · exact Nat.le_of_lt (List.rel_of_pairwise_cons hfrom h)
      omega
  exact (ctlFind_eq_none g _).mp (hnone _ hbefore) d hd hr rfl

theorem ctlPick_eq_none (g : Hws) : ctlPick g = none ↔ ∀ d ∈ g.ctl, ctlReady g d = false := by
  simp only [ctlPick, List.findSome?_eq_none_iff, List.mem_range, ctlFind_eq_none]
  constructor
  · intro h d hd
    exact Bool.eq_false_iff.mpr fun hr => h _ (ctlPrio_lt d) d hd hr rfl
  · intro h k _ d hd hr
    exact absurd hr (Bool.eq_false_iff.mp (h d hd))

/-! ### Sending it (R173, R177, R178, R186) -/

/-- The port whose control slot of the cycle has gone to c. -/
def slotUsed (g : Hws) (c : HCtl) : Hws := { g with ctl := g.ctl.erase c, ctlSent := true, ctlCount := (g.ctlCount + 1) % 16 }

theorem exec_controlSlot_idle (hs : stopped s = false) (h : (getHws s n).ctlSent = true ∨ ctlPick (getHws s n) = none) :
    exec (.controlSlot n) s = .next s := by
  change execControlSlot n s = _
  rcases h with h | h <;> simp only [execControlSlot, live_running hs, h, or_true, if_true, ite_self]

theorem exec_controlSlot_sends (hs : stopped s = false) (hn : n < 8) (hpow : s.power.cur = .s0) (hon : (getHws s n).state = .on)
    (hcyc : (getHws s n).cycling = true) (hsent : (getHws s n).ctlSent = false) (hc : ctlPick (getHws s n) = some c) :
    exec (.controlSlot n) s = .next (sendCtl n c (setHws n (slotUsed (getHws s n) c) s)) := by
  have hgo : ¬ (8 ≤ n ∨ s.power.cur ≠ .s0 ∨ (getHws s n).state ≠ .on ∨ (!(getHws s n).cycling) = true ∨
      (getHws s n).ctlSent = true) := by
    simp [hn, hpow, hon, hcyc, hsent]
  change execControlSlot n s = _
  simp only [execControlSlot, live_running hs, if_neg hgo, hc]
  rfl

theorem getNode_slotUsed (c : HCtl) (m : Nat) (s : State) : getNode (setHws n (slotUsed (getHws s n) c) s) n m = getNode s n m :=
  getNode_setHws m _ rfl

/-- The unit of the control slot (R168). -/
def ctlUnit (s : State) (n : Nat) : Nat := 8 + 8 * bits (cfgR s (hwsA n + 0x100)) 21 19

theorem ctlUnit_eq (s : State) (n : Nat) : 8 + 8 * linkJ s n = ctlUnit s n := rfl

theorem sendCtl_leave (hc : c.type = 8) (u : State) : sendCtl n c u =
    let v := schedule n (ctlUnit u n) (mkHeader c.node 8 1 0 0 0) [0] u
    if c.node = 63 then v else leaveNode n c.node 7 v := by
  simp only [sendCtl, hc, ctlUnit_eq]

theorem sendCtl_command (hc : c.type = 7) (u : State) : sendCtl n c u =
    setNode n c.node { getNode u n c.node with cmdSent := some (getHws u n).cycle }
      (schedule n (ctlUnit u n) (mkHeader c.node 7 7 0 (getNode u n c.node).cmdSeq 0) c.payload u) := by
  simp only [sendCtl, hc, ctlUnit_eq]

theorem sendCtl_delay (hc : c.type = 6) (u : State) : sendCtl n c u =
    let dly := sendCtl.roundDlyOf (getNode u n c.node).dEst
    setNode n c.node { getNode u n c.node with dly := dly, dlySent := some (getHws u n).cycle }
      (schedule n (ctlUnit u n) (mkHeader c.node 6 4 0 (getHws u n).ctlCount 0) (beSigned 3 dly ++ [0]) u) := by
  simp only [sendCtl, hc, ctlUnit_eq]

/-- The fields of a JOIN_ACK before its grants (R177). -/
def ackFields (g : Hws) (c : HCtl) (dly : Int) : List (BitVec 8) :=
  beBytes 8 c.uid.toNat ++ [BitVec.ofNat 8 c.arg] ++ beSigned 3 dly ++ beBytes 4 (g.cycle + 8).toNat

theorem sendCtl_refused (hc : c.type = 2) (harg : c.arg ≠ 0) (u : State) : sendCtl n c u =
    schedule n (ctlUnit u n) (mkHeader c.node 2 64 0 (getHws u n).ctlCount 0)
      (ackFields (getHws u n) c (sendCtl.roundDlyOf (getNode u n c.node).dEst) ++ List.replicate 48 0) u := by
  have hgrants : (List.range 4).flatMap (fun _ => List.replicate 12 (0 : BitVec 8)) = List.replicate 48 0 := rfl
  simp only [sendCtl, hc, harg, if_false, ctlUnit_eq, ackFields, hgrants]

theorem sendCtl_accepted (hc : c.type = 2) (harg : c.arg = 0) (u : State) : sendCtl n c u =
    let dly := sendCtl.roundDlyOf (getNode u n c.node).dEst
    nodeJoined n c.node (setNode n c.node { getNode u n c.node with dly := dly, uid := c.uid }
      (schedule n (ctlUnit u n) (mkHeader c.node 2 64 0 (getHws u n).ctlCount 0)
        (ackFields (getHws u n) c dly ++ (List.range 4).flatMap (fun i => ackGrant u n c.node i)) u)) := by
  simp only [sendCtl, hc, harg, if_true, ctlUnit_eq, ackFields]

/-- The DLY that is sent is no more than a half from D (R173). -/
theorem roundDlyOf_near (d : Rat) : -1 ≤ 2 * ((sendCtl.roundDlyOf d : Rat) - d) ∧ 2 * ((sendCtl.roundDlyOf d : Rat) - d) ≤ 1 := by
  rw [sendCtl.roundDlyOf]
  split
  case isTrue =>
    have hle := Rat.floor_le (d + 1 / 2)
    have hlt := Rat.lt_floor_add_one (d + 1 / 2)
    push_cast at hlt
    constructor <;> grind
  case isFalse =>
    have hle := Rat.floor_le (-d + 1 / 2)
    have hlt := Rat.lt_floor_add_one (-d + 1 / 2)
    push_cast at hlt ⊢
    constructor <;> grind

/-! ### A node that is acknowledged (R177, R178) -/

/-- The first of a node's commands waits for the control slot. -/
def firstCommand (n m : Nat) (list : List (List (BitVec 8))) (s : State) : State :=
  match list with
  | w :: _ => setHws n { getHws s n with ctl := (getHws s n).ctl ++ [{ type := 7, node := m, payload := w }] } s
  | [] => s

theorem PortMoved.firstCommand {t : State} (h : PortMoved n s t) (m : Nat) (list : List (List (BitVec 8))) :
    PortMoved n s (firstCommand n m list t) := by
  cases list with
  | nil => exact h
  | cons w ws => exact h.write _

@[simp] theorem getNode_firstCommand (k : Nat) (list : List (List (BitVec 8))) (s : State) :
    getNode (firstCommand n m list s) n k = getNode s n k := by
  cases list with
  | nil => rfl
  | cons w ws => exact getNode_setHws k _ rfl

theorem firstCommand_counted (list : List (List (BitVec 8))) (a b i : Nat) (s : State) :
    firstCommand n m list (bump a (raise b i s)) = bump a (raise b i (firstCommand n m list s)) := by
  cases list <;> rfl

/-- The commands that the image holds for a node (R178). -/
def bookedCommands (s : State) (n m : Nat) : List (List (BitVec 8)) := entriesOfBytes 7 (listBytes s 3 (32 * n + m))

/-- A node as its JOIN_ACK leaves it: ON where no command is booked for it, else JOINED. -/
def joinedNode (s : State) (n m : Nat) : HNode :=
  { getNode s n m with
    nstate := if bookedCommands s n m = [] then 2 else 1, first := (getHws s n).cycle + 8, heard := false
    initLeft := bookedCommands s n m, cmdIndex := 0, cmdSent := none, repeats := 0, degraded := isDegraded s n m robustMap }

theorem cntR_firstCommand (list : List (List (BitVec 8))) (a : Nat) (s : State) : cntR (firstCommand n m list s) a = cntR s a := by
  cases list <;> rfl

theorem stampNow_firstCommand (list : List (List (BitVec 8))) (s : State) : stampNow (firstCommand n m list s) = stampNow s := by
  cases list <;> rfl

/-- The hub with a node that has just been acknowledged, before the event record. -/
def acknowledged (n m : Nat) (s : State) : State :=
  bump (hwsA n + 0x148) (raise (hwsA n + 0x104) 3 (firstCommand n m (bookedCommands s n m) (setNode n m (joinedNode s n m) s)))

theorem nodeJoined_eq (n m : Nat) (s : State) : nodeJoined n m s = trunkEv 6 m n (stampNow s) (acknowledged n m s) := by
  have hdef : nodeJoined n m s = (fun u => trunkEvent 6 m n (stampNow u) u) (firstCommand n m (bookedCommands s n m)
    (bump (hwsA n + 0x148) (raise (hwsA n + 0x104) 3 (setNode n m (joinedNode s n m) s)))) := rfl
  have hstamp : stampNow (acknowledged n m s) = stampNow s := by
    rw [acknowledged, stampNow_bump, stampNow_raise, stampNow_firstCommand, setNode_eq, stampNow_setHws]
  rw [hdef, firstCommand_counted, ← acknowledged, ← hstamp]
  exact trunkEvent_eq _ _ _ _ _

theorem getNode_acknowledged (n m : Nat) (s : State) : getNode (acknowledged n m s) n m = joinedNode s n m := by
  rw [acknowledged, getNode_bump, getNode_raise, getNode_firstCommand, getNode_setNode]

theorem cntR_acknowledged (n m : Nat) (s : State) :
    cntR (acknowledged n m s) (hwsA n + 0x148) = plusOne (cntR s (hwsA n + 0x148)) := by
  rw [acknowledged, cntR_bump, cntR_raise, cntR_firstCommand, setNode_eq, cntR_setHws, satInc_eq_plusOne]

theorem acknowledged_only (n m : Nat) (s : State) :
    { acknowledged n m s with hws := s.hws, cnt := s.cnt, flags := s.flags } = s :=
  (((portMoved_refl n s).write _).firstCommand m _).counted _ _ _

/-! ### JOIN_REQ (R173, R176, R177) -/

theorem joinStatus_unexpected {uid : W64} {cap : BitVec 8} (hex : expected s n m = false) : joinStatus s n m uid cap = 1 := by
  simp [joinStatus, hex]

theorem joinStatus_accepted {uid : W64} {cap : BitVec 8} (hex : expected s n m = true) (huid : bookUid s n m = 0 ∨ bookUid s n m = uid)
    (habs : (getNode s n m).nstate = 0) (hmod : bookMod s n m ≤ bits cap 2 0) (hrate : bookRate s n m ≤ bits cap 4 3) :
    joinStatus s n m uid cap = 0 := by
  have hother : ¬ (bookUid s n m ≠ 0 ∧ bookUid s n m ≠ uid) := fun ⟨h0, hne⟩ => huid.elim h0 hne
  have hpoor : ¬ (bits cap 2 0 < bookMod s n m ∨ bits cap 4 3 < bookRate s n m) := by omega
  rw [joinStatus, hex, if_neg (by simp), if_neg hother, if_neg fun h => h.1 habs, if_neg hpoor]

/-- The bookings of a JOIN_REQ are those of the image; of the port it looks at the node alone. -/
theorem joinStatus_dequeued (rest : List HPkt) (uid : W64) (cap : BitVec 8) (a : Nat) :
    joinStatus (bump a (setHws n (dequeued (getHws s n) rest) s)) n m uid cap = joinStatus s n m uid cap := by
  rw [joinStatus, getNode_bump, getNode_dequeued]
  rfl

/-- The distance from the join slots needs the port only for the cycle's start. -/
theorem joinOffset_dequeued (rest : List HPkt) (x : Sample) (a : Nat) :
    joinOffset (bump a (setHws n (dequeued (getHws s n) rest) s)) (dequeued (getHws s n) rest) x = joinOffset s (getHws s n) x := rfl

/-- A map is built from what the node can do, the SNR and the masks. -/
theorem buildMap_setHws (y : Hws) (cap : BitVec 8) (win : List (List Int)) (s : State) :
    buildMap (setHws n y s) n cap win = buildMap s n cap win := rfl

theorem buildMap_bump (a : Nat) (cap : BitVec 8) (win : List (List Int)) (s : State) :
    buildMap (bump a s) n cap win = buildMap s n cap win := rfl

/-- The node as a good JOIN_REQ leaves it, with the delay that its instant shows. -/
def askingNode (s : State) (n m : Nat) (p : HPkt) (cap : BitVec 8) : HNode :=
  { getNode s n m with cap := cap, dEst := (joinOffset s (getHws s n) p.stamp : Rat) / 2, snrs := [p.snr] }

section
variable {p : HPkt} {rest : List HPkt} {uid : W64} {cap : BitVec 8} (hs : stopped s = false)
  (hg : (getHws s n).inbox = p :: rest) (hj : joining s n p m uid cap)
include hs hg hj

theorem exec_joinReq_unexpected (hex : expected s n m = false) : exec (.joinReq n) s = .next (bump (hwsA n + 0x154) (bump (hwsA n + 0x144)
    (setHws n { getHws s n with inbox := rest, ctl := (getHws s n).ctl ++ [{ type := 2, node := m, arg := 1, uid := uid }] }
      (setHws n (dequeued (getHws s n) rest) s)))) := by
  obtain ⟨hk, hlen, rfl, hf, rfl, rfl⟩ := hj
  change execJoinReq n s = _
  rw [execJoinReq, live_running hs, takeInbox_eq hg hk]
  simp only [foreignPacket_dequeued, hf, hwsCount, joinStatus_dequeued, joinStatus_unexpected hex, hlen, setHws_bump, getHws_bump,
    getHws_setHws, Bool.false_eq_true, ne_eq, not_true_eq_false, if_false, if_true, Nat.one_ne_zero, not_false_eq_true]
  rfl

theorem exec_joinReq_accepted (hst : joinStatus s n m uid cap = 0) (habs : (getNode s n m).nstate = 0) : exec (.joinReq n) s =
    let t := buildMap s n cap [p.snr]
    .next (bump (hwsA n + 0x144) (setHws n
      { getHws s n with
        inbox := rest
        nodes := Mem.write (fun _ => {}) (getHws s n).nodes m (askingNode s n m p cap)
        ctl := (getHws s n).ctl ++ [{ type := 2, node := m, uid := uid }] ++
          (if t = robustMap then [] else [{ type := 5, node := m, map := t, first := true }]) }
      (setNode n m (askingNode s n m p cap) (setHws n (dequeued (getHws s n) rest) s)))) := by
  obtain ⟨hk, hlen, rfl, hf, rfl, rfl⟩ := hj
  change execJoinReq n s = _
  rw [execJoinReq, live_running hs, takeInbox_eq hg hk]
  have hne : (0 : Nat) ≠ 3 := by decide
  have habs' : (getNode (bump (hwsA n + hwsLinkCnt 1) (setHws n (dequeued (getHws s n) rest) s)) n (hNode p.hdr)).nstate = 0 := by
    rw [getNode_bump, getNode_dequeued, habs]
  simp only [foreignPacket_dequeued, hf, hwsCount, joinStatus_dequeued, hst, hlen, leaveNode_absent 7 habs', getNode_bump,
    getNode_dequeued, joinOffset_dequeued, buildMap_bump, setNode_eq, buildMap_setHws, setHws_bump, getHws_bump, getHws_setHws,
    Bool.false_eq_true, ne_eq, not_true_eq_false, if_false, Nat.zero_ne_one, hne]
  rfl

end

/-! ### JOINFAIL (R178) -/

theorem exec_joinfail (hs : stopped s = false) (hn : n < 8) (hm : m < 32) : exec (.joinfail n m) s =
    if (getNode s n m).nstate ≠ 0 ∧ (getNode s n m).heard = false ∧ 16 ≤ ((getHws s n).cycle - (getNode s n m).first).toInt then
      .next (bump (hwsA n + 0x14C) (setNode n m (absentNode (getNode s n m)) (dropCtl n m s)))
    else .next s := by
  change execJoinfail n m s = _
  simp only [execJoinfail, live_running hs, hn, hm, true_and, Bool.not_eq_true', dropCtl_eq, hwsCount, setHws_bump, getHws_bump,
    setNode_bump]
  rfl

/-! ### The statement TrunkJoining -/

theorem trunkJoining : TrunkJoining := by
  intro n s hn hs g unit
  refine ⟨fun c hc => ctlPick_eq_some hc, ctlPick_eq_none g, fun h => exec_controlSlot_idle hs h,
    fun c hpow hon hcyc hsent hc => ?sends, fun m => ?joined,
    fun p rest m uid cap hg hj => ⟨fun hex => ?unexpected, fun hex huid habs hmod hrate => ?accepted⟩,
    fun m hm => ⟨fun hx hh h16 => ?fails, fun h => ?heard⟩⟩
  case sends =>
    have hexec := exec_controlSlot_sends hs hn hpow hon hcyc hsent hc
    have hunit : ctlUnit (setHws n (slotUsed g c) s) n = unit := rfl
    refine ⟨_, trunkOnly_setHws n (slotUsed g c) s, fun ht => ?leave, fun ht => ?command, fun ht => ?delay, fun ht => ?ack⟩
    case leave => rw [hexec, sendCtl_leave ht, hunit]
    case command =>
      rw [hexec, sendCtl_command ht, hunit, getNode_slotUsed, getHws_setHws]
      rfl
    case delay =>
      obtain ⟨hlo, hhi⟩ := roundDlyOf_near (getNode s n c.node).dEst
      refine ⟨_, hlo, hhi, ?_⟩
      rw [hexec, sendCtl_delay ht, hunit, getNode_slotUsed, getHws_setHws]
      rfl
    case ack =>
      obtain ⟨hlo, hhi⟩ := roundDlyOf_near (getNode s n c.node).dEst
      refine ⟨_, hlo, hhi, fun harg => ?refused, fun harg => ?acknowledged⟩
      case refused =>
        rw [hexec, sendCtl_refused ht harg, hunit, getNode_slotUsed, getHws_setHws]
        rfl
      case acknowledged =>
        rw [hexec, sendCtl_accepted ht harg, hunit, getNode_slotUsed, getHws_setHws]
        rfl
  case joined =>
    have hnode := getNode_acknowledged n m s
    refine ⟨_, nodeJoined_eq n m s, congrArg HNode.nstate hnode, congrArg HNode.first hnode, congrArg HNode.initLeft hnode,
      cntR_acknowledged n m s, ?flag, acknowledged_only n m s⟩
    case flag => simp [bit, acknowledged]
  case unexpected =>
    have hexec := exec_joinReq_unexpected hs hg hj hex
    exact ⟨_, trunkOnly_setHws_setHws n (dequeued g rest) _ s, hexec⟩
  case accepted =>
    exact ⟨_, (((portMoved_refl n s).write _).write _).trunkOnly_setHws _,
      exec_joinReq_accepted hs hg hj (joinStatus_accepted hex huid habs hmod hrate) habs⟩
  case fails =>
    have hexec := (exec_joinfail hs hn hm).trans (if_pos ⟨hx, hh, h16⟩)
    rw [dropCtl_eq, setNode_eq, getHws_setHws] at hexec
    exact ⟨_, trunkOnly_setHws_setHws n _ _ s, hexec⟩
  case heard =>
    refine (exec_joinfail hs hn hm).trans (if_neg fun ⟨hx, hh, _⟩ => h.elim hx fun ht => ?_)
    rw [ht] at hh
    cases hh

end Sys2Proof.Machine
end

section
/-! SUPPORT. Changes of a tone map (R184, R185): a rebuilt map that is worth sending, a change that no DATA uses and one that a
DATA uses. -/

namespace Sys2Proof.Machine
open Sys2Proof Sys2Proof.Claims

variable {n m : Nat} {s : State}

/-- The map that a rebuild makes for a node (R184). -/
def rebuiltMap (s : State) (n m : Nat) : TMap :=
  buildMap s n (getNode s n m).cap ((getNode s n m).snrs.take (bits (cfgR s (hwsA n + 0x110)) 11 8))

/-- A map is worth sending that differs and holds less than the node's, or a sixteenth more (R184). -/
abbrev worthSending (s : State) (n m : Nat) (t : TMap) : Prop :=
  t ≠ portMap s n (getNode s n m).tmap ∧ (mapCapacity s n t < mapCapacity s n (portMap s n (getNode s n m).tmap) ∨
    17 * mapCapacity s n (portMap s n (getNode s n m).tmap) ≤ 16 * mapCapacity s n t)

/-- A node whose CRC-24 failures are done with (R184). -/
def withoutFails (x : HNode) : HNode := { x with crcFails := [] }

theorem exec_toneMapRebuild_idle (hs : stopped s = false) (h : (getNode s n m).nstate = 0 ∨ (getHws s n).tmchg.isSome = true) :
    exec (.toneMapRebuild n m) s = .next s := by
  change execToneMapRebuild n m s = _
  rcases h with h | h <;> simp only [execToneMapRebuild, live_running hs, h, true_or, or_true, if_true]

section
variable (hs : stopped s = false) (hn : n < 8) (hx : (getNode s n m).nstate ≠ 0) (hchg : (getHws s n).tmchg = none)
  {a b : W32} (hfails : (getNode s n m).crcFails = [a, b]) (hclose : (a - b).toNat ≤ 16)
include hs hn hx hchg hfails hclose

theorem exec_toneMapRebuild : exec (.toneMapRebuild n m) s =
    let u := setNode n m (withoutFails (getNode s n m)) s
    if worthSending s n m (rebuiltMap s n m) then
      .next (setHws n { getHws u n with
        ctl := (getHws u n).ctl ++ [{ type := 5, node := m, map := rebuiltMap s n m }] } u)
    else .next u := by
  change execToneMapRebuild n m s = _
  simp only [execToneMapRebuild, live_running hs]
  rw [if_neg]
  case hnc =>
    simp only [Nat.not_le.mpr hn, hx, hchg, hfails, decide_eq_true hclose, Option.isSome_none, Bool.not_true, Bool.false_eq_true,
      false_and, or_self, not_false_eq_true]
  rfl

end

section
variable {old id : Nat} {act : W32} {k : Nat} (hc : (getHws s n).tmchg = some (k, old, id, act))
include hc

theorem exec_tmfail (hs : stopped s = false) : exec (.tmfail n) s =
    if 16 ≤ ((getHws s n).cycle - act).toInt then
      .next (bump (hwsA n + 0x16C) (setHws n { getHws s n with tmchg := none, maps := Mem.erase (getHws s n).maps id } s))
    else .next s := by
  change execTmfail n s = _
  simp only [execTmfail, live_running hs, hc]
  rfl

/-- A change that runs for another node is left alone. -/
theorem adoptMap_other (h : k ≠ m) : adoptMap n m id s = s := by
  simp only [adoptMap, hc, h, false_and, if_false]

theorem adoptMap_own : adoptMap n k id s =
    let u := setHws n { getHws s n with tmchg := none } s
    setNode n k { getNode u n k with tmap := id, degraded := isDegraded u n k (portMap u n id) } u := by
  simp only [adoptMap, hc, true_and, if_true]

end

theorem toneMaps : ToneMaps := by
  intro n m s hn hs g x old new better
  refine ⟨fun hx hchg ⟨a, b, hfails, hclose⟩ => ?rebuilt, exec_toneMapRebuild_idle hs,
    fun k old id act hc => ⟨fun hlate => ?failed, fun hearly => ?pending, fun hk => ?own, adoptMap_other hc⟩⟩
  case rebuilt =>
    have hexec := exec_toneMapRebuild hs hn hx hchg hfails hclose
    by_cases hw : better
    case pos =>
      rw [if_pos hw]
      have hsends := hexec.trans (if_pos hw)
      rw [setNode_eq, getHws_setHws] at hsends
      exact ⟨_, trunkOnly_setHws_setHws n _ _ s, hsends⟩
    case neg =>
      rw [if_neg hw, List.append_nil]
      exact ⟨_, trunkOnly_setHws n _ s, hexec.trans (if_neg hw)⟩
  case failed => exact ⟨_, trunkOnly_setHws n _ s, (exec_tmfail hc hs).trans (if_pos hlate)⟩
  case pending => exact (exec_tmfail hc hs).trans (if_neg (Int.not_le.mpr hearly))
  case own =>
    subst hk
    rw [adoptMap_own hc]
    exact ⟨by rw [setNode_eq, getHws_setHws, getHws_setHws], by rw [getNode_setNode]⟩

/-- Settles O35, from the packet that the control slot takes and what sending it does, from the three ends of a join, and from
what a rebuild and the change of a map make of the port. -/
theorem trunkJoinsAndMaps : Obligations.TrunkJoinsAndMaps := ⟨trunkJoining, toneMaps⟩

end Sys2Proof.Machine
end

section
/-! SUPPORT. Channel values (R198, R203, R205, R220, R234): rounding to even and saturation, the calibration polynomial without
its common denominator, the ways a raw value can go, and a limit state that stays or changes. -/

namespace Sys2Proof.Machine
open Sys2Proof Sys2Proof.Claims

variable {c : Nat} {s : State}

/-! ### Rounding and saturation (R220) -/

/-- Over its denominator, a rounded fraction is at most half a unit from the exact one, and it is even on a tie. -/
theorem roundDiv_bounds (n : Int) {d : Nat} (hd : 0 < d) :
    -(d : Int) ≤ 2 * (roundDiv n d * d - n) ∧ 2 * (roundDiv n d * d - n) ≤ d ∧
    (2 * (roundDiv n d * d - n) = d ∨ 2 * (roundDiv n d * d - n) = -d → roundDiv n d % 2 = 0) := by
  have hdiv := Int.mul_ediv_add_emod n d
  have hnonneg := Int.emod_nonneg n (b := d) (by omega)
  have hlt := Int.emod_lt_of_pos n (b := d) (by omega)
  rw [Int.mul_comm] at hdiv
  simp only [roundDiv, Int.fdiv_eq_ediv_of_nonneg n (Int.natCast_nonneg d)]
  generalize n / d = q at hdiv ⊢
  have hsucc : (q + 1) * d = q * d + d := by rw [Int.add_mul, Int.one_mul]
  split
  case isTrue => omega
  case isFalse =>
    split
    case isTrue => omega
    case isFalse => split <;> omega

theorem roundDiv_nearestEven {q : Rat} {n : Int} {d : Nat} (hd : 0 < d) (hq : q * d = n) : NearestEven (roundDiv n d) q := by
  obtain ⟨hlo, hhi, heven⟩ := roundDiv_bounds n hd
  have hpos : (0 : Rat) < d := Rat.natCast_pos.mpr hd
  have hscale : 2 * ((roundDiv n d : Rat) - q) * d = (2 * (roundDiv n d * d - n) : Int) := by
    push_cast
    rw [← hq]
    grind
  refine ⟨Rat.le_of_mul_le_mul_right ?_ hpos, Rat.le_of_mul_le_mul_right ?_ hpos, fun htie =>
    heven (htie.imp (fun h => ?_) fun h => ?_)⟩
  · rw [hscale, Rat.neg_mul, Rat.one_mul, ← Rat.intCast_natCast, ← Rat.intCast_neg]
    exact Rat.intCast_le_intCast.mpr hlo
  · rw [hscale, Rat.one_mul]
    exact_mod_cast hhi
  · rw [h, Rat.one_mul] at hscale
    exact_mod_cast hscale.symm
  · rw [h, Rat.neg_mul, Rat.one_mul, ← Rat.intCast_natCast, ← Rat.intCast_neg] at hscale
    exact Rat.intCast_inj.mp hscale.symm

theorem saturate_eq_satQ (v : Int) : saturate v = (ofInt (satQ v).1, (satQ v).2) := by
  simp only [saturate, satQ, clampTo]
  by_cases hlo : v < -(2 ^ 47)
  · rw [if_pos hlo, Int.min_eq_right (by omega), Int.max_eq_left (by omega), decide_eq_true (.inl hlo)]
    rfl
  · by_cases hhi : 2 ^ 47 - 1 < v
    · rw [if_neg hlo, if_pos hhi, Int.min_eq_left (by omega), Int.max_eq_right (by omega), decide_eq_true (.inr hhi)]
      rfl
    · rw [if_neg hlo, if_neg hhi, Int.min_eq_right (by omega), Int.max_eq_right (by omega),
        decide_eq_false fun h => h.elim hlo hhi]
      rfl

/-! ### Calibration (R203) -/

theorem coefE_ge (w : W48) : -32 ≤ coefE w := by
  have hE : bits w 47 42 < 2 ^ 6 := Nat.mod_lt _ (by decide)
  rw [coefE, signed_of_lt hE]
  split <;> omega

/-- A whole number scaled by a power of two, as the fraction that the scale clears. -/
theorem intCast_mul_two_pow (m : Int) {a b k e : Nat} (h : a + k = b + e) : ((m * 2 ^ a : Int) : Rat) = m * 2 ^ b / 2 ^ k * 2 ^ e := by
  have hden : (2 : Rat) ^ k ≠ 0 := Rat.ne_of_gt (Rat.pow_pos (by decide))
  have hclear : ((m * 2 ^ a : Int) : Rat) * 2 ^ k = m * 2 ^ b * 2 ^ e := by
    have hint : m * 2 ^ a * 2 ^ k = m * 2 ^ b * 2 ^ e := by rw [Int.mul_assoc, ← Int.pow_add, h, Int.pow_add, ← Int.mul_assoc]
    exact_mod_cast hint
  calc ((m * 2 ^ a : Int) : Rat) = m * 2 ^ b * 2 ^ e / 2 ^ k := by rw [← hclear, Rat.mul_div_cancel hden]
    _ = m * 2 ^ b / 2 ^ k * 2 ^ e := by rw [Rat.div_def, Rat.div_def, Rat.mul_assoc, Rat.mul_comm (2 ^ e), ← Rat.mul_assoc]

/-- The model's scale 2^200 clears the denominator of a term while XSH leaves the exponent a natural number. -/
theorem calTerm_eq_exact (w : W48) (raw : Int) {xsh i : Nat} (h : i * xsh ≤ 152) : (calTerm w raw xsh i : Rat) =
    ((coefM w * raw ^ i : Int) : Rat) * 2 ^ (coefE w + 32).toNat / 2 ^ (48 + i * xsh) * 2 ^ 200 := by
  have hE := coefE_ge w
  have hexp : (coefE w - 16 - (xsh * i : Nat) + 200).toNat + (48 + i * xsh) = (coefE w + 32).toNat + 200 := by
    rw [Nat.mul_comm xsh i]
    omega
  exact intCast_mul_two_pow _ hexp

theorem calOf_nearestEven (hx : chXsh s c ≤ 47) (raw : W48) :
    ∃ v, NearestEven v (calExact s c raw.toInt) ∧ calOf s c raw = satQ v := by
  refine ⟨_, roundDiv_nearestEven (Nat.two_pow_pos 200) ?_, rfl⟩
  rw [Rat.intCast_add, Rat.intCast_add, Rat.intCast_add, Rat.intCast_mul, Rat.intCast_pow, Rat.intCast_ofNat, Rat.natCast_pow, Rat.natCast_ofNat,
    calTerm_eq_exact _ _ (by omega), calTerm_eq_exact _ _ (by omega), calTerm_eq_exact _ _ (by omega),
    ← Rat.add_mul, ← Rat.add_mul, ← Rat.add_mul]
  rfl

/-! ### A raw value (R198, R234) -/

theorem exec_channelValue (hs : stopped s = false) (c : Nat) (raw : W48) (x : Sample) :
    exec (.channelValue c raw x) s = .next (channelRaw c raw x s) := live_running hs _

theorem channelRaw_unused (h : chEn s c = false ∨ chIsEvent s c = true ∨ calBooked s c = false) (raw : W48) (x : Sample) :
    channelRaw c raw x s = s := by
  refine if_pos ?_
  rcases h with h | h | h <;> simp only [h, Bool.not_false, Bool.true_or, Bool.or_true]

/-- A channel that passes its values on looks at its engine's queue alone. -/
theorem channelRaw_passes (hp : passes s c) (raw : W48) (x : Sample) : channelRaw c raw x s =
    if 4096 ≤ (getFe s (chFe s c)).queued then
      channelGap c { first := x.stamp, last := x.stamp, count := 1, reason := 3, qual := x.qual, era := x.era }
        (raise (feA (chFe s c)) 3 (bump (feA (chFe s c) + 0x18) s))
    else
      let u := setFe (chFe s c) { getFe s (chFe s c) with qmax := max (getFe s (chFe s c)).qmax ((getFe s (chFe s c)).queued + 1) } s
      channelCopies c { x with value := ofInt (calOf s c raw).1, sat := (calOf s c raw).2 }
        (if (calOf s c raw).2 then feSat (chFe s c) u else u) := by
  obtain ⟨hen, hval, huse, hon, hrun⟩ := hp
  refine if_neg ?_
  simp only [hen, hval, huse, hon, hrun, Bool.not_true, Bool.or_false, ne_eq, not_true_eq_false, decide_false, Bool.false_eq_true,
    not_false_eq_true]

/-! ### Limits (R205) -/

/-- A channel's upper limit in Q23.24. -/
abbrev limitHi (s : State) (c : Nat) : Int := signed 24 (bits (chW s c 6) 47 24) * 2 ^ chLimSh s c
/-- A channel's lower limit in Q23.24. -/
abbrev limitLo (s : State) (c : Nat) : Int := signed 24 (bits (chW s c 6) 23 0) * 2 ^ chLimSh s c

/-- A value lies beyond one of its channel's limits. -/
abbrev beyondLimits (s : State) (c : Nat) (v : W48) : Bool := decide (limitHi s c < v.toInt) || decide (v.toInt < limitLo s c)

/-- The side a limit state names: the value's on the way out, else the one it had. -/
abbrev limitSide (s : State) (c : Nat) (v : W48) : Bool :=
  if beyondLimits s c v then decide (limitHi s c < v.toInt) else (getChan s c).high

/-- The channel's limit state takes a new value; its bit is set on the way out alone. -/
def limitMoved (c : Nat) (out high : Bool) (s : State) : State :=
  let u := setChan c { getChan s c with out := out, high := high } s
  if out then raise (limFA (c / 32)) (c % 32) u else u

/-- The event record of a limit state, where LIMMODE is 2 and the channel has a stream (R205, R360). -/
def limitRecord (c : Nat) (out high : Bool) (x : Sample) (w : State) : State :=
  if chLimMode w c = 2 ∧ chStrEn w c then
    offerEvent (chStream w c) 3 x [pack [(b2n out, 47), (b2n high, 46), (c, 0)], x.value] w
  else w

/-- The record is read from the tables, which the change leaves. -/
theorem limitRecord_limitMoved (out high : Bool) (x : Sample) : limitRecord c out high x (limitMoved c out high s) =
    if chLimMode s c = 2 ∧ chStrEn s c then offerEvent (chStream s c) 3 x
      [BitVec.ofNat 48 (b2n out * 2 ^ 47 + b2n high * 2 ^ 46 + c), x.value] (limitMoved c out high s)
    else limitMoved c out high s := by
  have hpack : pack [(b2n out, 47), (b2n high, 46), (c, 0)] = BitVec.ofNat 48 (b2n out * 2 ^ 47 + b2n high * 2 ^ 46 + c) := by
    simp only [pack, List.foldl_cons, List.foldl_nil, Nat.zero_add, Nat.pow_zero, Nat.mul_one]
  rw [limitRecord, hpack]
  cases out <;> rfl

theorem limitCheck_unchanged {x : Sample} (hm : chLimMode s c ≠ 0) (h : beyondLimits s c x.value = (getChan s c).out) :
    limitCheck c x s = s := (if_neg hm).trans (if_pos h)

theorem limitCheck_changed {x : Sample} (hm : chLimMode s c ≠ 0) (h : beyondLimits s c x.value ≠ (getChan s c).out) :
    limitCheck c x s = limitRecord c (beyondLimits s c x.value) (limitSide s c x.value) x
      (limitMoved c (beyondLimits s c x.value) (limitSide s c x.value) s) := (if_neg hm).trans (if_neg h)

/-- Settles O37, from the ways a raw value can go, the exact polynomial that the model rounds, and the two outcomes of a limit check. -/
theorem channelValues : Obligations.ChannelValues := by
  intro c raw x s hs g a
  have hexec := exec_channelValue hs c raw x
  refine ⟨fun hp hq hx => ?calibrated, fun hp hq => ?refused, fun hu => ?unused,
    fun hm => ⟨limitCheck_unchanged hm, fun hne => ⟨_, getChan_setChan s c _, rfl, ?changed⟩⟩⟩
  case calibrated =>
    obtain ⟨v, hv, hcal⟩ := calOf_nearestEven hx raw
    refine ⟨v, _, hv, getFe_setFe s _ _, rfl, ?_⟩
    rw [hexec, channelRaw_passes hp, if_neg (Nat.not_le.mpr hq), hcal, saturate_eq_satQ]
    rfl
  case refused => rw [hexec, channelRaw_passes hp, if_pos hq]
  case unused => rw [hexec, channelRaw_unused hu]
  case changed => exact (limitCheck_changed hm hne).trans (limitRecord_limitMoved _ _ x)

end Sys2Proof.Machine
end

section
/-! SUPPORT. An event engine's own record (R269, R270, R274): what an instruction's entry and the end of an invocation make of
it, and the local registers that its loads and stores reach (R266, R303). -/

namespace Sys2Proof.Machine
open Sys2Proof Sys2Proof.Claims

variable {p e next n : Nat} {s : State}

/-! ### A busy engine is listed, so that its writes need no canonical store -/

theorem ne_default_of_busy {x : Engine} (hx : x.run = .busy) : x ≠ {} := by
  rintro rfl
  exact absurd hx (by decide)

theorem setEngine_setEngine {x : Engine} (y : Engine) (hx : x.run = .busy) :
    setEngine e y (setEngine e x s) = setEngine e y s := by
  simp only [setEngine, Mem.write_write_of_ne (fun _ => ({} : Engine)) s.engines e x y (ne_default_of_busy hx)]

theorem ne_rangerP_of_lt (hp : p < 16) : p ≠ rangerP := Nat.ne_of_lt hp

theorem procOf_of_engine (hp : p < 16) : procOf s p = (getEngine s p).proc := if_neg (ne_rangerP_of_lt hp)

theorem setProc_of_engine (hp : p < 16) (x : Proc) : setProc p x s = setEngine p { getEngine s p with proc := x } s :=
  if_neg (ne_rangerP_of_lt hp)

/-- An engine that executes is BUSY (R288). -/
theorem busy_of_at {code : Nat} (hp : p < 16) (h : At p code s) : (getEngine s p).run = .busy := by
  obtain ⟨-, hruns, -⟩ := h
  rw [procRuns, if_neg (ne_rangerP_of_lt hp), decide_eq_true_eq] at hruns
  obtain ⟨-, -, -, hbusy⟩ := hruns
  exact hbusy

/-- An instruction's entry moves a busy engine's program counter and charges its cycles. -/
theorem entered_of_busy (hp : p < 16) (hb : (getEngine s p).run = .busy) : entered p next n s = setEngine p
    { getEngine s p with proc := { procOf s p with pc := next, cycles := (procOf s p).cycles + n } } s := by
  have hr := ne_rangerP_of_lt hp
  have hcharge : charge p n s = setEngine p { getEngine s p with
      proc := { procOf s p with cycles := (procOf s p).cycles + n } } s := by
    simp only [charge, if_neg hr, setProc_of_engine hp]
  simp only [entered, touchLine_engine _ _ _ hr, setProc_of_engine hp, procOf_of_engine hp, hcharge, getEngine_setEngine]
  exact setEngine_setEngine _ hb

/-! ### The end of an invocation (R269, R270, R274) -/

/-- What the end of its invocation makes of a busy engine. -/
def endedEngine (x : Engine) : Engine := {
  x with
  run := .idle, kind := 0, cycMax := max x.cycMax x.proc.cycles, proc := { x.proc with stack := [], rets := [] } }

theorem endInvocation_of_busy (hp : p < 16) (hb : (getEngine s p).run = .busy) :
    endInvocation p s =
      let t := setEngine p (endedEngine (getEngine s p)) s
      if (getEngine s p).kind = 5 then icuTrigger p t else t := by
  simp [endInvocation, endedEngine, ne_rangerP_of_lt hp, hb]

/-- The end of an invocation as the effect of an instruction of n cycles: the engine's record is written once. -/
theorem endInvocation_entered (hp : p < 16) (hb : (getEngine s p).run = .busy) :
    endInvocation p (entered p next n s) =
      let t := setEngine p (endedEngine { getEngine s p with
        proc := { procOf s p with pc := next, cycles := (procOf s p).cycles + n } }) s
      if (getEngine s p).kind = 5 then icuTrigger p t else t := by
  have hrecord := congrArg (getEngine · p) (entered_of_busy (next := next) (n := n) hp hb)
  simp only [getEngine_setEngine] at hrecord
  have hbusy : (getEngine (entered p next n s) p).run = .busy := by rw [hrecord]; exact hb
  rw [endInvocation_of_busy hp hbusy, hrecord, entered_of_busy hp hb, setEngine_setEngine _ (by exact hb)]

/-- END (R302). -/
theorem exec_endOp (h : At p 0x407 s) (ha : Affords p 1 s) (hst : (procOf s p).stack.length ≤ 32) :
    exec (.endOp p) s = .next (endInvocation p (entered p (pcOf s p + 1) 1 s)) :=
  runRow_stop h rfl rfl (operandOf_none rfl rfl) (checks_none ha (Nat.zero_le _) hst (by simp [opEnd])) rfl

/-- RET with an empty return stack (R302). -/
theorem exec_ret_last (h : At p 0x406 s) (ha : Affords p 2 s) (hst : (procOf s p).stack.length ≤ 32)
    (hrets : (procOf s p).rets = []) : exec (.ret p) s = .next (endInvocation p (entered p (pcOf s p + 1) 2 s)) := by
  refine runRow_stop h rfl rfl (operandOf_none rfl rfl) (checks_none ha (Nat.zero_le _) hst (by simp [opRet])) ?_
  simp only [opRet, procOf_entered, hrets]
  rfl

/-- Settles O5, from the one record that END and the last RET leave of a busy engine. -/
theorem invocationEnds : Obligations.InvocationEnds := by
  intro p s hp hst ended
  refine ⟨fun h ha => ?_, fun h ha hrets => ?_⟩
  · rw [exec_endOp h ha hst, endInvocation_entered hp (busy_of_at hp h)]
    rfl
  · rw [exec_ret_last h ha hst hrets, endInvocation_entered hp (busy_of_at hp h)]
    rfl

/-! ### Local registers (R266, R303) -/

theorem viewWord_eq_setWidth (v : BitVec 128) (i : Nat) : viewWord v i = (v >>> (48 * i)).setWidth 48 := by
  apply BitVec.eq_of_toNat_eq
  simp [viewWord]

/-- What a load of a local register gives, by the register's address. -/
theorem localR_eq (a : W48) (own : Nat) : localR s e a.toNat own =
    if a = 0x1000 then (icuView s e).setWidth 48
    else if a = 0x1001 then ((icuView s e) >>> 48).setWidth 48
    else if a = 0x1002 then ((icuView s e) >>> 96).setWidth 48
    else if a = 0x1003 then ((icuFirst (icuView s e)).map (BitVec.ofNat 48)).getD (BitVec.allOnes 48)
    else if a = 0x1006 then (icuActive s e).setWidth 48
    else if a = 0x1007 then ((icuActive s e) >>> 48).setWidth 48
    else if a = 0x1008 then ((icuActive s e) >>> 96).setWidth 48
    else if a = 0x1009 then BitVec.ofNat 48 ((procOf s e).budget + own - (procOf s e).cycles)
    else if a = 0x100A then BitVec.ofNat 48 e
    else 0 := by
  simp only [← BitVec.toNat_inj (x := a)]
  unfold localR
  split
  case h_4 => cases icuFirst (icuView s e) <;> simp_all
  all_goals simp_all [viewWord_eq_setWidth]

/-- What a store to a local register does, by the register's address. -/
theorem localW_eq (a v : W48) : localW e a.toNat v s =
    if a = 0x1004 then icuClaim e v.toNat s else if a = 0x1005 then icuComplete e v.toNat s else s := by
  simp only [← BitVec.toNat_inj (x := a)]
  unfold localW
  split <;> simp_all

@[simp] theorem icuView_entered (q : Nat) : icuView (entered p next n s) q = icuView s q := by
  rw [entered_only]
  rfl

@[simp] theorem icuActive_entered (q : Nat) : icuActive (entered p next n s) q = icuActive s q := by
  rw [entered_only]
  rfl

section
variable {x : Ctx} {a : W48} (hp : x.p < 16) (ha : 0x1000 ≤ a.toNat) (ha' : a.toNat < 0x1100)
include hp ha ha'

/-- An engine's load above its DRAM reads its local registers (R266). -/
theorem loadData_local (own : Nat) : loadData x a own s = .ok (localR s x.p a.toNat own) := by
  have hr := ne_rangerP_of_lt hp
  rw [loadData, dataSize, if_neg hr, if_neg (Nat.not_lt.mpr ha), if_pos ⟨hr, ha'⟩]

/-- An engine's store above its DRAM writes its local registers (R266). -/
theorem storeData_local (v : W48) : storeData x a v s = .ok (localW x.p a.toNat v s) := by
  have hr := ne_rangerP_of_lt hp
  rw [storeData, dataSize, if_neg hr, if_neg (Nat.not_lt.mpr ha), if_pos ⟨hr, ha'⟩]

end

section
variable {a : W48} {rest : List W48} (hp : p < 16) (ha : 0x1000 ≤ a.toNat) (ha' : a.toNat < 0x1100) (hb : Affords p 2 s)
include hp ha ha' hb

theorem exec_ld_local (hst : (procOf s p).stack = a :: rest) (hl : rest.length < 32) (h : At p 0x500 s) :
    exec (.ld p false) s = .next (leaves p 1 [localR (entered p (pcOf s p + 1) 2 s) p a.toNat 2] (entered p (pcOf s p + 1) 2 s)) := by
  change runRow [] opLd p s = _
  refine runRow_go h rfl rfl (operandOf_none rfl rfl) (checks_none hb ?_ ?_ (by simp [opLd])) ?_
  · simp [opLd, hst]
  · simp only [opLd, hst, List.length_cons]; omega
  · simp only [opLd, topOf, procOf_entered, hst, List.getD_cons_zero, loadData_local, hp, ha, ha']
    rfl

theorem exec_st_local {w : W48} (hst : (procOf s p).stack = a :: w :: rest) (hl : rest.length < 31) (h : At p 0x501 s) :
    exec (.st p) s = .next (leaves p 2 [] (localW p a.toNat w (entered p (pcOf s p + 1) 1 s))) := by
  change runRow [] opSt p s = _
  have hone : Affords p 1 s := hb.imp id (by omega)
  refine runRow_go h rfl rfl (operandOf_none rfl rfl) (checks_none hone ?_ ?_ (by simp [opSt])) ?_
  · simp [opSt, hst]
  · simp only [opSt, hst, List.length_cons]; omega
  · simp only [opSt, topOf, procOf_entered, hst, List.getD_cons_zero, List.getD_cons_succ, storeData_local, hp, ha, ha']
    rfl

end

/-- Settles O6, from the local registers by address and from the rows of LD and ST. -/
theorem localRegisters : Obligations.LocalRegisters := by
  intro p s a hp ha ha' hb
  refine ⟨fun rest hst hl h => ?load, fun w rest hst hl h => ?store⟩
  case load =>
    have hleft : (procOf s p).budget + 2 - ((procOf s p).cycles + 2) = (procOf s p).budget - (procOf s p).cycles :=
      Nat.add_sub_add_right _ _ _
    rw [exec_ld_local hp ha ha' hb hst hl h, localR_eq]
    simp only [icuView_entered, icuActive_entered, procOf_entered, if_neg (ne_rangerP_of_lt hp), hleft]
  case store => rw [exec_st_local hp ha ha' hb hst hl h, localW_eq]

end Sys2Proof.Machine
end

section
/-! SUPPORT. The interrupt controller (R279-R283): when a source is pending and what a presentation cycle shows, claims and
completions, Ranger's moves of a target, and the software sources. -/

namespace Sys2Proof.Machine
open Sys2Proof Sys2Proof.Claims

variable {n m p k : Nat} {s : State}

/-! ### Source events (R279) -/

theorem exec_sourceAssert (hs : stopped s = false) :
    exec (.sourceAssert n) s = if icuIsLatch n && icuCanLatch s n then .next (icuLatch n s) else .next s :=
  live_running hs _

theorem icuIsLatch_iff : icuIsLatch n = true ↔ (34 ≤ n ∧ n < 50) ∨ (66 ≤ n ∧ n < 98) ∨ (114 ≤ n ∧ n < 125) := decide_eq_true_iff

/-- Every clock source runs in S0 (R61). -/
theorem srcRuns_s0 (src : Nat) : srcRuns src .s0 = true := rfl

/-- The latch sources that can assert in the power state in force (R279). -/
theorem icuCanLatch_of_state (h : (34 ≤ n ∧ n < 50) ∨ (114 ≤ n ∧ n < 122 ∧ s.power.cur ≠ .s3) ∨
    (66 ≤ n ∧ n < 98 ∧ s.power.cur = .s0) ∨ (122 ≤ n ∧ n < 125 ∧ s.power.cur = .s0)) : icuCanLatch s n = true := by
  unfold icuCanLatch
  obtain ⟨-, hn⟩ | ⟨hn, hn', hcur⟩ | ⟨hn, hn', hcur⟩ | ⟨hn, -, hcur⟩ := h
  · rw [if_pos hn]
  · rw [if_neg (by omega), if_neg (by omega), if_pos hn', decide_eq_true hcur]
  · rw [if_neg (by omega), if_pos hn', hcur, srcRuns_s0]
  · rw [if_neg (by omega), if_neg (by omega), if_neg (by omega), decide_eq_true (.inl hcur)]

/-! ### Presentation (R280) -/

/-- A number below the width, as the bit of a word. -/
theorem bit_one_shiftLeft {w : Nat} (i : Nat) (hm : m < w) : bit (1#w <<< i) m = decide (i = m) := by
  rw [bit, ← BitVec.twoPow_eq, BitVec.getLsbD_twoPow]
  by_cases him : i = m
  · rw [decide_eq_true him, decide_eq_true (him ▸ hm), Bool.and_self]
  · rw [decide_eq_false him, Bool.and_false]

/-- The bits of a word that gathers the numbers a test selects. -/
theorem bit_foldl_gather {w : Nat} (f : Nat → Bool) (l : List Nat) (v : BitVec w) (hm : m < w) :
    bit (l.foldl (fun v i => if f i then v ||| (1#w <<< i) else v) v) m = (bit v m || (decide (m ∈ l) && f m)) := by
  induction l generalizing v with
  | nil => simp
  | cons i l ih =>
    have hstep : bit (if f i then v ||| (1#w <<< i) else v) m = (bit v m || (decide (i = m) && f i)) := by
      split
      · next hf => rw [hf, Bool.and_true, ← bit_one_shiftLeft i hm]; exact BitVec.getLsbD_or
      · next hf => rw [Bool.eq_false_iff.mpr hf, Bool.and_false, Bool.or_false]
    rw [List.foldl_cons, ih, hstep]
    by_cases him : i = m
    · subst him; cases f i <;> simp
    · simp [him, Ne.symm him]

theorem bit_icuPresented (hm : m < 128) : bit (icuPresented s p) m = (decide (icuTarget s m = p) && icuPending s m) := by
  have hzero : bit (0 : BitVec 128) m = false := BitVec.getLsbD_zero
  have hgather := bit_foldl_gather (fun i => decide (icuTarget s i = p) && icuPending s i) (List.range 128) (0 : BitVec 128) hm
  rwa [hzero, Bool.false_or, decide_eq_true (List.mem_range.mpr hm), Bool.true_and] at hgather

/-- A pending source: enabled, asserted, not active, past MININT, and not the reserved one (R279, R280). -/
theorem icuPending_iff (hm : m < 128) : icuPending s m = true ↔ bit (cfgR s (icuCfgA m)) 5 = true ∧ m ≠ 127 ∧
    (icuLevel s m = true ∨ (getIcu s m).latch = true) ∧ (getIcu s m).active = none ∧
    ∀ t, (getIcu s m).lastClaim = some t → BitVec.ofNat 64 (bits (cfgR s (icuCfgA m)) 31 16 * 400) ≤ ticks s - t := by
  have hlt : m < 127 ↔ m ≠ 127 := by omega
  have hasserted : icuAsserted s m = true ↔ icuLevel s m = true ∨ (getIcu s m).latch = true := Bool.or_eq_true_iff
  simp only [icuPending, Bool.and_eq_true, hasserted, Option.isNone_iff_eq_none, decide_eq_true_eq, hlt]
  cases hclaim : (getIcu s m).lastClaim
  case none =>
    exact ⟨fun ⟨⟨⟨⟨hen, hon⟩, hfree⟩, hne⟩, _⟩ => ⟨hen, hne, hon, hfree, nofun⟩,
      fun ⟨hen, hne, hon, hfree, _⟩ => ⟨⟨⟨⟨hen, hon⟩, hfree⟩, hne⟩, rfl⟩⟩
  case some t =>
    exact ⟨fun ⟨⟨⟨⟨hen, hon⟩, hfree⟩, hne⟩, hpast⟩ =>
        ⟨hen, hne, hon, hfree, fun _ ht => Option.some.inj ht ▸ of_decide_eq_true hpast⟩,
      fun ⟨hen, hne, hon, hfree, hpast⟩ => ⟨⟨⟨⟨hen, hon⟩, hfree⟩, hne⟩, decide_eq_true (hpast t rfl)⟩⟩

@[simp] theorem icuView_setView (v : BitVec 128) : icuView (setView p v s) p = v := Mem.read_write_same _ _ _ _

theorem icuView_setView_other (v : BitVec 128) (h : m ≠ p) (hw : Mem.wf (fun _ => 0) s.icuViews = true) :
    icuView (setView p v s) m = icuView s m :=
  Mem.read_write_other _ _ _ _ _ h hw

@[simp] theorem getIcu_setView (v : BitVec 128) (n : Nat) : getIcu (setView p v s) n = getIcu s n := rfl

/-- A view is all that its update touches. -/
theorem setView_only (p : Nat) (v : BitVec 128) (s : State) : { setView p v s with icuViews := s.icuViews } = s := rfl

/-- A presentation cycle replaces one view; an engine's view that was empty may trigger it (R269, R280, R283). -/
theorem exec_presentation (hs : stopped s = false) (hp : p ≤ 16) :
    exec (.presentation p) s = .next (wakeTarget p
      (if icuView s p = 0 ∧ p < 16 then icuTrigger p (setView p (icuPresented s p) s) else setView p (icuPresented s p) s)) :=
  (live_running hs _).trans (if_pos hp)

/-! ### Claims and completions (R281) -/

/-- A word is its two halves. -/
theorem toNat_eq_halves (v : W32) : v.toNat = bits v 31 16 * 65536 + bits v 15 0 ∧ bits v 31 16 < 65536 ∧ bits v 15 0 < 65536 := by
  have := v.isLt
  simp only [bits, Nat.shiftRight_eq_div_pow]
  omega

theorem ofNat_halves_low {v : W32} (h : bits v 15 0 ≠ 65535) :
    BitVec.ofNat 32 (bits v 31 16 * 65536 + min 65535 (bits v 15 0 + 1)) = v + 1 := by
  obtain ⟨hv, -, hlo⟩ := toNat_eq_halves v
  have hsum : bits v 31 16 * 65536 + min 65535 (bits v 15 0 + 1) = v.toNat + 1 := by omega
  rw [hsum, BitVec.ofNat_add, BitVec.ofNat_toNat, BitVec.setWidth_eq]
  rfl

theorem ofNat_halves_high {v : W32} (h : bits v 31 16 ≠ 65535) :
    BitVec.ofNat 32 (min 65535 (bits v 31 16 + 1) * 65536 + bits v 15 0) = v + 0x10000 := by
  obtain ⟨hv, hhi, -⟩ := toNat_eq_halves v
  have hsum : min 65535 (bits v 31 16 + 1) * 65536 + bits v 15 0 = v.toNat + 0x10000 := by omega
  rw [hsum, BitVec.ofNat_add, BitVec.ofNat_toNat, BitVec.setWidth_eq]
  rfl

/-- A half that saturates stays as it is where it is full. -/
theorem min_succ_eq_self_iff : min 65535 (k + 1) = k ↔ k = 65535 := by omega

/-- The model's count in two saturating halves is the statement's. -/
theorem icuBad_eq_badView (claim : Bool) : icuBad p claim s = badView p claim s := by
  cases claim
  case false =>
    simp only [icuBad, badView, Bool.false_eq_true, if_false, true_and, min_succ_eq_self_iff]
    exact ite_congr rfl (fun _ => rfl) fun hroom => by rw [ofNat_halves_low hroom]
  case true =>
    simp only [icuBad, badView, if_true, and_true, min_succ_eq_self_iff]
    exact ite_congr rfl (fun _ => rfl) fun hroom => by rw [ofNat_halves_high hroom]

theorem exec_claim (hs : stopped s = false) (hp : p ≤ 16) : exec (.claim p n) s = .next (icuClaim p n s) :=
  (live_running hs _).trans (if_pos hp)

theorem exec_complete (hs : stopped s = false) (hp : p ≤ 16) : exec (.complete p n) s = .next (icuComplete p n s) :=
  (live_running hs _).trans (if_pos hp)

theorem icuClaim_shown (hn : n < 128) (h : bit (icuView s p) n = true) : icuClaim p n s =
    setView p (icuView s p &&& ~~~(1#128 <<< n))
      (setIcu n { getIcu s n with active := some p, latch := false, lastClaim := some (ticks s) } s) := if_pos ⟨hn, h⟩

theorem icuClaim_hidden (h : bit (icuView s p) n = false) : icuClaim p n s = badView p true s := by
  rw [← icuBad_eq_badView]
  exact if_neg fun ⟨_, hshown⟩ => Bool.false_ne_true (h.symm.trans hshown)

theorem icuComplete_active (hn : n < 128) (h : (getIcu s n).active = some p) :
    icuComplete p n s = setIcu n { getIcu s n with active := none } s := if_pos ⟨hn, h⟩

theorem icuComplete_inactive (h : (getIcu s n).active ≠ some p) : icuComplete p n s = badView p false s := by
  rw [← icuBad_eq_badView]
  exact if_neg fun ⟨_, hactive⟩ => h hactive

/-! ### Targets (R282) -/

/-- The low bits of a word, put back in its place. -/
theorem ofNat_bits_low (v : W32) : BitVec.ofNat 32 (bits v 4 0) = v &&& 0x1F := by
  apply BitVec.eq_of_toNat_eq
  have hmask : v.toNat &&& 31 = v.toNat % 2 ^ 5 := Nat.and_two_pow_sub_one_eq_mod v.toNat 5
  rw [BitVec.toNat_ofNat, BitVec.toNat_and, show (0x1F : W32).toNat = 31 from rfl, hmask, bits, Nat.shiftRight_zero,
    Nat.mod_eq_of_lt (by omega)]

/-- TARGET moves; the image's own target is kept beside it. -/
theorem retarget_legal {v : W32} (hn : n < 128)
    (h : bits v 4 0 = imageTarget s n ∨ (bits v 4 0 ≤ 16 ∧ bit (cfgR s (icuAltA n)) (bits v 4 0) = true)) :
    retarget .ranger n v s = setCfg (icuCfgA n) ((cfgR s (icuCfgA n) &&& 0xFFFFFFE0) ||| (v &&& 0x1F))
      (setIcu n { getIcu s n with moved := some (imageTarget s n) } s) := by
  rw [← ofNat_bits_low]
  exact if_pos ⟨rfl, hn, h⟩

theorem retarget_illegal {path : Path} {v : W32} (h : path ≠ .ranger ∨
    ¬(bits v 4 0 = imageTarget s n ∨ (bits v 4 0 ≤ 16 ∧ bit (cfgR s (icuAltA n)) (bits v 4 0) = true))) :
    retarget path n v s = werr s :=
  if_neg fun ⟨hpath, _, hlegal⟩ => h.elim (· hpath) (· hlegal)

/-! ### Software sources (R279, R287) -/

@[simp] theorem getIcu_setSoft_same (k : Nat) (s : State) : getIcu (setSoft k s) (114 + k) = { getIcu s (114 + k) with latch := true } :=
  getIcu_setIcu s (114 + k) { getIcu s (114 + k) with latch := true }

/-- A set latch is listed, so that its write needs no canonical store. -/
theorem getIcu_setSoft_other (h : m ≠ 114 + k) : getIcu (setSoft k s) m = getIcu s m := by
  have hne : { getIcu s (114 + k) with latch := true } ≠ ({} : IcuSource) := fun he =>
    Bool.noConfusion (congrArg IcuSource.latch he)
  change Mem.read (fun _ => {}) (Mem.write (fun _ => {}) s.icu (114 + k) { getIcu s (114 + k) with latch := true }) m = _
  rw [Mem.write, if_neg hne, Mem.read_insert_other _ _ _ _ _ h]
  rfl

/-- Setting software sources touches the sources and the ring's triggers alone. -/
theorem forEach_setSoft_only (l : List Nat) : { forEach l setSoft s with icu := s.icu, bgt := s.bgt } = s :=
  forEach_keeps (P := fun t => { t with icu := s.icu, bgt := s.bgt } = s) (f := setSoft) (fun _ _ _ ht => ht) rfl

theorem getIcu_forEach_setSoft_other {l : List Nat} (h : ∀ k ∈ l, m ≠ 114 + k) : getIcu (forEach l setSoft s) m = getIcu s m :=
  forEach_keeps (P := fun t => getIcu t m = getIcu s m) (fun k hk _ ht => (getIcu_setSoft_other (h k hk)).trans ht) rfl

/-- A latch that is set stays set. -/
theorem latch_forEach_setSoft_of_latch {l : List Nat} (h : (getIcu s m).latch = true) : (getIcu (forEach l setSoft s) m).latch = true := by
  refine forEach_keeps (P := fun t => (getIcu t m).latch = true) (fun k _ t ht => ?_) h
  by_cases hm : m = 114 + k
  · subst hm; rw [getIcu_setSoft_same]
  · rwa [getIcu_setSoft_other hm]

theorem latch_forEach_setSoft {l : List Nat} (h : k ∈ l) : (getIcu (forEach l setSoft s) (114 + k)).latch = true := by
  obtain ⟨before, after, rfl⟩ := List.append_of_mem h
  rw [forEach, List.foldl_append, List.foldl_cons]
  exact latch_forEach_setSoft_of_latch (by rw [getIcu_setSoft_same])

theorem mem_softMask {v : W32} : k ∈ (List.range 8).filter (bit v) ↔ k < 8 ∧ bit v k = true := by
  rw [List.mem_filter, List.mem_range]

theorem exec_icuSwset_ranger (hs : stopped s = false) (v : W32) :
    exec (.icuSwset .ranger v) s = .next (forEach ((List.range 8).filter (bit v)) setSoft s) :=
  live_running hs _

theorem exec_icuSwset_host {path : Path} (hs : stopped s = false) (h : path ≠ .ranger) (v : W32) :
    exec (.icuSwset path v) s = .next (werr s) :=
  (live_running hs _).trans (congrArg _ (if_neg h))

/-! ### The IRAM scrub (R265) -/

theorem pack_iramError (e w : Nat) : pack [(2, 36), (e, 32), (w, 0)] = BitVec.ofNat 48 (2 * 2 ^ 36 + e * 2 ^ 32 + w) := by
  simp only [pack, List.foldl_cons, List.foldl_nil, Nat.zero_add, Nat.pow_zero, Nat.mul_one]

/-- An uncorrectable IRAM error is counted, flagged and journalled, whether or not the word is poisoned already. -/
def iramErrorNoted (e w : Nat) (s : State) : State :=
  journal 0x40 (stampNow s) [BitVec.ofNat 48 (2 * 2 ^ 36 + e * 2 ^ 32 + w)] (raise (eeA e + 4) 4 (bump (eeA e + 0x30) s))

theorem iramErrorNoted_poisoned (e w : Nat) : (iramErrorNoted e w s).poisoned = s.poisoned := by
  rw [iramErrorNoted, journal_poisoned]
  rfl

theorem iramPoison_eq (e w : Nat) : iramPoison e w s =
    if iramA e w ∈ s.poisoned then iramErrorNoted e w s
    else { iramErrorNoted e w s with poisoned := iramA e w :: s.poisoned } := by
  have hnoted : journal 0x40 (stampNow s) [pack [(2, 36), (e, 32), (w, 0)]] (raise (eeStatA e) 4 (bump (eeA e + 0x30) s)) =
      iramErrorNoted e w s := by rw [pack_iramError]; rfl
  simp only [iramPoison, hnoted, iramErrorNoted_poisoned, List.contains_iff_mem]

section
variable {e w : Nat} (hs : stopped s = false) (he : e < 16) (hw : w < 4096) (hcur : s.power.cur = .s0)
include hs he hw hcur

theorem exec_iramScrub_clean : exec (.iramScrub e w .clean) s = .next s :=
  (live_running hs _).trans (if_neg (by simp [hcur, he, hw]))

theorem exec_iramScrub_corrected : exec (.iramScrub e w .corrected) s = .next (iramCorrected e s) :=
  (live_running hs _).trans (if_neg (by simp [hcur, he, hw]))

theorem exec_iramScrub_uncorrectable : exec (.iramScrub e w .uncorrectable) s = .next (iramPoison e w s) :=
  (live_running hs _).trans (if_neg (by simp [hcur, he, hw]))

end

/-- Settles O42, from what each command of the interrupt controller makes of its sources and views, and from the IRAM scrub. -/
theorem interruptSources : Obligations.InterruptSources := by
  intro n p s hn hp hs g
  refine ⟨fun h => ?latched, fun h => ?level, ⟨setView p (icuPresented s p) s, setView_only p _ s, fun m hm => ?shown,
      fun hw q hq => icuView_setView_other _ hq hw, exec_presentation hs hp⟩,
    fun h => ?claimed, fun h => ?badClaim, fun h => ?completed, fun h => ?badComplete,
    fun path v => ?targets, fun e w he hw hcur => ?scrub⟩
  case latched =>
    have hlatch : icuIsLatch n = true := icuIsLatch_iff.mpr (by omega)
    rw [exec_sourceAssert hs, hlatch, icuCanLatch_of_state h]
    rfl
  case level =>
    have hlevel : ¬icuIsLatch n = true := fun hl => by have := icuIsLatch_iff.mp hl; omega
    rw [exec_sourceAssert hs, Bool.eq_false_iff.mpr hlevel]
    rfl
  case shown =>
    rw [icuView_setView, bit_icuPresented hm, Bool.and_eq_true, decide_eq_true_eq, icuPending_iff hm]
    rfl
  case claimed =>
    rw [exec_claim hs hp, icuClaim_shown hn h]
    refine ⟨_, ?_, ?_, ?_, rfl⟩
    · exact (getIcu_setView _ _).trans (getIcu_setIcu s n _)
    · exact icuView_setView _
    · rfl
  case badClaim => rw [exec_claim hs hp, icuClaim_hidden h]
  case completed => rw [exec_complete hs hp, icuComplete_active hn h]
  case badComplete => rw [exec_complete hs hp, icuComplete_inactive h]
  case targets =>
    intro home legal
    have hexec : exec (.retarget path n v) s = .next (retarget path n v s) := live_running hs _
    refine ⟨fun hpath h => ?_, fun h => by rw [hexec, retarget_illegal h]; rfl, fun h => exec_icuSwset_host hs h v, fun hpath => ?_⟩
    · subst hpath
      rw [hexec, retarget_legal hn h]
      refine ⟨_, ?_, ?_, ?_, rfl⟩
      · exact getIcu_setIcu s n _
      · exact cfgR_setCfg _ _ _
      · rfl
    · subst hpath
      refine ⟨_, exec_icuSwset_ranger hs v, fun k hk hv => latch_forEach_setSoft (mem_softMask.mpr ⟨hk, hv⟩), fun m hm _ => ?_,
        forEach_setSoft_only _⟩
      exact getIcu_forEach_setSoft_other fun k hk => (mem_softMask.mp hk).elim (hm k)
  case scrub =>
    refine ⟨exec_iramScrub_clean hs he hw hcur, exec_iramScrub_corrected hs he hw hcur, fun h => ?_, fun h => ?_⟩
    · rw [exec_iramScrub_uncorrectable hs he hw hcur, iramPoison_eq, if_neg h]
      rfl
    · rw [exec_iramScrub_uncorrectable hs he hw hcur, iramPoison_eq, if_pos h]
      rfl

end Sys2Proof.Machine
end

section
/-! SUPPORT. The rows of the instruction tables (R289-R297, R310): what an instruction's entry leaves alone, and what a row comes to
whose stack effect and cost are constants. -/

namespace Sys2Proof.Machine
open Sys2Proof Sys2Proof.Claims

variable {p next n : Nat} {s t : State}

/-! ### What an instruction's entry leaves alone -/

@[simp] theorem ticks_entered : ticks (entered p next n s) = ticks s := by
  rw [entered_only]
  rfl

@[simp] theorem cfgR_entered (a : Nat) : cfgR (entered p next n s) a = cfgR s a := by
  rw [entered_only]
  rfl

@[simp] theorem wordR_entered (a : Nat) : wordR (entered p next n s) a = wordR s a := by
  rw [entered_only]
  rfl

@[simp] theorem flagR_entered (a : Nat) : flagR (entered p next n s) a = flagR s a := by
  rw [entered_only]
  rfl

@[simp] theorem getTimer_entered (k : Nat) : getTimer (entered p next n s) k = getTimer s k := by
  rw [entered_only]
  rfl

@[simp] theorem getIcu_entered (k : Nat) : getIcu (entered p next n s) k = getIcu s k := by
  rw [entered_only]
  rfl

@[simp] theorem dataBad_entered (q a : Nat) : dataBad (entered p next n s) q a = dataBad s q a := by
  rw [entered_only]
  rfl

/-- What executing an instruction makes of the state before its own effect, wherever the program counter stands: a follower that is
repeated is entered at the address of its prefix's successor each time (R308). -/
def issued (x : Ctx) (n : Nat) (s : State) : State :=
  let t := charge x.p n (touchLine x.p (x.next - 1) (touchLine x.p x.addr s))
  setProc x.p { procOf t x.p with pc := x.next } t

@[simp] theorem procOf_issued (x : Ctx) : procOf (issued x n s) x.p = { procOf s x.p with
    pc := x.next, cycles := if x.p = rangerP then (procOf s x.p).cycles else (procOf s x.p).cycles + n } := by
  simp only [issued, procOf_setProc, procOf_charge, procOf_touchLine]

/-- What neither the processor's record nor the order of Ranger's prefetch lines changes, the begin of an instruction does not change. -/
theorem issued_keeps {α : Type} (F : State → α) (x : Ctx) (hset : ∀ y u, F (setProc x.p y u) = F u)
    (htouch : ∀ a u, F (touchLine x.p a u) = F u) : F (issued x n s) = F s := by
  have hcharge : ∀ u, F (charge x.p n u) = F u := fun u => by
    unfold charge
    split
    · rfl
    · exact hset _ _
  simp only [issued, hset, hcharge, htouch]

theorem entered_keeps {α : Type} (F : State → α) (hset : ∀ x u, F (setProc p x u) = F u) (htouch : ∀ a u, F (touchLine p a u) = F u) :
    F (entered p next n s) = F s := issued_keeps F { p := p, addr := pcOf s p, next := next } hset htouch

theorem getEngine_setProc (hp : p ≠ rangerP) (x : Proc) : getEngine (setProc p x s) p = { getEngine s p with proc := x } := by
  simp only [setProc, if_neg hp, getEngine_setEngine]

/-- An instruction's entry leaves an engine all but its processor's record. -/
theorem getEngine_entered (hp : p ≠ rangerP) :
    getEngine (entered p next n s) p = { getEngine s p with proc := procOf (entered p next n s) p } := by
  simp only [entered, charge, if_neg hp, touchLine_engine _ _ _ hp, procOf_setProc, getEngine_setProc hp]

/-! ### The memories at an instruction's entry (R264-R266, R292) -/

@[simp] theorem dataR_setProc (q a : Nat) (x : Proc) : dataR (setProc p x s) q a = dataR s q a := by
  unfold setProc
  split <;> rfl

@[simp] theorem dataR_touchLine (q a b : Nat) : dataR (touchLine p b s) q a = dataR s q a := by
  unfold touchLine
  dsimp only
  split <;> rfl

@[simp] theorem dataR_entered (q a : Nat) : dataR (entered p next n s) q a = dataR s q a :=
  entered_keeps (dataR · q a) (fun _ _ => dataR_setProc ..) (fun _ _ => dataR_touchLine ..)

theorem fetchWord_setProc (q w : Nat) (x : Proc) : fetchWord (setProc p x s) q w = fetchWord s q w := by
  unfold setProc
  split <;> rfl

/-- The prefetch buffer holds the same lines after a use as before it (R454). -/
theorem contains_touchLine (l b : Nat) : (touchLine p b s).mgt.lines.contains l = s.mgt.lines.contains l := by
  unfold touchLine
  dsimp only
  split
  case isTrue h =>
    obtain ⟨-, hheld⟩ := h
    by_cases hl : l = lineOf (b / 4)
    · simpa [hl] using hheld
    · simp [hl]
  case isFalse => rfl

theorem fetchWord_touchLine (q w b : Nat) : fetchWord (touchLine p b s) q w = fetchWord s q w := by
  have hlines := contains_touchLine (p := p) (s := s) (lineOf w) b
  have honly : ∃ l, touchLine p b s = { s with mgt := { s.mgt with lines := l } } := by
    unfold touchLine
    dsimp only
    split
    · exact ⟨_, rfl⟩
    · exact ⟨s.mgt.lines, rfl⟩
  obtain ⟨l, hl⟩ := honly
  rw [hl] at hlines ⊢
  change l.contains (lineOf w) = _ at hlines
  simp only [fetchWord, hlines]
  rfl

theorem slotMapped_congr {u : State} (h : ∀ w, fetchWord u p w = fetchWord s p w) (a : Int) : slotMapped u p a = slotMapped s p a := by
  simp only [slotMapped, h]

@[simp] theorem slotMapped_entered (q : Nat) (a : Int) : slotMapped (entered p next n s) q a = slotMapped s q a :=
  slotMapped_congr (fun w => entered_keeps (fetchWord · q w) (fun _ _ => fetchWord_setProc ..) (fun _ _ => fetchWord_touchLine ..)) a

/-! ### Rows whose stack effect and cost are constants -/

theorem Affords.mono {m : Nat} (h : Affords p n s) (hm : m ≤ n) : Affords p m s := h.imp id (by omega)

/-- A budget that covers the cycles is not over them (R274). -/
theorem Affords.not_over (h : Affords p n s) : ¬(p ≠ rangerP ∧ (procOf s p).budget < (procOf s p).cycles + n) :=
  fun hover => h.elim hover.1 (Nat.not_le.mpr hover.2)

theorem popN_eq_leaves (k : Nat) : popN p k s = leaves p k [] s := rfl

theorem replaceTop_eq_leaves (k : Nat) (ws : List W48) : replaceTop p k ws s = leaves p k ws s := rfl

@[simp] theorem topOf_entered (i : Nat) : topOf (entered p next n s) p i = (procOf s p).stack.getD i 0 := by
  simp only [topOf, procOf_entered]

/-- The row at the program counter of a processor that runs is executed (R289). -/
theorem runRow_at {ops : List EOp} {op : EOp} {code : Nat} (h : At p code s) (his : op.is p code s = true) :
    runRow ops op p s = .next (settle p (runOp ops op p code s)) := by
  obtain ⟨hs, hr, hf⟩ := h
  simp only [runRow, live_running hs, hr, if_true, hf, his]

/-- A row that takes `ins` items, leaves `outs` in their place and costs `cy` cycles, and is neither a call nor a prefix. -/
structure Shaped (op : EOp) (ins outs cy : Nat) : Prop where
  pops (x : Ctx) (pr : Proc) : op.pops x pr = ins
  pushes (x : Ctx) (pr : Proc) : op.pushes x pr = outs
  cycles (x : Ctx) (pr : Proc) (s : State) : op.cycles x pr s = cy
  calls : op.calls = false
  repeats : op.repeats = none

/-- A row's shape is read off its columns. -/
theorem Shaped.of_eq {op : EOp} {ins outs cy : Nat} (h : (op.pops, op.pushes, op.cycles, op.calls, op.repeats) =
    (fun _ _ => ins, fun _ _ => outs, fun _ _ _ => cy, false, none)) : Shaped op ins outs cy := by
  simp only [Prod.mk.injEq] at h
  obtain ⟨hpops, hpushes, hcycles, hcalls, hrepeats⟩ := h
  exact ⟨fun x pr => congrFun (congrFun hpops x) pr, fun x pr => congrFun (congrFun hpushes x) pr,
    fun x pr s => congrFun (congrFun (congrFun hcycles x) pr) s, hcalls, hrepeats⟩

section
variable {ops : List EOp} {op : EOp} {ins outs cy code nx c a : Nat} {v : W48} (hop : Shaped op ins outs cy)
include hop

section
variable (ha : Affords p cy s) (hu : ins ≤ (procOf s p).stack.length) (ho : (procOf s p).stack.length - ins + outs ≤ 32)
include ha hu ho

theorem Shaped.checks_none (x : Ctx) (hx : x.p = p) : checks op x s = none := by
  subst hx
  refine Machine.checks_none ?_ ?_ ?_ ?_
  · rwa [hop.cycles]
  · rwa [hop.pops]
  · rwa [hop.pops, hop.pushes]
  · simp only [hop.calls, Bool.false_eq_true, false_implies]

end

variable (h : At p code s) (his : op.is p code s = true) (hopnd : operandOf op p (pcOf s p) s = .ok (v, nx))
include h his hopnd

section
variable (ha : Affords p cy s) (hu : ins ≤ (procOf s p).stack.length) (ho : (procOf s p).stack.length - ins + outs ≤ 32)
include ha hu ho

/-- The row's checks pass and its effect goes on. -/
theorem Shaped.goes (hrun : op.run { p := p, addr := pcOf s p, k := code - op.lo, opnd := v, next := nx } (entered p nx cy s) = .go t) :
    runRow ops op p s = .next t :=
  runRow_go h his hop.repeats hopnd (hop.checks_none ha hu ho _ rfl) (by rw [hop.cycles]; exact hrun)

/-- The row's checks pass and its effect faults at once. -/
theorem Shaped.faults (hrun : op.run { p := p, addr := pcOf s p, k := code - op.lo, opnd := v, next := nx } (entered p nx cy s) =
    .fault c a (entered p nx cy s)) : runRow ops op p s = .next (procFault p c a (withoutEffect p nx cy s)) := by
  rw [runRow_fault h his hop.repeats hopnd (hop.checks_none ha hu ho _ rfl) (by rw [hop.cycles]; exact hrun)]
  simp only [withoutEffect, procOf_entered]

end

/-- The row's cycles are more than the budget has left. -/
theorem Shaped.overBudget (ha : ¬Affords p cy s) : runRow ops op p s = .next (procFault p 3 (pcOf s p) s) := by
  obtain ⟨hr, hb⟩ := not_or.mp ha
  refine runRow_check h his hop.repeats hopnd ?_
  simp only [checks, hop.cycles, if_pos (And.intro hr (Nat.not_le.mp hb))]

/-- The operand stack holds fewer items than the row takes. -/
theorem Shaped.underflows (ha : Affords p cy s) (hu : (procOf s p).stack.length < ins) :
    runRow ops op p s = .next (procFault p 5 (pcOf s p) s) := by
  refine runRow_check h his hop.repeats hopnd ?_
  simp only [checks, hop.cycles, hop.pops, if_neg ha.not_over, if_pos hu]

/-- The operand stack would hold more than its 32 items. -/
theorem Shaped.overflows (ha : Affords p cy s) (hu : ins ≤ (procOf s p).stack.length)
    (ho : 32 < (procOf s p).stack.length - ins + outs) : runRow ops op p s = .next (procFault p 4 (pcOf s p) s) := by
  refine runRow_check h his hop.repeats hopnd ?_
  simp only [checks, hop.cycles, hop.pops, hop.pushes, if_neg ha.not_over, if_neg (Nat.not_lt.mpr hu), if_pos ho]

end

end Sys2Proof.Machine
end

section
/-! SUPPORT. The arithmetic of the instructions (R296, R299-R301) as the instruction tables state it. -/

namespace Sys2Proof.Machine
open Sys2Proof Sys2Proof.Claims

/-! ### Words -/

/-- An n-bit field read in two's complement. -/
theorem signed_eq_toInt (n v : Nat) (hn : 0 < n) : signed n v = (BitVec.ofNat n v).toInt := by
  obtain ⟨m, rfl⟩ : ∃ m, n = m + 1 := ⟨n - 1, by omega⟩
  simp only [signed, BitVec.toInt_eq_toNat_cond, BitVec.toNat_ofNat, Nat.add_sub_cancel, Nat.pow_succ]
  split <;> split <;> omega

theorem ofInt_signed (n v : Nat) (hn : 0 < n) : ofInt (signed n v) = (BitVec.ofNat n v).signExtend 48 := by
  rw [signed_eq_toInt n v hn]
  rfl

theorem toNat_ofNat_of_lt {v m : Nat} (h : v < 2 ^ m) (hm : m ≤ 48) : (BitVec.ofNat 48 v).toNat = v :=
  (BitVec.toNat_ofNat ..).trans (Nat.mod_eq_of_lt (Nat.lt_of_lt_of_le h (Nat.pow_le_pow_right (by decide) hm)))

/-! ### Arithmetic (R299) -/

theorem add_eq_ofInt (a b : W48) : a + b = BitVec.ofInt 48 (a.toInt + b.toInt) := by
  rw [BitVec.ofInt_add, BitVec.ofInt_toInt, BitVec.ofInt_toInt]

theorem sub_eq_ofInt (a b : W48) : a - b = BitVec.ofInt 48 (a.toInt - b.toInt) := by
  rw [Int.sub_eq_add_neg, BitVec.ofInt_add, BitVec.ofInt_neg, BitVec.ofInt_toInt, BitVec.ofInt_toInt, BitVec.sub_eq_add_neg]

theorem mul_eq_ofInt (a b : W48) : a * b = BitVec.ofInt 48 (a.toInt * b.toInt) := by
  rw [BitVec.ofInt_mul, BitVec.ofInt_toInt, BitVec.ofInt_toInt]

theorem wMulh_eq (a b : W48) : wMulh a b = BitVec.ofInt 48 (a.toInt * b.toInt / 2 ^ 48) := by
  rw [wMulh, Int.fdiv_eq_ediv_of_nonneg _ (by decide)]
  rfl

theorem wAbs_eq (a : W48) : wAbs a = if a.toInt < 0 then -a else a := by
  unfold wAbs ofInt sval
  split
  case isTrue h => rw [Int.ofNat_natAbs_of_nonpos (Int.le_of_lt h), BitVec.ofInt_neg, BitVec.ofInt_toInt]
  case isFalse h => rw [Int.natAbs_of_nonneg (Int.not_lt.mp h), BitVec.ofInt_toInt]

theorem wMin_eq (a b : W48) : wMin a b = if b.toInt < a.toInt then b else a := by
  simp only [wMin, sval, ← Int.not_lt, ite_not]

theorem wMax_eq (a b : W48) : wMax a b = if b.toInt < a.toInt then a else b := by
  simp only [wMax, sval, ← Int.not_lt, ite_not]

theorem toInt_wMin (a b : W48) : (wMin a b).toInt = min a.toInt b.toInt := by
  rw [wMin_eq]
  split <;> omega

theorem toInt_wMax (a b : W48) : (wMax a b).toInt = max a.toInt b.toInt := by
  rw [wMax_eq]
  split <;> omega

theorem wMin_wMax_eq (x a b : W48) : wMin (wMax x a) b = BitVec.ofInt 48 (min (max x.toInt a.toInt) b.toInt) := by
  rw [← toInt_wMax, ← toInt_wMin, BitVec.ofInt_toInt]

theorem sub_tdiv_mul_eq_tmod (a b : Int) : a - a.tdiv b * b = a.tmod b := by
  rw [Int.tmod_def, Int.mul_comm]

/-! ### Shifts and fields (R300) -/

theorem wShl_eq (a n : W48) : wShl a n = a <<< n.toNat := by
  unfold wShl
  split
  case isTrue h => exact (BitVec.shiftLeft_eq_zero h).symm
  case isFalse => rfl

theorem wShr_eq (a n : W48) : wShr a n = a >>> n.toNat := by
  unfold wShr
  split
  case isTrue h => exact (BitVec.ushiftRight_eq_zero h).symm
  case isFalse => rfl

/-- A count of 48 or more gives the sign fill. -/
theorem wSar_eq (a n : W48) : wSar a n = a.sshiftRight n.toNat := by
  unfold wSar
  rcases Nat.lt_or_ge n.toNat 48 with h | h
  · rw [Nat.min_eq_left (by omega)]
  · ext i hi
    simp only [BitVec.getElem_sshiftRight, Nat.min_eq_right (by omega : 47 ≤ n.toNat), show ¬ n.toNat + i < 48 by omega, dite_false]
    split
    · next hlt =>
      have : i = 0 := by omega
      subst this
      rw [BitVec.msb_eq_getLsbD_last]
      rfl
    · rfl

theorem wField_eq (a l w : W48) : wField a l w = BitVec.ofNat 48 ((a >>> l.toNat).toNat % 2 ^ w.toNat) := by
  unfold wField
  split
  case isTrue h => rw [BitVec.ushiftRight_eq_zero h]; simp
  case isFalse =>
    split
    case isTrue h =>
      rw [Nat.mod_eq_of_lt (Nat.lt_of_lt_of_le (a >>> l.toNat).isLt (Nat.pow_le_pow_right (by decide) h)), BitVec.ofNat_toNat,
        BitVec.setWidth_eq]
    case isFalse => rw [BitVec.toNat_ushiftRight]

theorem wPopc_eq (a : W48) : wPopc a = BitVec.ofNat 48 ((List.range 48).countP (fun i => a.getLsbD i)) := by
  rw [List.countP_eq_length_filter]
  rfl

/-- The numbers below m up to the first that fails a test. -/
theorem length_takeWhile_range {q : Nat → Bool} {k m : Nat} (hk : k ≤ m) (hbelow : ∀ i < k, q i = true) (hstop : k < m → q k = false) :
    ((List.range m).takeWhile q).length = k := by
  obtain ⟨d, rfl⟩ := Nat.exists_eq_add_of_le hk
  rw [List.range_add, List.takeWhile_append_of_pos (fun i hi => hbelow i (List.mem_range.mp hi))]
  cases d with
  | zero => simp
  | succ d => simp [List.range_succ_eq_map, hstop (by omega)]

theorem wClz_eq (a : W48) : wClz a = if a = 0 then 48 else BitVec.ofNat 48 (47 - a.toNat.log2) := by
  unfold wClz
  split
  case isTrue h =>
    subst h
    rw [length_takeWhile_range (Nat.le_refl 48) (by simp [bit]) (by omega)]
    rfl
  case isFalse h =>
    have hne : a.toNat ≠ 0 := fun hn => h (BitVec.eq_of_toNat_eq hn)
    have hlog : a.toNat.log2 < 48 := (Nat.log2_lt hne).mpr a.isLt
    rw [length_takeWhile_range (k := 47 - a.toNat.log2) (by omega) (fun i hi => ?_) (fun _ => ?_)]
    · have : a.toNat < 2 ^ (47 - i) := (Nat.log2_lt hne).mp (by omega)
      simp [bit, BitVec.getLsbD, Nat.testBit_lt_two_pow this]
    · simp [bit, BitVec.getLsbD, show 47 - (47 - a.toNat.log2) = a.toNat.log2 by omega, Nat.testBit_log2 hne]

/-! ### Flags (R296) -/

theorem flag_decide (P : Prop) [Decidable P] : flag (decide P) = if P then BitVec.allOnes 48 else 0 := by
  simp only [flag, decide_eq_true_eq]

end Sys2Proof.Machine
end

section
/-! SUPPORT. The instructions that only work on the operand stack (R296, R298-R301): stack moves and literals, and one, two or three
items in and one out. -/

namespace Sys2Proof.Machine
open Sys2Proof Sys2Proof.Claims

variable {p : Nat} {s : State} {rest : List W48}

/-- A command of the hub is a row of the instruction tables. -/
def IsRow (i : Nat → Instr) (op : EOp) : Prop := ∀ p s, exec (i p) s = runRow [] op p s

/-- Every code of a row's range is the row's where the row is defined everywhere. -/
theorem is_of_between {op : EOp} {code : Nat} (hlo : op.lo ≤ code) (hhi : code ≤ op.hi) (hdef : ∀ k, op.defined p k s = true) :
    op.is p code s = true := by
  simp only [EOp.is, hlo, hhi, hdef, and_self, decide_true, Bool.and_self]

theorem stackRun_eq_leaves (k : Nat) (f : List W48 → List W48) (x : Ctx) :
    stackRun k f x s = .go (leaves x.p k (f ((procOf s x.p).stack.take k).reverse) s) := rfl

/-! ### Shapes (R295) -/

section
variable {i : Nat → Instr} {code cy : Nat} (h : At p code s) (ha : Affords p cy s)
include h ha

theorem exec_unOp {f : W48 → W48} {a : W48} (hi : IsRow i (unOp code cy f)) (hst : (procOf s p).stack = a :: rest) (hl : rest.length < 32) :
    exec (i p) s = .next (leaves p 1 [f a] (entered p (pcOf s p + 1) cy s)) := by
  have hd : (procOf s p).stack.length = rest.length + 1 := by rw [hst]; rfl
  rw [hi, unOp, runRow_pure h ha (by omega) (by omega), hst]
  rfl

theorem exec_binOp {f : W48 → W48 → W48} {a b : W48} (hi : IsRow i (binOp code cy f)) (hst : (procOf s p).stack = b :: a :: rest)
    (hl : rest.length < 31) : exec (i p) s = .next (leaves p 2 [f a b] (entered p (pcOf s p + 1) cy s)) := by
  have hd : (procOf s p).stack.length = rest.length + 2 := by rw [hst]; rfl
  rw [hi, binOp, runRow_pure h ha (by omega) (by omega), hst]
  rfl

theorem exec_triOp {f : W48 → W48 → W48 → W48} {a b c : W48}
    (hi : IsRow i (pureOp code 3 1 cy (fun l => [f (l.getD 0 0) (l.getD 1 0) (l.getD 2 0)])))
      (hst : (procOf s p).stack = c :: b :: a :: rest)
    (hl : rest.length < 30) : exec (i p) s = .next (leaves p 3 [f a b c] (entered p (pcOf s p + 1) cy s)) := by
  have hd : (procOf s p).stack.length = rest.length + 3 := by rw [hst]; rfl
  rw [hi, runRow_pure h ha (by omega) (by omega), hst]
  rfl

end

theorem exec_unRange {i : Nat → Instr} {lo hi k : Nat} {f : W48 → Nat → W48} {a : W48} (hrow : IsRow i (unRange lo hi f))
    (h : At p (lo + k) s) (ha : Affords p 1 s) (hk : lo + k ≤ hi) (hst : (procOf s p).stack = a :: rest) (hl : rest.length < 32) :
    exec (i p) s = .next (leaves p 1 [f a k] (entered p (pcOf s p + 1) 1 s)) := by
  have hd : (procOf s p).stack.length = rest.length + 1 := by rw [hst]; rfl
  rw [hrow]
  refine Shaped.goes (op := unRange lo hi f) (ins := 1) (outs := 1) (.of_eq rfl) h (is_of_between (Nat.le_add_right _ _) hk fun _ => rfl)
    (operandOf_none rfl rfl) ha (by omega) (by omega) ?_
  simp only [unRange, stackRun_eq_leaves, procOf_entered, hst, Nat.add_sub_cancel_left]
  rfl

/-! ### Stack moves (R298) -/

/-- The rows of the stack instructions but NOP. -/
theorem stackMoves_rows : ∀ r ∈ stackMoves.tail, ∃ outs f, IsRow r.1 (pureOp r.2.1 r.2.2.1 outs 1 f) ∧
    ∀ items : List W48, items.length = r.2.2.1 → f items = r.2.2.2 items ∧ (f items).length = outs := by
  simp only [stackMoves, List.tail_cons, List.forall_mem_cons, List.not_mem_nil, false_implies, implies_true, and_true]
  refine ⟨?dup, ?drop, ?swap, ?overOp, ?rot, ?nip, ?tuck⟩
  all_goals refine ⟨_, _, fun _ _ => rfl, fun items hlen => ?_⟩
  case dup => obtain ⟨a, rfl⟩ := List.length_eq_one_iff.mp hlen; exact ⟨rfl, rfl⟩
  case drop => exact ⟨rfl, rfl⟩
  case rot => obtain ⟨a, b, c, rfl⟩ := List.length_eq_three.mp hlen; exact ⟨rfl, rfl⟩
  all_goals obtain ⟨a, b, rfl⟩ := List.length_eq_two.mp hlen; exact ⟨rfl, rfl⟩

/-- The named items at the top of the stack are the ones the row takes. -/
theorem reverse_take_of_prefix {items st : List W48} (h : items.reverse <+: st) : (st.take items.length).reverse = items := by
  rw [← List.length_reverse, ← List.prefix_iff_eq_take.mp h, List.reverse_reverse]

theorem exec_nop (h : At p 0x000 s) (ha : Affords p 1 s) (hl : (procOf s p).stack.length ≤ 32) :
    exec (.nop p) s = .next (entered p (pcOf s p + 1) 1 s) :=
  Shaped.goes (op := opNop) (ins := 0) (outs := 0) (.of_eq rfl) h rfl (operandOf_none rfl rfl) ha (Nat.zero_le _) hl rfl

theorem stack_moves : StackMoves := by
  intro p s r hr h ha items hlen hpre hfit
  rcases List.mem_cons.mp hr with rfl | hr
  · rw [List.length_eq_zero_iff.mp hlen, leaves_none]
    exact exec_nop h ha hfit
  · obtain ⟨outs, f, hrow, hf⟩ := stackMoves_rows r hr
    obtain ⟨heq, hout⟩ := hf items hlen
    have hle : items.length ≤ (procOf s p).stack.length := by simpa using hpre.length_le
    rw [← heq] at hfit ⊢
    rw [hrow, runRow_pure h ha (by omega) (by omega), ← hlen, reverse_take_of_prefix hpre]
    rfl

/-! ### Literals (R290, R291, R298) -/

theorem literals : Literals := by
  intro p s hl
  have hzero : (procOf s p).stack.length - 0 + 1 ≤ 32 := hl
  refine ⟨fun h ha => ?depth, fun k hk h ha => ?lits, fun k hk h ha x hx => ?pick, fun k hk h ha hd => ?beyond,
    fun v hv h ha hf => ?lit8, fun w h ha hf => ?litw⟩
  case depth =>
    refine Shaped.goes (op := opDepth) (ins := 0) (outs := 1) (.of_eq rfl) h rfl (operandOf_none rfl rfl) ha (Nat.zero_le _) hzero ?_
    simp only [opDepth, stackRun_eq_leaves, procOf_entered]
  case lits =>
    refine Shaped.goes (op := opLits) (ins := 0) (outs := 1) (.of_eq rfl) h
      (is_of_between (Nat.le_add_right _ _) (Nat.add_le_add_left (Nat.le_of_lt_succ hk) 0x20) fun _ => rfl)
      (operandOf_none rfl rfl) ha (Nat.zero_le _) hzero ?_
    simp only [opLits, stackRun_eq_leaves, Nat.add_sub_cancel_left]
    rfl
  case pick =>
    obtain ⟨hlt, -⟩ := List.getElem?_eq_some_iff.mp hx
    refine runRow_go (op := opPick) h
      (is_of_between (Nat.le_add_right _ _) (Nat.add_le_add_left (Nat.le_of_lt_succ hk) 0x40) fun _ => rfl) rfl
      (operandOf_none rfl rfl) (checks_none ha ?_ ?_ (by simp [opPick])) ?_
    · simp only [opPick, Nat.add_sub_cancel_left]; omega
    · simp only [opPick, Nat.add_sub_cancel_left]; omega
    · simp only [opPick, stackRun_eq_leaves, procOf_entered, Nat.add_sub_cancel_left, List.getD_eq_getElem?_getD, hx]
      rfl
  case beyond =>
    refine runRow_check (op := opPick) (c := 5) h
      (is_of_between (Nat.le_add_right _ _) (Nat.add_le_add_left (Nat.le_of_lt_succ hk) 0x40) fun _ => rfl) rfl
      (operandOf_none rfl rfl) ?_
    simp only [checks, opPick, Nat.add_sub_cancel_left, if_neg ha.not_over, if_pos (Nat.lt_succ_of_le hd)]
  case lit8 =>
    refine Shaped.goes (op := opLit8) (ins := 0) (outs := 1) (.of_eq rfl) h rfl (operandOf_slot rfl (by decide) hf hv) ha
      (Nat.zero_le _) hzero ?_
    simp only [opLit8, stackRun_eq_leaves, toNat_ofNat_of_lt (m := 8) hv (by decide), ofInt_signed 8 v (by decide)]
  case litw =>
    refine Shaped.goes (op := opLitw) (ins := 0) (outs := 1) (nx := 4 * (pcOf s p / 4 + 2)) (v := w) (.of_eq rfl) h rfl ?_ ha
      (Nat.zero_le _) hzero rfl
    simp only [operandOf, opLitw, if_true, hf]

/-- Settles O1, from the rows of the stack instructions and from those that push one word. -/
theorem stackAndLiterals : Obligations.StackAndLiterals := ⟨stack_moves, literals⟩

/-! ### One item (R299-R301) -/

theorem oneInOne_rows : ∀ r ∈ oneInOne, ∃ f, IsRow r.1 (unOp r.2.1 r.2.2.1 f) ∧ ∀ a, f a = r.2.2.2 a := by
  simp only [oneInOne, List.forall_mem_cons, List.not_mem_nil, false_implies, implies_true, and_true]
  refine ⟨?neg, ?abs, ?inc, ?dec, ?not, ?popc, ?clz, ?zeq, ?zlt⟩
  all_goals refine ⟨_, fun _ _ => rfl, fun a => ?_⟩
  case neg | inc | dec | not => rfl
  case abs => exact wAbs_eq a
  case popc => exact wPopc_eq a
  case clz => exact wClz_eq a
  case zeq | zlt => exact flag_decide _

theorem one_item : OneItem := by
  intro p s a rest hst hl r hr h ha
  obtain ⟨f, hrow, hf⟩ := oneInOne_rows r hr
  rw [exec_unOp h ha hrow hst hl, hf]

/-! ### Two items (R299-R301) -/

theorem twoInOne_rows : ∀ r ∈ twoInOne, ∃ f, IsRow r.1 (binOp r.2.1 r.2.2.1 f) ∧ ∀ a b, f a b = r.2.2.2 a b := by
  simp only [twoInOne, List.forall_mem_cons, List.not_mem_nil, false_implies, implies_true, and_true]
  refine ⟨?add, ?sub, ?mul, ?mulh, ?min, ?max, ?and, ?or, ?xor, ?shl, ?shr, ?sar⟩
  all_goals refine ⟨_, fun _ _ => rfl, fun a b => ?_⟩
  case and | or | xor => rfl
  case add => exact add_eq_ofInt a b
  case sub => exact sub_eq_ofInt a b
  case mul => exact mul_eq_ofInt a b
  case mulh => exact wMulh_eq a b
  case min => exact wMin_eq a b
  case max => exact wMax_eq a b
  case shl => exact wShl_eq a b
  case shr => exact wShr_eq a b
  case sar => exact wSar_eq a b

theorem two_items : TwoItems := by
  intro p s a b rest hst hl r hr h ha
  obtain ⟨f, hrow, hf⟩ := twoInOne_rows r hr
  rw [exec_binOp h ha hrow hst hl, hf]

theorem comparisons_rows : ∀ r ∈ comparisons, ∃ f : W48 → W48 → Bool, IsRow r.1 (binOp r.2.1 1 (fun a b => flag (f a b))) ∧
    ∀ a b, f a b = r.2.2 a b := by
  simp only [comparisons, List.forall_mem_cons, List.not_mem_nil, false_implies, implies_true, and_true]
  refine ⟨?eq, ?ne, ?lt, ?le, ?gt, ?ge, ?ult, ?uge⟩
  all_goals refine ⟨_, fun _ _ => rfl, fun a b => ?_⟩
  case eq | ne => exact Bool.eq_iff_iff.mpr (by simp [BitVec.toNat_inj])
  all_goals rfl

theorem comparisons_hold : Comparisons := by
  intro p s a b rest hst hl r hr h ha
  obtain ⟨f, hrow, hf⟩ := comparisons_rows r hr
  rw [exec_binOp h ha hrow hst hl, hf]
  rfl

/-! ### Three items, and shifts by the code's count (R300, R301) -/

theorem three_items : ThreeItems := by
  intro p s x l h rest hst hl ha
  refine ⟨fun hat => ?field, fun hat => ?within⟩
  case field => rw [exec_triOp hat ha (f := wField) (fun _ _ => rfl) hst hl, wField_eq]
  case within =>
    rw [exec_triOp hat ha (f := fun x l h => flag (decide (sval l ≤ sval x ∧ sval x ≤ sval h))) (fun _ _ => rfl) hst hl, flag_decide]
    rfl

theorem constant_shifts : ConstantShifts := by
  intro p s a rest hst hl ha k hk
  exact ⟨fun h => exec_unRange (fun _ _ => rfl) h ha (by omega) hst hl, fun h => exec_unRange (fun _ _ => rfl) h ha (by omega) hst hl,
    fun h => exec_unRange (fun _ _ => rfl) h ha (by omega) hst hl⟩

/-- Settles O2, from the row of each instruction and from the function of words that it computes. -/
theorem logicAndComparisons : Obligations.LogicAndComparisons :=
  ⟨one_item, two_items, comparisons_hold, three_items, constant_shifts⟩

end Sys2Proof.Machine
end

section
/-! SUPPORT. Division and the fixed-point instructions (R299, R306): DIV and MOD with their fault, what saturates, and how far a rounded
quotient and a rounded square root are from the exact ones. -/

namespace Sys2Proof.Machine
open Sys2Proof Sys2Proof.Claims

variable {p : Nat} {s : State} {rest : List W48} {i : Nat → Instr} {code cy : Nat}

/-! ### DIV and MOD (R299) -/

section
variable {f : W48 → W48 → W48} {a b : W48} (hi : IsRow i (divOp code f)) (h : At p code s) (ha : Affords p 26 s)
  (hst : (procOf s p).stack = b :: a :: rest) (hl : rest.length < 31)
include hi h ha hst hl

theorem exec_divOp (hb : b ≠ 0) : exec (i p) s = .next (leaves p 2 [f a b] (entered p (pcOf s p + 1) 26 s)) := by
  have hd : (procOf s p).stack.length = rest.length + 2 := by rw [hst]; rfl
  rw [hi]
  refine Shaped.goes (op := divOp code f) (ins := 2) (outs := 1) (.of_eq rfl) h
    (is_of_between (Nat.le_refl _) (Nat.le_refl _) fun _ => rfl)
    (operandOf_none rfl rfl) ha (by omega) (by omega) ?_
  simp only [divOp, stackRun_eq_leaves, procOf_entered, hst, List.getD_cons_zero, if_neg hb]
  rfl

theorem exec_divOp_zero (hb : b = 0) : exec (i p) s = .next (procFault p 12 (pcOf s p) (withoutEffect p (pcOf s p + 1) 26 s)) := by
  have hd : (procOf s p).stack.length = rest.length + 2 := by rw [hst]; rfl
  rw [hi]
  refine Shaped.faults (op := divOp code f) (ins := 2) (outs := 1) (.of_eq rfl) h
    (is_of_between (Nat.le_refl _) (Nat.le_refl _) fun _ => rfl)
    (operandOf_none rfl rfl) ha (by omega) (by omega) ?_
  simp only [divOp, procOf_entered, hst, List.getD_cons_zero, if_pos hb]

end

theorem div_mod : DivMod := by
  intro p s a b rest hst hl ha
  refine ⟨fun h hb => exec_divOp (i := .div) (fun _ _ => rfl) h ha hst hl hb, fun h hb => ?_⟩
  rw [exec_divOp (i := .mod) (fun _ _ => rfl) h ha hst hl hb, sub_tdiv_mul_eq_tmod]
  rfl

/-! ### Saturation (R306) -/

/-- The effect of a saturating row on the items it takes, deepest first. -/
theorem satOp_run {k : Nat} {f : List Int → Int} {x : Ctx} {items : List W48} (hst : (procOf s x.p).stack = items.reverse ++ rest)
    (hk : items.length = k) : (satOp code k cy f).run x s =
      .go (setSat x.p (saturate (f (items.map sval))).2 (leaves x.p k [(saturate (f (items.map sval))).1] s)) := by
  have htake : ((procOf s x.p).stack.take k).reverse = items := by
    rw [hst, List.take_left' (by rw [List.length_reverse, hk]), List.reverse_reverse]
  rw [saturate_eq_satQ]
  simp only [satOp, htake, replaceTop_eq_leaves]

theorem exec_satOp {k : Nat} {f : List Int → Int} {items : List W48} (hi : IsRow i (satOp code k cy f)) (h : At p code s)
    (ha : Affords p cy s) (hst : (procOf s p).stack = items.reverse ++ rest) (hk : items.length = k) (hl : rest.length < 32) :
    exec (i p) s = .next (setSat p (saturate (f (items.map sval))).2
      (leaves p k [(saturate (f (items.map sval))).1] (entered p (pcOf s p + 1) cy s))) := by
  have hd : (procOf s p).stack.length = k + rest.length := by rw [hst, List.length_append, List.length_reverse, hk]
  rw [hi]
  exact Shaped.goes (op := satOp code k cy f) (ins := k) (outs := 1) (.of_eq rfl) h
    (is_of_between (Nat.le_refl _) (Nat.le_refl _) fun _ => rfl)
    (operandOf_none rfl rfl) ha (by omega) (by omega) (satOp_run (by rw [procOf_entered]; exact hst) hk)

theorem saturate_of_lt {m : Nat} (h : m < 2 ^ 47) : saturate m = (BitVec.ofNat 48 m, false) := by
  have hmax : max (-(2 ^ 47)) (min (2 ^ 47 - 1) (m : Int)) = m := by omega
  simp only [saturate, hmax, BitVec.ofInt_natCast, Prod.mk.injEq, decide_eq_false_iff_not, true_and]
  omega

theorem saturating_rows : ∀ r ∈ saturating, ∃ f, IsRow r.1 (satOp r.2.1 2 r.2.2.1 f) ∧ ∀ a b, f [a, b] = r.2.2.2 a b := by
  simp only [saturating, List.forall_mem_cons, List.not_mem_nil, false_implies, implies_true, and_true]
  refine ⟨?adds, ?subs, ?mulq⟩
  all_goals exact ⟨_, fun _ _ => rfl, fun _ _ => rfl⟩

/-! ### Rounding (R306) -/

/-- Searching bits b - 1 down to 0 above a lower bound finds the integer square root. -/
theorem isqrtFrom_bounds {m b r : Nat} (hlo : r * r ≤ m) (hhi : m < (r + 2 ^ b) * (r + 2 ^ b)) :
    isqrtFrom m b r * isqrtFrom m b r ≤ m ∧ m < (isqrtFrom m b r + 1) * (isqrtFrom m b r + 1) := by
  induction b generalizing r with
  | zero => exact ⟨hlo, hhi⟩
  | succ b ih =>
    unfold isqrtFrom
    split
    case isTrue h => exact ih h (by rwa [Nat.add_assoc, ← Nat.two_mul, ← Nat.pow_succ'])
    case isFalse h => exact ih hlo (Nat.not_le.mp h)

theorem isqrt_bounds {m : Nat} (hm : m < 2 ^ 128) : isqrt m * isqrt m ≤ m ∧ m < (isqrt m + 1) * (isqrt m + 1) :=
  isqrtFrom_bounds (Nat.zero_le _) hm

/-- A rounded square root is less than half from the exact one: four times a whole number is no odd square. -/
theorem roundSqrt_near {m : Nat} (hm : m < 2 ^ 128) :
    (roundSqrt m 1 = 0 ∨ (2 * roundSqrt m 1 - 1) ^ 2 < 4 * m) ∧ 4 * m < (2 * roundSqrt m 1 + 1) ^ 2 := by
  obtain ⟨hlo, hhi⟩ := isqrt_bounds hm
  simp only [roundSqrt, Nat.div_one, Nat.mul_one]
  generalize isqrt m = r at hlo hhi ⊢
  have hodd : (2 * r + 1) * (2 * r + 1) = 4 * (r * r) + 4 * r + 1 := by ring
  have hnext : (r + 1) * (r + 1) = r * r + 2 * r + 1 := by ring
  split
  case isTrue hbelow =>
    refine ⟨?_, by rwa [pow_two]⟩
    rcases Nat.eq_zero_or_pos r with hr | hr
    · exact .inl hr
    · have hprev : (2 * r - 1) ^ 2 + 4 * r = 4 * (r * r) + 1 := by
        obtain ⟨k, rfl⟩ := Nat.exists_eq_add_of_lt hr
        simp only [Nat.zero_add, show 2 * (k + 1) - 1 = 2 * k + 1 by omega]
        ring
      exact .inr (by omega)
  case isFalse habove =>
    have hafter : (2 * (r + 1) + 1) ^ 2 = 4 * ((r + 1) * (r + 1)) + 4 * (r + 1) + 1 := by ring
    have hthis : (2 * (r + 1) - 1) ^ 2 = (2 * r + 1) * (2 * r + 1) := by
      rw [show 2 * (r + 1) - 1 = 2 * r + 1 by omega, pow_two]
    rw [if_pos (show (2 * r + 1) * (2 * r + 1) < 4 * m by omega)]
    exact ⟨.inr (by omega), by omega⟩

theorem roundSqrt_lt {m : Nat} (hm : m < 2 ^ 71) : roundSqrt m 1 < 2 ^ 47 := by
  obtain ⟨hlo, -⟩ := roundSqrt_near (Nat.lt_trans hm (by decide))
  refine Nat.lt_of_not_le fun hbig => ?_
  have hsq : (2 ^ 47) ^ 2 ≤ (2 * roundSqrt m 1 - 1) ^ 2 := Nat.pow_le_pow_left (by omega) 2
  omega

theorem rounds_to_even : RoundsToEven := by
  refine ⟨fun n d hd => ?_, fun m hm => roundSqrt_near (Nat.lt_trans hm (by decide))⟩
  obtain ⟨hlo, hhi, htie⟩ := roundDiv_bounds n hd
  rw [Int.mul_comm (roundDiv n d)] at hlo hhi htie
  exact ⟨by omega, fun h => htie (by omega)⟩

/-! ### The fixed-point instructions (R306) -/

section
variable {a b x : W48}

theorem exec_sqrtq (h : At p 0x807 s) (ha : Affords p 26 s) (hst : (procOf s p).stack = b :: rest) (hl : rest.length < 32) :
    exec (.sqrtq p) s = .next (leaves p 1 [BitVec.ofNat 48 (roundSqrt (b.toInt.toNat * 2 ^ 24) 1)] (entered p (pcOf s p + 1) 26 s)) := by
  have hb : b.toInt < 2 ^ 47 := by have := BitVec.toInt_lt (x := b); omega
  have hroot := saturate_of_lt (roundSqrt_lt (m := b.toInt.toNat * 2 ^ 24) (by omega))
  refine (exec_satOp (i := .sqrtq) (items := [b]) (fun _ _ => rfl) h ha hst rfl hl).trans ?_
  change Host.Outcome.next (setSat p (saturate (roundSqrt (b.toInt.toNat * 2 ^ 24) 1 : Nat)).2
    (leaves p 1 [(saturate (roundSqrt (b.toInt.toNat * 2 ^ 24) 1 : Nat)).1] _)) = _
  rw [hroot]
  rfl

theorem exec_divq (h : At p 0x806 s) (ha : Affords p 26 s) (hst : (procOf s p).stack = b :: a :: rest) (hl : rest.length < 31)
    (hb : b ≠ 0) :
    exec (.divq p) s = .next (setSat p (saturate (roundDiv (a.toInt * 2 ^ 24 * b.toInt.sign) b.toInt.natAbs)).2
      (leaves p 2 [(saturate (roundDiv (a.toInt * 2 ^ 24 * b.toInt.sign) b.toInt.natAbs)).1] (entered p (pcOf s p + 1) 26 s))) := by
  have hd : (procOf s p).stack.length = rest.length + 2 := by rw [hst]; rfl
  refine Shaped.goes (op := opDivq) (ins := 2) (outs := 1) (.of_eq rfl) h rfl (operandOf_none rfl rfl) ha (by omega) (by omega) ?_
  have hsat := satOp_run (code := 0x806) (cy := 26) (k := 2) (f := fun l => quotQ (l.getD 0 0) (l.getD 1 0)) (items := [a, b])
    (rest := rest)
    (s := entered p (pcOf s p + 1) 26 s) (x := { p := p, addr := pcOf s p, k := 0x806 - opDivq.lo, opnd := 0, next := pcOf s p + 1 })
    (by rw [procOf_entered]; exact hst) rfl
  simp only [opDivq, topOf_entered, hst, List.getD_cons_zero, if_neg hb]
  exact hsat

theorem exec_divq_zero (h : At p 0x806 s) (ha : Affords p 26 s) (hst : (procOf s p).stack = b :: a :: rest) (hl : rest.length < 31)
    (hb : b = 0) : exec (.divq p) s = .next (procFault p 12 (pcOf s p) (withoutEffect p (pcOf s p + 1) 26 s)) := by
  have hd : (procOf s p).stack.length = rest.length + 2 := by rw [hst]; rfl
  refine Shaped.faults (op := opDivq) (ins := 2) (outs := 1) (.of_eq rfl) h rfl (operandOf_none rfl rfl) ha (by omega) (by omega) ?_
  simp only [opDivq, topOf_entered, hst, List.getD_cons_zero, if_pos hb]

theorem exec_clampOp (h : At p 0x808 s) (ha : Affords p 1 s) (hst : (procOf s p).stack = b :: a :: x :: rest) (hl : rest.length < 30) :
    exec (.clampOp p) s = .next (leaves p 3 [BitVec.ofInt 48 (min (max x.toInt a.toInt) b.toInt)] (entered p (pcOf s p + 1) 1 s)) := by
  rw [exec_triOp (i := .clampOp) (f := fun x a b => wMin (wMax x a) b) h ha (fun _ _ => rfl) hst hl, wMin_wMax_eq]

end

theorem fixed_point : FixedPoint := by
  intro p s
  refine ⟨fun b rest hst hl => ⟨fun h ha => ?negs, fun h ha => ?abss, fun h ha => exec_sqrtq h ha hst hl⟩,
    fun a b rest hst hl => ⟨fun r hr h ha => ?two, fun h ha => exec_divq h ha hst hl, fun h ha => exec_divq_zero h ha hst hl⟩,
    fun x a b rest hst hl => ⟨fun h ha => ?macq, fun h ha => exec_clampOp h ha hst hl⟩⟩
  case negs => exact exec_satOp (i := .negs) (f := fun l => -l.getD 0 0) (items := [b]) (fun _ _ => rfl) h ha hst rfl hl
  case abss => exact exec_satOp (i := .abss) (f := fun l => (l.getD 0 0).natAbs) (items := [b]) (fun _ _ => rfl) h ha hst rfl hl
  case two =>
    obtain ⟨f, hrow, hf⟩ := saturating_rows r hr
    rw [← hf]
    exact exec_satOp (items := [a, b]) hrow h ha hst rfl (by omega)
  case macq =>
    exact exec_satOp (i := .macq) (f := fun l => l.getD 0 0 + roundDiv (l.getD 1 0 * l.getD 2 0) (2 ^ 24)) (items := [x, a, b])
      (fun _ _ => rfl) h ha hst rfl (by omega)

/-- Settles O3, from the rows of DIV and MOD, from what a saturating row leaves, and from how far a rounded result is from the exact one. -/
theorem divisionAndFixedPoint : Obligations.DivisionAndFixedPoint := ⟨div_mod, fixed_point, rounds_to_even⟩

end Sys2Proof.Machine
end

section
/-! SUPPORT. The decoder (R293, R294, R452): the codes of which the instruction tables have a row, as ranges of codes; and the faults that
come before an instruction's own effect, in their order (R310). -/

namespace Sys2Proof.Machine
open Sys2Proof Sys2Proof.Claims

variable {p code : Nat} {s : State}

/-! ### Ranges of codes -/

/-- The codes of a row: the first and the last. -/
def codeSpan (op : EOp) : Nat × Nat := (op.lo, op.hi)

/-- A code lies in one of the ranges. -/
def inSpans (code : Nat) (rs : List (Nat × Nat)) : Bool := rs.any (fun r => decide (r.1 ≤ code ∧ code ≤ r.2))

/-- A range of codes joins the one that follows it without a gap. -/
def joinSpan (r : Nat × Nat) (rs : List (Nat × Nat)) : List (Nat × Nat) :=
  match rs with
  | q :: qs => if r.2 + 1 = q.1 ∧ r.1 ≤ r.2 ∧ q.1 ≤ q.2 then (r.1, q.2) :: qs else r :: q :: qs
  | [] => [r]

@[simp] theorem inSpans_cons (r : Nat × Nat) (rs : List (Nat × Nat)) :
    inSpans code (r :: rs) = (decide (r.1 ≤ code ∧ code ≤ r.2) || inSpans code rs) := rfl

@[simp] theorem inSpans_nil : inSpans code [] = false := rfl

theorem inSpans_joinSpan (r : Nat × Nat) (rs : List (Nat × Nat)) : inSpans code (joinSpan r rs) = inSpans code (r :: rs) := by
  cases rs with
  | nil => rfl
  | cons q qs =>
    simp only [joinSpan]
    split
    case isTrue h =>
      have hjoin : (r.1 ≤ code ∧ code ≤ q.2) ↔ (r.1 ≤ code ∧ code ≤ r.2) ∨ (q.1 ≤ code ∧ code ≤ q.2) := by omega
      simp only [inSpans_cons, hjoin, Bool.decide_or, Bool.or_assoc]
    case isFalse => rfl

/-- Joining neighbours leaves the codes that the ranges cover. -/
theorem inSpans_foldr_joinSpan (rs : List (Nat × Nat)) : inSpans code (rs.foldr joinSpan []) = inSpans code rs := by
  induction rs with
  | nil => rfl
  | cons r rs ih => rw [List.foldr_cons, inSpans_joinSpan, inSpans_cons, inSpans_cons, ih]

/-- Rows that are defined alike have a code where one of their ranges has it. -/
theorem any_is_eq {ops : List EOp} {d : Nat → Nat → State → Bool} {spans : List (Nat × Nat)} {b : Bool}
    (hdef : ops.map EOp.defined = List.replicate ops.length d) (hspans : (ops.map codeSpan).foldr joinSpan [] = spans)
    (hd : ∀ k, d p k s = b) : ops.any (fun op => op.is p code s) = (inSpans code spans && b) := by
  have hall : ∀ op ∈ ops, op.defined = d := fun op hop => (List.eq_replicate_iff.mp hdef).2 _ (List.mem_map_of_mem hop)
  rw [← hspans, inSpans_foldr_joinSpan]
  clear hdef hspans
  induction ops with
  | nil => rfl
  | cons op ops ih =>
    rw [List.any_cons, List.map_cons, inSpans_cons, ih fun o ho => hall o (List.mem_cons_of_mem _ ho), Bool.and_or_distrib_right]
    simp only [EOp.is, hall op List.mem_cons_self, hd, codeSpan]
    rfl

/-! ### The defined codes (R293, R294, R452) -/

theorem any_is_basicOps : basicOps.any (fun op => op.is p code s) =
    inSpans code [(0x000, 0x008), (0x010, 0x011), (0x020, 0x05F), (0x100, 0x10B), (0x200, 0x209), (0x240, 0x2CF), (0x300, 0x30A)] :=
  (any_is_eq rfl rfl fun _ => rfl).trans (Bool.and_true _)

theorem any_is_memoryOps : memoryOps.any (fun op => op.is p code s) = inSpans code [(0x400, 0x407), (0x500, 0x506), (0x901, 0x903)] :=
  (any_is_eq rfl rfl fun _ => rfl).trans (Bool.and_true _)

theorem any_is_fabricOps : fabricOps.any (fun op => op.is p code s) =
    (inSpans code [(0x600, 0x601), (0x606, 0x608), (0x700, 0x701), (0x710, 0x717)] ||
      inSpans code [(0x602, 0x605), (0x702, 0x702)] && decide (p ≠ rangerP)) := by
  have hall : [opGet, opGett, opEvoclr, opSwset, opSetlvl, opNow, opNowf, opTcmpa, opTcmpb, opTcnt, opTcapa, opTcapb, opTstat, opTclr,
      opTcmd].any (fun op => op.is p code s) = inSpans code [(0x600, 0x601), (0x606, 0x608), (0x700, 0x701), (0x710, 0x717)] :=
    (any_is_eq rfl rfl fun _ => rfl).trans (Bool.and_true _)
  have hengines : [opPut, opEmit, opEvoa, opEvod, opTick].any (fun op => op.is p code s) =
      (inSpans code [(0x602, 0x605), (0x702, 0x702)] && decide (p ≠ rangerP)) := any_is_eq (d := enginesOnly) rfl rfl fun _ => rfl
  rw [← hall, ← hengines]
  simp only [fabricOps, List.cons_append, List.nil_append, List.any_cons, List.any_nil, Bool.or_false]
  ac_rfl

theorem is_opSplice : opSplice.is p code s = (decide (0xF00 ≤ code ∧ code ≤ 0xF3F) && bit (wordR s (spliceA (code - 0xF00) 0)) 47) := rfl

theorem any_is_fixedOps : fixedOps.any (fun op => op.is p code s) = (inSpans code [(0x800, 0x808)] || opSplice.is p code s) := by
  have hall : [opAdds, opSubs, opNegs, opAbss, opMulq, opMacq, opDivq, opSqrtq, opClamp].any (fun op => op.is p code s) =
      inSpans code [(0x800, 0x808)] := (any_is_eq rfl rfl fun _ => rfl).trans (Bool.and_true _)
  rw [← hall]
  simp only [fixedOps, List.any_cons, List.any_nil, Bool.or_false, Bool.or_assoc]

theorem any_is_prefixes : [opRep, opRepi].any (fun op => op.is p code s) = inSpans code [(0x900, 0x900), (0x9C0, 0x9FF)] :=
  (any_is_eq rfl rfl fun _ => rfl).trans (Bool.and_true _)

theorem any_is_rangerOps : [opIdle, opRd32, opWr32, opRd48, opWr48, opJnl, opWdog, opOtprd, opRollup].any (fun op => op.is p code s) =
    (inSpans code [(0xE00, 0xE08)] && decide (p = rangerP)) := any_is_eq (d := rangerOnly) rfl rfl fun _ => rfl

/-- The tables have a row for exactly the codes that R293 and R453 define. -/
theorem any_is_allOps : allOps.any (fun op => op.is p code s) = definedCode p code s := by
  have hcontrol : decide (0x900 ≤ code ∧ code ≤ 0x903) =
    (decide (0x900 ≤ code ∧ code ≤ 0x900) || decide (0x901 ≤ code ∧ code ≤ 0x903)) := by
    rw [← Bool.decide_or, decide_eq_decide]
    omega
  simp only [allOps, engineOps, List.any_append, any_is_basicOps, any_is_memoryOps, any_is_fabricOps, any_is_fixedOps, any_is_prefixes,
    any_is_rangerOps, is_opSplice, inSpans_cons, inSpans_nil, Bool.or_false, definedCode, hcontrol, bne, beq_eq_decide, ne_eq, decide_not,
    Bool.and_or_distrib_right]
  ac_rfl

theorem findOp_eq_none_iff : findOp allOps p code s = none ↔ definedCode p code s = false := by
  rw [← any_is_allOps, List.any_eq_false, findOp, List.find?_eq_none]

/-! ### Fetch and decoding come first (R310) -/

theorem undefined_codes : UndefinedCodes := by
  intro p code s hs hr
  have hexec : exec (.undefinedOpcode p) s = execUndefinedOpcode p s := rfl
  unfold pcOf
  simp only [hexec, execUndefinedOpcode, live_running hs, hr, Bool.not_true, Bool.false_eq_true, if_false]
  refine ⟨fun hf hd => ?undefined, fun hf hd => ?defined, fun hf => ?unmapped, fun hf => ?poisoned⟩
  case undefined => simp only [hf, findOp_eq_none_iff.mpr hd]
  case defined =>
    obtain ⟨op, hop⟩ := Option.ne_none_iff_exists'.mp fun hn => absurd (findOp_eq_none_iff.mp hn) (by rw [hd]; decide)
    simp only [hf, hop]
  case unmapped | poisoned => simp only [hf]

/-! ### Then the budget, the stacks, and the execution (R310) -/

section
variable {r : (Nat → Instr) × Nat × Nat × (W48 → W48 → W48)} (hr : r ∈ twoInOne) (h : At p r.2.1 s)
include hr h

theorem twoInOne_overBudget (ha : ¬Affords p r.2.2.1 s) : exec (r.1 p) s = .next (procFault p 3 (pcOf s p) s) := by
  obtain ⟨f, hrow, -⟩ := twoInOne_rows r hr
  rw [hrow]
  exact Shaped.overBudget (ins := 2) (outs := 1) (.of_eq rfl) h (is_of_between (Nat.le_refl _) (Nat.le_refl _) fun _ => rfl)
    (operandOf_none rfl rfl) ha

theorem twoInOne_underflows (ha : Affords p r.2.2.1 s) (hu : (procOf s p).stack.length < 2) :
    exec (r.1 p) s = .next (procFault p 5 (pcOf s p) s) := by
  obtain ⟨f, hrow, -⟩ := twoInOne_rows r hr
  rw [hrow]
  exact Shaped.underflows (ins := 2) (outs := 1) (.of_eq rfl) h
    (is_of_between (Nat.le_refl _) (Nat.le_refl _) fun _ => rfl) (operandOf_none rfl rfl)
    ha hu

end

theorem dup_faults (h : At p 0x001 s) (ha : Affords p 1 s) :
    ((procOf s p).stack = [] → exec (.dup p) s = .next (procFault p 5 (pcOf s p) s)) ∧
    ((procOf s p).stack.length = 32 → exec (.dup p) s = .next (procFault p 4 (pcOf s p) s)) := by
  refine ⟨fun hst => ?_, fun hst => ?_⟩
  · exact Shaped.underflows (op := opDup) (ins := 1) (outs := 2) (.of_eq rfl) h rfl (operandOf_none rfl rfl) ha (by simp [hst])
  · exact Shaped.overflows (op := opDup) (ins := 1) (outs := 2) (.of_eq rfl) h rfl (operandOf_none rfl rfl) ha (by omega) (by omega)

/-- The target of a branch whose operand fits its slot (R292). -/
theorem target_eq_branchTo {v : Nat} (hv : v < 256) (x : Ctx) (hx : x.opnd = BitVec.ofNat 48 v) : target x = branchTo x.addr v := by
  rw [target, hx, toNat_ofNat_of_lt (m := 8) hv (by decide), signed_eq_toInt 8 v (by decide)]
  rfl

theorem callTo_unmapped {x : Ctx} {t : Int} (h : slotMapped s x.p t = false) : callTo x t s = .fault 8 x.addr s := by
  simp only [callTo, goTo, h, Bool.false_eq_true, if_false]

theorem call_faults {v : Nat} (hv : v < 256) (h : At p 0x403 s) (ha : Affords p 2 s) (hf : fetchSlot s p (pcOf s p + 1) = .got v)
    (hl : (procOf s p).stack.length ≤ 32) :
    ((procOf s p).rets.length = 16 → exec (.call p) s = .next (procFault p 6 (pcOf s p) s)) ∧
    ((procOf s p).rets.length < 16 → slotMapped s p (branchTo (pcOf s p) v) = false →
      exec (.call p) s = .next (procFault p 8 (pcOf s p) (withoutEffect p (pcOf s p + 2) 2 s))) := by
  have hopnd : operandOf opCall p (pcOf s p) s = .ok (BitVec.ofNat 48 v, pcOf s p + 2) := operandOf_slot rfl (by decide) hf hv
  refine ⟨fun hrets => ?full, fun hrets hmap => ?unmapped⟩
  case full =>
    refine runRow_check (op := opCall) h rfl rfl hopnd ?_
    simp only [checks, opCall, if_neg ha.not_over, Nat.not_lt_zero, Nat.sub_zero, Nat.add_zero, if_neg (Nat.not_lt.mpr hl), if_false, hrets,
      Nat.le_refl, and_self, if_true]
  case unmapped =>
    refine (runRow_fault (op := opCall) (c := 8) (a := pcOf s p) h rfl rfl hopnd (checks_none ha (Nat.zero_le _) hl fun _ => hrets)
      (t := entered p (pcOf s p + 2) 2 s) ?_).trans ?_
    · change callTo _ _ _ = _
      rw [target_eq_branchTo hv _ rfl]
      exact callTo_unmapped (by rw [slotMapped_entered]; exact hmap)
    · simp only [withoutEffect, procOf_entered]

/-- An operand with bits above its field is undefined (R290). -/
theorem bra_undefined {v : Nat} (hv : 256 ≤ v) (hf : fetchSlot s p (pcOf s p + 1) = .got v) (h : At p 0x400 s) :
    exec (.bra p) s = .next (procFault p 1 (pcOf s p) s) := by
  have hopnd : operandOf opBra p (pcOf s p) s = .error (.fault 1 (pcOf s p) s) := by
    simp only [operandOf, hf]
    exact if_pos hv
  refine (runRow_at (op := opBra) (ops := []) h rfl).trans ?_
  rw [runOp, show operandOf opBra p (procOf s p).pc s = _ from hopnd]
  rfl

theorem fault_order : FaultOrder := by
  intro p s
  refine ⟨fun r hr h => ⟨twoInOne_overBudget hr h, twoInOne_underflows hr h⟩, dup_faults, fun v hv h ha hf hl => call_faults hv h ha hf hl,
    fun v hv hf h => bra_undefined hv hf h, fun a b rest hst hl ha hb => ⟨fun h => ?div, fun h => ?mod, fun h => ?divq⟩⟩
  case div => exact exec_divOp_zero (i := .div) (fun _ _ => rfl) h ha hst hl hb
  case mod => exact exec_divOp_zero (i := .mod) (fun _ _ => rfl) h ha hst hl hb
  case divq => exact exec_divq_zero h ha hst hl hb

/-- Settles O12, from the codes that have a row and from the check that each fault comes from. -/
theorem instructionFaults : Obligations.InstructionFaults := ⟨undefined_codes, fault_order⟩

end Sys2Proof.Machine
end

section
/-! SUPPORT. A counterexample to the branches (R295, R302): with more items on the operand stack than it has words, every row raises OSOVF,
a branch too. -/

namespace Sys2Proof.Machine
open Sys2Proof Sys2Proof.Claims

/-- A running hub whose engine 0 is about to execute BRA with operand 0 at slot address 0, with 33 items on its operand stack. -/
def braOverfull : State :=
  setWord (iramA 0 0) 0x400000000000 (setEngine 0
    { state := .on, run := .busy, proc := { budget := 100, stack := List.replicate 33 0 } } { phase := .running })

theorem braOverfull_at : At 0 0x400 braOverfull := ⟨by decide, by decide, by rfl⟩

theorem braOverfull_operand : fetchSlot braOverfull 0 1 = .got 0 := by rfl

/-- The overfull stack comes before the branch's own effect (R310). -/
theorem exec_bra_overfull : exec (.bra 0) braOverfull = .next (procFault 0 4 0 braOverfull) :=
  Shaped.overflows (op := opBra) (ins := 0) (outs := 0) (.of_eq rfl) braOverfull_at rfl
    (operandOf_slot rfl (by decide) braOverfull_operand (by decide))
    (.inr (by decide)) (Nat.zero_le _) (by decide)

theorem pcOf_exec_bra_overfull : pcOf (procFault 0 4 0 braOverfull) 0 = 0 := by rfl

/-- Refutes O4: ControlFlow bounds the operand stack for neither BRA nor CALL, and with 33 items on it BRA raises OSOVF. -/
theorem not_branchesAndLoops : ¬ Obligations.BranchesAndLoops := by
  rintro ⟨hflow, -⟩
  obtain ⟨hbra, -⟩ := hflow 0 braOverfull 0 (by decide) (.inr (by decide)) braOverfull_operand (by decide)
  have hjump := hbra braOverfull_at
  rw [exec_bra_overfull] at hjump
  have hpc : pcOf (procFault 0 4 0 braOverfull) 0 = 2 := by
    rw [Host.Outcome.next.inj hjump]
    simp only [jump, pcOf, procOf_setProc]
    rfl
  rw [pcOf_exec_bra_overfull] at hpc
  exact absurd hpc (by decide)

end Sys2Proof.Machine
end

section
/-! SUPPORT. The prefixes REP and REPI (R307-R309): the faults of their follower, and followers that only change the processor's record. -/

namespace Sys2Proof.Machine
open Sys2Proof Sys2Proof.Claims

variable {p code k n : Nat} {s t u : State}

/-! ### The prefixes as rows (R307) -/

/-- A prefix at the program counter, as decoded. -/
def prefixAt (p k : Nat) (s : State) : Ctx := { p := p, addr := pcOf s p, k := k, next := pcOf s p + 1 }

theorem exec_rep (h : At p 0x900 s) :
    exec (.rep p) s = .next (settle p (runRepeat allOps opRep (fun _ pr => pr.rc.toNat) (prefixAt p 0 s) s)) := by
  refine (runRow_at (op := opRep) (ops := allOps) h rfl).trans ?_
  simp only [runOp, operandOf_none (op := opRep) rfl rfl]
  rfl

theorem exec_repi (h : At p (0x9C0 + k) s) (hk : k < 64) :
    exec (.repi p) s = .next (settle p (runRepeat allOps opRepi (fun x _ => x.k + 1) (prefixAt p k s) s)) := by
  refine (runRow_at (op := opRepi) (ops := allOps) h
    (is_of_between (Nat.le_add_right _ _) (Nat.add_le_add_left (Nat.le_of_lt_succ hk) 0x9C0) fun _ => rfl)).trans ?_
  have hcode : 0x9C0 + k - opRepi.lo = k := Nat.add_sub_cancel_left _ _
  simp only [runOp, operandOf_none (op := opRepi) rfl rfl, hcode]
  rfl

/-! ### The follower's faults (R309) -/

section
variable {op : EOp} {count : Ctx → Proc → Nat} {x : Ctx}

theorem runRepeat_unmapped (hf : fetchSlot s x.p x.next = .unmapped) : runRepeat allOps op count x s = .fault 8 x.next s := by
  unfold runRepeat
  rw [hf]
  rfl

theorem runRepeat_poisoned (hf : fetchSlot s x.p x.next = .poisoned) : runRepeat allOps op count x s = .fault 10 x.next s := by
  unfold runRepeat
  rw [hf]
  rfl

theorem runRepeat_badFollower (hf : fetchSlot s x.p x.next = .got code) (hb : badFollower code = true) :
    runRepeat allOps op count x s = .fault 2 x.addr s := by
  unfold runRepeat
  rw [hf]
  exact if_pos hb

theorem runRepeat_undefined (hf : fetchSlot s x.p x.next = .got code) (hb : badFollower code = false)
    (hd : definedCode x.p code s = false) : runRepeat allOps op count x s = .fault 1 x.next s := by
  unfold runRepeat
  rw [hf]
  refine (if_neg (Bool.eq_false_iff.mp hb)).trans ?_
  rw [findOp_eq_none_iff.mpr hd]

end

theorem definedCode_of_repeats (h : 0x900 ≤ code ∧ code ≤ 0x903 ∨ 0x9C0 ≤ code ∧ code ≤ 0x9FF) : definedCode p code s = true := by
  rcases h with h | h <;> simp only [definedCode, h, and_self, decide_true, Bool.or_true, Bool.true_or]

theorem definedCode_litw : definedCode p 0x011 s = true := rfl

theorem badFollower_iff : badFollower code = true ↔
    code / 256 = 4 ∨ code / 256 = 15 ∨ code = 0x903 ∨ code = 0x900 ∨ (0x9C0 ≤ code ∧ code ≤ 0x9FF) ∨ code = 0x011 := decide_eq_true_iff

/-- Outside classes 4 and F, the followers that a prefix may not have are defined codes. -/
theorem badFollower_of_undefined (hd : definedCode p code s = false) (hc : ¬(code / 256 = 4 ∨ code / 256 = 15)) :
    badFollower code = false := by
  refine Bool.eq_false_iff.mpr fun hbad => ?_
  rcases badFollower_iff.mp hbad with h | h | h | h | h | h
  · exact hc (.inl h)
  · exact hc (.inr h)
  case inr.inr.inr.inr.inr => exact Bool.false_ne_true ((h ▸ hd).symm.trans definedCode_litw)
  all_goals exact Bool.false_ne_true (hd.symm.trans (definedCode_of_repeats (by omega)))

theorem repeat_faults : RepeatFaults := by
  intro p s i hi
  obtain ⟨op, count, k, hexec⟩ : ∃ op count k, exec i s = .next (settle p (runRepeat allOps op count (prefixAt p k s) s)) := by
    rcases hi with ⟨rfl, h⟩ | ⟨rfl, k, hk, h⟩
    · exact ⟨_, _, _, exec_rep h⟩
    · exact ⟨_, _, _, exec_repi h hk⟩
  rw [hexec]
  refine ⟨fun hf => ?unmapped, fun hf => ?poisoned, fun code hf => ⟨fun hb => ?bad, fun hd hc => ?undefined⟩⟩
  case unmapped => rw [runRepeat_unmapped (x := prefixAt p k s) hf]; rfl
  case poisoned => rw [runRepeat_poisoned (x := prefixAt p k s) hf]; rfl
  case bad => rw [runRepeat_badFollower (x := prefixAt p k s) hf (badFollower_iff.mpr hb)]; rfl
  case undefined => rw [runRepeat_undefined (x := prefixAt p k s) hf (badFollower_of_undefined hd hc) hd]; rfl

/-! ### States that differ in the processors alone -/

/-- Nothing but the event engines and Ranger differs. -/
def SameButProcs (t s : State) : Prop := { t with engines := s.engines, mgt := s.mgt } = s

theorem SameButProcs.trans (htu : SameButProcs t u) (hus : SameButProcs u s) : SameButProcs t s := by
  have htu' : { t with engines := u.engines, mgt := u.mgt } = u := htu
  have hus' : { u with engines := s.engines, mgt := s.mgt } = s := hus
  exact (congrArg (fun w : State => { w with engines := s.engines, mgt := s.mgt }) htu').trans hus'

theorem sameButProcs_setProc (x : Proc) : SameButProcs (setProc p x s) s := by
  unfold setProc
  split <;> rfl

theorem sameButProcs_touchLine (a : Nat) : SameButProcs (touchLine p a s) s := by
  unfold touchLine
  dsimp only
  split <;> rfl

theorem sameButProcs_charge (m : Nat) : SameButProcs (charge p m s) s := by
  unfold charge
  split
  · rfl
  · exact sameButProcs_setProc _

theorem sameButProcs_issued (x : Ctx) (m : Nat) : SameButProcs (issued x m s) s :=
  (sameButProcs_setProc _).trans ((sameButProcs_charge _).trans ((sameButProcs_touchLine _).trans (sameButProcs_touchLine _)))

/-! ### Repetitions of a row that only changes the processor's record (R308) -/

theorem asked_setProc (x : Proc) : (setProc p x s).mgt.asked = s.mgt.asked := by
  unfold setProc
  split <;> rfl

theorem asked_touchLine (a : Nat) : (touchLine p a s).mgt.asked = s.mgt.asked := by
  unfold touchLine
  dsimp only
  split <;> rfl

theorem runOne_go {op : EOp} {x : Ctx} (hc : checks op x s = none) (hrun : op.run x (issued x (op.cycles x (procOf s x.p) s) s) = .go t) :
    runOne op x s = .go t := by
  unfold issued at hrun
  simp only [runOne, hc]
  rw [hrun]

/-- One repetition, on the processor's record: a cycle, the next program counter, and the row's own effect `g`. -/
def repStep (g : Proc → Proc) (x : Ctx) (pr : Proc) : Proc :=
  g { pr with pc := x.next, cycles := if x.p = rangerP then pr.cycles else pr.cycles + 1 }

section
variable {op : EOp} {ins outs : Nat} {g : Proc → Proc} (hop : Shaped op ins outs 1)
  (hrun : ∀ x u, op.run x u = .go (setProc x.p (g (procOf u x.p)) u)) (hcycles : ∀ pr, (g pr).cycles = pr.cycles)
  (hbudget : ∀ pr, (g pr).budget = pr.budget)
include hop hrun hcycles hbudget

theorem runTimes_of_record (x : Ctx) (ha : Affords x.p n s) (hasked : x.p = rangerP → s.mgt.asked = 0)
    (hfit : ∀ m < n, ins ≤ ((repStep g x)^[m] (procOf s x.p)).stack.length ∧
      ((repStep g x)^[m] (procOf s x.p)).stack.length - ins + outs ≤ 32) :
    ∃ t, runTimes op x n s = .go t ∧ procOf t x.p = (repStep g x)^[n] (procOf s x.p) ∧ SameButProcs t s := by
  induction n generalizing s with
  | zero => exact ⟨s, rfl, rfl, rfl⟩
  | succ n ih =>
    obtain ⟨hu, ho⟩ := hfit 0 (Nat.succ_pos n)
    have hone : runOne op x s = .go (setProc x.p (g (procOf (issued x 1 s) x.p)) (issued x 1 s)) :=
      runOne_go (hop.checks_none (ha.mono (by omega)) hu ho x rfl) (by rw [hop.cycles, hrun])
    generalize hu1 : setProc x.p (g (procOf (issued x 1 s) x.p)) (issued x 1 s) = u at hone
    have hproc : procOf u x.p = repStep g x (procOf s x.p) := by rw [← hu1, procOf_setProc, procOf_issued]; rfl
    have hsame : SameButProcs u s := hu1 ▸ (sameButProcs_setProc _).trans (sameButProcs_issued x 1)
    have hu_asked : u.mgt.asked = s.mgt.asked := by
      rw [← hu1, asked_setProc]
      exact issued_keeps (·.mgt.asked) x (fun _ _ => asked_setProc _) (fun _ _ => asked_touchLine _)
    have hnext : runTimes op x (n + 1) s = runTimes op x n u := by
      have hnowait : ¬(x.p = rangerP ∧ u.mgt.asked ≠ 0) := fun h => h.2 (hu_asked.trans (hasked h.1))
      simp only [runTimes, hone, if_neg hnowait]
    have hau : Affords x.p n u := by
      refine ha.imp id fun hle => ?_
      rw [hproc, repStep, hcycles, hbudget]
      dsimp only
      split <;> omega
    obtain ⟨t, ht, htproc, htsame⟩ := ih hau (fun h => hu_asked.trans (hasked h)) (fun m hm => by
      have hfit' := hfit (m + 1) (by omega)
      rwa [Function.iterate_succ_apply, ← hproc] at hfit')
    exact ⟨t, hnext.trans ht, by rw [htproc, hproc, Function.iterate_succ_apply], htsame.trans hsame⟩

end

/-! ### The prefix's own cycle and its repetitions (R307, R308) -/

/-- The state in which the repetitions of a prefix begin: its cycle is charged. -/
def prefixed (x : Ctx) (s : State) : State := charge x.p 1 (setProc x.p { procOf s x.p with rep := none } s)

section
variable {op f : EOp} {count : Ctx → Proc → Nat} {x : Ctx} (hf : fetchSlot s x.p x.next = .got code) (hb : badFollower code = false)
  (hfind : findOp allOps x.p code s = some f) (hc : checks op x s = none) (hrep : (procOf s x.p).rep = none)

theorem sameButProcs_prefixed : SameButProcs (prefixed x s) s := (sameButProcs_charge _).trans (sameButProcs_setProc _)

include hrep in
theorem procOf_prefixed : procOf (prefixed x s) x.p =
    { procOf s x.p with cycles := if x.p = rangerP then (procOf s x.p).cycles else (procOf s x.p).cycles + 1 } := by
  have hsame : { procOf s x.p with rep := none } = procOf s x.p := by rw [← hrep]
  rw [prefixed, procOf_charge, procOf_setProc, hsame]

include hf hb hfind hc hrep

/-- A count of 0 skips the follower and its operand slot. -/
theorem runRepeat_zero (hn : count x (procOf s x.p) = 0) : runRepeat allOps op count x s = .go (setProc x.p
    { procOf (prefixed x s) x.p with pc := x.next + if f.operand = 0 then 1 else 2 } (prefixed x s)) := by
  unfold runRepeat
  rw [hf]
  refine (if_neg (Bool.eq_false_iff.mp hb)).trans ?_
  rw [hfind, hc, hrep]
  exact if_pos hn

theorem runRepeat_go (hlit : f.literal = false) (hopnd : f.operand = 0) (hn : count x (procOf s x.p) ≠ 0)
    (hrun : runTimes f { p := x.p, addr := x.next, k := code - f.lo, opnd := 0, next := x.next + 1 } (count x (procOf s x.p))
      (prefixed x s) =
      .go t) : runRepeat allOps op count x s = .go t := by
  unfold prefixed at hrun
  unfold runRepeat
  rw [hf]
  refine (if_neg (Bool.eq_false_iff.mp hb)).trans ?_
  rw [hfind, hc, hrep]
  refine (if_neg hn).trans ?_
  rw [operandOf_none hlit hopnd]
  dsimp only
  rw [hrun]

end

/-! ### INC, SETRC and an operand form as followers (R307-R309) -/

theorem findOp_inc : findOp allOps p 0x108 s = some opInc := rfl
theorem findOp_ldi : findOp allOps p 0x502 s = some opLdi := rfl
theorem findOp_setrc : findOp allOps p 0x901 s = some opSetrc := rfl

/-- Ranger waits for no secondary while it executes (R453). -/
theorem asked_of_at (h : At p code s) : p = rangerP → s.mgt.asked = 0 := by
  rintro rfl
  obtain ⟨-, hr, -⟩ := h
  simp only [procRuns, if_true, Bool.and_eq_true, decide_eq_true_eq] at hr
  exact hr.2.1

theorem asked_prefixed (x : Ctx) : (prefixed x s).mgt.asked = s.mgt.asked := by
  unfold prefixed charge
  split
  · exact asked_setProc _
  · exact (asked_setProc _).trans (asked_setProc _)

theorem affords_prefixed {x : Ctx} (hrep : (procOf s x.p).rep = none) (ha : Affords x.p (1 + n) s) : Affords x.p n (prefixed x s) := by
  refine ha.imp id fun hle => ?_
  rw [procOf_prefixed hrep]
  dsimp only
  split <;> omega

/-- What INC makes of the processor's record. -/
def incRecord (pr : Proc) : Proc := { pr with stack := [((pr.stack.take 1).reverse).getD 0 0 + 1] ++ pr.stack.drop 1 }

/-- What SETRC makes of the processor's record. -/
def setrcRecord (pr : Proc) : Proc := { pr with rc := (pr.stack.getD 0 0).setWidth 16, stack := pr.stack.drop 1 }

theorem iterate_incRecord {pr : Proc} {a : W48} {rest : List W48} (x : Ctx) (hst : pr.stack = a :: rest) (m : Nat) :
    (repStep incRecord x)^[m] pr = { pr with
      pc := if m = 0 then pr.pc else x.next, cycles := if x.p = rangerP then pr.cycles else pr.cycles + m,
      stack := (a + BitVec.ofNat 48 m) :: rest } := by
  induction m with
  | zero =>
    have hzero : a + BitVec.ofNat 48 0 = a := BitVec.add_zero a
    simp only [Function.iterate_zero, id, if_true, Nat.add_zero, ite_self, hzero, ← hst]
  | succ m ih =>
    have hsucc : a + BitVec.ofNat 48 m + 1 = a + BitVec.ofNat 48 (m + 1) := by
      rw [BitVec.ofNat_add, BitVec.add_assoc]
      rfl
    rw [Function.iterate_succ_apply', ih]
    simp only [repStep, incRecord, List.take_succ_cons, List.take_zero, List.reverse_singleton, List.getD_cons_zero, List.drop_succ_cons,
      List.drop_zero, List.singleton_append, hsucc, Nat.add_eq_zero_iff, Nat.one_ne_zero, and_false, if_false]
    split <;> rfl

/-- Each SETRC takes one item. -/
theorem stack_iterate_setrcRecord (x : Ctx) (pr : Proc) (m : Nat) : ((repStep setrcRecord x)^[m] pr).stack = pr.stack.drop m := by
  induction m with
  | zero => rfl
  | succ m ih =>
    rw [Function.iterate_succ_apply', ← List.drop_drop, ← ih]
    rfl

/-- RC holds the item that the last SETRC took. -/
theorem rc_iterate_setrcRecord (x : Ctx) (pr : Proc) (m : Nat) :
    ((repStep setrcRecord x)^[m + 1] pr).rc = ((pr.stack.drop m).getD 0 0).setWidth 16 := by
  rw [Function.iterate_succ_apply', ← stack_iterate_setrcRecord x]
  rfl

section
variable {op : EOp} {count : Ctx → Proc → Nat} {x : Ctx} (hc : checks op x s = none) (hn : count x (procOf s x.p) = n)
  (hrep : (procOf s x.p).rep = none) (hasked : x.p = rangerP → s.mgt.asked = 0)
include hc hn hrep hasked

theorem runRepeat_inc {a : W48} {rest : List W48} (hst : (procOf s x.p).stack = a :: rest) (hl : rest.length < 32)
    (hf : fetchSlot s x.p x.next = .got 0x108) (ha : Affords x.p (1 + n) s) :
    ∃ t, runRepeat allOps op count x s = .go t ∧ procOf t x.p = { procOf s x.p with
        pc := x.next + 1, cycles := if x.p = rangerP then (procOf s x.p).cycles else (procOf s x.p).cycles + (1 + n),
        stack := (a + BitVec.ofNat 48 n) :: rest } ∧ SameButProcs t s := by
  have hpst : (procOf (prefixed x s) x.p).stack = a :: rest := by rw [procOf_prefixed hrep]; exact hst
  rcases Nat.eq_zero_or_pos n with rfl | hpos
  · refine ⟨_, runRepeat_zero hf rfl findOp_inc hc hrep hn, ?_, (sameButProcs_setProc _).trans sameButProcs_prefixed⟩
    have hadd : a + BitVec.ofNat 48 0 = a := BitVec.add_zero a
    rw [procOf_setProc, procOf_prefixed hrep, hadd, ← hst]
    rfl
  · let y : Ctx := { p := x.p, addr := x.next, k := 0x108 - opInc.lo, opnd := 0, next := x.next + 1 }
    have hiter := iterate_incRecord y hpst
    obtain ⟨t, ht, hproc, hsame⟩ := runTimes_of_record (op := opInc) (ins := 1) (outs := 1) (g := incRecord) (s := prefixed x s)
      (n := n) (.of_eq rfl) (fun _ _ => rfl)
      (fun _ => rfl) (fun _ => rfl) y (affords_prefixed hrep ha) (fun h => (asked_prefixed _).trans (hasked h)) (fun m _ => by
        rw [hiter]
        simp only [List.length_cons]
        omega)
    refine ⟨t, runRepeat_go hf rfl findOp_inc hc hrep rfl rfl (by omega) (by rw [hn]; exact ht), ?_, hsame.trans sameButProcs_prefixed⟩
    rw [show procOf t x.p = _ from hproc.trans (hiter n), procOf_prefixed hrep, if_neg (Nat.ne_of_gt hpos)]
    by_cases hp : x.p = rangerP
    · simp only [y, hp, if_true]
    · simp only [y, hp, if_false, Nat.add_assoc]

theorem runRepeat_setrc {a b c : W48} {rest : List W48} (hst : (procOf s x.p).stack = a :: b :: c :: rest) (hl : rest.length < 29)
    (hf : fetchSlot s x.p x.next = .got 0x901) (ha : Affords x.p 4 s) (hthree : n = 3) :
    ∃ t, runRepeat allOps op count x s = .go t ∧ (procOf t x.p).rc = c.setWidth 16 ∧ (procOf t x.p).stack = rest := by
  subst hthree
  have hpst : (procOf (prefixed x s) x.p).stack = a :: b :: c :: rest := by rw [procOf_prefixed hrep]; exact hst
  let y : Ctx := { p := x.p, addr := x.next, k := 0x901 - opSetrc.lo, opnd := 0, next := x.next + 1 }
  obtain ⟨t, ht, hproc, -⟩ := runTimes_of_record (op := opSetrc) (ins := 1) (outs := 0) (g := setrcRecord) (s := prefixed x s)
    (n := 3) (.of_eq rfl) (fun _ _ => rfl)
    (fun _ => rfl) (fun _ => rfl) y (affords_prefixed hrep ha) (fun h => (asked_prefixed _).trans (hasked h)) (fun m hm => by
      rw [stack_iterate_setrcRecord, show procOf _ y.p = procOf _ x.p from rfl, hpst]
      simp only [List.length_drop, List.length_cons]
      omega)
  refine ⟨t, runRepeat_go hf rfl findOp_setrc hc hrep rfl rfl (by omega) (by rw [hn]; exact ht), ?_⟩
  rw [show procOf t x.p = _ from hproc, rc_iterate_setrcRecord, stack_iterate_setrcRecord, show procOf _ y.p = procOf _ x.p from rfl, hpst]
  exact ⟨rfl, rfl⟩

end

theorem checks_opRep (ha : Affords p 1 s) (hl : (procOf s p).stack.length ≤ 32) : checks opRep (prefixAt p k s) s = none :=
  checks_none ha (Nat.zero_le _) hl nofun

theorem checks_opRepi (ha : Affords p 1 s) (hl : (procOf s p).stack.length ≤ 32) : checks opRepi (prefixAt p k s) s = none :=
  checks_none ha (Nat.zero_le _) hl nofun

/-- REP with RC = 0 goes on after the follower's slots. -/
theorem exec_rep_zero {f : EOp} (h : At p 0x900 s) (ha : Affords p 1 s) (hl : (procOf s p).stack.length ≤ 32) (hrc : (procOf s p).rc = 0)
    (hrep : (procOf s p).rep = none) (hf : fetchSlot s p (pcOf s p + 1) = .got code) (hb : badFollower code = false)
    (hfind : findOp allOps p code s = some f) :
    ∃ t, exec (.rep p) s = .next t ∧ pcOf t p = pcOf s p + 1 + if f.operand = 0 then 1 else 2 := by
  have hzero : (procOf s p).rc.toNat = 0 := by rw [hrc]; rfl
  have hrun := runRepeat_zero (x := prefixAt p 0 s) (count := fun _ pr => pr.rc.toNat) hf hb hfind (checks_opRep ha hl) hrep hzero
  refine ⟨_, (exec_rep h).trans (by rw [hrun]), ?_⟩
  exact congrArg Proc.pc (procOf_setProc p _ _)

theorem repeats : Repeats := by
  intro p s
  refine ⟨fun a rest n hst hl hf ha hrep => ⟨fun k hk hnk h => ?repi, fun hn h => ?rep⟩,
    fun hrc hrep hl ha h => ⟨fun hf => exec_rep_zero h ha hl hrc hrep hf rfl findOp_inc,
    fun hf => exec_rep_zero h ha hl hrc hrep hf rfl findOp_ldi⟩,
    fun rest hst hl hrc hrep ha h hf => ?setrc⟩
  case repi =>
    have hd : (procOf s p).stack.length ≤ 32 := by rw [hst]; exact hl
    obtain ⟨t, ht, hproc, hsame⟩ := runRepeat_inc (count := fun x _ => x.k + 1) (x := prefixAt p k s)
      (checks_opRepi (ha.mono (Nat.le_add_right _ _)) hd) hnk.symm hrep (asked_of_at h) hst hl hf ha
    exact ⟨t, (exec_repi h hk).trans (by rw [ht]; rfl), hproc, hsame⟩
  case rep =>
    have hd : (procOf s p).stack.length ≤ 32 := by rw [hst]; exact hl
    obtain ⟨t, ht, hproc, hsame⟩ := runRepeat_inc (count := fun _ pr => pr.rc.toNat) (x := prefixAt p 0 s)
      (checks_opRep (ha.mono (Nat.le_add_right _ _)) hd) hn hrep (asked_of_at h) hst hl hf ha
    exact ⟨t, (exec_rep h).trans (by rw [ht]; rfl), hproc, hsame⟩
  case setrc =>
    have hd : (procOf s p).stack.length ≤ 32 := by rw [hst]; simp only [List.length_cons]; omega
    have hthree : (procOf s p).rc.toNat = 3 := by rw [hrc]; rfl
    obtain ⟨t, ht, hrc', hst'⟩ := runRepeat_setrc (count := fun _ pr => pr.rc.toNat) (x := prefixAt p 0 s)
      (checks_opRep (ha.mono (by omega)) hd) hthree hrep (asked_of_at h) hst hl hf ha rfl
    exact ⟨t, (exec_rep h).trans (by rw [ht]; rfl), hrc', hst'⟩

/-- Settles O10, from what a prefix makes of its follower's code and from the iterated effect of a row on the processor's record. -/
theorem repeatInstructions : Obligations.RepeatInstructions := ⟨repeats, repeat_faults⟩

end Sys2Proof.Machine
end

section
/-! SUPPORT. The data space (R265, R266, R303): loads, stores and additions in it, a read whose parity check fails,
and addresses outside. -/

namespace Sys2Proof.Machine
open Sys2Proof Sys2Proof.Claims

variable {p : Nat} {s : State} {a w : W48} {rest : List W48} {x : Ctx}

/-! ### The data space by address (R303) -/

theorem loadData_plain (own : Nat) (ha : a.toNat < dataSize x.p) (hb : dataBad s x.p a.toNat = false) :
    loadData x a own s = .ok (dataR s x.p a.toNat) := by
  rw [loadData, if_pos ha, hb]
  rfl

theorem loadData_bad (own : Nat) (ha : a.toNat < dataSize x.p) (hb : dataBad s x.p a.toNat = true) : loadData x a own s = .error 9 := by
  rw [loadData, if_pos ha, hb]
  rfl

theorem loadData_outside (own : Nat) (ha : dataSize x.p ≤ a.toNat) (hl : x.p ≠ rangerP → 0x1100 ≤ a.toNat) :
    loadData x a own s = .error 7 := by
  rw [loadData, if_neg (Nat.not_lt.mpr ha), if_neg fun h => absurd h.2 (Nat.not_lt.mpr (hl h.1))]

theorem storeData_plain (v : W48) (ha : a.toNat < dataSize x.p) : storeData x a v s = .ok (setData x.p a.toNat v s) := by
  rw [storeData, if_pos ha]

theorem storeData_outside (v : W48) (ha : dataSize x.p ≤ a.toNat) (hl : x.p ≠ rangerP → 0x1100 ≤ a.toNat) :
    storeData x a v s = .error 7 := by
  rw [storeData, if_neg (Nat.not_lt.mpr ha), if_neg fun h => absurd h.2 (Nat.not_lt.mpr (hl h.1))]

theorem operandOf_data {op : EOp} (hlit : op.literal = false) (ho : op.operand = 12) (ha : a.toNat < 4096)
    (hf : fetchSlot s p (pcOf s p + 1) = .got a.toNat) : operandOf op p (pcOf s p) s = .ok (a, pcOf s p + 2) := by
  rw [operandOf_slot hlit (by omega) hf (by rw [ho]; exact ha), BitVec.ofNat_toNat, BitVec.setWidth_eq]

theorem spoilData_false (op : EOp) : spoilData false op p a s = s := if_neg fun h => Bool.false_ne_true h.1

/-! ### The rows of loads and stores (R303) -/

section
variable {c : Nat} (hst : (procOf s p).stack = a :: rest) (ha : Affords p 2 s)
include hst ha

section
variable (hload : ∀ x : Ctx, x.p = p → loadData x a 2 (entered p (pcOf s p + 1) 2 s) = .ok w)
include hload

theorem runRow_ld (h : At p 0x500 s) (hl : rest.length < 32) :
    runRow [] opLd p s = .next (leaves p 1 [w] (entered p (pcOf s p + 1) 2 s)) := by
  have hd : (procOf s p).stack.length = rest.length + 1 := by rw [hst]; rfl
  refine Shaped.goes (op := opLd) (ins := 1) (outs := 1) (.of_eq rfl) h rfl (operandOf_none rfl rfl) ha (by omega) (by omega) ?_
  simp only [opLd, topOf_entered, hst, List.getD_cons_zero, hload]
  rfl

theorem runRow_ldp (h : At p 0x504 s) (hl : rest.length < 31) :
    runRow [] opLdp p s = .next (leaves p 1 [a + 1, w] (entered p (pcOf s p + 1) 2 s)) := by
  have hd : (procOf s p).stack.length = rest.length + 1 := by rw [hst]; rfl
  refine Shaped.goes (op := opLdp) (ins := 1) (outs := 2) (.of_eq rfl) h rfl (operandOf_none rfl rfl) ha (by omega) (by omega) ?_
  simp only [opLdp, topOf_entered, hst, List.getD_cons_zero, hload]
  rfl

end

section
variable (hload : ∀ x : Ctx, x.p = p → loadData x a 2 (entered p (pcOf s p + 1) 2 s) = .error c)
include hload

theorem runRow_ld_fault (h : At p 0x500 s) (hl : rest.length < 32) :
    runRow [] opLd p s = .next (procFault p c (pcOf s p) (withoutEffect p (pcOf s p + 1) 2 s)) := by
  have hd : (procOf s p).stack.length = rest.length + 1 := by rw [hst]; rfl
  refine Shaped.faults (op := opLd) (ins := 1) (outs := 1) (.of_eq rfl) h rfl (operandOf_none rfl rfl) ha (by omega) (by omega) ?_
  simp only [opLd, topOf_entered, hst, List.getD_cons_zero, hload]

theorem runRow_ldp_fault (h : At p 0x504 s) (hl : rest.length < 31) :
    runRow [] opLdp p s = .next (procFault p c (pcOf s p) (withoutEffect p (pcOf s p + 1) 2 s)) := by
  have hd : (procOf s p).stack.length = rest.length + 1 := by rw [hst]; rfl
  refine Shaped.faults (op := opLdp) (ins := 1) (outs := 2) (.of_eq rfl) h rfl (operandOf_none rfl rfl) ha (by omega) (by omega) ?_
  simp only [opLdp, topOf_entered, hst, List.getD_cons_zero, hload]

end

end

section
variable {c : Nat} {t : State} (hst : (procOf s p).stack = a :: w :: rest) (hl : rest.length < 31) (ha : Affords p 1 s)
include hst hl ha

section
variable (hstore : ∀ x : Ctx, x.p = p → storeData x a w (entered p (pcOf s p + 1) 1 s) = .ok t)
include hstore

theorem runRow_st (h : At p 0x501 s) : runRow [] opSt p s = .next (leaves p 2 [] t) := by
  have hd : (procOf s p).stack.length = rest.length + 2 := by rw [hst]; rfl
  refine Shaped.goes (op := opSt) (ins := 2) (outs := 0) (.of_eq rfl) h rfl (operandOf_none rfl rfl) ha (by omega) (by omega) ?_
  simp only [opSt, topOf_entered, hst, List.getD_cons_zero, List.getD_cons_succ, hstore]
  rfl

theorem runRow_stp (h : At p 0x505 s) : runRow [] opStp p s = .next (leaves p 2 [a + 1] t) := by
  have hd : (procOf s p).stack.length = rest.length + 2 := by rw [hst]; rfl
  refine Shaped.goes (op := opStp) (ins := 2) (outs := 1) (.of_eq rfl) h rfl (operandOf_none rfl rfl) ha (by omega) (by omega) ?_
  simp only [opStp, topOf_entered, hst, List.getD_cons_zero, List.getD_cons_succ, hstore]
  rfl

end

section
variable (hstore : ∀ x : Ctx, x.p = p → storeData x a w (entered p (pcOf s p + 1) 1 s) = .error c)
include hstore

theorem runRow_st_fault (h : At p 0x501 s) :
    runRow [] opSt p s = .next (procFault p c (pcOf s p) (withoutEffect p (pcOf s p + 1) 1 s)) := by
  have hd : (procOf s p).stack.length = rest.length + 2 := by rw [hst]; rfl
  refine Shaped.faults (op := opSt) (ins := 2) (outs := 0) (.of_eq rfl) h rfl (operandOf_none rfl rfl) ha (by omega) (by omega) ?_
  simp only [opSt, topOf_entered, hst, List.getD_cons_zero, List.getD_cons_succ, hstore]

theorem runRow_stp_fault (h : At p 0x505 s) :
    runRow [] opStp p s = .next (procFault p c (pcOf s p) (withoutEffect p (pcOf s p + 1) 1 s)) := by
  have hd : (procOf s p).stack.length = rest.length + 2 := by rw [hst]; rfl
  refine Shaped.faults (op := opStp) (ins := 2) (outs := 1) (.of_eq rfl) h rfl (operandOf_none rfl rfl) ha (by omega) (by omega) ?_
  simp only [opStp, topOf_entered, hst, List.getD_cons_zero, List.getD_cons_succ, hstore]

end

end

section
variable (hst : (procOf s p).stack = a :: w :: rest) (hl : rest.length < 31) (ha : Affords p 3 s) (h : At p 0x506 s)
  (hin : a.toNat < dataSize p)
include hst hl ha h hin

theorem runRow_addm (hb : dataBad s p a.toNat = false) : runRow [] opAddm p s =
    .next (leaves p 2 [] (setData p a.toNat (dataR s p a.toNat + w) (entered p (pcOf s p + 1) 3 s))) := by
  have hd : (procOf s p).stack.length = rest.length + 2 := by rw [hst]; rfl
  refine Shaped.goes (op := opAddm) (ins := 2) (outs := 0) (.of_eq rfl) h rfl (operandOf_none rfl rfl) ha (by omega) (by omega) ?_
  simp only [opAddm, topOf_entered, hst, List.getD_cons_zero, List.getD_cons_succ, if_neg (Nat.not_le.mpr hin), dataBad_entered, hb,
    dataR_entered, Bool.false_eq_true, if_false]
  rfl

theorem runRow_addm_bad (hb : dataBad s p a.toNat = true) : runRow [] opAddm p s =
    .next (procFault p 9 (pcOf s p) (withoutEffect p (pcOf s p + 1) 3 s)) := by
  have hd : (procOf s p).stack.length = rest.length + 2 := by rw [hst]; rfl
  refine Shaped.faults (op := opAddm) (ins := 2) (outs := 0) (.of_eq rfl) h rfl (operandOf_none rfl rfl) ha (by omega) (by omega) ?_
  simp only [opAddm, topOf_entered, hst, List.getD_cons_zero, if_neg (Nat.not_le.mpr hin), dataBad_entered, hb, if_true]

end

section
variable (hin : a.toNat < 4096) (hf : fetchSlot s p (pcOf s p + 1) = .got a.toNat)
include hin hf

section
variable (ha : Affords p 2 s) (h : At p 0x502 s) (hl : (procOf s p).stack.length < 32)
include ha h hl

theorem runRow_ldi (hb : dataBad s p a.toNat = false) :
    runRow [] opLdi p s = .next (leaves p 0 [dataR s p a.toNat] (entered p (pcOf s p + 2) 2 s)) := by
  refine Shaped.goes (op := opLdi) (ins := 0) (outs := 1) (.of_eq rfl) h rfl (operandOf_data rfl rfl hin hf) ha
    (Nat.zero_le _) (by omega) ?_
  simp only [opLdi, dataBad_entered, hb, dataR_entered, Bool.false_eq_true, if_false]
  rfl

theorem runRow_ldi_bad (hb : dataBad s p a.toNat = true) :
    runRow [] opLdi p s = .next (procFault p 9 (pcOf s p) (withoutEffect p (pcOf s p + 2) 2 s)) := by
  refine Shaped.faults (op := opLdi) (ins := 0) (outs := 1) (.of_eq rfl) h rfl (operandOf_data rfl rfl hin hf) ha
    (Nat.zero_le _) (by omega) ?_
  simp only [opLdi, dataBad_entered, hb, if_true]

end

theorem runRow_sti (hst : (procOf s p).stack = w :: rest) (hl : rest.length < 32) (ha : Affords p 1 s) (h : At p 0x503 s) :
    runRow [] opSti p s = .next (leaves p 1 [] (setData p a.toNat w (entered p (pcOf s p + 2) 1 s))) := by
  have hd : (procOf s p).stack.length = rest.length + 1 := by rw [hst]; rfl
  refine Shaped.goes (op := opSti) (ins := 1) (outs := 0) (.of_eq rfl) h rfl (operandOf_data rfl rfl hin hf) ha (by omega) (by omega) ?_
  simp only [opSti, topOf_entered, hst, List.getD_cons_zero]
  rfl

end

/-! ### Words in the data space (R303) -/

theorem exec_ld_false : exec (.ld p false) s = runRow [] opLd p s := congrArg (runRow [] opLd p) (spoilData_false _)

theorem exec_ldp_false : exec (.ldp p false) s = runRow [] opLdp p s := congrArg (runRow [] opLdp p) (spoilData_false _)

theorem exec_addm_false : exec (.addm p false) s = runRow [] opAddm p s := congrArg (runRow [] opAddm p) (spoilData_false _)

theorem exec_ldi_false : exec (.ldi p false) s = runRow [] opLdi p s := by
  change execLdi p false s = _
  unfold execLdi
  split
  · rw [spoilData_false]
  · rfl

theorem data_space : DataSpace := by
  intro p s a hin hb ha
  have hload : ∀ x : Ctx, x.p = p → loadData x a 2 (entered p (pcOf s p + 1) 2 s) = .ok (dataR s p a.toNat) := by
    rintro x rfl
    rw [loadData_plain 2 hin (by rw [dataBad_entered]; exact hb), dataR_entered]
  have hstore : ∀ w, ∀ x : Ctx, x.p = p →
      storeData x a w (entered p (pcOf s p + 1) 1 s) = .ok (setData p a.toNat w (entered p (pcOf s p + 1) 1 s)) := by
    rintro w x rfl
    exact storeData_plain w hin
  refine ⟨fun rest hst => ⟨fun hl h => ?ld, fun hl h => ?ldp⟩, fun w rest hst hl => ⟨fun h => ?st, fun h => ?stp, fun h ha3 => ?addm⟩,
    fun hlt hf hl h => ?ldi, fun w rest hst hl hlt hf h => ?sti⟩
  case ld => exact exec_ld_false.trans (runRow_ld hst ha hload h hl)
  case ldp => exact exec_ldp_false.trans (runRow_ldp hst ha hload h hl)
  case st => exact runRow_st hst hl (ha.mono (by omega)) (hstore w) h
  case stp => exact runRow_stp hst hl (ha.mono (by omega)) (hstore w) h
  case addm => exact exec_addm_false.trans (runRow_addm hst hl ha3 h hin hb)
  case ldi => exact exec_ldi_false.trans (runRow_ldi hlt hf ha h hl hb)
  case sti => exact runRow_sti hlt hf hst hl (ha.mono (by omega)) h

/-! ### Parity (R265) -/

/-- A DRAM word is marked: its parity check has failed. -/
def spoiled (p n : Nat) (s : State) : State := { s with poisoned := dramA p n :: s.poisoned }

section
variable {n : Nat} (hp : p < 16)
include hp

theorem dataBad_spoiled : dataBad (spoiled p n s) p n = true := by
  simp only [dataBad, spoiled, ne_rangerP_of_lt hp, ne_eq, not_false_eq_true, decide_true, List.contains_cons, BEq.rfl, Bool.true_or,
    Bool.and_self]

/-- An engine's program memory lies below its DRAM: a marked DRAM word is no program word. -/
theorem fetchWord_spoiled (w : Nat) : fetchWord (spoiled p n s) p w = fetchWord s p w := by
  have hr := ne_rangerP_of_lt hp
  rcases Nat.lt_or_ge w 4096 with hw | hw
  · have hne : (iramA p w == dramA p n) = false := by
      rw [beq_eq_false_iff_ne, iramA, dramA]
      omega
    simp only [fetchWord, if_neg hr, spoiled, List.contains_cons, hne, Bool.false_or]
    rfl
  · simp only [fetchWord, if_neg hr, if_pos hw]

theorem fetchSlot_spoiled (b : Nat) : fetchSlot (spoiled p n s) p b = fetchSlot s p b := by
  unfold fetchSlot
  rw [fetchWord_spoiled hp]

theorem at_spoiled {code : Nat} (h : At p code s) : At p code (spoiled p n s) := by
  obtain ⟨hs, hr, hf⟩ := h
  exact ⟨hs, hr, (fetchSlot_spoiled hp _).trans hf⟩

theorem spoilData_at {op : EOp} {code : Nat} (h : At p code s) (his : op.is p code s = true) (hin : a.toNat < 4096)
    (hb : dataBad s p a.toNat = false) : spoilData true op p a s = spoiled p a.toNat s := by
  obtain ⟨hs, hr, hf⟩ := h
  have hrow : atRow op p s = true := by simp only [atRow, hs, hr, hf, his, Bool.not_false, Bool.and_self]
  refine if_pos ⟨rfl, hp, hin, hrow, ?_⟩
  rw [hb]
  rfl

/-- A store clears the mark of its word. -/
theorem dataBad_setData (w : W48) : dataBad (setData p n w s) p n = false := by
  simp only [setData, if_neg (ne_rangerP_of_lt hp), dataBad, setClean, Bool.and_eq_false_iff]
  exact .inr (by simp)

end

theorem topOf_cons {q : Nat} (hst : (procOf s q).stack = a :: rest) : topOf s q 0 = a := by
  rw [topOf, hst]
  rfl

theorem data_parity : DataParity := by
  intro p s a hp hin hb ha u
  have hdata : a.toNat < dataSize p := by rw [dataSize, if_neg (ne_rangerP_of_lt hp)]; exact hin
  have hbad : dataBad u p a.toNat = true := dataBad_spoiled hp
  have hload : ∀ x : Ctx, x.p = p → loadData x a 2 (entered p (pcOf u p + 1) 2 u) = .error 9 := by
    rintro x rfl
    exact loadData_bad 2 hdata (by rw [dataBad_entered]; exact hbad)
  have ha2 : Affords p 2 u := ha.mono (by omega)
  refine ⟨fun rest hst => ⟨fun hl h => ?ld, fun hl h => ?ldp⟩, fun hf hl h => ?ldi, fun w rest hst hl h => ?addm,
    fun w => dataBad_setData hp w⟩
  case ld =>
    have hspoil : spoilData true opLd p (topOf s p 0) s = u := by rw [topOf_cons hst]; exact spoilData_at hp h rfl hin hb
    exact (congrArg _ hspoil).trans (runRow_ld_fault (s := u) hst ha2 hload (at_spoiled hp h) hl)
  case ldp =>
    have hspoil : spoilData true opLdp p (topOf s p 0) s = u := by rw [topOf_cons hst]; exact spoilData_at hp h rfl hin hb
    exact (congrArg _ hspoil).trans (runRow_ldp_fault (s := u) hst ha2 hload (at_spoiled hp h) hl)
  case ldi =>
    have hspoil : spoilData true opLdi p a s = u := spoilData_at hp h rfl hin hb
    have hexec : exec (.ldi p true) s = runRow [] opLdi p (spoilData true opLdi p a s) := by
      change execLdi p true s = _
      rw [execLdi, show operandOf opLdi p (procOf s p).pc s = _ from operandOf_data rfl rfl hin hf]
    rw [hexec, hspoil]
    exact runRow_ldi_bad hin ((fetchSlot_spoiled hp _).trans hf) ha2 (at_spoiled hp h) hl hbad
  case addm =>
    have hspoil : spoilData true opAddm p (topOf s p 0) s = u := by rw [topOf_cons hst]; exact spoilData_at hp h rfl hin hb
    exact (congrArg _ hspoil).trans (runRow_addm_bad (s := u) hst hl ha (at_spoiled hp h) hdata hbad)

/-! ### Addresses outside the data space (R303, R310) -/

theorem data_address_fault : DataAddressFault := by
  intro p s a hout hloc ha
  have hload : ∀ x : Ctx, x.p = p → loadData x a 2 (entered p (pcOf s p + 1) 2 s) = .error 7 := by
    rintro x rfl
    exact loadData_outside 2 hout hloc
  have hstore : ∀ w, ∀ x : Ctx, x.p = p → storeData x a w (entered p (pcOf s p + 1) 1 s) = .error 7 := by
    rintro w x rfl
    exact storeData_outside w hout hloc
  refine ⟨fun rest hst hl => ⟨fun h => ?ld, fun h => ?ldp⟩, fun w rest hst hl => ⟨fun h => ?st, fun h => ?stp⟩⟩
  case ld => exact exec_ld_false.trans (runRow_ld_fault hst ha hload h (by omega))
  case ldp => exact exec_ldp_false.trans (runRow_ldp_fault hst ha hload h hl)
  case st => exact runRow_st_fault hst hl (ha.mono (by omega)) (hstore w) h
  case stp => exact runRow_stp_fault hst hl (ha.mono (by omega)) (hstore w) h

/-- Settles O7, from what a load and a store find at an address and from the rows that act on it. -/
theorem dataMemory : Obligations.DataMemory := ⟨data_space, data_parity, data_address_fault⟩

end Sys2Proof.Machine
end

section
/-! SUPPORT. Fabric instructions (R273, R304): what GET reads and what becomes of the invocation's quality, PUT, and EMIT by its count. -/

namespace Sys2Proof.Machine
open Sys2Proof Sys2Proof.Claims

variable {p next n c v : Nat} {s : State} {rest : List W48}

/-! ### Reading a channel (R273, R304) -/

@[simp] theorem getSample_entered (k : Nat) : getSample (entered p next n s) k = getSample s k := by
  rw [entered_only]
  rfl

@[simp] theorem chanOfSource_entered (kind a : Nat) : chanOfSource (entered p next n s) kind a = chanOfSource s kind a := by
  rw [entered_only]
  rfl

@[simp] theorem streamOf_entered (kind unit output : Nat) :
    streamOf (entered p next n s) kind unit output = streamOf s kind unit output := by
  rw [entered_only]
  rfl

theorem getSample_some {y : Sample} (hen : chEn s c = true) (hval : chIsEvent s c = false) (hy : (getChan s c).last = some y) :
    getSample s c = some y := by
  simp only [getSample, hen, hval, Bool.not_false, Bool.and_self, if_true, hy]

theorem getSample_none (h : chEn s c = false ∨ chIsEvent s c = true ∨ (getChan s c).last = none) : getSample s c = none := by
  unfold getSample
  split
  case isTrue hen =>
    rw [Bool.and_eq_true, Bool.not_eq_true'] at hen
    exact (h.resolve_left (by rw [hen.1]; decide)).resolve_left (by rw [hen.2]; decide)
  case isFalse => rfl

/-- A value without quality and flags of its own leaves the invocation's, but for the filled flag. -/
theorem combine_none : combine p none s = withRead p { filled := true } s := by
  have hq : ∀ q : Quality, qworse q .fine = q := fun q => by cases q <;> rfl
  simp only [combine, withRead, hq, Bool.or_false, Bool.or_true]

section
variable (hc : c < 2048) (hf : fetchSlot s p (pcOf s p + 1) = .got c) (ha : Affords p 4 s)
include hc hf ha

theorem exec_getOp (h : At p 0x600 s) (hl : (procOf s p).stack.length < 32) : exec (.getOp p) s = .next
    (leaves p 0 [((getSample s c).getD {}).value] (combine p (getSample s c) (entered p (pcOf s p + 2) 4 s))) := by
  refine Shaped.goes (op := opGet) (ins := 0) (outs := 1) (.of_eq rfl) h rfl (operandOf_slot rfl (by decide) hf hc) ha
    (Nat.zero_le _) hl ?_
  simp only [opGet, toNat_ofNat_of_lt (m := 11) hc (by decide), getSample_entered]
  rfl

theorem exec_gett (h : At p 0x601 s) (hl : (procOf s p).stack.length < 31) : exec (.gett p) s = .next
    (leaves p 0 [((getSample s c).getD {}).value, (((getSample s c).getD {}).stamp).setWidth 48]
      (combine p (getSample s c) (entered p (pcOf s p + 2) 4 s))) := by
  refine Shaped.goes (op := opGett) (ins := 0) (outs := 2) (.of_eq rfl) h rfl (operandOf_slot rfl (by decide) hf hc) ha
    (Nat.zero_le _) (by omega) ?_
  simp only [opGett, toNat_ofNat_of_lt (m := 11) hc (by decide), getSample_entered]
  rfl

end

theorem fabric_reads : FabricReads := by
  intro p c s hc hf ha
  refine ⟨fun y hen hval hy => ?value, fun hnone => ?none⟩
  case value =>
    have hy' := getSample_some hen hval hy
    exact ⟨fun h hl => by rw [exec_getOp hc hf ha h hl, hy']; rfl, fun h hl => by rw [exec_gett hc hf ha h hl, hy']; rfl⟩
  case none =>
    have hy' := getSample_none hnone
    exact ⟨fun h hl => by rw [exec_getOp hc hf ha h hl, hy', combine_none]; rfl,
      fun h hl => by rw [exec_gett hc hf ha h hl, hy', combine_none]; rfl⟩

/-! ### PUT (R273, R304) -/

/-- A row that only the engines have, at one of them. -/
theorem is_enginesOnly {op : EOp} {code : Nat} (hp : p < 16) (hlo : op.lo ≤ code) (hhi : code ≤ op.hi) (hdef : op.defined = enginesOnly) :
    op.is p code s = true :=
  is_of_between hlo hhi fun k => by rw [hdef]; exact decide_eq_true (ne_rangerP_of_lt hp)

/-- A sample of the invocation carries its stamp, quality and flags, whatever the program counter, the charge and the stack. -/
theorem procSample_leaves_entered (k : Nat) (out : List W48) (w : W48) :
    procSample (procOf (leaves p k out (entered p next n s)) p) w = procSample (procOf s p) w := by
  simp only [procSample, procOf_leaves, procOf_entered]

section
variable {w : W48} (hp : p < 16) (hv : v < 256) (hf : fetchSlot s p (pcOf s p + 1) = .got v) (hst : (procOf s p).stack = w :: rest)
  (hl : rest.length < 32) (h : At p 0x602 s) (ha : Affords p 2 s)
include hp hv hf hst hl h ha

theorem exec_put (hc : chanOfSource s 8 (p * 256 + v) = some c) : exec (.put p) s =
    .next (channelRaw c w (procSample (procOf s p) w) (leaves p 1 [] (entered p (pcOf s p + 2) 2 s))) := by
  have hd : (procOf s p).stack.length = rest.length + 1 := by rw [hst]; rfl
  refine Shaped.goes (op := opPut) (ins := 1) (outs := 0) (.of_eq rfl) h (is_enginesOnly hp (Nat.le_refl _) (Nat.le_refl _) rfl)
    (operandOf_slot rfl (by decide) hf hv) ha (by omega) (by omega) ?_
  simp only [opPut, toNat_ofNat_of_lt (m := 8) hv (by decide), chanOfSource_entered, hc, topOf_entered, hst, List.getD_cons_zero,
    popN_eq_leaves, procSample_leaves_entered]

theorem exec_put_none (hc : chanOfSource s 8 (p * 256 + v) = none) : exec (.put p) s =
    .next (procFault p 11 (pcOf s p) (withoutEffect p (pcOf s p + 2) 2 s)) := by
  have hd : (procOf s p).stack.length = rest.length + 1 := by rw [hst]; rfl
  refine Shaped.faults (op := opPut) (ins := 1) (outs := 0) (.of_eq rfl) h (is_enginesOnly hp (Nat.le_refl _) (Nat.le_refl _) rfl)
    (operandOf_slot rfl (by decide) hf hv) ha (by omega) (by omega) ?_
  simp only [opPut, toNat_ofNat_of_lt (m := 8) hv (by decide), chanOfSource_entered, hc]

end

/-! ### EMIT (R273, R304) -/

theorem emitN_of_stack {pr qr : Proc} (h : qr.stack = pr.stack) : emitN qr = emitN pr := by
  unfold emitN
  rw [h]

theorem emitN_inRange {pr : Proc} {k : W48} {m : Nat} (hst : pr.stack = k :: rest) (hk : k.toNat = m) (h1 : 1 ≤ m) (h16 : m ≤ 16) :
    emitN pr = some m := by
  have hval : sval k = m := by rw [sval, BitVec.toInt_eq_toNat_of_lt (by omega), hk]
  simp only [emitN, hst, hval]
  rw [if_pos (by omega), hk]

theorem emitN_outOfRange {pr : Proc} {k : W48} (hst : pr.stack = k :: rest) (hk : k = 0 ∨ 17 ≤ k.toNat) : emitN pr = none := by
  have hval : ¬(1 ≤ sval k ∧ sval k ≤ 16) := by
    rcases hk with rfl | hk
    · decide
    · rw [sval, BitVec.toInt_eq_toNat_cond]
      have := k.isLt
      split <;> omega
  simp only [emitN, hst, if_neg hval]

/-- EMIT takes its words and their count, and costs one cycle more for each word; out of range it takes the count alone (R304). -/
theorem opEmit_pops (x : Ctx) (pr : Proc) : opEmit.pops x pr = ((emitN pr).map (· + 1)).getD 1 := by
  unfold opEmit
  dsimp only
  cases emitN pr <;> rfl

theorem opEmit_cycles (x : Ctx) (pr : Proc) : opEmit.cycles x pr s = 2 + (emitN pr).getD 0 := by
  unfold opEmit
  dsimp only
  cases emitN pr <;> rfl

section
variable {m k : Nat} (hp : p < 16) (hv : v < 256) (hf : fetchSlot s p (pcOf s p + 1) = .got v) (h : At p 0x603 s)
  (hm : (emitN (procOf s p)).getD 0 = m) (hk : ((emitN (procOf s p)).map (· + 1)).getD 1 = k) (hu : k ≤ (procOf s p).stack.length)
  (ho : (procOf s p).stack.length - k ≤ 32) (ha : Affords p (2 + m) s)
include hm hk hu ho ha

theorem checks_opEmit (x : Ctx) (hx : x.p = p) : checks opEmit x s = none := by
  subst hx
  refine checks_none ?_ ?_ ?_ nofun
  · rwa [opEmit_cycles, hm]
  · rwa [opEmit_pops, hk]
  · rw [opEmit_pops, hk]
    exact ho

include hp hv hf h

theorem exec_emit_goes {t : State} (hrun : opEmit.run { p := p, addr := pcOf s p, opnd := BitVec.ofNat 48 v, next := pcOf s p + 2 }
    (entered p (pcOf s p + 2) (2 + m) s) = .go t) : exec (.emit p) s = .next t :=
  runRow_go (op := opEmit) h (is_enginesOnly hp (Nat.le_refl _) (Nat.le_refl _) rfl) rfl (operandOf_slot rfl (by decide) hf hv)
    (checks_opEmit hm hk hu ho ha _ rfl) (by rw [opEmit_cycles, hm]; exact hrun)

theorem exec_emit_faults (hrun : opEmit.run { p := p, addr := pcOf s p, opnd := BitVec.ofNat 48 v, next := pcOf s p + 2 }
    (entered p (pcOf s p + 2) (2 + m) s) = .fault 11 (pcOf s p) (entered p (pcOf s p + 2) (2 + m) s)) :
    exec (.emit p) s = .next (procFault p 11 (pcOf s p) (withoutEffect p (pcOf s p + 2) (2 + m) s)) := by
  refine (runRow_fault (op := opEmit) h (is_enginesOnly hp (Nat.le_refl _) (Nat.le_refl _) rfl) rfl (operandOf_slot rfl (by decide) hf hv)
    (checks_opEmit hm hk hu ho ha _ rfl) (by rw [opEmit_cycles, hm]; exact hrun)).trans ?_
  simp only [withoutEffect, procOf_entered]

end

theorem fabric_writes : FabricWrites := by
  intro p v s hp hv hf
  have hopnd : (BitVec.ofNat 48 v).toNat = v := toNat_ofNat_of_lt (m := 8) hv (by decide)
  have h255 : (BitVec.ofNat 48 v = 255) ↔ v = 255 := by rw [← BitVec.toNat_inj, hopnd]; rfl
  refine ⟨fun w rest hst hl h ha => ⟨fun c hc => exec_put hp hv hf hst hl h ha hc, exec_put_none hp hv hf hst hl h ha⟩,
    fun n ws rest hst hn h1 h16 hl h ha => ?inRange, fun n rest hst hl hn h ha => ?outOfRange⟩
  case inRange =>
    have hemit : emitN (procOf s p) = some ws.length := emitN_inRange hst hn h1 h16
    have hd : (procOf s p).stack.length = ws.length + 1 + rest.length := by
      rw [hst, List.length_cons, List.length_append, List.length_reverse]
      omega
    have hstack : (procOf (entered p (pcOf s p + 2) (2 + ws.length) s) p).stack = (procOf s p).stack := by rw [procOf_entered]
    have hwords : (((procOf s p).stack.drop 1).take ws.length).reverse = ws := by
      rw [hst, List.drop_succ_cons, List.drop_zero, List.take_left' List.length_reverse, List.reverse_reverse]
    refine ⟨fun k hne hk => ?stream, fun hk => ?none⟩
    case stream =>
      refine exec_emit_goes hp hv hf h (m := ws.length) (k := ws.length + 1) (by rw [hemit]; rfl) (by rw [hemit]; rfl) (by omega)
        (by omega) ha ?_
      simp only [opEmit, emitN_of_stack hstack, hemit, hopnd, streamOf_entered, hk, h255, hne, decide_false, hstack, hwords]
      simp only [emitRecord, procSample, procOf_entered, popN_eq_leaves]
    case none =>
      refine exec_emit_faults hp hv hf h (m := ws.length) (k := ws.length + 1) (by rw [hemit]; rfl) (by rw [hemit]; rfl) (by omega)
        (by omega) ha ?_
      rcases hk with hk | hk
      · subst hk
        simp only [opEmit, emitN_of_stack hstack, hemit]
        rfl
      · simp only [opEmit, emitN_of_stack hstack, hemit, hopnd, streamOf_entered, hk]
        cases decide (BitVec.ofNat 48 v = 255) <;> rfl
  case outOfRange =>
    have hemit : emitN (procOf s p) = none := emitN_outOfRange hst hn
    have hd : (procOf s p).stack.length = rest.length + 1 := by rw [hst]; rfl
    have hstack : (procOf (entered p (pcOf s p + 2) 2 s) p).stack = (procOf s p).stack := by rw [procOf_entered]
    refine exec_emit_faults hp hv hf h (m := 0) (k := 1) (by rw [hemit]; rfl) (by rw [hemit]; rfl) (by omega) (by omega) ha ?_
    simp only [opEmit, Nat.add_zero, emitN_of_stack hstack, hemit]

/-- Settles O8, from what GET reads of a channel, from the channel that takes a PUT, and from the count of an EMIT. -/
theorem fabricInstructions : Obligations.FabricInstructions := ⟨fabric_reads, fabric_writes⟩

end Sys2Proof.Machine
end

section
/-! SUPPORT. Signal, time and timer instructions (R304, R305): what each row makes of the state in which its effect begins. -/

namespace Sys2Proof.Machine
open Sys2Proof Sys2Proof.Claims

variable {p n v code : Nat} {s t : State} {rest : List W48} {w : W48}

/-! ### Signals (R304) -/

/-- This engine's drive of a pin: the pin follows where its EVOn_CFG selects this engine, and the instruction is counted otherwise. -/
theorem driveEvo_entered {x : Ctx} {next m : Nat} (hp : p < 16) (hx : x.p = p) (hopnd : x.opnd.toNat = v) (on : Bool) :
    driveEvo x on (entered p next m s) =
      let e := entered p next m s
      let d := setEngine p { getEngine e p with
        evo := if on then (getEngine s p).evo ||| (1#8 <<< v) else (getEngine s p).evo &&& ~~~(1#8 <<< v) } e
      if bits (cfgR s (evoA v)) 7 5 = 2 ∧ bits (cfgR s (evoA v)) 12 8 = p then evoFollow v d else bump evoWerrA d := by
  have hevo : (getEngine (entered p next m s) p).evo = (getEngine s p).evo := by rw [getEngine_entered (ne_rangerP_of_lt hp)]
  have hcfg : ∀ y, evoCfg (setEngine p y (entered p next m s)) v = cfgR s (evoA v) := fun y => cfgR_entered _
  simp only [driveEvo, hx, hopnd, hevo, evoSrc, evoIdx, hcfg]

theorem setSoft_entered {next m : Nat} (k : Nat) : setSoft k (entered p next m s) =
    ringTrigger 5 k (setIcu (114 + k) { getIcu s (114 + k) with latch := true } (entered p next m s)) := by
  rw [setSoft, icuLatch, getIcu_entered]

/-- A value clamped to a range, without the mark of having been clamped. -/
theorem clampTo_fst {lo hi : Int} (x : Int) (h : lo ≤ hi) : (clampTo lo hi x).1 = max lo (min hi x) := by
  unfold clampTo
  split
  · dsimp only
    omega
  · split <;> dsimp only <;> omega

theorem clampLvl_eq (l : W48) : clampLvl l = BitVec.ofInt 32 (max (-2048) (min 2047 l.toInt) % 4096) := by
  rw [clampLvl, clampTo_fst _ (by decide)]
  rfl

section
variable (hf : fetchSlot s p (pcOf s p + 1) = .got v) (hl : (procOf s p).stack.length ≤ 32) (ha : Affords p 1 s)
include hf hl ha

/-- A signal instruction whose operand is the number of a pin or source. -/
theorem runRow_signal {op : EOp} (hop : Shaped op 0 0 1) (hlit : op.literal = false) (hopnd : op.operand = 3) (hv : v < 8)
    (h : At p code s) (his : op.is p code s = true)
    (hrun : ∀ x : Ctx, x.p = p → x.opnd.toNat = v → op.run x (entered p (pcOf s p + 2) 1 s) = .go t) : runRow [] op p s = .next t := by
  refine hop.goes h his (operandOf_slot hlit (by omega) hf (by rw [hopnd]; exact hv)) ha (Nat.zero_le _) hl ?_
  exact hrun _ rfl (toNat_ofNat_of_lt (m := 3) hv (by decide))

theorem exec_setlvl {l : W48} (hv : v < 16) (hst : (procOf s p).stack = l :: rest) (h : At p 0x608 s) : exec (.setlvl p) s =
    .next (leaves p 1 [] (setCfg (setLvlA (v / 8) (v % 8)) (BitVec.ofInt 32 (max (-2048) (min 2047 l.toInt) % 4096))
      (entered p (pcOf s p + 2) 1 s))) := by
  have hd : (procOf s p).stack.length = rest.length + 1 := by rw [hst]; rfl
  refine Shaped.goes (op := opSetlvl) (ins := 1) (outs := 0) (.of_eq rfl) h rfl (operandOf_slot rfl (by decide) hf hv) ha
    (by omega) (by omega) ?_
  simp only [opSetlvl, toNat_ofNat_of_lt (m := 4) hv (by decide), topOf_entered, hst, List.getD_cons_zero, clampLvl_eq, popN_eq_leaves]

end

theorem signal_instructions : SignalInstructions := by
  intro p v s hf hl ha
  refine ⟨fun on hv hp h => ?evo, fun hv h => ?evoclr, fun hv h => ?swset, fun l rest hv hst h => exec_setlvl hf hl ha hv hst h⟩
  case evo =>
    cases on with
    | true =>
      exact runRow_signal hf hl ha (op := opEvoa) (.of_eq rfl) rfl rfl hv h (is_enginesOnly hp (Nat.le_refl _) (Nat.le_refl _) rfl)
        fun x hx hopnd => congrArg IRes.go (driveEvo_entered hp hx hopnd true)
    | false =>
      exact runRow_signal hf hl ha (op := opEvod) (.of_eq rfl) rfl rfl hv h (is_enginesOnly hp (Nat.le_refl _) (Nat.le_refl _) rfl)
        fun x hx hopnd => congrArg IRes.go (driveEvo_entered hp hx hopnd false)
  case evoclr =>
    exact runRow_signal hf hl ha (op := opEvoclr) (.of_eq rfl) rfl rfl hv h rfl fun x hx hopnd => by
      simp only [opEvoclr, hopnd]
  case swset =>
    exact runRow_signal hf hl ha (op := opSwset) (.of_eq rfl) rfl rfl hv h rfl fun x hx hopnd => by
      simp only [opSwset, hopnd, setSoft_entered]

/-! ### Time (R61, R305) -/

theorem countSource_entered {next m : Nat} : countSource 14 (some p) (entered p next m s) =
    forEach ((List.range 32).filter (fun m => decide (bits (cfgR s (tmrA m)) 3 0 = 14 ∧ bits (cfgR s (tmrA m)) 8 4 = p))) edge
      (entered p next m s) := by
  have hcounts : ∀ k, (tmrSrc (entered p next m s) k = 14 && (some p = none || some p = some (tmrIdx (entered p next m s) k))) =
      decide (bits (cfgR s (tmrA k)) 3 0 = 14 ∧ bits (cfgR s (tmrA k)) 8 4 = p) := fun k => by
    simp only [tmrSrc, tmrIdx, tmrCtrl, cfgR_entered, reduceCtorEq, decide_false, Bool.false_or, Option.some.injEq, eq_comm (a := p),
      Bool.decide_and]
  simp only [countSource, sourceEdges, hcounts]

theorem bits_eq_div_mod {k : Nat} (x : BitVec k) (hi lo : Nat) : bits x hi lo = x.toNat / 2 ^ lo % 2 ^ (hi + 1 - lo) := by
  rw [bits, Nat.shiftRight_eq_div_pow]

theorem tmrCommand_eq (c : W48) (u : State) : tmrCommand c.toNat u =
    if bits c 2 0 = 7 then werr u else timerCmd (bits c 2 0) (bits c 12 8) (bits c 21 16) u := by
  simp only [bits_eq_div_mod, Nat.pow_zero, Nat.div_one]
  rfl

/-! ### Timers (R68, R69, R73, R305) -/

/-- The value that TSTAT pushes is the low byte of TMRn_STAT. -/
theorem tstat_word (r : W32) : BitVec.ofNat 48 (r.toNat % 256) = (r.setWidth 8).setWidth 48 := by
  apply BitVec.eq_of_toNat_eq
  simp

@[simp] theorem tmrStat_entered {next m : Nat} (k : Nat) : tmrStat (entered p next m s) k = tmrStat s k := by
  simp only [tmrStat, flagR_entered, getTimer_entered]

/-- The rows of the timer reads: each pushes what it reads of the timer that its operand names. -/
theorem timerReads_rows : ∀ r ∈ timerReads, ∃ op outs, IsRow r.1 op ∧ Shaped op 0 outs r.2.2.1 ∧ outs ≤ 2 ∧ op.literal = false ∧
    op.operand = 5 ∧ (∀ p s, op.is p r.2.1 s = true) ∧ (∀ x u, op.run x u = .go (leaves x.p 0 (r.2.2.2 u x.opnd.toNat) u)) ∧
    ∀ p next m s k, r.2.2.2 (entered p next m s) k = r.2.2.2 s k := by
  simp only [timerReads, List.forall_mem_cons, List.not_mem_nil, false_implies, implies_true, and_true]
  refine ⟨?tcnt, ?tcapa, ?tcapb, ?tstat⟩
  all_goals refine ⟨_, _, fun _ _ => rfl, .of_eq rfl, by decide, rfl, rfl, fun _ _ => rfl, fun x u => ?_, fun p next m s k => ?_⟩
  case tstat.refine_1 => simp only [opTstat, tstat_word, replaceTop_eq_leaves]
  case tstat.refine_2 => simp only [tmrStat_entered]
  case tcnt.refine_1 | tcapa.refine_1 | tcapb.refine_1 => rfl
  all_goals simp only [getTimer_entered]

section
variable (hn : n < 32) (hf : fetchSlot s p (pcOf s p + 1) = .got n) (ha : Affords p 2 s)
include hn hf ha

theorem exec_timerReads {r : (Nat → Instr) × Nat × Nat × (State → Nat → List W48)} (hr : r ∈ timerReads)
    (hcost : r.2.2.1 ≤ 2) (hl : (procOf s p).stack.length < 31) (h : At p r.2.1 s) :
    exec (r.1 p) s = .next (leaves p 0 (r.2.2.2 s n) (entered p (pcOf s p + 2) r.2.2.1 s)) := by
  obtain ⟨op, outs, hrow, hop, houts, hlit, hopnd, his, hrun, hkeep⟩ := timerReads_rows r hr
  rw [hrow]
  refine hop.goes h (his p s) (operandOf_slot hlit (by omega) hf (by rw [hopnd]; exact hn)) (ha.mono hcost) (Nat.zero_le _) (by omega) ?_
  rw [hrun, hkeep, toNat_ofNat_of_lt (m := 5) hn (by decide)]

/-- A compare write: the compare takes the value, and a value above TOP is flagged (R69). -/
theorem runRow_cmpOp (b : Bool) (hst : (procOf s p).stack = w :: rest) (hl : rest.length < 32) (h : At p code s) :
    runRow [] (cmpOp code b) p s = .next (leaves p 1 [] (writeCompare n b w (entered p (pcOf s p + 2) 2 s))) := by
  have hd : (procOf s p).stack.length = rest.length + 1 := by rw [hst]; rfl
  refine Shaped.goes (op := cmpOp code b) (ins := 1) (outs := 0) (.of_eq rfl) h
    (is_of_between (Nat.le_refl _) (Nat.le_refl _) fun _ => rfl)
    (operandOf_slot rfl (show 5 ≠ 0 by decide) hf hn) ha (by omega) (by omega) ?_
  simp only [cmpOp, toNat_ofNat_of_lt (m := 5) hn (by decide), topOf_entered, hst, List.getD_cons_zero, popN_eq_leaves]

theorem exec_tclr (hst : (procOf s p).stack = w :: rest) (hl : rest.length < 32) (h : At p 0x716 s) : exec (.tclr p) s =
    .next (leaves p 1 [] (setFlags (tmrStatA n) (flagR s (tmrStatA n) &&& ~~~(BitVec.ofNat 32 (w.toNat % 32)))
      (entered p (pcOf s p + 2) 1 s))) := by
  have hd : (procOf s p).stack.length = rest.length + 1 := by rw [hst]; rfl
  refine Shaped.goes (op := opTclr) (ins := 1) (outs := 0) (.of_eq rfl) h rfl (operandOf_slot rfl (by decide) hf hn)
    (ha.mono (m := 1) (by decide)) (by omega)
    (by omega) ?_
  simp only [opTclr, toNat_ofNat_of_lt (m := 5) hn (by decide), topOf_entered, hst, List.getD_cons_zero, popN_eq_leaves, clearFlags,
    flagR_entered]

end

theorem writeCompare_eq (b : Bool) (u : State) : writeCompare n b w u =
    let t := setWord (tmrA n + if b then 0x20 else 0x18) w u
    if (wordR t (tmrA n + 0x10)).toNat < w.toNat then raise (tmrStatA n) 4 t else t := rfl

theorem time_instructions : TimeInstructions := by
  intro p s ha
  have ha1 : Affords p 1 s := ha.mono (by omega)
  refine ⟨fun hl h => ?now, fun hl h => ?nowf, fun hp hl h => ?tick, fun c rest hst hl h => ?tcmd,
    fun n hn hf => ⟨fun r hr hl h => ?reads, fun v rest hst hl => ⟨fun h => ?tcmpa, fun h => ?tcmpb, exec_tclr hn hf ha hst hl⟩⟩⟩
  case now =>
    refine Shaped.goes (op := opNow) (ins := 0) (outs := 1) (.of_eq rfl) h rfl (operandOf_none rfl rfl) ha1 (Nat.zero_le _) hl ?_
    simp only [opNow, ticks_entered]
    rfl
  case nowf =>
    refine Shaped.goes (op := opNowf) (ins := 0) (outs := 2) (.of_eq rfl) h rfl (operandOf_none rfl rfl) ha1 (Nat.zero_le _) (by omega) ?_
    simp only [opNowf, ticks_entered]
    rfl
  case tick =>
    exact Shaped.goes (op := opTick) (ins := 0) (outs := 0) (.of_eq rfl) h (is_enginesOnly hp (Nat.le_refl _) (Nat.le_refl _) rfl)
      (operandOf_none rfl rfl) ha1 (Nat.zero_le _) hl (congrArg IRes.go countSource_entered)
  case tcmd =>
    have hd : (procOf s p).stack.length = rest.length + 1 := by rw [hst]; rfl
    refine Shaped.goes (op := opTcmd) (ins := 1) (outs := 0) (.of_eq rfl) h rfl (operandOf_none rfl rfl) ha (by omega) (by omega) ?_
    simp only [opTcmd, topOf_entered, hst, List.getD_cons_zero, tmrCommand_eq, popN_eq_leaves]
  case reads =>
    have hcost : ∀ r ∈ timerReads, r.2.2.1 ≤ 2 := by
      simp only [timerReads, List.forall_mem_cons, List.not_mem_nil, false_implies, implies_true, and_true]
      decide
    exact exec_timerReads hn hf ha hr (hcost r hr) hl h
  case tcmpa => exact (runRow_cmpOp hn hf ha false hst hl h).trans (by rw [writeCompare_eq]; rfl)
  case tcmpb => exact (runRow_cmpOp hn hf ha true hst hl h).trans (by rw [writeCompare_eq]; rfl)

/-- Settles O9, from what each signal, time and timer row makes of the state in which its effect begins. -/
theorem signalAndTimeInstructions : Obligations.SignalAndTimeInstructions := ⟨signal_instructions, time_instructions⟩

end Sys2Proof.Machine
end

section
/-! SUPPORT. Splices (R313-R315): the fields of a micro-operation, its effect by UOP, and the run of a splice. -/

namespace Sys2Proof.Machine
open Sys2Proof Sys2Proof.Claims

variable {p u : Nat} {s : State} {t : List W48} {rest : List W48} {x : W48}

/-! ### Micro-operations that put a value into TD (R315) -/

/-- The micro-operations of the table put their value of TD, TA and TB into TD. -/
theorem uopStep_microOps : ∀ r ∈ microOps, ∀ u, u / 64 = r.1 →
    uopStep p u t s = .inl (t.set (u / 16 % 4) (r.2 (t.getD (u / 16 % 4) 0) (t.getD (u / 4 % 4) 0) (t.getD (u % 4) 0)), s) := by
  simp only [microOps, List.forall_mem_cons, List.not_mem_nil, false_implies, implies_true, and_true]
  refine ⟨?mov, ?add, ?sub, ?mul, ?mulh, ?neg, ?abs, ?min, ?max, ?and, ?or, ?xor, ?not, ?shl, ?shr, ?sar, ?eq, ?lt, ?ult, ?sel,
    ?inc, ?dec, ?clamp⟩
  all_goals
    intro u h
    simp only [uopStep, h, setTemp]
  case mul => rw [mul_eq_ofInt]
  case mulh => rw [wMulh_eq]
  case abs => rw [wAbs_eq]
  case min => rw [wMin_eq]
  case max => rw [wMax_eq]
  case shl => rw [wShl_eq]
  case shr => rw [wShr_eq]
  case sar => rw [wSar_eq]
  case eq => rw [flag_decide]
  case lt | ult => rw [flag_decide]; rfl
  case sel => rw [ite_not]
  case clamp => rw [wMin_wMax_eq]

/-- The saturating micro-operations put their saturated value into TD and set the flag where it had to be saturated. -/
theorem uopStep_microSat : ∀ r ∈ microSat, ∀ u, u / 64 = r.1 → uopStep p u t s =
    .inl (t.set (u / 16 % 4) (saturate (r.2 (t.getD (u / 4 % 4) 0).toInt (t.getD (u % 4) 0).toInt)).1,
      setSat p (saturate (r.2 (t.getD (u / 4 % 4) 0).toInt (t.getD (u % 4) 0).toInt)).2 s) := by
  simp only [microSat, List.forall_mem_cons, List.not_mem_nil, false_implies, implies_true, and_true]
  refine ⟨?adds, ?subs, ?mulq, ?abss⟩
  all_goals
    intro u h
    simp only [uopStep, h, setTempSat, saturate_eq_satQ, sval]

/-! ### Micro-operations on the stack, with an immediate, and on DRAM (R314, R315) -/

theorem uopStep_pop (h : u / 64 = 0x01) (hst : (procOf s p).stack = x :: rest) :
    uopStep p u t s = .inl (t.set (u / 16 % 4) x, setProc p { procOf s p with stack := rest } s) := by
  unfold uopStep
  rw [h]
  change (match (procOf s p).stack with | v :: st => _ | [] => _) = _
  rw [hst]

theorem uopStep_peek (h : u / 64 = 0x03) (hst : (procOf s p).stack = x :: rest) :
    uopStep p u t s = .inl (t.set (u / 16 % 4) x, s) := by
  unfold uopStep
  rw [h]
  change (match (procOf s p).stack with | v :: _ => _ | [] => _) = _
  rw [hst]
  rfl

theorem uopStep_push (h : u / 64 = 0x02) (hl : (procOf s p).stack.length < 32) : uopStep p u t s =
    .inl (t, setProc p { procOf s p with stack := t.getD (u / 4 % 4) 0 :: (procOf s p).stack } s) := by
  unfold uopStep
  rw [h]
  exact if_neg (Nat.not_le.mpr hl)

/-- POP and PEEK find no item on an empty stack. -/
theorem uopStep_empty (h : u / 64 = 0x01 ∨ u / 64 = 0x03) (hst : (procOf s p).stack = []) : uopStep p u t s = .inr (5, s) := by
  unfold uopStep
  rcases h with h | h
  all_goals
    rw [h]
    change (match (procOf s p).stack with | v :: st => _ | [] => _) = _
    rw [hst]

theorem uopStep_push_full (h : u / 64 = 0x02) (hl : 32 ≤ (procOf s p).stack.length) : uopStep p u t s = .inr (4, s) := by
  unfold uopStep
  rw [h]
  exact if_pos hl

theorem uopStep_ldk (h : u / 64 = 0x05) : uopStep p u t s = .inl (t.set (u / 16 % 4) ((BitVec.ofNat 4 (u % 16)).signExtend 48), s) := by
  rw [← ofInt_signed 4 _ (by decide)]
  unfold uopStep
  rw [h]
  rfl

theorem uopStep_addk (h : u / 64 = 0x26) : uopStep p u t s =
    .inl (t.set (u / 16 % 4) (t.getD (u / 16 % 4) 0 + (BitVec.ofNat 4 (u % 16)).signExtend 48), s) := by
  rw [← ofInt_signed 4 _ (by decide)]
  unfold uopStep
  rw [h]
  rfl

theorem uopStep_shlk (h : u / 64 = 0x18) : uopStep p u t s = .inl (t.set (u / 16 % 4) (t.getD (u / 16 % 4) 0 <<< (u % 16)), s) := by
  unfold uopStep
  rw [h]
  rfl

theorem uopStep_sark (h : u / 64 = 0x19) : uopStep p u t s =
    .inl (t.set (u / 16 % 4) ((t.getD (u / 16 % 4) 0).sshiftRight (u % 16)), s) := by
  unfold uopStep
  rw [h]
  rfl

theorem uopStep_now (h : u / 64 = 0x20) : uopStep p u t s = .inl (t.set (u / 16 % 4) ((ticks s).setWidth 48), s) := by
  unfold uopStep
  rw [h]
  rfl

theorem uopStep_ldm (h : u / 64 = 0x1E) (ha : (t.getD (u / 4 % 4) 0).toNat < 4096) (hb : dataBad s p (t.getD (u / 4 % 4) 0).toNat = false) :
    uopStep p u t s = .inl (t.set (u / 16 % 4) (dataR s p (t.getD (u / 4 % 4) 0).toNat), s) := by
  unfold uopStep
  rw [h]
  exact (if_neg (Nat.not_le.mpr ha)).trans (if_neg (Bool.eq_false_iff.mp hb))

theorem uopStep_stm (h : u / 64 = 0x1F) (hb : (t.getD (u % 4) 0).toNat < 4096) : uopStep p u t s =
    .inl (t, setData p (t.getD (u % 4) 0).toNat (t.getD (u / 4 % 4) 0) s) := by
  unfold uopStep
  rw [h]
  exact if_neg (Nat.not_le.mpr hb)

theorem uopStep_ldm_outside (h : u / 64 = 0x1E) (ha : 4096 ≤ (t.getD (u / 4 % 4) 0).toNat) : uopStep p u t s = .inr (7, s) := by
  unfold uopStep
  rw [h]
  exact if_pos ha

theorem uopStep_stm_outside (h : u / 64 = 0x1F) (hb : 4096 ≤ (t.getD (u % 4) 0).toNat) : uopStep p u t s = .inr (7, s) := by
  unfold uopStep
  rw [h]
  exact if_pos hb

/-! ### The run of a splice (R314) -/

/-- Micro-operations of which none faults are the whole effect of the splice. -/
theorem runUops_of_microRun {c : Ctx} {us : List Nat} {v : State} (h : microRun c.p us t s = some v) : runUops c us t s = .go v := by
  induction us generalizing t s with
  | nil =>
    simp only [microRun, Option.some.injEq] at h
    rw [runUops, h]
  | cons u us ih =>
    unfold runUops
    unfold microRun at h
    split at h
    · next hstep =>
      rw [hstep]
      exact ih h
    · exact absurd h (by simp)

theorem uopCycles_eq : uopCycles = fun u => if u / 64 ∈ [0x0A, 0x0B, 0x0C, 0x1E] then 2 else 1 := by
  funext u
  simp only [uopCycles, List.mem_cons, List.not_mem_nil, or_false]

theorem uops_entered {next n : Nat} (j : Nat) : uops (entered p next n s) j = uops s j := by
  have hword : ∀ w, spliceW (entered p next n s) j w = spliceW s j w := fun w => wordR_entered _
  have hcount : spliceCount (entered p next n s) j = spliceCount s j := by rw [spliceCount, hword]; rfl
  have huop : uopOf (entered p next n s) j = uopOf s j := by
    funext i
    rw [uopOf, hword]
    rfl
  rw [uops, hcount, huop]
  rfl

theorem exec_splice {j : Nat} {v : State} (hj : j < 64) (hl : (procOf s p).stack.length ≤ 32) (h : At p (0xF00 + j) s)
    (hloaded : bit (wordR s (spliceA j 0)) 47 = true) (ha : Affords p ((uops s j).map uopCycles).sum s)
    (hrun : microRun p (uops s j) [0, 0, 0, 0] (entered p (pcOf s p + 1) ((uops s j).map uopCycles).sum s) = some v) :
    exec (.splice p) s = .next v := by
  have hk : 0xF00 + j - opSplice.lo = j := Nat.add_sub_cancel_left _ _
  have his : opSplice.is p (0xF00 + j) s = true := by
    rw [is_opSplice, Nat.add_sub_cancel_left, hloaded, Bool.and_true, decide_eq_true_eq]
    omega
  refine runRow_go (op := opSplice) (nx := pcOf s p + 1) (v := 0) h his rfl (operandOf_none rfl rfl)
    (checks_none (by simp only [opSplice]; rw [show 0xF00 + j - 0xF00 = j from hk]; exact ha) (Nat.zero_le _) hl nofun) ?_
  simp only [opSplice, Nat.add_sub_cancel_left, uops_entered]
  exact runUops_of_microRun hrun

/-- Settles O11, from the run of a splice's micro-operations and from the effect of each UOP. -/
theorem splices : Obligations.Splices := by
  intro p j s hj hl
  refine ⟨?run, ?steps⟩
  case run =>
    intro h hloaded us n ha t hrun
    have hn : n = ((uops s j).map uopCycles).sum := by rw [uopCycles_eq]; rfl
    rw [hn] at ha hrun
    exact exec_splice hj hl h hloaded ha hrun
  case steps =>
    intro t d a b _ hd ha hb low td ta tb
    have hU : ∀ c, (c * 64 + low) / 64 = c := fun c => by omega
    have hD : ∀ c, (c * 64 + low) / 16 % 4 = d := fun c => by omega
    have hA : ∀ c, (c * 64 + low) / 4 % 4 = a := fun c => by omega
    have hB : ∀ c, (c * 64 + low) % 4 = b := fun c => by omega
    have hK : ∀ c, (c * 64 + low) % 16 = a * 4 + b := fun c => by omega
    refine ⟨fun r hr => ?ops, fun r hr => ?sat, fun x rest hst => ⟨?pop, ?peek⟩, fun hlt => ?push, ?ldk, ?shlk, ?sark, ?addk, ?now,
      fun hin hbad => ?ldm, fun hin => ?stm, fun hout => ?ldmOutside, fun hout => ?stmOutside, fun hst => ⟨?popEmpty, ?peekEmpty⟩,
      fun hfull => ?pushFull⟩
    case ops => rw [uopStep_microOps r hr _ (hU _), hD, hA, hB]
    case sat => rw [uopStep_microSat r hr _ (hU _), hD, hA, hB]
    case pop => rw [uopStep_pop (hU _) hst, hD]
    case peek => rw [uopStep_peek (hU _) hst, hD]
    case push => rw [uopStep_push (hU _) hlt, hA]
    case ldk => rw [uopStep_ldk (hU _), hD, hK]
    case shlk => rw [uopStep_shlk (hU _), hD, hK]
    case sark => rw [uopStep_sark (hU _), hD, hK]
    case addk => rw [uopStep_addk (hU _), hD, hK]
    case now => rw [uopStep_now (hU _), hD]
    case ldm => rw [uopStep_ldm (hU _) (by rw [hA]; exact hin) (by rw [hA]; exact hbad), hD, hA]
    case stm => rw [uopStep_stm (hU _) (by rw [hB]; exact hin), hA, hB]
    case ldmOutside => exact uopStep_ldm_outside (hU _) (by rw [hA]; exact hout)
    case stmOutside => exact uopStep_stm_outside (hU _) (by rw [hB]; exact hout)
    case popEmpty => exact uopStep_empty (.inl (hU _)) hst
    case peekEmpty => exact uopStep_empty (.inr (hU _)) hst
    case pushFull => exact uopStep_push_full (hU _) hfull

end Sys2Proof.Machine
end

section
/-! SUPPORT. The ledger (R331-R333): what a snapshot holds and when it balances, what an audit's failed check leaves as it was, and the
three stages of an audit: the pages, the rings, the admitted streams. -/

namespace Sys2Proof.Mem

variable {α : Type} [DecidableEq α]

/-- A value written under each key of a list is read back under each of them. -/
theorem read_foldl_write (d f : Nat → α) (l : List Nat) (m : Mem α) (a : Nat) (hw : Mem.wf d m = true) :
    Mem.read d (l.foldl (fun m i => Mem.write d m i (f i)) m) a = if a ∈ l then f a else Mem.read d m a := by
  induction l generalizing m with
  | nil => simp
  | cons i l ih =>
    rw [List.foldl_cons, ih _ (wf_write _ _ _ _ hw)]
    by_cases hl : a ∈ l
    · simp [hl]
    · by_cases hi : a = i
      · simp [hi]
      · simp [hl, hi, read_write_other _ _ _ _ _ hi hw]

end Sys2Proof.Mem

namespace Sys2Proof.Machine
open Sys2Proof

variable {k r flag unit n : Nat} {t : W64} {l : List (W64 × Nat)} {s u : State}

/-! ### The snapshot (R331, R332) -/

theorem pagesBalance_iff : pagesBalance s = true ↔ freePages s + (s.adm.ringPages + assemblyPages s) + s.adm.rsvPages = 8192 :=
  decide_eq_true_iff

theorem ringBalance_iff : ringBalance s r = true ↔ ((getRing s r).prod - (getRing s r).cons).toNat ≤ ringSize s r := decide_eq_true_iff

theorem streamBalance_iff : streamBalance s k = true ↔
    (getStream s k).offered - (getStream s k).refused = (getStream s k).delivered + inFlightCount s k :=
  decide_eq_true_iff

theorem takeLedger_only (s : State) : { takeLedger s with adm := s.adm } = s := rfl

theorem takeLedger_ring (h : r ∈ enabledRings s) : Mem.read (fun _ => (0, 0, 0)) (takeLedger s).adm.snapRings r =
    ((getRing s r).prod, (getRing s r).cons, BitVec.ofNat 32 (ringSize s r)) :=
  (Mem.read_foldl_write _ _ _ _ _ (Mem.wf_nil _)).trans (if_pos h)

theorem takeLedger_stream (h : k ∈ enabledStreams s) : Mem.read (fun _ => (0, 0, 0, 0)) (takeLedger s).adm.snapStreams k =
    ((getStream s k).offered, (getStream s k).refused, (getStream s k).delivered, inFlightCount s k) :=
  (Mem.read_foldl_write _ _ _ _ _ (Mem.wf_nil _)).trans (if_pos h)

/-- BAL says that every identity of R331 holds. -/
theorem takeLedger_snapBal : (takeLedger s).adm.snapBal = true ↔
    pagesBalance s = true ∧ (∀ r ∈ enabledRings s, ringBalance s r = true) ∧ ∀ k ∈ enabledStreams s, streamBalance s k = true := by
  simp only [takeLedger, Bool.and_eq_true, List.all_eq_true, and_assoc]

theorem exec_snap (hs : stopped s = false) (path : Path) (v : W32) : exec (.snap path v) s = .next (writeLcmd v s) := live_running hs _

theorem exec_deferredSnap (hs : stopped s = false) : exec .deferredSnap s =
    if s.adm.snapBusy = true ∧ s.power.cur = .s0 then .next (takeLedger s) else .next s :=
  live_running hs _

theorem writeLcmd_awake {v : W32} (hv : bit v 0 = true) (h : s.power.cur = .s0) : writeLcmd v s = takeLedger s := by
  simp [writeLcmd, hv, h]

theorem writeLcmd_asleep {v : W32} (hv : bit v 0 = true) (h : s.power.cur ≠ .s0) :
    writeLcmd v s = { s with adm := { s.adm with snapBusy := true } } := by
  simp [writeLcmd, hv, h]

theorem writeLcmd_zero {v : W32} (hv : bit v 0 = false) : writeLcmd v s = s := by simp [writeLcmd, hv]

/-! ### A failed check (R333) -/

theorem pack_auditEntry (flag unit : Nat) : pack [(flag, 32), (unit, 0)] = BitVec.ofNat 48 (flag * 2 ^ 32 + unit) := by
  simp only [pack, List.foldl_cons, List.foldl_nil, Nat.zero_add, Nat.pow_zero, Nat.mul_one]

theorem auditFailed_eq (flag unit : Nat) (s : State) : auditFailed flag unit s =
    journal 0x31 (stampNow s) [BitVec.ofNat 48 (flag * 2 ^ 32 + unit)] (bump admAuditErrA (raise admFlagsA flag s)) := by
  rw [auditFailed, pack_auditEntry]

@[simp] theorem auditFailed_cfg : (auditFailed flag unit s).cfg = s.cfg := by simp [auditFailed]
@[simp] theorem auditFailed_rings : (auditFailed flag unit s).rings = s.rings := by simp [auditFailed]
@[simp] theorem auditFailed_tab : (auditFailed flag unit s).tab = s.tab := by simp [auditFailed]
@[simp] theorem auditFailed_adm : (auditFailed flag unit s).adm = s.adm := by simp [auditFailed]

/-- The enabled rings whose indices break the identity. -/
def unsoundRings (s : State) : List Nat := (enabledRings s).filter (fun r => !ringBalance s r)

/-- The streams an audit looks at. -/
def admittedStreams (s : State) : List Nat := (enabledStreams s).filter (admitted s)

/-- Which rings are sound is told by the ring registers and the indices. -/
theorem unsoundRings_congr (hc : u.cfg = s.cfg) (hr : u.rings = s.rings) : unsoundRings u = unsoundRings s := by
  have hen : ringEn u = ringEn s := by funext r; simp only [ringEn, cfgR, hc]
  have hmode : ringMode u = ringMode s := by funext r; simp only [ringMode, cfgR, hc]
  have hsize : ringSize u = ringSize s := by
    funext r
    rw [ringSize, ringSize, hmode, hostSize, hostSize, bodySize, bodySize, cfgR, cfgR, hc]
  have hbalance : ringBalance u = ringBalance s := by
    funext r
    rw [ringBalance, ringBalance, hsize, getRing, getRing, hr]
  rw [unsoundRings, unsoundRings, enabledRings, enabledRings, hen, hbalance]

/-- Which streams are admitted is told by the tables and by admission's results. -/
theorem admittedStreams_congr (ht : u.tab = s.tab) (ha : u.adm = s.adm) : admittedStreams u = admittedStreams s := by
  have hen : stEn u = stEn s := by funext k; simp only [stEn, stW, wordR, tabR, ht]
  have had : admitted u = admitted s := by
    funext k
    rw [admitted, admitted, stAdm, stAdm, admReason, admReason, hen, ha]
  rw [admittedStreams, admittedStreams, enabledStreams, enabledStreams, hen, had, ht]

@[simp] theorem unsoundRings_auditFailed : unsoundRings (auditFailed flag unit s) = unsoundRings s :=
  unsoundRings_congr auditFailed_cfg auditFailed_rings

@[simp] theorem admittedStreams_auditFailed : admittedStreams (auditFailed flag unit s) = admittedStreams s :=
  admittedStreams_congr auditFailed_tab auditFailed_adm

/-! ### The audit of one stream (R333) -/

/-- The oldest sample of stream k in flight has the stamp t, and its bound has passed. -/
def Late (s : State) (k : Nat) (t : W64) : Prop := ∃ n l, inFlightOf s k = (t, n) :: l ∧ t + boundOf s k < ticks s

/-- What an audit makes of a late oldest sample that it has not yet reported. -/
def reportLate (k : Nat) (t : W64) (s : State) : State :=
  formFault k 2 0 0 (short t) (auditFailed 2 k (setStream k { getStream s k with lateStamp := some t } s))

theorem auditStream_nil (h : inFlightOf s k = []) : auditStream k s = s := by simp only [auditStream, h]

theorem auditStream_cons (h : inFlightOf s k = (t, n) :: l) : auditStream k s =
    if t + boundOf s k < ticks s ∧ (getStream s k).lateStamp ≠ some t then reportLate k t s else s := by
  simp only [auditStream, h, reportLate, Bool.and_eq_true, decide_eq_true_eq]

theorem auditStream_punctual (h : ∀ t, ¬ Late s k t) : auditStream k s = s := by
  cases hq : inFlightOf s k with
  | nil => exact auditStream_nil hq
  | cons x l =>
    obtain ⟨t, n⟩ := x
    rw [auditStream_cons hq, if_neg fun ⟨hlate, _⟩ => h t ⟨n, l, hq, hlate⟩]

theorem auditStream_reported (h : Late s k t) (hr : (getStream s k).lateStamp = some t) : auditStream k s = s := by
  obtain ⟨n, l, hq, _⟩ := h
  rw [auditStream_cons hq, if_neg fun ⟨_, hnew⟩ => hnew hr]

theorem auditStream_late (h : Late s k t) (hr : (getStream s k).lateStamp ≠ some t) : auditStream k s = reportLate k t s := by
  obtain ⟨n, l, hq, hlate⟩ := h
  rw [auditStream_cons hq, if_pos ⟨hlate, hr⟩]

/-! ### The whole audit (R333) -/

/-- The first stage of an audit: the page identity. -/
def auditPages (s : State) : State := if pagesBalance s then s else auditFailed 0 0 s

/-- The second stage: every ring's indices. -/
def auditRings (s : State) : State := forEach (unsoundRings s) (auditFailed 1) s

/-- The third stage: every admitted stream's oldest sample. -/
def auditStreams (s : State) : State := forEach (admittedStreams s) auditStream s

theorem exec_audit (hs : stopped s = false) (hm : s.mgt.running = true) (hp : s.phase = .running)
    (hw : s.power.cur = .s0 ∨ s.power.cur = .s1) : exec .audit s = .next (auditStreams (auditRings (auditPages s))) := by
  refine (live_running hs _).trans (if_neg ?_)
  rw [hm, blocksRun_of_running hp]
  rintro (h | h | ⟨h0, h1⟩)
  · exact absurd h (by decide)
  · exact absurd h (by decide)
  · exact hw.elim h0 h1

/-- Outside S0 and S1, and while Ranger does not run, no audit takes place. -/
theorem exec_audit_idle (hs : stopped s = false) (h : s.mgt.running = false ∨ s.power.cur = .s2 ∨ s.power.cur = .s3) :
    exec .audit s = .next s := by
  refine (live_running hs _).trans (if_pos ?_)
  rcases h with h | h | h <;> simp [h]

theorem auditPages_balanced (h : pagesBalance s = true) : auditPages s = s := if_pos h

theorem auditPages_unbalanced (h : pagesBalance s = false) : auditPages s = auditFailed 0 0 s := if_neg (Bool.eq_false_iff.mp h)

theorem auditRings_sound (h : unsoundRings s = []) : auditRings s = s := by rw [auditRings, h, forEach_nil]

theorem auditRings_one (h : unsoundRings s = [r]) : auditRings s = auditFailed 1 r s := by rw [auditRings, h, forEach_cons, forEach_nil]

theorem auditStreams_none (h : admittedStreams s = []) : auditStreams s = s := by rw [auditStreams, h, forEach_nil]

theorem auditStreams_one (h : admittedStreams s = [k]) : auditStreams s = auditStream k s := by
  rw [auditStreams, h, forEach_cons, forEach_nil]

theorem auditStreams_punctual (h : ∀ k ∈ admittedStreams s, ∀ t, ¬ Late s k t) : auditStreams s = s :=
  forEach_keeps (P := (· = s)) (fun k hk _ hu => by rw [hu, auditStream_punctual (h k hk)]) rfl

/-- Settles O44: the snapshot field by field, and the audit by its three stages, each of which leaves what the next one looks at. -/
theorem ledger : Obligations.Ledger := by
  intro s hs snap failed sound late
  have hsnap : snap (takeLedger s) := ⟨takeLedger_only s, rfl, rfl, fun _ => takeLedger_ring, fun _ => takeLedger_stream,
    rfl, rfl, rfl, by simp only [takeLedger_snapBal, pagesBalance_iff, ringBalance_iff, streamBalance_iff]⟩
  refine ⟨fun path v => ⟨fun hv h0 => ?snapNow, fun hv h0 => ?snapLater, fun hv => ?noSnap⟩, fun hb h0 => ?deferred,
    fun h => ?notDeferred, fun hm hp hw => ?audit, exec_audit_idle hs⟩
  case snapNow => exact ⟨_, by rw [exec_snap hs, writeLcmd_awake hv h0], hsnap⟩
  case snapLater => rw [exec_snap hs, writeLcmd_asleep hv h0]
  case noSnap => rw [exec_snap hs, writeLcmd_zero hv]
  case deferred => exact ⟨_, by rw [exec_deferredSnap hs, if_pos ⟨hb, h0⟩], hsnap⟩
  case notDeferred => rw [exec_deferredSnap hs, if_neg fun ⟨hb, h0⟩ => h.elim (Bool.eq_false_iff.mp · hb) (· h0)]
  case audit =>
    rw [exec_audit hs hm hp hw]
    refine ⟨fun hpages hrings hstreams => ?whole, fun hpages hrings hstreams => ?pages, fun r hpages hrings hstreams => ?ring,
      fun k t hpages hrings hstreams hlate => ⟨fun hr => ?reported, fun hr => ?late⟩⟩
    case whole =>
      rw [auditPages_balanced hpages, auditRings_sound hrings, auditStreams_punctual fun k hk =>
        hstreams k (List.mem_filter.mp hk).1 (List.mem_filter.mp hk).2]
    case pages =>
      rw [auditPages_unbalanced hpages, auditRings_sound (unsoundRings_auditFailed.trans hrings),
        auditStreams_none (admittedStreams_auditFailed.trans hstreams), auditFailed_eq]
    case ring =>
      rw [auditPages_balanced hpages, auditRings_one hrings, auditStreams_none (admittedStreams_auditFailed.trans hstreams),
        auditFailed_eq]
    case reported =>
      rw [auditPages_balanced hpages, auditRings_sound hrings, auditStreams_one hstreams, auditStream_reported hlate hr]
    case late =>
      rw [auditPages_balanced hpages, auditRings_sound hrings, auditStreams_one hstreams, auditStream_late hlate hr, reportLate,
        auditFailed_eq]

end Sys2Proof.Machine
end

section
/-! SUPPORT. A hub whose clocks stand still (R498, R501, R504, R527): a command acts on it only from outside its clocks, and of those
that do the test port's leave the hub itself alone. -/

namespace Sys2Proof.Machine
open Sys2Proof

variable {s t : State} {c : Instr}

/-! ### The commands that need no clock -/

/-- A command of the test port (R501, R531). -/
def ofTestPort (c : Instr) : Bool :=
  match c with
  | .frzStatus | .chainSel _ | .chainShift _ | .memAddr _ | .memRead _ | .extest _ | .idcode | .samplePreload _ | .bypass _ _
  | .testLogicReset => true
  | _ => false

/-- A command of the reset unit that can act while the clocks stand still (R527–R529). -/
def ofReset (c : Instr) : Bool :=
  match c with
  | .powerUp _ | .powerLoss | .resetN _ _ | .startUp => true
  | _ => false

/-- The hubs differ in nothing but the test port, what it returned and the free values it drew. -/
def SameHub (s t : State) : Prop := t.pending = s.pending ∧ hubCore t = hubCore s

theorem SameHub.refl (s : State) : SameHub s s := ⟨rfl, rfl⟩

/-! ### What they do to a hub that stands still -/

theorem spoilData_stopped (par : Bool) (op : EOp) (p : Nat) (a : W48) (h : stopped s = true) : spoilData par op p a s = s :=
  if_neg fun hc => by simp [atRow, h] at hc

theorem runRow_stopped (ops : List EOp) (op : EOp) (p : Nat) (h : stopped s = true) : runRow ops op p s = .next s :=
  live_stopped h _

theorem exec_ldi_stopped (p : Nat) (par : Bool) (h : stopped s = true) : exec (.ldi p par) s = .next s := by
  change execLdi p par s = _
  unfold execLdi
  split
  · rw [spoilData_stopped _ _ _ _ h, runRow_stopped _ _ _ h]
  · exact runRow_stopped _ _ _ h

/-- While no clock runs, every other command leaves the hub as it is. -/
theorem exec_stopped (h : stopped s = true) (ht : ofTestPort c = false) (hr : ofReset c = false) : exec c s = .next s := by
  cases c
  case powerUp | powerLoss | resetN | startUp => cases hr
  case frzStatus | chainSel | chainShift | memAddr | memRead | extest | idcode | samplePreload | bypass | testLogicReset => cases ht
  case ldi p par => exact exec_ldi_stopped p par h
  case ld p par | ldp p par | addm p par =>
    exact (congrArg (runRow [] _ p) (spoilData_stopped par _ p _ h)).trans (runRow_stopped _ _ p h)
  case credit | confirm =>
    exact ite_eq_iff'.mpr ⟨fun _ => live_stopped h _, fun _ => live_stopped h _⟩
  all_goals exact live_stopped h _

theorem privateTap_sameHub {ir : BitVec 8} {g : State → State} (h : privateTap ir g s = .next t) (hg : SameHub s (g s)) :
    SameHub s t := by
  obtain rfl := Host.Outcome.next.inj h
  split
  · exact hg
  · exact .refl s

/-- The test port reads the hub and draws free values, and leaves the hub itself as it is. -/
theorem exec_testPort (hc : ofTestPort c = true) (h : exec c s = .next t) : SameHub s t := by
  cases c
  case frzStatus => exact privateTap_sameHub (show execFrzStatus s = .next t from h) ⟨rfl, rfl⟩
  case chainSel v => exact privateTap_sameHub (show execChainSel v s = .next t from h) ⟨rfl, rfl⟩
  case chainShift n => exact privateTap_sameHub (show execChainShift n s = .next t from h) ⟨rfl, rfl⟩
  case memAddr a => exact privateTap_sameHub (show execMemAddr a s = .next t from h) ⟨rfl, rfl⟩
  case memRead found => exact privateTap_sameHub (show execMemRead found s = .next t from h) ⟨rfl, rfl⟩
  case extest | idcode | samplePreload | testLogicReset => exact Host.Outcome.next.inj h ▸ ⟨rfl, rfl⟩
  case bypass code bs =>
    obtain rfl := Host.Outcome.next.inj h
    split
    · exact .refl s
    · exact ⟨rfl, rfl⟩
  all_goals cases hc

/-- A reset command that cannot end a freeze: a glitch at RESET_N, and START_UP in a freeze or outside the reset (R527, R528). -/
theorem exec_ofReset_kept (hc : ofReset c = true) (he : endsFreeze c = false)
    (hu : c = .startUp → s.phase ≠ .inReset ∨ s.frz.stopped = true) : exec c s = .next s := by
  cases c
  case powerUp | powerLoss => cases he
  case resetN ns x => exact if_pos (by simpa [endsFreeze] using he)
  case startUp => exact if_pos (hu rfl)
  all_goals cases hc

/-- A step of a hub that stands still takes a waiting command, if any, from the queue and leaves the hub as it is. -/
theorem step_stopped (hs : stopped s = true) (he : ∀ c ∈ s.pending, endsFreeze c = false)
    (hu : .startUp ∈ s.pending → s.phase ≠ .inReset ∨ s.frz.stopped = true) (h : step s = .next t) :
    hubCore t = hubCore s ∧ ∀ c ∈ t.pending, c ∈ s.pending := by
  cases hq : s.pending with
  | nil =>
    rw [step_nil s hq, idleCycle, if_pos hs] at h
    cases h
    exact ⟨rfl, fun _ hc => hq ▸ hc⟩
  | cons c cs =>
    rw [step_cons s c cs hq] at h
    have hmem : c ∈ s.pending := by simp [hq]
    have hkept : SameHub { s with pending := cs } t := by
      cases ht : ofTestPort c with
      | true => exact exec_testPort ht h
      | false =>
        have hself : exec c { s with pending := cs } = .next { s with pending := cs } := by
          cases hr : ofReset c with
          | true => exact exec_ofReset_kept hr (he c hmem) (fun hc => hu (hc ▸ hmem))
          | false => exact exec_stopped hs ht hr
        cases hself.symm.trans h
        exact .refl _
    obtain ⟨hpend, hcore⟩ := hkept
    exact ⟨hcore, fun d hd => hq ▸ List.mem_cons_of_mem c (show d ∈ cs by rwa [hpend] at hd)⟩

/-! ### The two invariants -/

/-- Settles O20: a frozen hub stands still, and START_UP does not end a freeze. -/
theorem freezeIsKept : Obligations.FreezeIsKept := by
  rintro f s t ⟨hfrz, he, rfl⟩ h
  obtain ⟨hcore, hsub⟩ := step_stopped (by simp [stopped, hfrz]) he (fun _ => .inr hfrz) h
  have hfrz' : t.frz = s.frz := (congrArg State.frz hcore :)
  exact ⟨hfrz' ▸ hfrz, fun c hc => he c (hsub c hc), hcore⟩

/-- Settles O19: a hub in reset stands still, and START_UP, which would end the reset, does not wait. -/
theorem resetIsKept : Obligations.ResetIsKept := by
  rintro f s t ⟨hphase, he, rfl⟩ h
  have hends : ∀ c ∈ s.pending, endsFreeze c = false ∧ c ≠ .startUp := by simpa [endsReset] using he
  obtain ⟨hcore, hsub⟩ := step_stopped (by simp [stopped, hphase]) (fun c hc => (hends c hc).1)
    (fun hc => absurd rfl (hends _ hc).2) h
  have hphase' : t.phase = s.phase := (congrArg State.phase hcore :)
  exact ⟨hphase' ▸ hphase, fun c hc => he c (hsub c hc), hcore⟩

/-- Settles O14, by the definition of a step. -/
theorem firstInFirstOut : Obligations.FirstInFirstOut := fun c cs s h => step_cons s c cs h

end Sys2Proof.Machine
end

section
/-! SUPPORT. Reset and freeze (R448, R496–R498, R504, R528–R530): what a reset keeps, the width of a low pulse of RESET_N, the freeze
instant and the stop cycle; and what the checks of the fabric and of batch SRAM find (R490, R491). -/

namespace Sys2Proof.Machine
open Sys2Proof Sys2Proof.Claims

variable {s : State} {x : Straps}

/-! ### Counting leaves the time as it is -/

@[simp] theorem ticks_bump (a : Nat) (s : State) : ticks (bump a s) = ticks s := rfl
@[simp] theorem ticks_raise (a i : Nat) (s : State) : ticks (raise a i s) = ticks s := rfl
@[simp] theorem qualNow_bump (a : Nat) (s : State) : qualNow (bump a s) = qualNow s := rfl
@[simp] theorem qualNow_raise (a i : Nat) (s : State) : qualNow (raise a i s) = qualNow s := rfl

/-! ### A flash operation that the reset does not stop (R446, R530) -/

theorem spoilFlash_only (a n : Nat) (s : State) : { spoilFlash a n s with flash := s.flash, fresh := s.fresh } = s :=
  congrArg (fun t : State => { t with flash := s.flash, fresh := s.fresh }) (programFlash_only a _ (eraseFlash a n (draw s).2))

theorem spoilFlash_eq (a n : Nat) (s : State) :
    spoilFlash a n s = { s with flash := (spoilFlash a n s).flash, fresh := (spoilFlash a n s).fresh } :=
  congrArg (fun t : State => { t with flash := (spoilFlash a n s).flash, fresh := (spoilFlash a n s).fresh }) (spoilFlash_only a n s)

theorem flashRunsOn_eq (s : State) : ∃ fl n, flashRunsOn s = { s with flash := fl, fresh := n } ∧ (s.config.cfpBusy = false → fl = s.flash) := by
  by_cases h : s.config.cfpBusy ∧ 2 ≤ s.config.cfpOp.1 ∧ s.config.cfpOp.1 ≤ 4
  · exact ⟨_, _, (if_pos h).trans (spoilFlash_eq _ _ s), fun hb => absurd (hb.symm.trans h.1) Bool.false_ne_true⟩
  · exact ⟨s.flash, s.fresh, if_neg h, fun _ => rfl⟩

/-! ### Reset (R504, R526–R530) -/

/-- The hub `t` after a reset of `s`, with the straps, the freeze record and the test port that stand after it. -/
def AfterReset (kind : Nat) (y : Straps) (f : Frz) (p : Tap) (s t : State) : Prop :=
  t = { State.reset with
    pending := s.pending, fresh := t.fresh, answer := s.answer, hostMem := s.hostMem, flash := t.flash, flashId := s.flashId
    journal := s.journal, tap := p, straps := y, sramLost := t.sramLost, mgt := mgtKept kind s, frz := f, hl := { perst := s.hl.perst } } ∧
  (s.config.cfpBusy = false → t.flash = s.flash)

theorem resetHub_afterReset (kind : Nat) (x : Straps) (f : Frz) (s : State) : AfterReset kind x f s.tap s (resetHub kind x f s) := by
  obtain ⟨fl, n, hrun, hflash⟩ := flashRunsOn_eq s
  simp only [resetHub, hrun]
  exact ⟨rfl, hflash⟩

/-- A free value that the reset unit draws first makes no difference to it. -/
theorem resetHub_draw_afterReset (kind : Nat) (x : Straps) (f : Frz) (s : State) :
    AfterReset kind x f s.tap s (resetHub kind x f (draw s).2) :=
  resetHub_afterReset kind x f (draw s).2

theorem resetHub_noTap_afterReset (x : Straps) (s : State) : AfterReset 0 x {} {} s { resetHub 0 x {} s with tap := {} } := by
  obtain ⟨hkept, hflash⟩ := resetHub_afterReset 0 x {} s
  exact ⟨congrArg (fun t : State => { t with tap := {} }) hkept, hflash⟩

theorem exec_resetN_glitch {ns : Nat} (h : ns ≤ 1000) : exec (.resetN ns x) s = .next s := if_pos h

theorem exec_resetN_long {ns : Nat} (h : 10000 ≤ ns) : exec (.resetN ns x) s = .next (resetHub 1 x (frzKept s) s) :=
  (if_neg (by omega)).trans (if_pos h)

/-- Between 1 µs and 10 µs the pulse is taken or not, as the free value says. -/
theorem exec_resetN_between {ns : Nat} (h : 1000 < ns) (h' : ns < 10000) : exec (.resetN ns x) s =
    .next (if bit (Config.freeWord s.fresh) 0 then resetHub 1 x (frzKept s) (draw s).2 else (draw s).2) :=
  (if_neg (by omega)).trans (if_neg (by omega))

/-- Settles O21, from what the reset keeps and from the width of the pulse. -/
theorem hardReset : Obligations.HardReset := by
  intro s x
  refine ⟨fun ns h => exec_resetN_glitch h, fun ns h => ⟨_, exec_resetN_long h, resetHub_afterReset 1 x (frzKept s) s⟩,
    fun ns h h' => ⟨_, exec_resetN_between h h', ?between⟩, ⟨_, rfl, resetHub_noTap_afterReset x s⟩,
    ⟨_, rfl, resetHub_noTap_afterReset s.straps s⟩⟩
  case between =>
    split
    · exact .inr (resetHub_draw_afterReset 1 x (frzKept s) s)
    · exact .inl rfl

/-! ### The freeze instant and the stop cycle (R496–R498, R504) -/

/-- A freeze by FREEZE_N: CAUSE 0, no unit, and the pin is not driven. -/
theorem freezeNow_pin (hs : s.frz.stopped = false) (hp : s.frz.pending = false) : freezeNow 0 0 0 s = { s with frz := {
    s.frz with
    pending := true, driving := false, fault := 0, time := ticks s, qual := qualNow s, count := plusOne s.frz.count
    cause := BitVec.ofNat 32 (2 ^ 31 + 2 ^ 30 + pcode s.power.cur * 2 ^ 18) } } := by
  simp [freezeNow, freezeRecord, hs, hp, satInc_eq_plusOne, b2n]

theorem exec_freeze (hs : stopped s = false) :
    exec .freeze s = if bit (cfgR s frzA) 0 then .next (freezeNow 0 0 0 s) else .next s := live_running hs _

/-- JQLOST in the low nine bits of the cause. -/
def causeWithLost (c : W32) (n : Nat) : W32 := (c &&& ~~~(0x1FF#32)) ||| BitVec.ofNat 32 n

theorem bits_causeWithLost (c : W32) {n : Nat} (hn : n < 512) : bits (causeWithLost c n) 8 0 = n := by
  have hlow : (causeWithLost c n).setWidth 9 = BitVec.ofNat 9 n := by
    rw [causeWithLost, BitVec.setWidth_or, BitVec.setWidth_and, BitVec.setWidth_ofNat_of_le (by omega)]
    simp
  have hmod := congrArg BitVec.toNat hlow
  rw [BitVec.toNat_setWidth, BitVec.toNat_ofNat, Nat.mod_eq_of_lt (show n < 2 ^ 9 by omega)] at hmod
  exact hmod

/-- A number of nine bits has none from bit 9 on. -/
theorem getLsbD_ofNat_of_nineBits {n i : Nat} (hn : n < 512) (hi : 9 ≤ i) : (BitVec.ofNat 32 n).getLsbD i = false := by
  have hbit : n.testBit i = false := Nat.testBit_lt_two_pow (lt_of_lt_of_le hn (Nat.pow_le_pow_right (n := 2) (by decide) hi))
  rw [BitVec.getLsbD_ofNat, hbit, Bool.and_false]

theorem bit_causeWithLost (c : W32) {n i : Nat} (hn : n < 512) (hi : 9 ≤ i) : bit (causeWithLost c n) i = bit c i := by
  have hmask := getLsbD_ofNat_of_nineBits (n := 0x1FF) (by decide) hi
  have hlost := getLsbD_ofNat_of_nineBits hn hi
  by_cases h32 : i < 32
  · simp only [bit, causeWithLost, BitVec.getLsbD_or, BitVec.getLsbD_and, BitVec.getLsbD_not, hmask, hlost, h32, decide_true,
      Bool.not_false, Bool.and_true, Bool.or_false]
  · simp only [bit, BitVec.getLsbD_of_ge _ i (Nat.le_of_not_lt h32)]

/-- The stop cycle: the gate closes, and the cause takes the number of journal entries that wait. -/
theorem exec_stopCycle (hs : stopped s = false) (hp : s.frz.pending = true) : exec .stopCycle s = .next { s with frz := {
    s.frz with pending := false, stopped := true, cause := causeWithLost s.frz.cause (min 511 s.journalQ.length) } } :=
  (live_running hs _).trans (if_neg (by simp [hp]))

theorem exec_stopCycle_idle (hs : stopped s = false) (hp : s.frz.pending = false) : exec .stopCycle s = .next s :=
  (live_running hs _).trans (if_pos (by simp [hp]))

/-- Settles O59, from the record of a freeze by pin and from the bits of its cause. -/
theorem freezes : Obligations.Freezes := by
  intro s hs
  have hrun := (stopped_false hs).1
  have hlost : min 511 s.journalQ.length < 512 := by omega
  refine ⟨fun h => ?ignored, fun hen hp => ?instant, exec_stopCycle_idle hs,
    fun hp => ⟨_, exec_stopCycle hs hp, rfl, rfl, bits_causeWithLost _ hlost, fun i hi => bit_causeWithLost _ hlost hi, rfl, ?record⟩⟩
  case ignored =>
    rw [exec_freeze hs]
    split
    · next hen => rw [freezeNow_later _ _ _ _ (h.resolve_left (by simp [hen])) (freezeBefore_pin 0 s)]
    · rfl
  case instant => rw [exec_freeze hs, if_pos hen, freezeNow_pin hrun hp]
  case record => rw [← hp, ← hrun]

/-! ### Parity of the fabric (R490) -/

/-- A MEMERR entry, where the journal queue takes it. -/
theorem memErr_kept (block unit w : Nat) (s : State) (hq : s.journalQ.length < 256) (hw : w < 2 ^ 23) :
    memErr block unit w s = { s with
      journalQ := s.journalQ ++ [{
        type := 0x40, stamp := ticks s, qual := qualNow s, era := s.tb.stepCnt
        words := [BitVec.ofNat 48 (block * 2 ^ 36 + unit * 2 ^ 32 + w)] }]
      mgt := { s.mgt with jqMax := max s.mgt.jqMax (s.journalQ.length + 1) } } := by
  rw [memErr, journal_kept _ _ _ _ hq, Nat.mod_eq_of_lt hw]
  simp [pack, stampNow]

theorem cntR_memErr_kept {block unit w a : Nat} (hq : s.journalQ.length < 256) (hw : w < 2 ^ 23) :
    cntR (memErr block unit w s) a = cntR s a := by
  rw [memErr_kept _ _ _ _ hq hw]
  rfl

theorem exec_fabricParityFailure {block k : Nat} {again : Bool} (hs : stopped s = false) (hc : s.power.cur = .s0) (hb : block < 4) :
    exec (.fabricParityFailure block k again) s =
      .next (if again then memErr 4 block k (bump 0x104 (bump 0x100 s)) else bump 0x100 s) :=
  (live_running hs _).trans (if_neg (by simp [hc, hb]))

/-! ### The scrub of batch SRAM (R491) -/

theorem exec_sramScrub {w : Nat} {found : Ecc} {avg : Option (Nat × Nat)} (hs : stopped s = false) (hc : s.power.cur = .s0) (hw : w < 4194304)
    (h : avg = none ∨ found ≠ .uncorrectable) : exec (.sramScrub w found avg) s = .next (sramFound w found s) := by
  refine (live_running hs _).trans ((if_neg (by simp [hc, hw])).trans ?_)
  cases avg <;> cases found <;> simp_all

/-- The word is poisoned, flagged, counted and journalled. -/
theorem sramPoison_new {w : Nat} (h : sramA w ∉ s.poisoned) (hq : s.journalQ.length < 256) (hw : w < 4194304) :
    sramPoison w s = { raise mgtFlagsA 5 s with
      poisoned := sramA w :: s.poisoned
      journalQ := s.journalQ ++ [{
        type := 0x40, stamp := ticks s, qual := qualNow s, era := s.tb.stepCnt, words := [BitVec.ofNat 48 (5 * 2 ^ 36 + 0 * 2 ^ 32 + w)] }]
      mgt := { s.mgt with sramUnc := s.mgt.sramUnc + 1, jqMax := max s.mgt.jqMax (s.journalQ.length + 1) } } :=
  (if_neg (by simpa using h)).trans (memErr_kept 5 0 w (raise mgtFlagsA 5 { s with
    poisoned := sramA w :: s.poisoned, mgt := { s.mgt with sramUnc := s.mgt.sramUnc + 1 } }) hq (by omega))

theorem sramPoison_again {w : Nat} (h : sramA w ∈ s.poisoned) : sramPoison w s = s := by simp [sramPoison, h]

theorem setSram_notPoisoned (w : Nat) (v : W48) (s : State) : sramA w ∉ (setSram w v s).poisoned := by simp [setSram]

/-- Settles O58, from what a repeated fabric word and a scrubbed word count. -/
theorem integrity : Obligations.Integrity := by
  intro s hs
  refine ⟨fun block k h again => ?fabricOff, fun block k hc hb => ⟨?repeated, fun hq hk => ?failed⟩, fun w found avg h => ?scrubOff,
    fun w hc hw => ⟨fun avg => ⟨?clean, ?corrected⟩, fun hp => ?known, fun hp hq => ?poisoned⟩⟩
  case fabricOff => exact (live_running hs _).trans (if_pos h)
  case scrubOff => exact (live_running hs _).trans (if_pos h)
  case repeated => exact exec_fabricParityFailure hs hc hb
  case failed =>
    have hagain : cntR (bump 0x104 (bump 0x100 s)) 0x104 = plusOne (cntR s 0x104) := by
      rw [cntR_bump, satInc_eq_plusOne, cntR_bump_other (by decide)]
    have hfirst : cntR (bump 0x104 (bump 0x100 s)) 0x100 = plusOne (cntR s 0x100) := by
      rw [cntR_bump_other (by decide), cntR_bump, satInc_eq_plusOne]
    have hq' : (bump 0x104 (bump 0x100 s)).journalQ.length < 256 := hq
    have hk' : k < 2 ^ 23 := by omega
    refine ⟨_, exec_fabricParityFailure hs hc hb, ?_⟩
    rw [if_pos rfl, cntR_memErr_kept hq' hk', cntR_memErr_kept hq' hk', memErr_kept _ _ _ _ hq' hk']
    exact ⟨hagain, hfirst, by simp, by simp only [bump, setCnt]⟩
  case clean => exact exec_sramScrub hs hc hw (.inr (by decide))
  case corrected => exact exec_sramScrub hs hc hw (.inr (by decide))
  case known => rw [exec_sramScrub hs hc hw (.inl rfl), sramFound, sramPoison_again hp]
  case poisoned =>
    refine ⟨_, exec_sramScrub hs hc hw (.inl rfl), ?_⟩
    rw [sramFound, sramPoison_new hp hq hw]
    exact ⟨List.mem_cons_self, rfl, rfl, flagR_raise _ _ 5, by simp, fun v => setSram_notPoisoned w v _⟩

end Sys2Proof.Machine
end

section
/-! SUPPORT. The start of Ranger and the load of an image (R440, R442, R447, R461, R465, R504, R527): what choosing a firmware slot touches,
the BOOT entry, and the load that ends in the factory defaults. -/

namespace Sys2Proof.Machine
open Sys2Proof Sys2Proof.Claims

variable {s t u : State}

/-! ### What a start of Ranger touches -/

/-- From s to t only Ranger's own record, counters, flags and the journal queue have moved. -/
def RangerOnly (s t : State) : Prop := { t with mgt := s.mgt, flags := s.flags, cnt := s.cnt, journalQ := s.journalQ } = s

theorem RangerOnly.trans (h : RangerOnly s t) (h' : RangerOnly t u) : RangerOnly s u := by
  have hu := congrArg (fun v : State => { v with mgt := s.mgt, flags := s.flags, cnt := s.cnt, journalQ := s.journalQ }) h'
  exact hu.trans h

theorem raise_rangerOnly (a i : Nat) (s : State) : RangerOnly s (raise a i s) := rfl

theorem RangerOnly.stampNow_eq (h : RangerOnly s t) : stampNow t = stampNow s := (congrArg stampNow h :)

theorem journal_rangerOnly (k : Nat) (x : Sample) (ws : List W48) (s : State) : RangerOnly s (journal k x ws s) := by
  unfold journal
  split <;> rfl

theorem journal_length (k : Nat) (x : Sample) (ws : List W48) (s : State) : (journal k x ws s).journalQ.length ≤ s.journalQ.length + 1 := by
  unfold journal
  split
  · simp
  · exact Nat.le_succ _

/-- Words of the mgt record that a journal entry leaves alone. -/
theorem journal_mgt (k : Nat) (x : Sample) (ws : List W48) (s : State) : { (journal k x ws s).mgt with
    jqMax := s.mgt.jqMax, jqLostHeld := s.mgt.jqLostHeld } = s.mgt := by
  unfold journal
  split <;> rfl

theorem bootWrite_rangerOnly (r : BootRec) (s : State) : RangerOnly s (bootWrite r s) := by
  unfold bootWrite
  split <;> rfl

/-- The boot record alone takes a write. -/
theorem bootWrite_journalQ (r : BootRec) (s : State) : (bootWrite r s).journalQ = s.journalQ := by
  unfold bootWrite
  split <;> rfl

theorem bootWrite_flash (r : BootRec) (s : State) : (bootWrite r s).flash = s.flash := by
  unfold bootWrite
  split <;> rfl

theorem bootWrite_rollback (r : BootRec) (s : State) : (bootWrite r s).mgt.rollback = s.mgt.rollback := by
  unfold bootWrite
  split <;> rfl

theorem fwTrial_rangerOnly (code : Nat) (s : State) : RangerOnly s (fwTrial code s) :=
  RangerOnly.trans (t := raise mgtFlagsA 8 s) rfl (journal_rangerOnly _ _ _ _)

theorem fwTrial_mgt (code : Nat) (s : State) : { (fwTrial code s).mgt with
    jqMax := s.mgt.jqMax, jqLostHeld := s.mgt.jqLostHeld } = s.mgt :=
  journal_mgt _ _ _ (raise mgtFlagsA 8 s)

/-- A slot that passes the check of R465 has a ROLLBACK of 64 at most (R464). -/
theorem slotRollback_of_check {b : Bool} (h : slotCheck s b = 0) : slotRollback s b ≤ 64 := by
  by_contra hlt
  have hbad : slotHeaderOk s b = false := by
    simp only [slotHeaderOk, decide_eq_false_iff_not]
    rintro ⟨-, -, hle, -⟩
    exact hlt hle
  simp [slotCheck, hbad] at h

/-- Ranger has started: what a start touches, with at most one entry behind those of the queue, and a ROLLBACK of its firmware in range. -/
structure RangerStarted (s t : State) : Prop where
  only : RangerOnly s t
  running : t.mgt.running = true
  queue : t.journalQ.length ≤ s.journalQ.length + 1
  rollback : t.mgt.rollback < 128

theorem runSlot_started {b : Bool} (ho : RangerOnly s u) (hq : u.journalQ = s.journalQ) (hr : slotRollback u b ≤ 64) :
    RangerStarted s (runSlot b u) :=
  ⟨ho.trans rfl, rfl, hq ▸ Nat.le_succ _, Nat.lt_of_le_of_lt hr (by decide)⟩

/-- The recovery firmware starts with the ROLLBACK that stood before. -/
theorem runRecovery_started (h : s.mgt.rollback < 128) : RangerStarted s (fwTrial 3 (runRecovery (raise mgtFlagsA 8 s))) := by
  have hm := fwTrial_mgt 3 (runRecovery (raise mgtFlagsA 8 s))
  have hroll : (fwTrial 3 (runRecovery (raise mgtFlagsA 8 s))).mgt.rollback = s.mgt.rollback := (congrArg Mgt.rollback hm :)
  exact ⟨RangerOnly.trans (t := runRecovery (raise mgtFlagsA 8 s)) rfl (fwTrial_rangerOnly 3 _), (congrArg Mgt.running hm :),
    journal_length _ _ _ _, hroll ▸ h⟩

/-- The slot that a start tries first, and the boot record's mark of a trial (R465, R466). -/
def firstSlot (kind : Nat) (s : State) : Bool := if 2 ≤ kind && (bootRead s).trial then (bootRead s).prev else (bootRead s).active
def markTried (b : Bool) (s : State) : State :=
  if (bootRead s).trial && b = (bootRead s).active then bootWrite { bootRead s with tried := true } s else s

theorem selectSlot_eq (kind : Nat) (s : State) : selectSlot kind s =
    if slotCheck s (firstSlot kind s) = 0 then runSlot (firstSlot kind s) (markTried (firstSlot kind s) s)
    else if slotCheck (raise mgtFlagsA 8 s) (bootRead s).prev = 0 then runSlot (bootRead s).prev (raise mgtFlagsA 8 s)
    else fwTrial 3 (runRecovery (raise mgtFlagsA 8 s)) := rfl

theorem markTried_only (b : Bool) (s : State) :
    RangerOnly s (markTried b s) ∧ (markTried b s).journalQ = s.journalQ ∧ (markTried b s).flash = s.flash := by
  unfold markTried
  split
  · exact ⟨bootWrite_rangerOnly _ s, bootWrite_journalQ _ s, bootWrite_flash _ s⟩
  · exact ⟨rfl, rfl, rfl⟩

theorem selectSlot_started (kind : Nat) (h : s.mgt.rollback < 128) : RangerStarted s (selectSlot kind s) := by
  rw [selectSlot_eq]
  split
  · next hc =>
    obtain ⟨honly, hqueue, hflash⟩ := markTried_only (firstSlot kind s) s
    have hroll : slotRollback (markTried (firstSlot kind s) s) (firstSlot kind s) = slotRollback s (firstSlot kind s) := by
      rw [slotRollback, slotRollback, slotField, slotField, flashBytes, flashBytes, hflash]
    exact runSlot_started honly hqueue (hroll ▸ slotRollback_of_check hc)
  · split
    · next hc => exact runSlot_started (raise_rangerOnly _ _ s) rfl (slotRollback_of_check hc)
    · exact runRecovery_started h

/-- A trial that is reverted leaves what a start leaves; it may journal once. -/
theorem revertTrial_only (s : State) : RangerOnly s (revertTrial s) ∧ (revertTrial s).journalQ.length ≤ s.journalQ.length + 1 ∧
    (revertTrial s).mgt.rollback = s.mgt.rollback := by
  unfold revertTrial
  simp only
  split
  · refine ⟨(bootWrite_rangerOnly _ s).trans (fwTrial_rangerOnly 2 _), ?_, ?_⟩
    · refine (journal_length _ _ _ _).trans (Nat.succ_le_succ (le_of_eq ?_))
      exact congrArg List.length (bootWrite_journalQ _ s)
    · exact ((congrArg Mgt.rollback (fwTrial_mgt 2 _) :)).trans (bootWrite_rollback _ s)
  · exact ⟨rfl, Nat.le_succ _, rfl⟩

/-! ### The BOOT and FREEZE entries (R461, R504) -/

/-- KIND stands in bits 39 to 8 of the BOOT word, above the slot and the ROLLBACK. -/
theorem bits_bootWord (kind roll : Nat) (b : Bool) (h : roll < 128) :
    bits (pack [(kind, 8), (b2n b, 7), (roll, 0)]) 39 8 = kind % 2 ^ 32 := by
  have hb : b2n b ≤ 1 := by cases b <;> decide
  simp only [bits, pack, List.foldl, BitVec.toNat_ofNat, Nat.shiftRight_eq_div_pow]
  omega

theorem freezeEntry_kept (h : s.journalQ.length < 256) : freezeEntry s = if bit s.frz.cause 30 then { s with
    journalQ := s.journalQ ++ [{
      type := 0x60, stamp := s.frz.time, qual := s.frz.qual, era := s.tb.stepCnt
      words := [s.frz.cause.setWidth 48, s.frz.fault.setWidth 48] }]
    mgt := { s.mgt with jqMax := max s.mgt.jqMax (s.journalQ.length + 1) }
    frz := { s.frz with cause := s.frz.cause &&& ~~~(0x4000_0000#32) } } else s := by
  rw [freezeEntry]
  split
  · rw [journal_kept _ _ _ _ h]
  · rfl

/-- A cause without NEW is as the clearing of NEW leaves it. -/
theorem cause_without_new (c : W32) (h : bit c 30 = false) : c &&& ~~~(0x4000_0000#32) = c := by
  have hpow : (0x4000_0000#32) = BitVec.twoPow 32 30 := by decide
  apply BitVec.eq_of_getLsbD_eq
  intro i hi
  rw [hpow, BitVec.getLsbD_and, BitVec.getLsbD_not, BitVec.getLsbD_twoPow]
  by_cases h30 : 30 = i
  · subst h30
    simpa [bit] using h
  · simp [h30, hi]

/-- The word of the BOOT entry. -/
def bootWord (kind : Nat) (s : State) : W48 := pack [(kind, 8), (b2n s.mgt.slot, 7), (s.mgt.rollback, 0)]

/-- BOOT, and FREEZE behind it where a record with NEW stands. -/
def startEntries (kind : Nat) (s : State) : List JEntry :=
  { type := 1, stamp := ticks s, qual := qualNow s, era := s.tb.stepCnt, words := [bootWord kind s] } ::
    (if bit s.frz.cause 30 then [{
      type := 0x60, stamp := s.frz.time, qual := s.frz.qual, era := s.tb.stepCnt
      words := [s.frz.cause.setWidth 48, s.frz.fault.setWidth 48] }] else [])

theorem startEntries_journalled (kind : Nat) (h : s.journalQ.length < 255) : freezeEntry (bootEntry kind [] s) = { s with
    journalQ := s.journalQ ++ startEntries kind s
    mgt := { s.mgt with jqMax := max s.mgt.jqMax (s.journalQ.length + (startEntries kind s).length) }
    frz := { s.frz with cause := s.frz.cause &&& ~~~(0x4000_0000#32) } } := by
  have hboot : (s.journalQ ++ [({
      type := 1, stamp := (stampNow s).stamp, qual := (stampNow s).qual, era := (stampNow s).era, words := [bootWord kind s] } : JEntry)]).length < 256 := by
    simp only [List.length_append, List.length_cons, List.length_nil]
    omega
  rw [bootEntry, journal_kept _ _ _ _ (by omega), freezeEntry_kept hboot, startEntries]
  simp only
  cases hb : bit s.frz.cause 30 with
  | true => simp [bootWord, stampNow]
  | false =>
    rw [cause_without_new _ hb]
    simp [bootWord, stampNow]

/-! ### START_UP (R465, R527) -/

theorem exec_startUp_ignored (h : s.phase ≠ .inReset ∨ s.frz.stopped = true) : exec .startUp s = .next s := if_pos h

theorem exec_startUp (hp : s.phase = .inReset) (hf : s.frz.stopped = false) :
    exec .startUp s = .next (startRanger s.mgt.resetKind [] { s with phase := .started }) := if_neg (by simp [hp, hf])

/-- The hub in start-up as Ranger's firmware begins, before the entries of the start are journalled. -/
theorem firmware_started (kind : Nat) (h : s.mgt.rollback < 128) : RangerStarted (revertTrial s) (selectSlot kind (revertTrial s)) ∧
    RangerOnly s (selectSlot kind (revertTrial s)) ∧ (selectSlot kind (revertTrial s)).journalQ.length ≤ s.journalQ.length + 2 := by
  obtain ⟨honly, hqueue, hroll⟩ := revertTrial_only s
  have hst := selectSlot_started (s := revertTrial s) kind (hroll ▸ h)
  exact ⟨hst, honly.trans hst.only, hst.queue.trans (Nat.succ_le_succ hqueue)⟩

/-- START_UP journals the start behind what choosing the firmware journalled. -/
theorem startRanger_journalled (kind : Nat) (hq : s.journalQ = []) (h : s.mgt.rollback < 128) : ∃ v jq, RangerOnly s v ∧
    v.mgt.running = true ∧ v.mgt.rollback < 128 ∧ startRanger kind [] s = { v with
      journalQ := v.journalQ ++ startEntries kind v, mgt := { v.mgt with jqMax := jq }
      frz := { v.frz with cause := v.frz.cause &&& ~~~(0x4000_0000#32) } } := by
  obtain ⟨⟨-, hrun, -, hroll⟩, honly, hlen⟩ := firmware_started kind h
  have hshort : (selectSlot kind (revertTrial s)).journalQ.length < 255 := by
    simp only [hq, List.length_nil] at hlen
    omega
  exact ⟨_, _, honly, hrun, hroll, startEntries_journalled kind hshort⟩

theorem startUp : StartUp := by
  intro s
  refine ⟨exec_startUp_ignored, fun hp hf hq hr => ?_⟩
  obtain ⟨v, jq, honly, hrun, hroll, hstart⟩ := startRanger_journalled (s := { s with phase := .started }) s.mgt.resetKind hq hr
  have hstamp : ticks v = ticks s ∧ qualNow v = qualNow s := ⟨(congrArg ticks honly :), (congrArg qualNow honly :)⟩
  have htb : v.tb = s.tb := (congrArg State.tb honly :)
  have hfrz : v.frz = s.frz := (congrArg State.frz honly :)
  refine ⟨_, v.journalQ, bootWord s.mgt.resetKind v, (exec_startUp hp hf).trans (congrArg _ hstart),
    (congrArg State.phase honly :), hrun, htb, (congrArg State.cfg honly :), (congrArg State.tab honly :), ?_,
    bits_bootWord _ _ _ hroll, ?_⟩
  · rw [startEntries, hstamp.1, hstamp.2, htb, hfrz]
  · rw [hfrz]

end Sys2Proof.Machine
end

section
/-! SUPPORT. The load that ends in the factory defaults (R440, R442, R447): the default set, the configuration status it leaves, and what the
rest of the load leaves of them. -/

namespace Sys2Proof.Machine
open Sys2Proof Sys2Proof.Claims

variable {s : State}

/-! ### Flags other than the one that rises -/

theorem flagR_raise_other {a b i : Nat} (h : b ≠ a) (hi : i < 32) (s : State) : flagR (raise a i s) b = flagR s b := by
  have hbit : (flagR s a ||| (1#32 <<< i)).getLsbD i = true := by simp [hi]
  have hne : flagR s a ||| (1#32 <<< i) ≠ 0 := fun h0 => by simp [h0] at hbit
  have hput : (raise a i s).flags = Mem.insert s.flags a (flagR s a ||| (1#32 <<< i)) := if_neg hne
  rw [flagR, flagR, hput, Mem.read_insert_other _ _ _ _ _ h]

theorem bit_raised {i : Nat} (hi : i < 32) (w : W32) : bit (w ||| (1#32 <<< i)) i = true := by simp [bit, hi]

/-- A journal entry raises no flag but JQLOSTF. -/
theorem flagR_journal (k : Nat) (x : Sample) (ws : List W48) {a : Nat} (h : a ≠ mgtFlagsA) (s : State) :
    flagR (journal k x ws s) a = flagR s a := by
  unfold journal
  split
  · rfl
  · exact flagR_raise_other h (by decide) _

/-! ### The factory defaults (R442) -/

/-- What the image status says, and the ring and the flag of the default set. -/
structure DefaultsStand (reason : Nat) (loads : W32) (s : State) : Prop where
  defaults : s.config.defaults = true
  reason : s.config.reason = reason
  loads : s.config.loads = loads
  ring : cfgR s (rngA 0) = 0x8040_0000
  flag : bit (flagR s cfgStatA) 0 = true

/-- They stand in three fields of the state. -/
theorem DefaultsStand.of_eq {t : State} {reason : Nat} {loads : W32} (h : DefaultsStand reason loads s)
    (he : t.cfg = s.cfg ∧ t.flags = s.flags ∧ t.config = s.config) : DefaultsStand reason loads t := by
  obtain ⟨hcfg, hflags, hconfig⟩ := he
  obtain ⟨hdef, hreason, hloads, hring, hflag⟩ := h
  exact ⟨by rw [hconfig, hdef], by rw [hconfig, hreason], by rw [hconfig, hloads], by rw [← hring, cfgR, cfgR, hcfg],
    by rw [← hflag, flagR, flagR, hflags]⟩

theorem defaultSet_config (s : State) : (defaultSet s).config = s.config := by
  rw [defaultSet, setCfg_config]
  refine forEach_keeps (P := fun t => t.config = s.config) (fun c _ t ht => ?_) rfl
  simp only [setWord_config, ht]

theorem cfgR_defaultSet (s : State) : cfgR (defaultSet s) (rngA 0) = 0x8040_0000 := cfgR_setCfg _ _ _

/-- The default set before the status registers tell of it. -/
def defaultsOf (old s : State) : State :=
  defaultSet (keepRegs (fun a => decide (a / 0x1_0000 = 1 ∨ a / 0x1_0000 = 0xD)) old (clearConfig s))

theorem defaultsOf_loads (old s : State) : (defaultsOf old s).config.loads = s.config.loads := by
  rw [defaultsOf, defaultSet_config]
  rfl

theorem cfgR_defaultsOf (old s : State) : cfgR (defaultsOf old s) (rngA 0) = 0x8040_0000 := by rw [defaultsOf, cfgR_defaultSet]

/-- CFG_STAT and the registers beside it, of a failed load (R441, R442). -/
def tellDefaults (b : Bad) (old s : State) : State := raise cfgStatA 0 { s with config := {
  s.config with
  defaults := true, reason := b.code, ofs := BitVec.ofNat 32 (b.ofs % 2 ^ 23), sect := BitVec.ofNat 32 b.sect
  sigOk := false, hubs := old.config.hubs } }

theorem loadDefaults_eq (b : Bad) (old s : State) : loadDefaults b old s = journalLoad (tellDefaults b old (defaultsOf old s)) := rfl

theorem journalLoad_kept (s : State) : (journalLoad s).config = s.config ∧ (journalLoad s).cfg = s.cfg := by
  unfold journalLoad journal
  split <;> exact ⟨rfl, rfl⟩

theorem loadDefaults_stand (b : Bad) (old s : State) : DefaultsStand b.code s.config.loads (loadDefaults b old s) := by
  obtain ⟨hconfig, hcfg⟩ := journalLoad_kept (tellDefaults b old (defaultsOf old s))
  rw [loadDefaults_eq]
  refine ⟨congrArg Cfg.defaults hconfig, congrArg Cfg.reason hconfig, (congrArg Cfg.loads hconfig).trans (defaultsOf_loads old s), ?_, ?_⟩
  · rw [cfgR, hcfg, tellDefaults, raise_cfg]
    exact cfgR_defaultsOf old s
  · rw [journalLoad, flagR_journal _ _ _ (by decide), tellDefaults, flagR_raise]
    exact bit_raised (by decide) _

/-! ### A load without an image (R440, R447) -/

theorem feedOff_kept (l : List Nat) (s : State) :
    (forEach l feedOff s).cfg = s.cfg ∧ (forEach l feedOff s).flags = s.flags ∧ (forEach l feedOff s).config = s.config :=
  forEach_keeps (P := fun t => t.cfg = s.cfg ∧ t.flags = s.flags ∧ t.config = s.config) (f := feedOff) (fun _ _ _ ht => ht) ⟨rfl, rfl, rfl⟩

/-- The feeds that the new configuration has off go off, and the first load gives the discipline loop its first state (R51). -/
def endLoad (s : State) : State :=
  let s := forEach ((List.range 8).filter (fun n => (getHws s n).pstate ≠ 0 && !bit (pwrCtrl s n) 0)) feedOff s
  let s := if s.config.firstDone then s else setTb { s.tb with loop := if tbSrc s = 0 then .none else .acquiring } s
  { s with phase := .loaded, config := { s.config with firstDone := true } }

theorem endLoad_stand {reason : Nat} {loads : W32} (h : DefaultsStand reason loads s) : DefaultsStand reason loads (endLoad s) := by
  have hoff := h.of_eq (feedOff_kept ((List.range 8).filter (fun n => (getHws s n).pstate ≠ 0 && !bit (pwrCtrl s n) 0)) s)
  obtain ⟨hdef, hreason, hloads, hring, hflag⟩ := hoff
  unfold endLoad
  simp only
  split <;> exact ⟨hdef, hreason, hloads, hring, hflag⟩

/-- The load counts. -/
def countLoad (s : State) : State :=
  { s with config := { s.config with loads := s.config.loads + 1, sigReq := s.mgt.cfgKey, bootRing := s.straps.bootRing } }

/-- The configuration that the bytes of an image give, or the defaults where they fail. -/
def configured (sub : Bool) (img : Option (List (BitVec 8))) (s : State) : State :=
  match (match img with | none => .error ⟨1, 0, 0⟩ | some bs => readImage sub bs s : Except Bad State) with
  | .ok t =>
    let t := if s.config.firstDone then keepRegs waitsForReset s t else t
    { t with config := { t.config with defaults := false, reason := 0, ofs := 0, sect := 0 } }
  | .error b =>
    let bs := img.getD []
    let n := if b.code ≤ 4 then 0 else headerLength bs
    let s := { s with config := { s.config with len := BitVec.ofNat 32 n, crc := if b.code < 10 then 0 else crc32c ((bs.take n).take (n - 4)) } }
    loadDefaults (if sub then ⟨14, 0, 0⟩ else b) s s

theorem loadImage_eq (sub : Bool) (img : Option (List (BitVec 8))) (s : State) :
    loadImage sub img s = endLoad (configured sub img (countLoad s)) := rfl

/-- The status of an image of which no byte was read. -/
def nothingRead (s : State) : State := { s with config := { s.config with len := BitVec.ofNat 32 0, crc := 0 } }

/-- No image gives the defaults, with RINGBOOT for a sub-image and NOFLASH otherwise. -/
theorem configured_none (sub : Bool) (s : State) :
    configured sub none s = loadDefaults (if sub then ⟨14, 0, 0⟩ else ⟨1, 0, 0⟩) (nothingRead s) (nothingRead s) := rfl

theorem loadImage_none_stand (sub : Bool) (s : State) : DefaultsStand (if sub then 14 else 1) (s.config.loads + 1) (loadImage sub none s) := by
  have hstand := endLoad_stand (loadDefaults_stand (if sub then ⟨14, 0, 0⟩ else ⟨1, 0, 0⟩) (nothingRead (countLoad s)) (nothingRead (countLoad s)))
  rw [← configured_none, ← loadImage_eq] at hstand
  cases sub <;> exact hstand

theorem loadImage_phase (sub : Bool) (img : Option (List (BitVec 8))) (s : State) : (loadImage sub img s).phase = .loaded := rfl

/-- IMAGE_LOAD after START_UP: what it loads (R440, R447). -/
theorem exec_imageLoad {bs : List (BitVec 8)} (hs : stopped s = false) (hp : s.phase = .started) (hr : s.mgt.running = true) :
    exec (.imageLoad bs) s = .next (if isSecondary s && s.straps.bootRing then loadImage true (if bs = [] then none else some bs) s
      else loadImage false (flashImage s) s) := by
  refine (live_running hs _).trans ((if_neg (by simp [hp, hr])).trans ?_)
  split <;> rfl

theorem exec_imageLoad_ignored {bs : List (BitVec 8)} (hs : stopped s = false) (h : s.phase ≠ .started ∨ s.mgt.running = false) :
    exec (.imageLoad bs) s = .next s :=
  (live_running hs _).trans (if_pos (by simpa using h))

theorem imageLoads : ImageLoads := by
  intro s bs hs
  refine ⟨fun hp hr => ⟨fun reason hwhy => ?defaults, fun hrole h0 h1 => ?flash⟩, exec_imageLoad_ignored hs⟩
  case defaults =>
    have hload : ∃ sub : Bool, reason = (if sub then 14 else 1) ∧ exec (.imageLoad bs) s = .next (loadImage sub none s) := by
      obtain ⟨hreason, hrole, hid⟩ | ⟨hreason, hrole, hring, hbs⟩ := hwhy
      · have hflash : flashImage s = none := if_pos hid
        exact ⟨false, hreason, by rw [exec_imageLoad hs hp hr, if_neg (by simpa [isSecondary] using hrole), hflash]⟩
      · exact ⟨true, hreason, by rw [exec_imageLoad hs hp hr, if_pos (by simp [isSecondary, hrole, hring]), if_pos hbs]⟩
    obtain ⟨sub, hreason, hexec⟩ := hload
    obtain ⟨hdef, hwhy', hloads, hring, hflag⟩ := loadImage_none_stand sub s
    exact ⟨_, hexec, loadImage_phase sub none s, hdef, hwhy'.trans hreason.symm, hloads, hring, hflag⟩
  case flash =>
    rw [exec_imageLoad hs hp hr, if_neg (by simp [isSecondary, hrole]), flashImage, if_neg (not_or_intro h0 h1)]

/-- Settles O22, from the entries that a start journals and from the load without an image. -/
theorem startAndLoad : Obligations.StartAndLoad := ⟨startUp, imageLoads⟩

end Sys2Proof.Machine
end

section
/-! SUPPORT. The Tally journal (R29, R459–R462): consecutive words of the log, and the entry that Ranger takes from the queue. -/

namespace Sys2Proof.Machine
open Sys2Proof Sys2Proof.Claims

variable {s t u : State}

/-! ### Places of the log (R459) -/

theorem logNext_logPlace (h k : Nat) : logNext (logPlace h k) = logPlace h (k + 1) := by
  unfold logNext logPlace
  split <;> omega

theorem logAfter_eq (h n : Nat) : logAfter h n = logPlace h n := rfl

theorem logPlace_zero {h : Nat} (h0 : 0x2_1000 ≤ h) (h1 : h < 0x8_0000) : logPlace h 0 = h := by
  unfold logPlace
  omega

/-- Places less than a turn of the log apart differ. -/
theorem logPlace_ne {h i k : Nat} (hlt : i < k) (hturn : k < i + 389120) : logPlace h i ≠ logPlace h k := by
  unfold logPlace
  omega

/-! ### Consecutive words of the log -/

/-- From s to t the log and its head, Ranger's record and counters alone have moved. -/
def LogOnly (s t : State) : Prop := { t with journal := s.journal, mgt := s.mgt, cnt := s.cnt } = s

theorem LogOnly.trans (h : LogOnly s t) (h' : LogOnly t u) : LogOnly s u := by
  have hu := congrArg (fun v : State => { v with journal := s.journal, mgt := s.mgt, cnt := s.cnt }) h'
  exact hu.trans h

theorem LogOnly.journalQ (h : LogOnly s t) : t.journalQ = s.journalQ := (congrArg State.journalQ h :)
/-- The queue counts as another part. -/
theorem LogOnly.frame {q : List JEntry} (h : LogOnly { s with journalQ := q } t) :
    { t with journal := s.journal, journalQ := s.journalQ, mgt := s.mgt, cnt := s.cnt } = s :=
  congrArg (fun u : State => { u with journalQ := s.journalQ }) h
theorem LogOnly.stampNow (h : LogOnly s t) : stampNow t = stampNow s := (congrArg Machine.stampNow h :)

theorem putLog_only (i : Nat) (v : W64) (s : State) : LogOnly s (putLog i v s) := rfl

theorem putLogs_only (l : List W64) : ∀ (i : Nat) (s : State), LogOnly s (putLogs i l s) := by
  induction l with
  | nil => exact fun _ _ => rfl
  | cons v l ih => exact fun i s => (putLog_only i v s).trans (ih (logNext i) (putLog i v s))

theorem putLogs_mgt (l : List W64) : ∀ (i : Nat) (s : State), (putLogs i l s).mgt = s.mgt ∧ (putLogs i l s).cnt = s.cnt := by
  induction l with
  | nil => exact fun _ _ => ⟨rfl, rfl⟩
  | cons v l ih => exact fun i s => ih (logNext i) (putLog i v s)

/-- A written word other than 0 stands at its place alone. -/
theorem putLog_other {v : W64} {i w : Nat} (hv : v ≠ 0) (hw : w ≠ i) (s : State) :
    Mem.read (fun _ => 0) (putLog i v s).journal w = Mem.read (fun _ => 0) s.journal w := by
  simp only [putLog, Mem.write]
  rw [if_neg hv, Mem.read_insert_other _ _ _ _ _ hw]

theorem putLogs_other {l : List W64} {h w : Nat} (hl : ∀ v ∈ l, v ≠ 0) :
    ∀ (k : Nat) (s : State), (∀ i < l.length, w ≠ logPlace h (k + i)) →
      Mem.read (fun _ => 0) (putLogs (logPlace h k) l s).journal w = Mem.read (fun _ => 0) s.journal w := by
  induction l with
  | nil => exact fun _ _ _ => rfl
  | cons v l ih =>
    intro k s hw
    have hrest := ih (fun v hv => hl v (List.mem_cons_of_mem _ hv)) (k + 1) (putLog (logPlace h k) v s)
      (fun i hi => by rw [Nat.add_right_comm]; exact hw (i + 1) (Nat.succ_lt_succ hi))
    rw [putLogs, logNext_logPlace, hrest]
    exact putLog_other (hl v List.mem_cons_self) (hw 0 (Nat.succ_pos _)) s

theorem putLogs_at {l : List W64} {h : Nat} (hl : ∀ v ∈ l, v ≠ 0) (hturn : l.length ≤ 389120) :
    ∀ (k : Nat) (s : State), ∀ i < l.length, Mem.read (fun _ => 0) (putLogs (logPlace h k) l s).journal (logPlace h (k + i)) = l.getD i 0 := by
  induction l with
  | nil => exact fun _ _ i hi => absurd hi (Nat.not_lt_zero i)
  | cons v l ih =>
    intro k s i hi
    have hl' : ∀ v ∈ l, v ≠ 0 := fun v hv => hl v (List.mem_cons_of_mem _ hv)
    rw [List.length_cons] at hturn hi
    rw [putLogs, logNext_logPlace]
    cases i with
    | zero =>
      rw [putLogs_other hl' (k + 1) _ (fun i hi => logPlace_ne (by omega) (by omega))]
      exact Mem.read_write_same _ _ _ _
    | succ i =>
      rw [← Nat.add_assoc, Nat.add_right_comm]
      exact ih hl' (by omega) (k + 1) _ i (by omega)

/-! ### The words of an entry (R460) -/

/-- An entry's head word, written out. -/
theorem journalHead_eq {j : JEntry} (hw : j.words.length ≤ 6) (ht : j.type < 256) :
    journalHead s j = BitVec.ofNat 64 (2 ^ 63 + (j.words.length + 1) * 2 ^ 59 + qcode j.qual * 2 ^ 57 +
      (if j.era = s.tb.stepCnt then 0 else 2 ^ 56) + j.type * 2 ^ 48 + j.stamp.toNat % 2 ^ 48) := by
  have hera : b2n (decide (j.era ≠ s.tb.stepCnt)) * 2 ^ 56 = if j.era = s.tb.stepCnt then 0 else 2 ^ 56 := by
    by_cases h : j.era = s.tb.stepCnt <;> simp [h, b2n]
  rw [journalHead, hera, Nat.mod_eq_of_lt (show j.words.length + 1 < 8 by omega), Nat.mod_eq_of_lt ht, short,
    BitVec.toNat_setWidth, show 2 * 2 ^ 62 = 2 ^ 63 by decide]

theorem journalHead_ne_zero (s : State) (j : JEntry) : journalHead s j ≠ 0 := by
  intro h
  have hq : qcode j.qual ≤ 3 := by cases j.qual <;> decide
  have hb : b2n (decide (j.era ≠ s.tb.stepCnt)) ≤ 1 := by unfold b2n; split <;> omega
  have hn : (journalHead s j).toNat = 0 := congrArg BitVec.toNat h
  have hs := (short j.stamp).isLt
  simp only [journalHead, BitVec.toNat_ofNat] at hn
  omega

theorem journalCont_ne_zero (seq : W32) (w : W48) : journalCont seq w ≠ 0 := by
  intro h
  have hn : (journalCont seq w).toNat = 0 := congrArg BitVec.toNat h
  have hw := w.isLt
  simp only [journalCont, BitVec.toNat_ofNat] at hn
  omega

/-- The continuation words of an entry. -/
def journalConts (s : State) (j : JEntry) : List W64 := (journalData s j).map (journalCont s.mgt.jnlSeq)

theorem journalConts_length (s : State) (j : JEntry) : (journalConts s j).length = j.words.length + 1 := by
  simp [journalConts, journalData]

theorem journalConts_ne_zero {j : JEntry} : ∀ v ∈ journalConts s j, v ≠ 0 := by
  intro v hv
  obtain ⟨w, -, rfl⟩ := List.mem_map.mp hv
  exact journalCont_ne_zero _ w

theorem journalConts_first (s : State) (j : JEntry) : (journalConts s j).getD 0 0 =
    journalCont s.mgt.jnlSeq (BitVec.ofNat 48 (j.stamp.toNat / 2 ^ 48 * 2 ^ 32 + s.mgt.jnlSeq.toNat)) := by
  simp [journalConts, journalData, pack]

theorem journalConts_word {j : JEntry} {i : Nat} (hi : i < j.words.length) :
    (journalConts s j).getD (i + 1) 0 = journalCont s.mgt.jnlSeq (j.words.getD i 0) := by
  simp [journalConts, journalData, hi]

/-! ### An entry in the log (R459, R462) -/

/-- The words of an entry are in the log. -/
def entryWords (j : JEntry) (s : State) : State :=
  putLog s.mgt.jnlHead (journalHead s j) (putLogs (logNext s.mgt.jnlHead) (journalConts s j) s)

/-- MGT_JNL_HEAD moves to a word, and a pass of the log counts. -/
def passTo (n : Nat) (s : State) : State :=
  let t := if n < s.mgt.jnlHead then bumpWrap (mgtA + 0x24) s else s
  { t with mgt := { t.mgt with jnlHead := n, jnlSeq := t.mgt.jnlSeq + 1 } }

theorem entryWords_only (j : JEntry) (s : State) : LogOnly s (entryWords j s) := by
  unfold entryWords
  exact (putLogs_only _ _ s).trans (putLog_only _ _ _)

theorem entryWords_mgt (j : JEntry) (s : State) : (entryWords j s).mgt = s.mgt := by
  rw [entryWords, putLog_mgt, (putLogs_mgt _ _ _).1]

theorem entryWords_cnt (j : JEntry) (s : State) : (entryWords j s).cnt = s.cnt := by
  rw [entryWords, putLog_cnt, (putLogs_mgt _ _ _).2]

theorem writeEntry_eq (j : JEntry) (s : State) :
    writeEntry j s = passTo (logPlace s.mgt.jnlHead (j.words.length + 2)) (entryWords j s) := by
  have hlen : (journalData s j).length + 1 = j.words.length + 2 := rfl
  rw [← logAfter_eq, ← hlen, passTo, entryWords_mgt]
  rfl

/-- Where an entry's words stand, and every other word of the log. -/
theorem entryWords_journal {j : JEntry} (h0 : 0x2_1000 ≤ s.mgt.jnlHead) (h1 : s.mgt.jnlHead < 0x8_0000) (hw : j.words.length ≤ 6) :
    Mem.read (fun _ => 0) (entryWords j s).journal s.mgt.jnlHead = journalHead s j ∧
    (∀ i < j.words.length + 1, Mem.read (fun _ => 0) (entryWords j s).journal (logPlace s.mgt.jnlHead (1 + i)) = (journalConts s j).getD i 0) ∧
    (∀ w, (∀ i ≤ j.words.length + 1, w ≠ logPlace s.mgt.jnlHead i) →
      Mem.read (fun _ => 0) (entryWords j s).journal w = Mem.read (fun _ => 0) s.journal w) := by
  have hfirst : logNext s.mgt.jnlHead = logPlace s.mgt.jnlHead 1 := by rw [← logNext_logPlace, logPlace_zero h0 h1]
  have hhead := logPlace_zero h0 h1
  rw [entryWords, hfirst]
  refine ⟨Mem.read_write_same _ _ _ _, fun i hi => ?_, fun w hw' => ?_⟩
  · rw [putLog_other (journalHead_ne_zero s j) (fun he => logPlace_ne (h := s.mgt.jnlHead) (i := 0) (k := 1 + i) (by omega) (by omega)
      (hhead.trans he.symm))]
    exact putLogs_at journalConts_ne_zero (by rw [journalConts_length]; omega) 1 s i (by rw [journalConts_length]; exact hi)
  · rw [putLog_other (journalHead_ne_zero s j) (fun he => hw' 0 (Nat.zero_le _) (he.trans hhead.symm))]
    refine putLogs_other journalConts_ne_zero 1 s (fun i hi => hw' (1 + i) ?_)
    rw [journalConts_length] at hi
    omega

/-- What a move of MGT_JNL_HEAD leaves alone. -/
theorem passTo_only (n : Nat) (s : State) : LogOnly s (passTo n s) := by
  simp only [passTo]
  split <;> rfl

theorem passTo_mgt (n : Nat) (s : State) : (passTo n s).mgt = { s.mgt with jnlHead := n, jnlSeq := s.mgt.jnlSeq + 1 } := by
  simp only [passTo]
  split <;> rfl

theorem passTo_journal (n : Nat) (s : State) : (passTo n s).journal = s.journal := by
  simp only [passTo]
  split <;> rfl

theorem cntR_passTo (n : Nat) (s : State) : cntR (passTo n s) (mgtA + 0x24) =
    if n < s.mgt.jnlHead then cntR s (mgtA + 0x24) + 1 else cntR s (mgtA + 0x24) := by
  simp only [passTo]
  split
  · exact Mem.read_write_same _ _ _ _
  · rfl

/-- The log has been passed where the entry ends at its end or beyond. -/
theorem logPlace_passes {h n : Nat} (h0 : 0x2_1000 ≤ h) (h1 : h < 0x8_0000) (hn : n ≤ 8) :
    logPlace h n < h ↔ ¬ h + n < 0x8_0000 := by
  unfold logPlace
  omega

/-! ### The oldest entry of the queue -/

theorem writeEntry_only (j : JEntry) (s : State) : LogOnly s (writeEntry j s) := by
  rw [writeEntry_eq]
  exact (entryWords_only j s).trans (passTo_only _ _)

theorem writeEntry_mgt (j : JEntry) (s : State) :
    (writeEntry j s).mgt = { s.mgt with jnlHead := logPlace s.mgt.jnlHead (j.words.length + 2), jnlSeq := s.mgt.jnlSeq + 1 } := by
  rw [writeEntry_eq, passTo_mgt, entryWords_mgt]

theorem writeEntry_journal (j : JEntry) (s : State) : (writeEntry j s).journal = (entryWords j s).journal := by
  rw [writeEntry_eq, passTo_journal]

theorem cntR_writeEntry {j : JEntry} (h0 : 0x2_1000 ≤ s.mgt.jnlHead) (h1 : s.mgt.jnlHead < 0x8_0000) (hw : j.words.length ≤ 6) :
    cntR (writeEntry j s) (mgtA + 0x24) =
      if s.mgt.jnlHead + (j.words.length + 1) + 1 < 0x8_0000 then cntR s (mgtA + 0x24) else cntR s (mgtA + 0x24) + 1 := by
  rw [writeEntry_eq, cntR_passTo, entryWords_mgt, cntR, entryWords_cnt, ← cntR, if_congr (logPlace_passes h0 h1 (by omega)) rfl rfl, ite_not,
    Nat.add_assoc]

/-- JOURNAL_WRITE takes the oldest entry. -/
theorem exec_journalWrite {j : JEntry} {rest : List JEntry} (hs : stopped s = false) (hr : s.mgt.running = true) (hp : s.power.cur ≠ .s3)
    (hq : s.journalQ = j :: rest) : exec .journalWrite s = .next (queueLost (writeEntry j { s with journalQ := rest })) := by
  refine (live_running hs _).trans ((if_neg (by simp [hr, hp])).trans ?_)
  rw [hq]

theorem journalEntries : JournalEntries := by
  intro j rest s hs hr hp hq hlost hw ht h0 h1
  obtain ⟨hhead, hcont, hother⟩ := entryWords_journal (s := { s with journalQ := rest }) h0 h1 hw
  have honly := writeEntry_only j { s with journalQ := rest }
  have hmgt := writeEntry_mgt j { s with journalQ := rest }
  have hcnt := cntR_writeEntry (s := { s with journalQ := rest }) h0 h1 hw
  have hexec := exec_journalWrite hs hr hp hq
  rw [queueLost, if_pos (by rw [hmgt]; exact hlost)] at hexec
  rw [← writeEntry_journal] at hhead hcont hother
  refine ⟨_, hexec, ?_, ?_, fun i hi => ?_, hother, honly.journalQ, hmgt, hcnt, honly.frame⟩
  · rw [hhead, journalHead_eq hw ht]
  · exact (hcont 0 (Nat.succ_pos _)).trans (journalConts_first _ j)
  · rw [show 2 + i = 1 + (i + 1) by omega]
    exact (hcont (i + 1) (Nat.succ_lt_succ hi)).trans (journalConts_word hi)

/-! ### Lost entries (R29) -/

theorem exec_journalWrite_none (hs : stopped s = false) (h : s.journalQ = [] ∨ s.mgt.running = false ∨ s.power.cur = .s3) :
    exec .journalWrite s = .next s := by
  refine (live_running hs _).trans ?_
  split
  · rfl
  · next hrun =>
    obtain hq | hr := h
    · rw [hq]
    · exact absurd (hr.imp (fun h => by simp [h]) id) hrun

theorem journal_full {type : Nat} {at_ : Sample} {words : List W48} (h : 256 ≤ s.journalQ.length) :
    (journal type at_ words s).journalQ = s.journalQ ∧ bit (flagR (journal type at_ words s) mgtFlagsA) 4 = true ∧
      cntR (journal type at_ words s) (mgtA + 0x20) = plusOne (cntR s (mgtA + 0x20)) ∧
      (journal type at_ words s).mgt.jqLostHeld = s.mgt.jqLostHeld + 1 := by
  rw [journal_lost _ _ _ _ h]
  refine ⟨rfl, ?_, ?_, rfl⟩
  · rw [flagR_raise]
    exact bit_raised (by decide) _
  · rw [cntR_raise, ← satInc_eq_plusOne]
    exact cntR_bump _ _

/-- The entry that tells of lost ones. -/
theorem queueLost_kept (hlost : s.mgt.jqLostHeld ≠ 0) (hlen : s.journalQ.length < 256) :
    (queueLost s).mgt.jqLostHeld = 0 ∧ (queueLost s).journalQ = s.journalQ ++ [{
      type := 5, stamp := (stampNow s).stamp, qual := (stampNow s).qual, era := (stampNow s).era
      words := [BitVec.ofNat 48 s.mgt.jqLostHeld] }] := by
  rw [queueLost, if_neg hlost, journal_kept _ _ _ _ (by exact hlen)]
  exact ⟨rfl, rfl⟩

theorem journalQueue : JournalQueue := by
  intro s hs
  refine ⟨exec_journalWrite_none hs, fun type at_ words => ⟨fun h => by rw [journal_kept _ _ _ _ h], journal_full⟩, ?_⟩
  intro j rest hq hlen hr hp hlost
  have honly := writeEntry_only j { s with journalQ := rest }
  have hqueue : (writeEntry j { s with journalQ := rest }).journalQ = rest := honly.journalQ
  have hheld : (writeEntry j { s with journalQ := rest }).mgt.jqLostHeld = s.mgt.jqLostHeld := by rw [writeEntry_mgt]
  obtain ⟨hzero, hlast⟩ := queueLost_kept (by rw [hheld]; exact hlost) (by rw [hqueue]; exact hlen)
  rw [hqueue, hheld, honly.stampNow] at hlast
  exact ⟨_, exec_journalWrite hs hr hp hq, hzero, hlast⟩

/-- Settles O53, from the places of an entry's words in the log and from the entry that tells of the lost ones. -/
theorem tallyJournal : Obligations.TallyJournal := ⟨journalEntries, journalQueue⟩

end Sys2Proof.Machine
end

section
/-! SUPPORT. Runs of keys of a sparse store: what reading, writing and leaving out many of them do. -/

namespace Sys2Proof.Mem

variable {α : Type} [DecidableEq α]

/-- The entries from a key on are those of the store. -/
theorem from_wf (d : Nat → α) (m : Mem α) (lo a : Nat) (hw : wfFrom d lo m = true) :
    wfFrom d a (Mem.from a m) = true ∧ ∀ b, a ≤ b → read d (Mem.from a m) b = read d m b := by
  induction m generalizing lo with
  | nil => exact ⟨rfl, fun _ _ => rfl⟩
  | cons e m ih =>
    obtain ⟨k, v⟩ := e
    have hcons := hw
    simp only [wfFrom, Bool.and_eq_true, decide_eq_true_eq] at hw
    obtain ⟨⟨-, hv⟩, hrest⟩ := hw
    simp only [Mem.from]
    split
    · next hk =>
      obtain ⟨hwf, hread⟩ := ih (k + 1) hrest
      refine ⟨hwf, fun b hb => ?_⟩
      rw [hread b hb, read, if_neg (by omega), if_neg (by omega)]
    · next hk => exact ⟨by simp only [wfFrom, Bool.and_eq_true, decide_eq_true_eq]; exact ⟨⟨by omega, hv⟩, hrest⟩, fun _ _ => rfl⟩

/-- A walk over a store without smaller keys reads each key. -/
theorem walk_eq (d : Nat → α) (n : Nat) : ∀ (a : Nat) (m : Mem α), wfFrom d a m = true →
    walk d n a m = (List.range n).map (fun i => read d m (a + i)) := by
  induction n with
  | zero => exact fun _ _ _ => rfl
  | succ n ih =>
    intro a m hw
    rw [List.range_succ_eq_map, List.map_cons, List.map_map]
    have hshift : ∀ m' : Mem α, wfFrom d (a + 1) m' = true → (∀ b, a < b → read d m' b = read d m b) →
        walk d n (a + 1) m' = (List.range n).map ((fun i => read d m (a + i)) ∘ Nat.succ) := by
      intro m' hw' hread
      rw [ih (a + 1) m' hw']
      exact List.map_congr_left fun i _ => by rw [Function.comp_apply, hread _ (by omega), Nat.succ_eq_add_one, Nat.add_right_comm, Nat.add_assoc]
    cases m with
    | nil => rw [walk, hshift [] rfl (fun _ _ => rfl)]; rfl
    | cons e m =>
      obtain ⟨k, v⟩ := e
      have hcons := hw
      simp only [wfFrom, Bool.and_eq_true, decide_eq_true_eq] at hw
      obtain ⟨⟨hk, hv⟩, hrest⟩ := hw
      rw [walk]
      split
      · next h =>
        subst h
        rw [hshift m hrest (fun b hb => by rw [read, if_neg (by omega), if_neg (by omega)])]
        simp [read]
      · next h =>
        rw [hshift ((k, v) :: m) (by simp only [wfFrom, Bool.and_eq_true, decide_eq_true_eq]; exact ⟨⟨by omega, hv⟩, hrest⟩) (fun _ _ => rfl)]
        rw [read, if_pos (by omega), Nat.add_zero]

/-- A slice of a canonical store reads its keys one by one. -/
theorem slice_eq_readList (d : Nat → α) (m : Mem α) (a n : Nat) (hw : wf d m = true) : slice d m a n = readList d m a n := by
  obtain ⟨hwf, hread⟩ := from_wf d m 0 a hw
  rw [slice, walk_eq d n a _ hwf, readList]
  exact List.map_congr_left fun i _ => hread _ (Nat.le_add_right a i)

/-- Byte i of a slice. -/
theorem getD_slice (d : Nat → α) (m : Mem α) (a n i : Nat) (x : α) (hw : wf d m = true) (hi : i < n) : (slice d m a n).getD i x = read d m (a + i) := by
  simp [slice_eq_readList d m a n hw, readList, hi]

theorem length_slice (d : Nat → α) (m : Mem α) (a n : Nat) (hw : wf d m = true) : (slice d m a n).length = n := by
  simp [slice_eq_readList d m a n hw, readList]

/-- What lies outside a written run stays. -/
theorem read_writeList_other (d : Nat → α) (l : List α) (b : Nat) : ∀ (m : Mem α) (a : Nat), wf d m = true → b < a ∨ a + l.length ≤ b →
    read d (writeList d m a l) b = read d m b := by
  induction l with
  | nil => exact fun _ _ _ _ => rfl
  | cons v l ih =>
    intro m a hw hb
    rw [List.length_cons] at hb
    rw [writeList, ih _ _ (wf_write d m a v hw) (by omega), read_write_other d m a b v (by omega) hw]

/-- A written run reads back. -/
theorem read_writeList (d : Nat → α) (l : List α) (x : α) : ∀ (m : Mem α) (a i : Nat), wf d m = true → i < l.length →
    read d (writeList d m a l) (a + i) = l.getD i x := by
  induction l with
  | nil => exact fun _ _ i _ hi => absurd hi (Nat.not_lt_zero i)
  | cons v l ih =>
    intro m a i hw hi
    rw [List.length_cons] at hi
    rw [writeList]
    cases i with
    | zero => rw [read_writeList_other d l _ _ _ (wf_write d m a v hw) (by omega)]; exact read_write_same _ _ _ _
    | succ i => rw [← Nat.add_assoc, Nat.add_right_comm]; exact ih _ _ i (wf_write d m a v hw) (by omega)

/-- A store without some keys holds their defaults there. -/
theorem read_filter (d : Nat → α) (p : Nat → Bool) (b : Nat) : ∀ (lo : Nat) (m : Mem α), wfFrom d lo m = true →
    read d (m.filter (fun kv => p kv.1)) b = if p b then read d m b else d b := by
  intro lo m
  induction m generalizing lo with
  | nil => simp [read]
  | cons e m ih =>
    obtain ⟨k, v⟩ := e
    intro hw
    simp only [wfFrom, Bool.and_eq_true, decide_eq_true_eq] at hw
    obtain ⟨-, hrest⟩ := hw
    have hih := ih (k + 1) hrest
    have hbelow : b < k + 1 → read d m b = d b := fun hb => read_below d m (k + 1) b hb hrest
    rw [List.filter_cons]
    by_cases hp : p k = true
    · rw [if_pos hp, read, read, hih]
      by_cases hlt : b < k
      · simp [hlt]
      · by_cases heq : b = k
        · subst heq; simp [hp]
        · simp [hlt, heq]
    · rw [if_neg hp, hih, read]
      by_cases hlt : b < k
      · simp [hlt, hbelow (by omega)]
      · by_cases heq : b = k
        · subst heq; simp [hp]
        · simp [hlt, heq]

end Sys2Proof.Mem
end

section
/-! SUPPORT. What programming, erasing and spoiling the flash leave in its bytes (R445, R446), and the pass-through's requests and ends. -/

namespace Sys2Proof.Machine
open Sys2Proof Sys2Proof.Claims

variable {s t u : State}

/-! ### Bytes of the flash -/

theorem bufBytes_length {m : Mem (BitVec 8)} (hw : Mem.wf (fun _ => 0) m = true) (n : Nat) : (bufBytes m n).length = n :=
  Mem.length_slice _ _ _ _ hw

theorem bufBytes_getD {m : Mem (BitVec 8)} (hw : Mem.wf (fun _ => 0) m = true) {n i : Nat} (hi : i < n) :
    (bufBytes m n).getD i 0 = Mem.read (fun _ => 0) m i := by
  rw [bufBytes, Mem.getD_slice _ _ _ _ _ _ hw hi, Nat.zero_add]

theorem eraseFlash_flashOnly (a n : Nat) (hw : Mem.wf (fun _ => 0xFF) s.flash = true) : flashOnly a n (fun _ => 0xFF) s (eraseFlash a n s) := by
  have hread : ∀ x, flashByte (eraseFlash a n s) x = if x < a ∨ a + n ≤ x then flashByte s x else 0xFF := by
    intro x
    rw [flashByte, eraseFlash_flash, Mem.read_filter _ (fun k => decide (k < a ∨ a + n ≤ k)) x 0 s.flash hw]
    simp only [decide_eq_true_eq]
    rfl
  exact ⟨fun i hi => (hread _).trans (if_neg (by omega)), fun x hx => (hread x).trans (if_pos hx)⟩

/-- What lies outside a programmed run stays. -/
theorem programFlash_other (bs : List (BitVec 8)) {x : Nat} : ∀ (a : Nat) (s : State), Mem.wf (fun _ => 0xFF) s.flash = true →
    x < a ∨ a + bs.length ≤ x → flashByte (programFlash a bs s) x = flashByte s x := by
  induction bs with
  | nil => exact fun _ _ _ _ => rfl
  | cons b bs ih =>
    intro a s hw hx
    rw [List.length_cons] at hx
    rw [programFlash, ih _ _ (setFlash_wf _ _ _ hw) (by omega), flashByte_setFlash_other _ _ _ _ (by omega) hw]

/-- A programmed run has lost the bits that are 0 in the bytes. -/
theorem programFlash_at (bs : List (BitVec 8)) : ∀ (a : Nat) (s : State), Mem.wf (fun _ => 0xFF) s.flash = true →
    ∀ i < bs.length, flashByte (programFlash a bs s) (a + i) = flashByte s (a + i) &&& bs.getD i 0 := by
  induction bs with
  | nil => exact fun _ _ _ i hi => absurd hi (Nat.not_lt_zero i)
  | cons b bs ih =>
    intro a s hw i hi
    rw [List.length_cons] at hi
    rw [programFlash]
    cases i with
    | zero => rw [programFlash_other bs _ _ (setFlash_wf _ _ _ hw) (by omega)]; exact flashByte_setFlash _ _ _
    | succ i =>
      have hplace : a + (i + 1) = a + 1 + i := by omega
      rw [hplace, ih _ _ (setFlash_wf _ _ _ hw) i (by omega), flashByte_setFlash_other _ _ _ _ (by omega) hw, List.getD_cons_succ]

theorem programFlash_flashOnly {bs : List (BitVec 8)} {n : Nat} (a : Nat) (hw : Mem.wf (fun _ => 0xFF) s.flash = true) (hn : bs.length = n) :
    flashOnly a n (fun i => flashByte s (a + i) &&& bs.getD i 0) s (programFlash a bs s) := by
  subst hn
  exact ⟨programFlash_at bs a s hw, fun x hx => programFlash_other bs a s hw hx⟩

/-- A failed operation leaves every byte beyond its own. -/
theorem spoilFlash_other {a n x : Nat} (hw : Mem.wf (fun _ => 0xFF) s.flash = true) (hx : x < a ∨ a + n ≤ x) :
    flashByte (spoilFlash a n s) x = flashByte s x := by
  have hbytes := programFlash_other ((List.range n).map (fun i => (Config.innerWord (a + i) (draw s).1).setWidth 8)) a
    (eraseFlash a n (draw s).2) (eraseFlash_wf a n (draw s).2 hw) (by simpa using hx)
  have herase := (eraseFlash_flashOnly (s := (draw s).2) a n hw).2 x hx
  exact hbytes.trans herase

/-! ### A request of the pass-through (R445, R446) -/

theorem cfpSpan_eq (op n : Nat) : cfpSpan op n = Claims.spanOf op n := by
  unfold cfpSpan Claims.spanOf
  split <;> simp_all

section
variable {op n : Nat}

theorem cfpRefusal_slots_iff : (2 ≤ op ∧ op ≤ 4 ∧ 0x80_0000 < s.config.cfpAddr.toNat + cfpSpan op n) ↔ touchesSlots op s.config.cfpAddr.toNat n := by
  rw [cfpSpan_eq, touchesSlots]
  omega

theorem cfpRefusal_place_iff :
    ((op = 1 ∧ 0x100_0000 < s.config.cfpAddr.toNat + cfpSpan op n) ∨ (op = 2 ∧ 256 < s.config.cfpAddr.toNat % 256 + cfpSpan op n) ∨
      (op = 3 ∧ s.config.cfpAddr.toNat % 0x1000 ≠ 0) ∨ (op = 4 ∧ s.config.cfpAddr.toNat % 0x1_0000 ≠ 0)) ↔
      misplaced op s.config.cfpAddr.toNat n := by
  have h1 : op = 1 → cfpSpan op n = n := by rintro rfl; rfl
  have h2 : op = 2 → cfpSpan op n = n := by rintro rfl; rfl
  unfold misplaced
  exact or_congr (and_congr_right fun h => by rw [h1 h]) (or_congr (and_congr_right fun h => by rw [h2 h]) Iff.rfl)

theorem cfpRefusal_prot (h : touchesSlots op s.config.cfpAddr.toNat n) : cfpRefusal s op n = 1 := if_pos (cfpRefusal_slots_iff.mpr h)

theorem cfpRefusal_align (h : ¬ touchesSlots op s.config.cfpAddr.toNat n) (h' : misplaced op s.config.cfpAddr.toNat n) : cfpRefusal s op n = 2 :=
  (if_neg (fun hc => h (cfpRefusal_slots_iff.mp hc))).trans (if_pos (cfpRefusal_place_iff.mpr h'))

theorem cfpRefusal_rest (h : ¬ touchesSlots op s.config.cfpAddr.toNat n) (h' : ¬ misplaced op s.config.cfpAddr.toNat n) :
    cfpRefusal s op n = if s.config.cfpBusy || loading s then 3 else 0 :=
  (if_neg (fun hc => h (cfpRefusal_slots_iff.mp hc))).trans (if_neg (fun hc => h' (cfpRefusal_place_iff.mp hc)))
end

section
variable {op : Nat} {path : Path} {v : W32}

theorem cfpRow_other (hs : stopped s = false) (h : bits v 2 0 ≠ op) : cfpRow op path v s = .next s :=
  (live_running hs _).trans (if_neg h)

theorem cfpRow_ctrl (hs : stopped s = false) (h : bits v 2 0 = op) : cfpRow op path v s = .next (writeCfpCtrl v (pathWake path s)) :=
  (live_running hs _).trans (if_pos h)

theorem writeCfpCtrl_keyless (h7 : bits v 2 0 ≠ 7) (h : bits v 31 24 ≠ 0xC5) (s : State) : writeCfpCtrl v s = s :=
  (if_neg h7).trans (if_pos (Or.inl h))

theorem writeCfpCtrl_refused {r : Nat} (h7 : bits v 2 0 ≠ 7) (h0 : bits v 2 0 ≠ 0) (h : bits v 31 24 = 0xC5)
    (hr : cfpRefusal s (bits v 2 0) (bits v 15 8 + 1) = r) (hr0 : r ≠ 0) :
    writeCfpCtrl v s = raise cfgStatA 2 { s with config := { s.config with cfpReason := r } } := by
  subst hr
  exact (if_neg h7).trans ((if_neg (by simp [h, h0])).trans (if_pos hr0))

theorem writeCfpCtrl_starts (h7 : bits v 2 0 ≠ 7) (h0 : bits v 2 0 ≠ 0) (h : bits v 31 24 = 0xC5)
    (hr : cfpRefusal s (bits v 2 0) (bits v 15 8 + 1) = 0) :
    writeCfpCtrl v s = { s with config := { s.config with
      cfpBusy := true, cfpLast := bits v 2 0, cfpOp := (bits v 2 0, s.config.cfpAddr.toNat, bits v 15 8 + 1) } } :=
  (if_neg h7).trans ((if_neg (by simp [h, h0])).trans (if_neg (not_not_intro hr)))
end

/-- What a write to CFP_CTRL does, as the row of its operation says it (R445, R446). -/
theorem cfpRow_spec {op : Nat} (path : Path) (v : W32) (hs : stopped s = false) (h0 : op ≠ 0) (h7 : op ≠ 7) :
    let u := pathWake path s
    let a := s.config.cfpAddr.toNat
    let n := bits v 15 8 + 1
    let refused (why : Nat) : Host.Outcome State Fault Refusal := .next (raise cfgStatA 2 { u with config := { u.config with cfpReason := why } })
    (bits v 2 0 ≠ op → cfpRow op path v s = .next s) ∧
    (bits v 2 0 = op → bits v 31 24 ≠ 0xC5 → cfpRow op path v s = .next u) ∧
    (bits v 2 0 = op → bits v 31 24 = 0xC5 →
      (touchesSlots op a n → cfpRow op path v s = refused 1) ∧
      (¬ touchesSlots op a n → misplaced op a n → cfpRow op path v s = refused 2) ∧
      (¬ touchesSlots op a n → ¬ misplaced op a n → s.config.cfpBusy = true ∨ s.config.locked = false → cfpRow op path v s = refused 3) ∧
      (¬ touchesSlots op a n → ¬ misplaced op a n → s.config.cfpBusy = false → s.config.locked = true → cfpRow op path v s =
        .next { u with config := { u.config with cfpBusy := true, cfpLast := op, cfpOp := (op, a, n) } })) := by
  intro u a n refused
  have hconfig : u.config = s.config := pathWake_config path s
  have ha : u.config.cfpAddr.toNat = a := by rw [hconfig]
  refine ⟨cfpRow_other hs, fun hop hkey => ?keyless, fun hop hkey => ?keyed⟩
  case keyless => rw [cfpRow_ctrl hs hop, writeCfpCtrl_keyless (hop ▸ h7) hkey]
  case keyed =>
    subst hop
    have hrefused : ∀ {r}, cfpRefusal u (bits v 2 0) n = r → r ≠ 0 → cfpRow (bits v 2 0) path v s = refused r := fun hr hr0 => by
      rw [cfpRow_ctrl hs rfl, writeCfpCtrl_refused h7 h0 hkey hr hr0]
    rw [← ha]
    refine ⟨fun ht => hrefused (cfpRefusal_prot ht) (by decide), fun ht hm => hrefused (cfpRefusal_align ht hm) (by decide),
      fun ht hm hb => hrefused ((cfpRefusal_rest ht hm).trans (if_pos ?_)) (by decide), fun ht hm hb hl => ?_⟩
    · rw [hconfig, loading, hconfig]
      simpa using hb
    · rw [cfpRow_ctrl hs rfl, writeCfpCtrl_starts h7 h0 hkey ((cfpRefusal_rest ht hm).trans (if_neg ?_))]
      rw [hconfig, loading, hconfig]
      simp [hb, hl]

/-! ### The end of an operation (R446) -/

/-- The flash and the buffer as an operation leaves them. -/
def cfpOutcome (ok : Bool) (s : State) : State :=
  if ok || !decide (2 ≤ s.config.cfpOp.1 ∧ s.config.cfpOp.1 ≤ 4) then cfpDone s else cfpFailed s

theorem programFlash_config (a : Nat) (bs : List (BitVec 8)) (s : State) : (programFlash a bs s).config = s.config :=
  (congrArg State.config (programFlash_only a bs s) :)

/-- From s to t the flash, the pass-through's buffer and reason, flags and the free values alone have moved. -/
structure FlashOnly (s t : State) : Prop where
  frame : { t with config := s.config, flash := s.flash, flags := s.flags, fresh := s.fresh } = s
  reload : t.config.reloadDue = s.config.reloadDue

theorem programFlash_flash (a : Nat) (bs : List (BitVec 8)) (s : State) : FlashOnly s (programFlash a bs s) :=
  ⟨congrArg (fun u : State => { u with config := s.config, flags := s.flags, fresh := s.fresh }) (programFlash_only a bs s),
    by rw [programFlash_config]⟩

theorem spoilFlash_flash (a n : Nat) (s : State) : FlashOnly s (spoilFlash a n s) :=
  ⟨congrArg (fun u : State => { u with config := s.config, flags := s.flags }) (spoilFlash_only a n s),
    by rw [spoilFlash, programFlash_config]; rfl⟩

theorem cfpDone_flash (s : State) : FlashOnly s (cfpDone s) := by
  unfold cfpDone
  simp only
  split
  · exact ⟨rfl, rfl⟩
  · exact programFlash_flash _ _ s
  · exact ⟨rfl, rfl⟩
  · exact ⟨rfl, rfl⟩
  · exact ⟨rfl, rfl⟩
  · exact ⟨rfl, rfl⟩
  · exact ⟨rfl, rfl⟩

theorem FlashOnly.raise {c : Cfg} (h : FlashOnly s t) (hc : c.reloadDue = s.config.reloadDue) (a i : Nat) :
    FlashOnly s (raise a i { t with config := c }) := ⟨h.frame, hc⟩

theorem cfpFailed_flash (s : State) : FlashOnly s (cfpFailed s) :=
  (spoilFlash_flash _ _ s).raise (c := { s.config with cfpReason := 4 }) rfl _ _

theorem cfpOutcome_flash (ok : Bool) (s : State) : FlashOnly s (cfpOutcome ok s) := by
  unfold cfpOutcome
  split
  · exact cfpDone_flash s
  · exact cfpFailed_flash s

theorem reloadWhenReady_idle (h : s.config.reloadDue = false) : reloadWhenReady s = s := if_neg (by simp [h])

/-- The pass-through is free again. -/
def cfpFree (s : State) : State := { s with config := { s.config with cfpBusy := false } }

theorem exec_cfpOperationEnd {ok : Bool} (hs : stopped s = false) (hb : s.config.cfpBusy = true) (hr : s.config.reloadDue = false) :
    exec (.cfpOperationEnd ok) s = .next (cfpFree (cfpOutcome ok s)) := by
  have hdue : (cfpFree (cfpOutcome ok s)).config.reloadDue = false := (cfpOutcome_flash ok s).reload.trans hr
  exact (live_running hs _).trans ((if_neg (by simp [hb])).trans (congrArg Host.Outcome.next (reloadWhenReady_idle hdue)))

section
variable {ok : Bool} {op a n : Nat}

/-- The buffer takes bytes from its start on. -/
def fillBuf (bs : List (BitVec 8)) (s : State) : State := { s with config := { s.config with cfpBuf := putBytes 0 bs s.config.cfpBuf } }

theorem cfpOutcome_read (h : s.config.cfpOp = (1, a, n)) : cfpOutcome ok s = fillBuf (flashBytes s a n) s := by
  simp [cfpOutcome, cfpDone, h, fillBuf]

theorem cfpOutcome_readid (h : s.config.cfpOp = (5, a, n)) : cfpOutcome ok s =
    fillBuf ((List.range 3).map (fun i => BitVec.ofNat 8 (bits s.flashId (23 - 8 * i) (16 - 8 * i)))) s := by
  simp [cfpOutcome, cfpDone, h, fillBuf]

theorem cfpOutcome_readsr (h : s.config.cfpOp = (6, a, n)) : cfpOutcome ok s =
    fillBuf [(Config.freeWord (draw s).1).setWidth 8] (draw s).2 := by
  simp [cfpOutcome, cfpDone, h, fillBuf]

theorem cfpOutcome_program (h : s.config.cfpOp = (2, a, n)) : cfpOutcome true s = programFlash a (bufBytes s.config.cfpBuf n) s := by
  simp [cfpOutcome, cfpDone, h]

theorem cfpOutcome_erase (hop : op = 3 ∨ op = 4) (h : s.config.cfpOp = (op, a, n)) : cfpOutcome true s = eraseFlash a (Claims.spanOf op n) s := by
  obtain rfl | rfl := hop <;> simp [cfpOutcome, cfpDone, h, Claims.spanOf]

theorem cfpOutcome_failed (hop : op = 2 ∨ op = 3 ∨ op = 4) (h : s.config.cfpOp = (op, a, n)) : cfpOutcome false s =
    raise cfgStatA 3 { spoilFlash a (Claims.spanOf op n) s with config := { s.config with cfpReason := 4 } } := by
  have hwrites : 2 ≤ s.config.cfpOp.1 ∧ s.config.cfpOp.1 ≤ 4 := by rw [h]; omega
  rw [cfpOutcome, if_neg (by simp [hwrites]), cfpFailed, h, cfpSpan_eq]
end

/-- The buffer's bytes after it is filled, and those beyond. -/
theorem fillBuf_read {bs : List (BitVec 8)} (hw : Mem.wf (fun _ => 0) s.config.cfpBuf = true) :
    (∀ i < bs.length, Mem.read (fun _ => 0) (fillBuf bs s).config.cfpBuf i = bs.getD i 0) ∧
    (∀ i, bs.length ≤ i → Mem.read (fun _ => 0) (fillBuf bs s).config.cfpBuf i = Mem.read (fun _ => 0) s.config.cfpBuf i) := by
  refine ⟨fun i hi => ?_, fun i hi => Mem.read_writeList_other _ bs i _ 0 hw (Or.inr (by omega))⟩
  have h := Mem.read_writeList (fun _ => 0) bs 0 s.config.cfpBuf 0 i hw hi
  rwa [Nat.zero_add] at h

theorem flashOnly_congr {a n : Nat} {f g : Nat → BitVec 8} (h : flashOnly a n f s t) (hf : ∀ i < n, f i = g i) (hu : u.flash = t.flash) :
    flashOnly a n g s u := by
  obtain ⟨hin, hout⟩ := h
  have hbyte : ∀ x, flashByte u x = flashByte t x := fun x => by rw [flashByte, flashByte, hu]
  exact ⟨fun i hi => (hbyte _).trans ((hin i hi).trans (hf i hi)), fun x hx => (hbyte x).trans (hout x hx)⟩

/-- Byte i of the three of the JEDEC identification. -/
theorem idByte {w : BitVec 24} {i : Nat} (hi : i < 3) : BitVec.ofNat 8 (bits w (23 - 8 * i) (16 - 8 * i)) = w.extractLsb' (16 - 8 * i) 8 := by
  apply BitVec.eq_of_toNat_eq
  have hwidth : 23 - 8 * i + 1 - (16 - 8 * i) = 8 := by omega
  simp [bits, hwidth]

/-- What the end of an operation leaves (R446). -/
theorem cfpOperationEnds {ok : Bool} {op a n : Nat} (hs : stopped s = false) (hb : s.config.cfpBusy = true) (hr : s.config.reloadDue = false)
    (hop : s.config.cfpOp = (op, a, n)) (hflash : Mem.wf (fun _ => 0xFF) s.flash = true) (hbuf : Mem.wf (fun _ => 0) s.config.cfpBuf = true) :
    ∃ t, exec (.cfpOperationEnd ok) s = .next t ∧ t.config.cfpBusy = false ∧
      { t with config := s.config, flash := s.flash, flags := s.flags, fresh := s.fresh } = s ∧
      (op = 1 → (∀ i < n, Mem.read (fun _ => 0) t.config.cfpBuf i = flashByte s (a + i)) ∧ t.flash = s.flash ∧ t.flags = s.flags) ∧
      (op = 5 → (∀ i < 3, Mem.read (fun _ => 0) t.config.cfpBuf i = s.flashId.extractLsb' (16 - 8 * i) 8) ∧ t.flash = s.flash ∧ t.flags = s.flags) ∧
      (op = 6 → (∀ i, 0 < i → Mem.read (fun _ => 0) t.config.cfpBuf i = Mem.read (fun _ => 0) s.config.cfpBuf i) ∧ t.flash = s.flash) ∧
      (ok = true → op = 2 → flashOnly a n (fun i => flashByte s (a + i) &&& Mem.read (fun _ => 0) s.config.cfpBuf i) s t ∧ t.flags = s.flags) ∧
      (ok = true → op = 3 ∨ op = 4 → flashOnly a (Claims.spanOf op n) (fun _ => 0xFF) s t ∧ t.flags = s.flags) ∧
      (ok = false → op = 2 ∨ op = 3 ∨ op = 4 → t.config.cfpReason = 4 ∧ flagR t cfgStatA = flagR s cfgStatA ||| 8 ∧
        ∀ x, x < a ∨ a + Claims.spanOf op n ≤ x → flashByte t x = flashByte s x) := by
  refine ⟨_, exec_cfpOperationEnd hs hb hr, rfl, (cfpOutcome_flash ok s).frame, ?read, ?readid, ?readsr, ?program, ?erase, ?failed⟩
  case read =>
    rintro rfl
    rw [cfpOutcome_read hop]
    obtain ⟨hin, -⟩ := fillBuf_read (bs := flashBytes s a n) hbuf
    have hlen : (flashBytes s a n).length = n := Mem.length_slice _ _ _ _ hflash
    refine ⟨fun i hi => (hin i (by omega)).trans (Mem.getD_slice _ _ _ _ _ _ hflash hi), rfl, rfl⟩
  case readid =>
    rintro rfl
    rw [cfpOutcome_readid hop]
    obtain ⟨hin, -⟩ := fillBuf_read (bs := (List.range 3).map (fun i => BitVec.ofNat 8 (bits s.flashId (23 - 8 * i) (16 - 8 * i)))) hbuf
    refine ⟨fun i hi => (hin i (by simpa using hi)).trans ?_, rfl, rfl⟩
    simp [hi, idByte hi]
  case readsr =>
    rintro rfl
    rw [cfpOutcome_readsr hop]
    obtain ⟨-, hout⟩ := fillBuf_read (s := (draw s).2) (bs := [(Config.freeWord (draw s).1).setWidth 8]) hbuf
    exact ⟨fun i hi => hout i hi, rfl⟩
  case program =>
    rintro rfl rfl
    rw [cfpOutcome_program hop]
    have hbytes := programFlash_flashOnly a hflash (bufBytes_length hbuf n)
    exact ⟨flashOnly_congr hbytes (fun i hi => by rw [bufBytes_getD hbuf hi]) rfl,
      (congrArg State.flags (programFlash_only a (bufBytes s.config.cfpBuf n) s) :)⟩
  case erase =>
    rintro rfl hop'
    rw [cfpOutcome_erase hop' hop]
    exact ⟨flashOnly_congr (eraseFlash_flashOnly a _ hflash) (fun _ _ => rfl) rfl, rfl⟩
  case failed =>
    rintro rfl hop'
    rw [cfpOutcome_failed hop' hop]
    refine ⟨rfl, ?_, fun x hx => spoilFlash_other hflash hx⟩
    have hflags : (spoilFlash a (Claims.spanOf op n) s).flags = s.flags := (congrArg State.flags (spoilFlash_only a (Claims.spanOf op n) s) :)
    refine (flagR_raise _ _ _).trans ?_
    rw [flagR, flagR, hflags]
    rfl

/-- Settles O50, from the reasons of a refusal and from what an operation leaves in the flash and its buffer. -/
theorem flashPassThrough : Obligations.FlashPassThrough := by
  intro s hs
  refine ⟨fun row hrow path v => ?_, fun ok hb => (live_running hs _).trans (if_pos (by simp [hb])),
    fun ok op a n hb hr hop _ _ _ hflash hbuf => cfpOperationEnds hs hb hr hop hflash hbuf⟩
  have hexec : exec (row.2 path v) s = cfpRow row.1 path v s ∧ row.1 ≠ 0 ∧ row.1 ≠ 7 := by
    simp only [List.mem_cons, List.not_mem_nil, or_false] at hrow
    obtain rfl | rfl | rfl | rfl | rfl | rfl := hrow <;> exact ⟨rfl, by decide, by decide⟩
  obtain ⟨hexec, h0, h7⟩ := hexec
  rw [hexec]
  exact cfpRow_spec path v hs h0 h7

end Sys2Proof.Machine
end

section
/-! SUPPORT. The firmware mailbox (R466, R467): a command taken, held and served. -/

namespace Sys2Proof.Machine
open Sys2Proof Sys2Proof.Claims

variable {s t u w : State}

/-! ### What a wake request leaves alone -/

theorem requestWake_cur (i : Nat) (s : State) : (requestWake i s).power.cur = s.power.cur := by
  unfold requestWake
  split
  · rfl
  · rfl
  · split
    · rfl
    · split <;> rfl

@[simp] theorem pathWake_cur (p : Path) (s : State) : (pathWake p s).power.cur = s.power.cur := by
  cases p
  case ranger => rfl
  all_goals exact requestWake_cur _ s

/-- A stamp reads the power state and no more of the power record. -/
theorem stampNow_power {x : Power} {c : Mem W32} (h : x.cur = s.power.cur) : stampNow { s with power := x, cnt := c } = stampNow s := by
  unfold stampNow ticks qualNow heldNow fastRuns
  simp only
  rw [h]

theorem stampNow_pathWake (p : Path) (s : State) : stampNow (pathWake p s) = stampNow s := by
  rw [pathWake_only]
  exact stampNow_power (pathWake_cur p s)

@[simp] theorem pathWake_mgt (p : Path) (s : State) : (pathWake p s).mgt = s.mgt := by rw [pathWake_only]
@[simp] theorem pathWake_flash (p : Path) (s : State) : (pathWake p s).flash = s.flash := by rw [pathWake_only]
@[simp] theorem pathWake_flags (p : Path) (s : State) : (pathWake p s).flags = s.flags := by rw [pathWake_only]
@[simp] theorem pathWake_journalQ (p : Path) (s : State) : (pathWake p s).journalQ = s.journalQ := by rw [pathWake_only]

/-! ### A mailbox command that is taken -/

/-- The command waits for Ranger. -/
def mbxTaken (op : Nat) (u : State) : State := { u with mgt := { u.mgt with mbxBusy := true, mbxOp := op, idle := false } }

theorem mbxCmd_op {op : Nat} (h : op < 16) : bits (BitVec.ofNat 32 op) 3 0 = op := by
  simp only [bits, BitVec.toNat_ofNat, Nat.shiftRight_zero]
  omega

theorem writeMbxCmd_taken {op : Nat} (h0 : op ≠ 0) (h7 : op < 7) (hb : u.mgt.mbxBusy = false) :
    writeMbxCmd (BitVec.ofNat 32 op) u = mbxTaken op u := by
  have hop : bits (BitVec.ofNat 32 op) 3 0 = op := mbxCmd_op (by omega)
  simp only [writeMbxCmd, hop]
  exact if_neg (by simp [h0, hb]; omega)

theorem writeMbxCmd_busy (v : W32) (hb : u.mgt.mbxBusy = true) : writeMbxCmd v u = werr u := if_pos (by simp [hb])

/-- A command written while another is BUSY. -/
theorem mbxRow_busy {op : Nat} {ok : Bool} {path : Path} (hs : stopped s = false) (hb : s.mgt.mbxBusy = true) (ho : s.mgt.mbxOp ≠ op) :
    mbxRow op ok path s = .next (werr (pathWake path s)) := by
  have hwait : (s.mgt.mbxBusy && decide (s.mgt.mbxOp = op)) = false := by simp [ho]
  have hwrite := writeMbxCmd_busy (u := pathWake path s) (BitVec.ofNat 32 op) (by rw [pathWake_mgt, hb])
  have hready : mbxReady (werr (pathWake path s)) op = false := by simp [mbxReady, werr, ho]
  refine (live_running hs _).trans (congrArg Host.Outcome.next ?_)
  simp only [hwait, Bool.false_eq_true, if_false, hwrite, hready]

/-- A command written while none is BUSY is served at once where Ranger can. -/
theorem mbxRow_taken {op : Nat} {ok : Bool} {path : Path} (hs : stopped s = false) (hb : s.mgt.mbxBusy = false) (h0 : op ≠ 0) (h7 : op < 7) :
    mbxRow op ok path s = .next (if mbxReady (mbxTaken op (pathWake path s)) op then mbxEnd ok (mbxTaken op (pathWake path s))
      else mbxTaken op (pathWake path s)) := by
  have hwrite := writeMbxCmd_taken (u := pathWake path s) h0 h7 (by rw [pathWake_mgt, hb])
  refine (live_running hs _).trans (congrArg Host.Outcome.next ?_)
  simp only [hb, Bool.false_and, Bool.false_eq_true, if_false, hwrite]

theorem mbxReady_taken {op : Nat} {path : Path} : mbxReady (mbxTaken op (pathWake path s)) op = true ↔
    s.mgt.running = true ∧ s.mgt.asked = 0 ∧ s.power.cur ≠ .s3 ∧ ¬ ((op = 2 ∨ op = 3 ∨ op = 4) ∧ s.config.cfpBusy = true) := by
  have hop : (2 ≤ op ∧ op ≤ 4) ↔ (op = 2 ∨ op = 3 ∨ op = 4) := by omega
  simp only [mbxReady, mbxTaken, procRuns, pathWake_mgt, pathWake_config, pathWake_cur, hop, if_true, Bool.not_false, Bool.and_true,
    Bool.true_and, decide_true, Bool.and_eq_true, decide_eq_true_eq, Bool.not_eq_true', Bool.and_eq_false_iff, decide_eq_false_iff_not,
    not_and_or, ← and_assoc, Bool.not_eq_true]

/-! ### The boot record after COMMIT (R465) -/

/-- A written record governs. -/
theorem bootRead_bootWrite (r : BootRec) (s : State) : bootRead (bootWrite r s) = { r with valid := true, gen := (bootRead s).gen + 1 } := by
  by_cases h : bootIsA s = true
  · have hw : bootWrite r s = { s with mgt := { s.mgt with bootB := { r with valid := true, gen := (bootRead s).gen + 1 } } } := if_pos h
    have hgen : bootRead s = s.mgt.bootA := if_pos h
    rw [hw, hgen, bootRead, if_neg (by simp [bootIsA])]
  · have hw : bootWrite r s = { s with mgt := { s.mgt with bootA := { r with valid := true, gen := (bootRead s).gen + 1 } } } := if_neg h
    have hgen : bootRead s = s.mgt.bootB := if_neg h
    rw [hw, hgen, bootRead, if_pos (by simp [bootIsA])]

/-- The record stands in two fields. -/
theorem bootRead_congr (ha : t.mgt.bootA = s.mgt.bootA) (hb : t.mgt.bootB = s.mgt.bootB) : bootRead t = bootRead s := by
  unfold bootRead bootIsA
  rw [ha, hb]

/-- A check reads the flash, the fused key and the fused ROLLBACK. -/
theorem slotCheck_congr (hf : t.flash = s.flash) (hk : t.mgt.fwKey = s.mgt.fwKey) (hh : t.mgt.fwHash = s.mgt.fwHash)
    (hr : t.mgt.rollbackOtp = s.mgt.rollbackOtp) (b : Bool) : slotCheck t b = slotCheck s b := by
  unfold slotCheck slotHeaderOk slotSigned slotRollback slotLength slotResident slotField flashBytes
  rw [hf, hk, hh, hr]

/-! ### A command that Ranger serves -/

/-- From s to t Ranger's own record, the flash and the free values alone have moved. -/
def MbxOnly (s t : State) : Prop := { t with mgt := s.mgt, flash := s.flash, fresh := s.fresh } = s

theorem programFlash_mbx (a : Nat) (bs : List (BitVec 8)) (s : State) : MbxOnly s (programFlash a bs s) := by
  have h := congrArg (fun u : State => { u with mgt := s.mgt, fresh := s.fresh }) (programFlash_only a bs s)
  exact h

theorem eraseFlash_mbx (a n : Nat) (s : State) : MbxOnly s (eraseFlash a n s) := rfl

theorem spoilFlash_mbx (a n : Nat) (s : State) : MbxOnly s (spoilFlash a n s) := by
  have h := congrArg (fun u : State => { u with mgt := s.mgt }) (spoilFlash_only a n s)
  exact h

theorem bootWrite_mbx (r : BootRec) (s : State) : MbxOnly s (bootWrite r s) := by
  unfold bootWrite
  split <;> rfl

theorem MbxOnly.set {m : Mgt} (h : MbxOnly s t) : MbxOnly s { t with mgt := m } := h

/-- The flash after BEGIN, and after WRITE. -/
def mbxErased (ok : Bool) (s : State) : State :=
  if ok then eraseFlash (slotBase (inactiveSlot s)) 0x40_0000 s else spoilFlash (slotBase (inactiveSlot s)) 0x40_0000 s
def mbxPaged (ok : Bool) (s : State) : State :=
  if ok then programFlash (slotBase (inactiveSlot s) + s.mgt.mbxArg.toNat) (bufBytes s.mgt.mbxBuf 256) s
  else spoilFlash (slotBase (inactiveSlot s) + s.mgt.mbxArg.toNat) 256 s

theorem mbxBegin_eq (ok : Bool) (s : State) : mbxBegin ok s =
    (if ok then 0 else 2, { mbxErased ok s with mgt := { (mbxErased ok s).mgt with begun := ok, verified := false } }) := rfl

theorem mbxWrite_refused {ok : Bool} (h : s.mgt.begun = false ∨ s.mgt.mbxArg.toNat % 256 ≠ 0 ∨ 0x40_0000 ≤ s.mgt.mbxArg.toNat) :
    mbxWrite ok s = (1, s) := if_pos (by simpa using h)

theorem mbxWrite_page {ok : Bool} (hb : s.mgt.begun = true) (hp : s.mgt.mbxArg.toNat % 256 = 0) (ha : s.mgt.mbxArg.toNat < 0x40_0000) :
    mbxWrite ok s = (if ok then 0 else 2, { mbxPaged ok s with mgt := { (mbxPaged ok s).mgt with verified := false } }) :=
  if_neg (by simp [hb, hp]; omega)

theorem mbxErased_only (ok : Bool) (s : State) : MbxOnly s (mbxErased ok s) := by
  unfold mbxErased
  split
  · exact eraseFlash_mbx _ _ s
  · exact spoilFlash_mbx _ _ s

theorem mbxPaged_only (ok : Bool) (s : State) : MbxOnly s (mbxPaged ok s) := by
  unfold mbxPaged
  split
  · exact programFlash_mbx _ _ s
  · exact spoilFlash_mbx _ _ s

theorem mbxBegin_only (ok : Bool) (s : State) : MbxOnly s (mbxBegin ok s).2 := by
  rw [mbxBegin_eq]
  exact (mbxErased_only ok s).set

theorem mbxWrite_only (ok : Bool) (s : State) : MbxOnly s (mbxWrite ok s).2 := by
  by_cases h : s.mgt.begun = false ∨ s.mgt.mbxArg.toNat % 256 ≠ 0 ∨ 0x40_0000 ≤ s.mgt.mbxArg.toNat
  · rw [mbxWrite_refused h]
    rfl
  · simp only [not_or, Bool.not_eq_false, not_not, not_le] at h
    obtain ⟨hb, hp, ha⟩ := h
    rw [mbxWrite_page hb hp ha]
    exact (mbxPaged_only ok s).set

theorem mbxCommit_only (s : State) : MbxOnly s (mbxCommit s).2 := by
  unfold mbxCommit
  split
  · rfl
  · exact bootWrite_mbx _ s

theorem mbxServe_only (ok : Bool) (s : State) : MbxOnly s (mbxServe ok s).2 := by
  unfold mbxServe
  split
  · rfl
  · exact mbxBegin_only ok s
  · exact mbxWrite_only ok s
  · rfl
  · exact mbxCommit_only s
  · rfl

/-- What the end of a command leaves: its result, MBXF and the FWSTAGE entry. -/
structure MbxEnded (r : Nat) (w v t : State) : Prop where
  busy : t.mgt.mbxBusy = false
  result : t.mgt.mbxResult = r
  queue : t.journalQ = w.journalQ ++ [{
    type := 3, stamp := (stampNow w).stamp, qual := (stampNow w).qual, era := (stampNow w).era, words := [BitVec.ofNat 48 (r * 16 + w.mgt.mbxOp)] }]
  flag : flagR t mgtFlagsA = flagR w mgtFlagsA ||| 0x80
  frame : { t with mgt := w.mgt, flash := w.flash, flags := w.flags, fresh := w.fresh, journalQ := w.journalQ } = w
  flash : t.flash = v.flash
  begun : t.mgt.begun = v.mgt.begun
  verified : t.mgt.verified = v.mgt.verified
  boot : bootRead t = bootRead v

/-- The result stands in MBX_RESULT, and MBXF rises. -/
def mbxTold (r : Nat) (v : State) : State := raise mgtFlagsA 7 { v with mgt := { v.mgt with mbxBusy := false, mbxResult := r } }

theorem mbxEnd_eq (ok : Bool) (w : State) : mbxEnd ok w =
    journal 0x03 (stampNow (mbxTold (mbxServe ok w).1 (mbxServe ok w).2)) [pack [((mbxServe ok w).1, 4), (w.mgt.mbxOp, 0)]]
      (mbxTold (mbxServe ok w).1 (mbxServe ok w).2) := rfl

theorem mbxTold_ended {r : Nat} {v : State} (ho : MbxOnly w v) (hq : w.journalQ.length < 256) :
    MbxEnded r w v (journal 0x03 (stampNow (mbxTold r v)) [pack [(r, 4), (w.mgt.mbxOp, 0)]] (mbxTold r v)) := by
  have hqueue : v.journalQ = w.journalQ := (congrArg State.journalQ ho :)
  have hflags : v.flags = w.flags := (congrArg State.flags ho :)
  have hstamp : stampNow (mbxTold r v) = stampNow w := (congrArg stampNow ho :)
  have hword : pack [(r, 4), (w.mgt.mbxOp, 0)] = BitVec.ofNat 48 (r * 16 + w.mgt.mbxOp) := by simp [pack]
  have hflag : flagR (mbxTold r v) mgtFlagsA = flagR w mgtFlagsA ||| 0x80 := by
    refine (flagR_raise _ _ _).trans ?_
    rw [flagR, flagR, hflags]
    rfl
  rw [journal_kept _ _ _ _ (show (mbxTold r v).journalQ.length < 256 by rw [show (mbxTold r v).journalQ = v.journalQ from rfl, hqueue]; exact hq)]
  refine ⟨rfl, rfl, ?_, hflag, congrArg (fun u : State => { u with flags := w.flags, journalQ := w.journalQ }) ho, rfl, rfl, rfl, rfl⟩
  rw [hstamp, hword]
  exact congrArg (· ++ _) hqueue

theorem mbxEnd_ended (ok : Bool) (hq : w.journalQ.length < 256) : MbxEnded (mbxServe ok w).1 w (mbxServe ok w).2 (mbxEnd ok w) := by
  rw [mbxEnd_eq]
  exact mbxTold_ended (mbxServe_only ok w) hq

/-! ### What each command leaves -/

section
variable {op r : Nat} {path : Path} {ok : Bool}

theorem inactiveSlot_taken (h : s.mgt.recovery = false) : inactiveSlot (mbxTaken op (pathWake path s)) = !s.mgt.slot := by
  simp [inactiveSlot, mbxTaken, h]

theorem flash_taken (op : Nat) (path : Path) (s : State) : (mbxTaken op (pathWake path s)).flash = s.flash := pathWake_flash path s

/-- Bytes compared with those of a hub with the same flash. -/
theorem flashOnly_from {a n : Nat} {f : Nat → BitVec 8} (h : flashOnly a n f w t) (hw : w.flash = s.flash) : flashOnly a n f s t := by
  obtain ⟨hin, hout⟩ := h
  exact ⟨hin, fun x hx => (hout x hx).trans (by rw [flashByte, flashByte, hw])⟩

/-- The result and the FWSTAGE entry of a command written at s. -/
theorem MbxEnded.told (h : MbxEnded r (mbxTaken op (pathWake path s)) w t) : t.mgt.mbxResult = r ∧ t.journalQ = s.journalQ ++ [{
    type := 3, stamp := ticks s, qual := qualNow s, era := s.tb.stepCnt, words := [BitVec.ofNat 48 (r * 16 + op)] }] := by
  have hstamp : stampNow (mbxTaken op (pathWake path s)) = stampNow s := stampNow_pathWake path s
  have hqueue : (mbxTaken op (pathWake path s)).journalQ = s.journalQ := pathWake_journalQ path s
  have hq := h.queue
  rw [hstamp, hqueue] at hq
  exact ⟨h.result, hq⟩

theorem MbxEnded.rest (h : MbxEnded r (mbxTaken op (pathWake path s)) w t) : flagR t mgtFlagsA = flagR s mgtFlagsA ||| 0x80 ∧
    { t with
      mgt := (pathWake path s).mgt, flash := (pathWake path s).flash, flags := (pathWake path s).flags, fresh := (pathWake path s).fresh
      journalQ := (pathWake path s).journalQ } = pathWake path s := by
  refine ⟨h.flag.trans ?_, congrArg (fun v : State => { v with mgt := (pathWake path s).mgt }) h.frame⟩
  rw [flagR, flagR, show (mbxTaken op (pathWake path s)).flags = s.flags from pathWake_flags path s]

/-- BEGIN, with a flash that reports no error. -/
theorem mbxBegin_flash (hr : s.mgt.recovery = false) (hw : Mem.wf (fun _ => 0xFF) s.flash = true)
    (ht : t.flash = (mbxBegin true (mbxTaken op (pathWake path s))).2.flash) :
    flashOnly (slotBase (!s.mgt.slot)) 0x40_0000 (fun _ => 0xFF) s t := by
  have hflash := flash_taken op path s
  rw [← inactiveSlot_taken (op := op) (path := path) hr]
  exact flashOnly_from (flashOnly_congr (eraseFlash_flashOnly _ _ (by rw [hflash]; exact hw)) (fun _ _ => rfl) ht) hflash

/-- WRITE, with a flash that reports no error. -/
theorem mbxPaged_flash (hr : s.mgt.recovery = false) (hw : Mem.wf (fun _ => 0xFF) s.flash = true) (hb : Mem.wf (fun _ => 0) s.mgt.mbxBuf = true)
    (ht : t.flash = (mbxPaged true (mbxTaken op (pathWake path s))).flash) :
    flashOnly (slotBase (!s.mgt.slot) + s.mgt.mbxArg.toNat) 256
      (fun i => flashByte s (slotBase (!s.mgt.slot) + s.mgt.mbxArg.toNat + i) &&& Mem.read (fun _ => 0) s.mgt.mbxBuf i) s t := by
  have hflash := flash_taken op path s
  have hbuf : (mbxTaken op (pathWake path s)).mgt.mbxBuf = s.mgt.mbxBuf := (congrArg Mgt.mbxBuf (pathWake_mgt path s) :)
  have harg : (mbxTaken op (pathWake path s)).mgt.mbxArg = s.mgt.mbxArg := (congrArg Mgt.mbxArg (pathWake_mgt path s) :)
  rw [← inactiveSlot_taken (op := op) (path := path) hr, ← harg]
  refine flashOnly_from (flashOnly_congr (programFlash_flashOnly _ (by rw [hflash]; exact hw) (bufBytes_length (by rw [hbuf]; exact hb) 256))
    (fun i hi => ?_) ht) hflash
  rw [bufBytes_getD (by rw [hbuf]; exact hb) hi, hbuf, flashByte, hflash, flashByte]
end

/-- Settles O51: a command is held or counted as R466 says, and served by what each command does to the flash and the boot record. -/
theorem mailbox : Obligations.Mailbox := by
  intro row hrow path ok s hs hb op u b base arg
  have hrows : ∃ ok', (∀ s', exec (row.2 path ok) s' = mbxRow op ok' path s') ∧ (op = 2 ∨ op = 3 → ok' = ok) ∧ op ≠ 0 ∧ op < 7 := by
    simp only [List.mem_cons, List.not_mem_nil, or_false] at hrow
    obtain rfl | rfl | rfl | rfl | rfl | rfl := hrow
    · exact ⟨true, fun _ => rfl, fun h => by simp [op] at h, by decide, by decide⟩
    · exact ⟨ok, fun _ => rfl, fun _ => rfl, by decide, by decide⟩
    · exact ⟨ok, fun _ => rfl, fun _ => rfl, by decide, by decide⟩
    · exact ⟨true, fun _ => rfl, fun h => by simp [op] at h, by decide, by decide⟩
    · exact ⟨true, fun _ => rfl, fun h => by simp [op] at h, by decide, by decide⟩
    · exact ⟨true, fun _ => rfl, fun h => by simp [op] at h, by decide, by decide⟩
  obtain ⟨ok', hexec, hok, h0, h7⟩ := hrows
  simp only [hexec]
  clear_value op
  clear hexec hrow
  have hready := mbxReady_taken (s := s) (op := op) (path := path)
  refine ⟨fun other ho => mbxRow_busy hs rfl ho, fun hwait => ?held, fun hrun hask hcur hcfp hrec hq hflash hbuf => ?served⟩
  case held =>
    rw [mbxRow_taken hs hb h0 h7, if_neg]
    · rfl
    · rw [hready]
      rintro ⟨hrun, hask, hcur, hcfp⟩
      obtain h | h | h | h := hwait
      · exact absurd (hrun.symm.trans h) (by decide)
      · exact h hask
      · exact hcur h
      · exact hcfp h
  case served =>
    have hserve : mbxRow op ok' path s = .next (mbxEnd ok' (mbxTaken op u)) := by
      rw [mbxRow_taken hs hb h0 h7, if_pos (hready.mpr ⟨hrun, hask, hcur, by simp [hcfp]⟩)]
    have hmgt : u.mgt = s.mgt := pathWake_mgt path s
    have hend := mbxEnd_ended (w := mbxTaken op u) ok' (by rw [show (mbxTaken op u).journalQ = s.journalQ from pathWake_journalQ path s]; exact hq)
    obtain ⟨hflag, hframe⟩ := hend.rest
    refine ⟨_, hserve, hend.busy, hflag, hframe, ?info, ?begin, ?write, ?verify, ?commit, ?abort⟩
    case info =>
      rintro rfl
      exact ⟨hend.told, hend.flash.trans (pathWake_flash path s), hend.begun.trans (congrArg Mgt.begun hmgt :),
        hend.verified.trans (congrArg Mgt.verified hmgt :)⟩
    case begin =>
      rintro rfl
      obtain rfl := hok (Or.inl rfl)
      refine ⟨hend.told, hend.begun, hend.verified, ?_⟩
      rintro rfl
      exact mbxBegin_flash hrec hflash hend.flash
    case write =>
      rintro rfl
      obtain rfl := hok (Or.inr rfl)
      have hserves : mbxServe ok' (mbxTaken 3 u) = mbxWrite ok' (mbxTaken 3 u) := rfl
      rw [hserves] at hend
      have hbegun : (mbxTaken 3 u).mgt.begun = s.mgt.begun := (congrArg Mgt.begun hmgt :)
      have harg : (mbxTaken 3 u).mgt.mbxArg = s.mgt.mbxArg := (congrArg Mgt.mbxArg hmgt :)
      refine ⟨fun hbad => ?_, fun hb' hp ha => ?_⟩
      · rw [mbxWrite_refused (by rw [hbegun, harg]; exact hbad)] at hend
        exact ⟨hend.told, hend.flash.trans (pathWake_flash path s)⟩
      · rw [mbxWrite_page (by rw [hbegun]; exact hb') (by rw [harg]; exact hp) (by rw [harg]; exact ha)] at hend
        refine ⟨hend.told, hend.verified, ?_⟩
        rintro rfl
        exact mbxPaged_flash hrec hflash hbuf hend.flash
    case verify =>
      rintro rfl
      have hcheck : (mbxServe ok' (mbxTaken 4 u)).1 = slotCheck s b := by
        refine (congrArg (slotCheck _) (inactiveSlot_taken hrec)).trans ?_
        exact slotCheck_congr (pathWake_flash path s) (congrArg Mgt.fwKey hmgt) (congrArg Mgt.fwHash hmgt) (congrArg Mgt.rollbackOtp hmgt) _
      have hverified : (mbxServe ok' (mbxTaken 4 u)).2.mgt.verified = decide (slotCheck s b = 0) := by rw [← hcheck]; rfl
      have hflash' := hend.flash.trans (pathWake_flash path s)
      have hver := hend.verified.trans hverified
      rw [hcheck] at hend
      exact ⟨hend.told, hver, hflash'⟩
    case commit =>
      rintro rfl
      have hserves : mbxServe ok' (mbxTaken 5 u) = mbxCommit (mbxTaken 5 u) := rfl
      have hbegun : (mbxTaken 5 u).mgt.begun = s.mgt.begun := (congrArg Mgt.begun hmgt :)
      have hver : (mbxTaken 5 u).mgt.verified = s.mgt.verified := (congrArg Mgt.verified hmgt :)
      have hboot : bootRead (mbxTaken 5 u) = bootRead s := bootRead_congr (congrArg Mgt.bootA hmgt :) (congrArg Mgt.bootB hmgt :)
      rw [hserves] at hend
      by_cases hno : s.mgt.begun = false ∨ s.mgt.verified = false
      · have hrefused : mbxCommit (mbxTaken 5 u) = (1, mbxTaken 5 u) := if_pos (by rw [hbegun, hver]; simpa using hno)
        rw [hrefused] at hend
        refine ⟨hend.flash.trans (pathWake_flash path s), fun _ => ⟨hend.told, hend.boot.trans hboot⟩, fun h1 h2 => ?_⟩
        simp [h1, h2] at hno
      · have hdone : mbxCommit (mbxTaken 5 u) = (0, bootWrite { bootRead (mbxTaken 5 u) with
            active := inactiveSlot (mbxTaken 5 u), prev := !inactiveSlot (mbxTaken 5 u), trial := true, tried := false } (mbxTaken 5 u)) :=
          if_neg (by rw [hbegun, hver]; simpa using hno)
        rw [hdone] at hend
        have hrecord := hend.boot.trans (bootRead_bootWrite _ _)
        rw [hboot, inactiveSlot_taken hrec] at hrecord
        exact ⟨(hend.flash.trans (bootWrite_flash _ _)).trans (pathWake_flash path s), fun h => absurd h hno, fun _ _ => ⟨hend.told, hrecord⟩⟩
    case abort =>
      rintro rfl
      exact ⟨hend.told, hend.flash.trans (pathWake_flash path s), hend.begun, hend.verified⟩

end Sys2Proof.Machine
end

section
/-! SUPPORT. Records into the bodies of the delivery rings (R337, R340, R344, R346): the words of a record, and what its delivery counts. -/

namespace Sys2Proof.Machine
open Sys2Proof Sys2Proof.Claims

variable {s t u v : State} {r : Nat}

/-! ### Words of a body (R337) -/

/-- Where index i of a ring lies in batch SRAM. -/
def bodyPlace (s : State) (r : Nat) (i : W32) : Nat := 512 * (getRing s r).base.toNat + i.toNat % bodySize s r

/-- Places less than a body apart differ: a body's size divides the range of an index. -/
theorem bodyPlace_ne {a b : Nat} {i : W32} (hlt : a < b) (hb : b < a + bodySize s r) :
    bodyPlace s r (i + BitVec.ofNat 32 a) ≠ bodyPlace s r (i + BitVec.ofNat 32 b) := by
  have hbits : bits (cfgR s (rngA r)) 23 20 ≤ 15 := by
    simp only [bits]
    omega
  have hdvd : bodySize s r ∣ 2 ^ 32 := by
    rw [bodySize, show (512 : Nat) = 2 ^ 9 by decide, ← Nat.pow_add]
    exact Nat.pow_dvd_pow 2 (by omega)
  have hmod : ∀ n : Nat, (i + BitVec.ofNat 32 n).toNat % bodySize s r = (i.toNat + n) % bodySize s r := fun n => by
    rw [BitVec.toNat_add, BitVec.toNat_ofNat, Nat.add_mod_mod, Nat.mod_mod_of_dvd _ hdvd]
  intro h
  rw [bodyPlace, bodyPlace, hmod, hmod] at h
  have hsame : (i.toNat + a) ≡ (i.toNat + b) [MOD bodySize s r] := Nat.add_left_cancel h
  have hzero := (Nat.modEq_iff_dvd' (by omega)).mp hsame
  have hle := Nat.le_of_dvd (by omega) hzero
  omega

@[simp] theorem bodyPlace_setSram (w : Nat) (x : W48) (s : State) (r : Nat) (i : W32) : bodyPlace (setSram w x s) r i = bodyPlace s r i := rfl

theorem index_succ (i : W32) (n : Nat) : i + 1 + BitVec.ofNat 32 n = i + BitVec.ofNat 32 (n + 1) := by bv_omega

theorem writeBody_cons (r : Nat) (w : W48) (ws : List W48) (i : W32) (s : State) :
    writeBody r (w :: ws) i s = writeBody r ws (i + 1) (setSram (bodyPlace s r i) w s) := rfl

theorem writeBody_only (ws : List W48) : ∀ (i : W32) (s : State), { writeBody r ws i s with sram := s.sram, poisoned := s.poisoned } = s := by
  induction ws with
  | nil => exact fun _ _ => rfl
  | cons w ws ih =>
    exact fun i s => congrArg (fun u : State => { u with sram := s.sram, poisoned := s.poisoned }) (ih (i + 1) (setSram (bodyPlace s r i) w s))

/-- What lies outside a record's words stays. -/
theorem writeBody_other (ws : List W48) {p : Nat} : ∀ (i : W32) (s : State), Mem.wf (sramD s) s.sram = true →
    (∀ n < ws.length, p ≠ bodyPlace s r (i + BitVec.ofNat 32 n)) → sramR (writeBody r ws i s) p = sramR s p := by
  induction ws with
  | nil => exact fun _ _ _ _ => rfl
  | cons w ws ih =>
    intro i s hw hp
    have hfirst : p ≠ bodyPlace s r i := by simpa using hp 0 (Nat.succ_pos _)
    have hrest : ∀ n < ws.length, p ≠ bodyPlace (setSram (bodyPlace s r i) w s) r (i + 1 + BitVec.ofNat 32 n) := fun n hn => by
      rw [bodyPlace_setSram, index_succ]
      exact hp (n + 1) (Nat.succ_lt_succ hn)
    rw [writeBody_cons, ih _ _ (setSram_wf _ _ _ hw) hrest, sramR_setSram_other _ _ _ _ hfirst hw]

/-- A record's words stand at their places. -/
theorem writeBody_at (ws : List W48) : ∀ (i : W32) (s : State), Mem.wf (sramD s) s.sram = true → ws.length ≤ bodySize s r →
    ∀ n < ws.length, sramR (writeBody r ws i s) (bodyPlace s r (i + BitVec.ofNat 32 n)) = ws.getD n 0 := by
  induction ws with
  | nil => exact fun _ _ _ _ n hn => absurd hn (Nat.not_lt_zero n)
  | cons w ws ih =>
    intro i s hw hlen n hn
    rw [List.length_cons] at hlen hn
    rw [writeBody_cons]
    cases n with
    | zero =>
      have hother : ∀ n < ws.length, bodyPlace s r (i + BitVec.ofNat 32 0) ≠ bodyPlace (setSram (bodyPlace s r i) w s) r (i + 1 + BitVec.ofNat 32 n) :=
        fun n hn => by
          rw [bodyPlace_setSram, index_succ]
          exact bodyPlace_ne (by omega) (by omega)
      rw [writeBody_other ws _ _ (setSram_wf _ _ _ hw) hother, show i + BitVec.ofNat 32 0 = i by simp]
      exact sramR_setSram _ _ _
    | succ n =>
      have h := ih (i + 1) (setSram (bodyPlace s r i) w s) (setSram_wf _ _ _ hw) (show ws.length ≤ bodySize s r by omega) n (by omega)
      rw [bodyPlace_setSram, index_succ] at h
      exact h

/-! ### What a delivered record counts (R344, R346) -/

theorem flagR_congr (h : t.flags = s.flags) (a : Nat) : flagR t a = flagR s a := by rw [flagR, flagR, h]

/-- DATAF rises at the watermark, and nothing else changes. -/
theorem checkWmark_spec (r : Nat) (s : State) : { checkWmark r s with flags := s.flags } = s ∧
    bit (flagR (checkWmark r s) (rngA r + 4)) 3 = (bit (flagR s (rngA r + 4)) 3 ||
      decide (ringWmark s r ≠ 0 ∧ ringWmark s r ≤ (getRing s r).prod - (getRing s r).cons)) := by
  simp only [checkWmark]
  split
  · next h => exact ⟨rfl, by rw [flagR_raise, ringDataF, bit_raised (by decide), decide_eq_true h, Bool.or_true]⟩
  · next h => exact ⟨rfl, by rw [decide_eq_false h, Bool.or_false]⟩

/-- Ring r holds x, the record's stream counts n, and the ring counts the record. -/
def delivered (r : Nat) (k : Option Nat) (n : Nat) (x : Ring) (s : State) : State :=
  checkWmark r (bumpWrap (rngA r + 0x38) (deliverCount k n (setRing r x s)))

/-- What a delivery leaves. -/
structure Delivers (r : Nat) (k : Option Nat) (n : Nat) (x : Ring) (s t : State) : Prop where
  ring : getRing t r = x
  stream : ∀ j, k = some j → getStream t j = { getStream s j with delivered := (getStream s j).delivered + BitVec.ofNat 48 n }
  streams : k = none → t.streams = s.streams
  count : cntR t (rngA r + 0x38) = cntR s (rngA r + 0x38) + 1
  dataF : bit (flagR t (rngA r + 4)) 3 = (bit (flagR s (rngA r + 4)) 3 || decide (ringWmark s r ≠ 0 ∧ ringWmark s r ≤ x.prod - x.cons))
  frame : { t with rings := s.rings, streams := s.streams, cnt := s.cnt, flags := s.flags } = s

theorem deliverCount_only (k : Option Nat) (n : Nat) (s : State) : { deliverCount k n s with streams := s.streams } = s := by
  cases k <;> rfl

theorem deliverCount_stream (k n : Nat) (s : State) : getStream (deliverCount (some k) n s) k =
    { getStream s k with delivered := (getStream s k).delivered + BitVec.ofNat 48 n } := getStream_setStream _ _ _

theorem bumpWrap_only (a : Nat) (s : State) : { bumpWrap a s with cnt := s.cnt } = s := rfl

/-- The counts before the watermark is looked at. -/
theorem bumpWrap_deliverCount (a n r : Nat) (k : Option Nat) (x : Ring) (s : State) :
    (∀ j, k = some j → getStream (bumpWrap a (deliverCount k n (setRing r x s))) j =
      { getStream s j with delivered := (getStream s j).delivered + BitVec.ofNat 48 n }) ∧
    (k = none → (bumpWrap a (deliverCount k n (setRing r x s))).streams = s.streams) ∧
    cntR (bumpWrap a (deliverCount k n (setRing r x s))) a = cntR s a + 1 ∧
    { bumpWrap a (deliverCount k n (setRing r x s)) with streams := s.streams, cnt := s.cnt } = setRing r x s := by
  have honly := deliverCount_only k n (setRing r x s)
  have hcnt : (deliverCount k n (setRing r x s)).cnt = s.cnt := (congrArg State.cnt honly :)
  refine ⟨fun j h => ?_, fun h => ?_, ?_, ?_⟩
  · subst h
    rw [getStream, bumpWrap_streams, ← getStream, deliverCount_stream]
    rfl
  · subst h
    rfl
  · rw [cntR_bumpWrap, cntR, hcnt, ← cntR]
  · have h := congrArg (fun w : State => { w with streams := s.streams, cnt := s.cnt }) (bumpWrap_only a (deliverCount k n (setRing r x s)))
    exact h.trans (congrArg (fun w : State => { w with cnt := s.cnt }) honly)

theorem Delivers.of_wmark {k : Option Nat} {n : Nat} {x : Ring}
    (hstream : ∀ j, k = some j → getStream u j = { getStream s j with delivered := (getStream s j).delivered + BitVec.ofNat 48 n })
    (hnone : k = none → u.streams = s.streams) (hcnt : cntR u (rngA r + 0x38) = cntR s (rngA r + 0x38) + 1)
    (hframe : { u with streams := s.streams, cnt := s.cnt } = setRing r x s) : Delivers r k n x s (checkWmark r u) := by
  have hring : getRing u r = x := (congrArg (getRing · r) hframe :).trans (getRing_setRing _ _ _)
  have hflags : u.flags = s.flags := (congrArg State.flags hframe :)
  have hwmark : ringWmark u r = ringWmark s r := (congrArg (ringWmark · r) hframe :)
  obtain ⟨honly, hdata⟩ := checkWmark_spec r u
  generalize checkWmark r u = t at honly hdata
  rw [hring, hwmark, flagR_congr hflags (rngA r + 4)] at hdata
  refine ⟨?_, fun j h => ?_, fun h => ?_, ?_, hdata, ?_⟩
  · exact (congrArg (getRing · r) honly :).trans hring
  · exact (congrArg (getStream · j) honly :).trans (hstream j h)
  · exact (congrArg State.streams honly :).trans (hnone h)
  · exact (congrArg (cntR · (rngA r + 0x38)) honly :).trans hcnt
  · have h := congrArg (fun w : State => { w with rings := s.rings, streams := s.streams, cnt := s.cnt, flags := s.flags }) honly
    have h' := congrArg (fun w : State => { w with rings := s.rings, flags := s.flags }) hframe
    exact h.trans h'

theorem delivered_delivers (r : Nat) (k : Option Nat) (n : Nat) (x : Ring) (s : State) : Delivers r k n x s (delivered r k n x s) := by
  obtain ⟨hstream, hnone, hcnt, hframe⟩ := bumpWrap_deliverCount (rngA r + 0x38) n r k x s
  exact Delivers.of_wmark hstream hnone hcnt hframe

/-! ### The record that the stager takes (R340, R353) -/

/-- A record's words read the time-step count alone. -/
theorem recWords_congr (h : t.tb = s.tb) (x : Record) (n : Nat) : recWords t x n = recWords s x n := by
  unfold recWords recFlags
  rw [h]

theorem fromSecondary_own {x : Record} (h : x.relayed = none) : fromSecondary x = false := by rw [fromSecondary, h]

theorem recStream_own {x : Record} (h : x.relayed = none) : recStream x = if !ringLevel x then some x.num else none := by
  cases hl : ringLevel x <;> simp [recStream, h, hl]

theorem takeSeq_own {x : Record} (h : x.relayed = none) (hl : ringLevel x = false) (s : State) : takeSeq r x s =
    ((getStream s x.num).seq, setStream x.num { getStream s x.num with seq := ((getStream s x.num).seq + 1) % 4096 } s) := by
  simp [takeSeq, fromSecondary_own h, h, hl]

theorem takeSeq_ring {x : Record} (h : x.relayed = none) (hl : ringLevel x = true) (s : State) : takeSeq r x s =
    ((getRing s r).seq, setRing r { getRing s r with seq := ((getRing s r).seq + 1) % 64 } s) := by
  simp [takeSeq, fromSecondary_own h, h, hl]

/-- The hub once a record has its SEQ, with the link kept out of L1 where it goes to a MIRROR ring (R383). -/
def seqTaken (r : Nat) (x : Record) (s : State) : State :=
  if ringMode s r = 1 then { (takeSeq r x s).2 with hl := { (takeSeq r x s).2.hl with busyAt := ticks s } } else (takeSeq r x s).2

/-- What taking a record's SEQ leaves. -/
structure SeqTaken (r : Nat) (x : Record) (s t : State) : Prop where
  ring : getRing t r = { getRing s r with seq := if !ringLevel x then (getRing s r).seq else ((getRing s r).seq + 1) % 64 }
  stream : ringLevel x = false → getStream t x.num = { getStream s x.num with seq := ((getStream s x.num).seq + 1) % 4096 }
  frame : { t with rings := s.rings, streams := s.streams, hl := s.hl } = s
  link : linkCarries t = linkCarries s
  awake : ringMode s r ≠ 1 → t.hl = s.hl

theorem takeSeq_taken {x : Record} (h : x.relayed = none) : SeqTaken r x s (takeSeq r x s).2 := by
  cases hl : ringLevel x
  · rw [takeSeq_own h hl]
    exact ⟨by simp [hl]; rfl, fun _ => getStream_setStream _ _ _, rfl, rfl, fun _ => rfl⟩
  · rw [takeSeq_ring h hl]
    exact ⟨by simp [hl], fun h => absurd h (by simp [hl]), rfl, rfl, fun _ => rfl⟩

theorem seqTaken_taken {x : Record} (h : x.relayed = none) : SeqTaken r x s (seqTaken r x s) := by
  obtain ⟨hring, hstream, hframe, hlink, hawake⟩ := takeSeq_taken (r := r) (s := s) h
  unfold seqTaken
  split
  · next hm => exact ⟨hring, hstream, hframe, hlink, fun hm' => absurd hm hm'⟩
  · exact ⟨hring, hstream, hframe, hlink, hawake⟩

/-- The words of a record, where they end, and the hub with them in its body. -/
def stagedWords (r : Nat) (x : Record) (s : State) : List W48 := recWords (seqTaken r x s) x (takeSeq r x s).1
def stagedEnd (r : Nat) (x : Record) (s : State) : W32 := (getRing (seqTaken r x s) r).stg + BitVec.ofNat 32 (stagedWords r x s).length
def staged (r : Nat) (x : Record) (s : State) : State :=
  writeBody r (stagedWords r x s) (getRing (seqTaken r x s) r).stg (seqTaken r x s)

theorem atWriting_own {x : Record} (h : x.type ≠ 8) (s : State) : atWriting s r x = x := by simp [atWriting, h]

/-- A record of the hub's own: its words, then its delivery in a LOCAL ring, or its wait in another. -/
theorem stageRecord_eq {x : Record} (ht : x.type ≠ 8) (hrel : x.relayed = none) : stageRecord r x s =
    if ringMode (staged r x s) r = 0 then delivered r (recStream x) (recCount x)
      { getRing (staged r x s) r with stg := stagedEnd r x s, prod := stagedEnd r x s } (staged r x s)
    else relayPending r (dmaPending r (setRing r { getRing (staged r x s) r with
      stg := stagedEnd r x s, inflight := (getRing (staged r x s) r).inflight ++ [{
        endIdx := stagedEnd r x s, startIdx := (getRing (seqTaken r x s) r).stg, stream := recStream x, samples := recCount x
        stamp := x.time, relayed := x.relayed }] } (staged r x s))) := by
  simp only [stageRecord, atWriting_own ht, hrel, noteRelayed]
  rfl

theorem stagedWords_eq {x : Record} (hrel : x.relayed = none) : stagedWords r x s =
    recWords s x (if !ringLevel x then (getStream s x.num).seq else (getRing s r).seq) := by
  have htb : (seqTaken r x s).tb = s.tb := (congrArg State.tb (seqTaken_taken hrel).frame :)
  rw [stagedWords, recWords_congr htb]
  cases hl : ringLevel x
  · rw [takeSeq_own hrel hl]; rfl
  · rw [takeSeq_ring hrel hl]; rfl

/-- What the words of a record leave. -/
theorem staged_taken {x : Record} (hrel : x.relayed = none) :
    { staged r x s with sram := s.sram, poisoned := s.poisoned } = seqTaken r x s ∧ SeqTaken r x s { staged r x s with sram := s.sram, poisoned := s.poisoned } := by
  have htaken := seqTaken_taken (r := r) (s := s) hrel
  have honly := writeBody_only (r := r) (stagedWords r x s) (getRing (seqTaken r x s) r).stg (seqTaken r x s)
  have hsram : (seqTaken r x s).sram = s.sram := (congrArg State.sram htaken.frame :)
  have hpoison : (seqTaken r x s).poisoned = s.poisoned := (congrArg State.poisoned htaken.frame :)
  rw [hsram, hpoison] at honly
  have hsame : { staged r x s with sram := s.sram, poisoned := s.poisoned } = seqTaken r x s := honly
  exact ⟨hsame, hsame ▸ htaken⟩

theorem bodyPlace_congr (hring : (getRing t r).base = (getRing s r).base) (hcfg : t.cfg = s.cfg) (i : W32) : bodyPlace t r i = bodyPlace s r i := by
  rw [bodyPlace, bodyPlace, hring, bodySize, bodySize, cfgR, cfgR, hcfg]

/-- The words of a record in batch SRAM, and every other word. -/
theorem staged_sram {x : Record} (hrel : x.relayed = none) (hw : Mem.wf (sramD s) s.sram = true) (hlen : (stagedWords r x s).length ≤ bodySize s r) :
    (∀ n < (stagedWords r x s).length,
      sramR (staged r x s) (bodyPlace s r ((getRing s r).stg + BitVec.ofNat 32 n)) = (stagedWords r x s).getD n 0) ∧
    (∀ p, (∀ n < (stagedWords r x s).length, p ≠ bodyPlace s r ((getRing s r).stg + BitVec.ofNat 32 n)) →
      sramR (staged r x s) p = sramR s p) := by
  have htaken := seqTaken_taken (r := r) (s := s) hrel
  have hcfg : (seqTaken r x s).cfg = s.cfg := (congrArg State.cfg htaken.frame :)
  have hsram : sramR (seqTaken r x s) = sramR s := (congrArg sramR htaken.frame :)
  have hwf : Mem.wf (sramD (seqTaken r x s)) (seqTaken r x s).sram = true := by
    have h : Mem.wf (sramD (seqTaken r x s)) (seqTaken r x s).sram = Mem.wf (sramD s) s.sram :=
      (congrArg (fun v : State => Mem.wf (sramD v) v.sram) htaken.frame :)
    rw [h, hw]
  have hbase : (getRing (seqTaken r x s) r).base = (getRing s r).base := by rw [htaken.ring]
  have hstg : (getRing (seqTaken r x s) r).stg = (getRing s r).stg := by rw [htaken.ring]
  have hplace := bodyPlace_congr hbase hcfg
  have hsize : bodySize (seqTaken r x s) r = bodySize s r := by rw [bodySize, bodySize, cfgR, cfgR, hcfg]
  unfold staged
  rw [hstg]
  refine ⟨fun n hn => ?_, fun p hp => ?_⟩
  · rw [← hplace]
    exact writeBody_at _ _ _ hwf (hsize ▸ hlen) n hn
  · rw [writeBody_other _ _ _ hwf (fun n hn => by rw [hplace]; exact hp n hn), hsram]

theorem dmaPending_idle (h : linkCarries s = false) : dmaPending r s = s := if_neg (by simp [h])

theorem relayPending_other (h : ringMode s r ≠ 2) : relayPending r s = s := if_neg (by simp [h])

/-- A record in a LOCAL ring is delivered (R344). -/
theorem stageRecord_local {x : Record} (ht : x.type ≠ 8) (hrel : x.relayed = none) (hm : ringMode s r = 0) : stageRecord r x s =
    delivered r (recStream x) (recCount x)
      { getRing (staged r x s) r with stg := stagedEnd r x s, prod := stagedEnd r x s } (staged r x s) := by
  have hmode : ringMode (staged r x s) r = ringMode s r := (congrArg (ringMode · r) (staged_taken hrel).2.frame :)
  rw [stageRecord_eq ht hrel, if_pos (hmode.trans hm)]

/-- A record in a MIRROR ring waits while the link carries nothing (R344, R385). -/
theorem stageRecord_mirror {x : Record} (ht : x.type ≠ 8) (hrel : x.relayed = none) (hm : ringMode s r = 1) (hl : linkCarries s = false) :
    stageRecord r x s = setRing r { getRing (staged r x s) r with
      stg := stagedEnd r x s, inflight := (getRing (staged r x s) r).inflight ++ [{
        endIdx := stagedEnd r x s, startIdx := (getRing (seqTaken r x s) r).stg, stream := recStream x, samples := recCount x
        stamp := x.time, relayed := x.relayed }] } (staged r x s) := by
  obtain ⟨-, htaken⟩ := staged_taken (r := r) (s := s) hrel
  have hmode : ringMode (staged r x s) r = 1 := (congrArg (ringMode · r) htaken.frame :).trans hm
  have hlink : linkCarries (staged r x s) = false := htaken.link.trans hl
  rw [stageRecord_eq ht hrel, if_neg (by rw [hmode]; decide)]
  generalize staged r x s = w at hmode hlink
  rw [dmaPending_idle (s := setRing r _ w) hlink, relayPending_other (s := setRing r _ w) (by rw [show ringMode (setRing r _ w) r = 1 from hmode]; decide)]

/-- The hub with a ring's oldest record taken, and the turn passed on. -/
def turnTaken (r : Nat) (rest : List Record) (s : State) : State :=
  setRing r { getRing s r with ready := rest } { s with stagerTurn := (r + 1) % 128 }

theorem exec_stagerWrite {x : Record} {rest : List Record} (hs : stopped s = false) (hp : s.power.cur = .s0) (hr : stagerRing s = some r)
    (hf : (getRing s r).front = []) (hx : (getRing s r).ready = x :: rest) :
    exec .stagerWrite s = .next (stageRecord r x (turnTaken r rest s)) := by
  refine (live_running hs _).trans ((if_neg (not_not_intro hp)).trans ?_)
  rw [hr]
  simp only
  split
  · next h => exact absurd (hf.symm.trans h) (by simp)
  · next x' rest' _ h =>
    obtain ⟨rfl, rfl⟩ := List.cons.inj (hx.symm.trans h)
    rfl
  · next h => exact absurd (hx.symm.trans h) (by simp)

/-- The hub with a record's words in its body: the ring, its stream, and what else has moved. -/
structure Staged (r : Nat) (x : Record) (rest : List Record) (s w : State) : Prop where
  turn : w.stagerTurn = (r + 1) % 128
  ring : getRing w r = { getRing s r with
    ready := rest, seq := if !ringLevel x then (getRing s r).seq else ((getRing s r).seq + 1) % 64 }
  stream : ringLevel x = false → getStream w x.num = { getStream s x.num with seq := ((getStream s x.num).seq + 1) % 4096 }
  frame : { w with
    stagerTurn := s.stagerTurn, rings := s.rings, streams := s.streams, sram := s.sram, poisoned := s.poisoned, hl := s.hl } = s
  awake : ringMode s r ≠ 1 → w.hl = s.hl

theorem staged_staged {x : Record} (hrel : x.relayed = none) (rest : List Record) :
    Staged r x rest s (staged r x (turnTaken r rest s)) := by
  obtain ⟨-, htaken⟩ := staged_taken (r := r) (s := turnTaken r rest s) hrel
  have hring : getRing (turnTaken r rest s) r = { getRing s r with ready := rest } := getRing_setRing _ _ _
  obtain ⟨hr, hstream, hframe, -, hawake⟩ := htaken
  rw [hring] at hr
  generalize staged r x (turnTaken r rest s) = w at hr hstream hframe hawake
  exact ⟨(congrArg State.stagerTurn hframe :), hr, hstream,
    (congrArg (fun v : State => { v with stagerTurn := s.stagerTurn, rings := s.rings }) hframe :), hawake⟩

/-- What the delivery of a staged record leaves. -/
theorem Staged.delivers {x : Record} {rest : List Record} {w : State} {e : W32} (h : Staged r x rest s w) (hrel : x.relayed = none)
    (hm : ringMode s r = 0) (hd : Delivers r (recStream x) (recCount x) { getRing w r with stg := e, prod := e } w t) :
    t.stagerTurn = (r + 1) % 128 ∧ sramR t = sramR w ∧
    getRing t r = { getRing s r with
      ready := rest, stg := e, prod := e, seq := if !ringLevel x then (getRing s r).seq else ((getRing s r).seq + 1) % 64 } ∧
    ((!ringLevel x) = true → getStream t x.num = { getStream s x.num with
      seq := ((getStream s x.num).seq + 1) % 4096, delivered := (getStream s x.num).delivered + BitVec.ofNat 48 (recCount x) }) ∧
    cntR t (rngA r + 0x38) = cntR s (rngA r + 0x38) + 1 ∧
    bit (flagR t (rngA r + 4)) 3 = (bit (flagR s (rngA r + 4)) 3 || decide (ringWmark s r ≠ 0 ∧ ringWmark s r ≤ e - (getRing s r).cons)) ∧
    { t with
      stagerTurn := s.stagerTurn, rings := s.rings, streams := s.streams, sram := s.sram, poisoned := s.poisoned
      cnt := s.cnt, flags := s.flags } = s := by
  obtain ⟨hturn, hring, hstream, hframe, hawake⟩ := h
  obtain ⟨hdring, hdstream, -, hdcnt, hddata, hdframe⟩ := hd
  have hl : w.hl = s.hl := hawake (by rw [hm]; decide)
  have hcnt : cntR w (rngA r + 0x38) = cntR s (rngA r + 0x38) := (congrArg (cntR · (rngA r + 0x38)) hframe :)
  have hflag : flagR w (rngA r + 4) = flagR s (rngA r + 4) := (congrArg (flagR · (rngA r + 4)) hframe :)
  have hwmark : ringWmark w r = ringWmark s r := (congrArg (ringWmark · r) hframe :)
  have hcons : (getRing w r).cons = (getRing s r).cons := by rw [hring]
  refine ⟨(congrArg State.stagerTurn hdframe :).trans hturn, (congrArg sramR hdframe :), by rw [hdring, hring], fun hown => ?_, by rw [hdcnt, hcnt],
    ?_, ?_⟩
  · have hlevel : ringLevel x = false := by simpa using hown
    rw [hdstream x.num (by rw [recStream_own hrel, if_pos hown]), hstream hlevel]
  · rw [hddata, hflag, hwmark, hcons]
  · have h := congrArg (fun v : State => { v with
      stagerTurn := s.stagerTurn, rings := s.rings, streams := s.streams, sram := s.sram, poisoned := s.poisoned
      cnt := s.cnt, flags := s.flags }) hdframe
    have h' : { w with
        stagerTurn := s.stagerTurn, rings := s.rings, streams := s.streams, sram := s.sram, poisoned := s.poisoned
        cnt := s.cnt, flags := s.flags } = s := by
      have hsame : { w with
          stagerTurn := s.stagerTurn, rings := s.rings, streams := s.streams, sram := s.sram, poisoned := s.poisoned
          cnt := s.cnt, flags := s.flags } = { w with
          stagerTurn := s.stagerTurn, rings := s.rings, streams := s.streams, sram := s.sram, poisoned := s.poisoned
          cnt := s.cnt, flags := s.flags, hl := s.hl } := by rw [← hl]
      exact hsame.trans (congrArg (fun v : State => { v with cnt := s.cnt, flags := s.flags }) hframe)
    exact h.trans h'

/-- Settles O39: the words of a record at their places, and its delivery in a LOCAL ring. -/
theorem stagerWrites : Obligations.StagerWrites := by
  intro r x rest s hs hp hr g own st ws e place after hf hx hrel ht hlen hw hmode
  have hgr : getRing (turnTaken r rest s) r = { g with ready := rest } := getRing_setRing _ _ _
  have hstaged := staged_staged (r := r) (s := s) hrel rest
  have hwords : stagedWords r x (turnTaken r rest s) = ws := by
    rw [stagedWords_eq hrel, hgr]
    exact recWords_congr rfl x _
  have hend : stagedEnd r x (turnTaken r rest s) = e := by
    rw [stagedEnd, hwords, (seqTaken_taken hrel).ring, hgr]
  have hstg : (getRing (seqTaken r x (turnTaken r rest s)) r).stg = g.stg := by rw [(seqTaken_taken hrel).ring, hgr]
  have hplace : ∀ n, bodyPlace (turnTaken r rest s) r ((getRing (turnTaken r rest s) r).stg + BitVec.ofNat 32 n) = place n := fun n => by
    rw [bodyPlace, hgr]
    rfl
  obtain ⟨hat, hother⟩ := staged_sram (r := r) (x := x) (s := turnTaken r rest s) hrel hw (by rw [hwords]; exact hlen)
  rw [hwords] at hat hother
  simp only [hplace] at hat hother
  have hexec := exec_stagerWrite hs hp hr hf hx
  obtain hm | ⟨hm, hlink⟩ := hmode
  · rw [stageRecord_local (s := turnTaken r rest s) ht hrel hm, hend] at hexec
    obtain ⟨hturn, hsram, hring, hstream, hcnt, hdata, hframe⟩ := hstaged.delivers hrel hm (delivered_delivers _ _ _ { getRing _ r with stg := e, prod := e } _)
    refine ⟨_, hexec, hturn, fun i hi => ?_, fun w hw' => ?_, fun _ => ⟨hring, hstream, hcnt, hdata, hframe⟩, fun hm' => ?_⟩
    · rw [hsram, hat i hi]
    · rw [hsram, hother w hw']
      rfl
    · exact absurd (hm.symm.trans hm') (by decide)
  · rw [stageRecord_mirror (s := turnTaken r rest s) ht hrel hm hlink, hend, hstg, hstaged.ring, recStream_own hrel, hrel] at hexec
    refine ⟨_, hexec, hstaged.turn, hat, hother, fun hm' => absurd (hm.symm.trans hm') (by decide), fun _ => getRing_setRing _ _ _⟩

end Sys2Proof.Machine
end

section
/-! SUPPORT. Full rings and delivery (R341–R350): refusal, PERSIST and LEAVE_FULL, consumption, index words, slots and doorbells. -/

namespace Sys2Proof.Machine
open Sys2Proof Sys2Proof.Claims

variable {s t u : State} {r : Nat}

/-! ### Offers to a ring (R341, R342) -/

/-- The sample counts as offered. -/
def countOffered (k : Nat) (s : State) : State := setStream k { getStream s k with offered := (getStream s k).offered + 1 } s

theorem getRing_countOffered (k r : Nat) (s : State) : getRing (countOffered k s) r = getRing s r := rfl

theorem getStream_countOffered (k : Nat) (s : State) :
    getStream (countOffered k s) k = { getStream s k with offered := (getStream s k).offered + 1 } := getStream_setStream _ _ _

theorem offerRing_full {k : Nat} {x : Sample} (hr : stRing s k = r) (hf : (getRing s r).full = true) :
    offerRing k x s = refuseAtRing k r x (countOffered k s) := by
  subst hr
  exact if_pos hf

/-- Without an open batch a sample asks for its own words and a header. -/
theorem offerRing_room {k : Nat} {x : Sample} (hr : stRing s k = r) (hf : (getRing s r).full = false) (hb : (getStream s k).batch = none) :
    offerRing k x s = if fits (countOffered k s) r ((if stStamped s k then 2 else 1) + 4) then joinBatch k x (countOffered k s)
      else entryGap r (refuseAtRing k r x (enterFull r ((if stStamped s k then 2 else 1) + 4) (countOffered k s))) := by
  subst hr
  have hbatch : (getStream (countOffered k s) k).batch = none := by rw [getStream_countOffered]; exact hb
  refine (if_neg (by rw [← countOffered, getRing_countOffered, hf]; decide)).trans ?_
  rw [← countOffered]
  simp only [hbatch]
  rfl

theorem offers (s : State) (r k : Nat) (x : Sample) (hr : stRing s k = r) :
    ∃ u, getStream u k = { getStream s k with offered := (getStream s k).offered + 1 } ∧ { u with streams := s.streams } = s ∧
      (let need := (if stStamped s k then 2 else 1) + 4
       ((getRing s r).full = true → offerRing k x s = refuseAtRing k r x u) ∧
       ((getRing s r).full = false → (getStream s k).batch = none → fits u r need = false →
         offerRing k x s = entryGap r (refuseAtRing k r x (enterFull r need u))) ∧
       ((getRing s r).full = false → (getStream s k).batch = none → fits u r need = true → offerRing k x s = joinBatch k x u)) :=
  ⟨countOffered k s, getStream_countOffered k s, rfl, offerRing_full hr,
    fun hf hb hfit => (offerRing_room hr hf hb).trans (if_neg (by rw [hfit]; decide)), fun hf hb hfit => (offerRing_room hr hf hb).trans (if_pos hfit)⟩

/-- A refusal counts in the stream and in the ring. -/
theorem refuseAtRing_counts (k r : Nat) (x : Sample) (s : State) :
    ∃ u, getStream u k = { getStream s k with refused := (getStream s k).refused + 1 } ∧
      (getRing u r).refusedNow = (getRing s r).refusedNow + 1 ∧ (getRing u r).full = (getRing s r).full ∧
      { u with streams := s.streams, rings := s.rings } = s ∧ refuseAtRing k r x s = bump (rngA r + 0x34) u := by
  have hring : getRing (setStream k { getStream s k with refused := (getStream s k).refused + 1 } (setRing r { getRing s r with
      refusedNow := (getRing s r).refusedNow + 1, refusing := noteRefusal (getRing s r).refusing k x } s)) r = { getRing s r with
      refusedNow := (getRing s r).refusedNow + 1, refusing := noteRefusal (getRing s r).refusing k x } := getRing_setRing _ _ _
  exact ⟨_, getStream_setStream _ _ _, (congrArg Ring.refusedNow hring :), (congrArg Ring.full hring :), rfl, rfl⟩

theorem enterFull_marks (r n : Nat) (s : State) :
    ∃ u, (getRing u r).full = true ∧ (getRing u r).fullSince = ticks s ∧ (getRing u r).stgAtEntry = (getRing s r).stg ∧
      (getRing u r).refusedNow = 0 ∧ (getRing u r).persisted = false ∧ (getRing u r).ready = (getRing s r).ready ∧ { u with rings := s.rings } = s ∧
      enterFull r n s = bump (rngA r + 0x30) (raise (rngA r + 4) 4 u) := by
  have hring := getRing_setRing (s := s) r { getRing s r with
    full := true, fullSince := (stampNow s).stamp, fullQual := (stampNow s).qual, fullEra := (stampNow s).era
    stgAtEntry := (getRing s r).stg, fullCause := fullCauseOf s r n, refusedNow := 0, refusing := [], persisted := false }
  exact ⟨_, (congrArg Ring.full hring :), (congrArg Ring.fullSince hring :), (congrArg Ring.stgAtEntry hring :), (congrArg Ring.refusedNow hring :),
    (congrArg Ring.persisted hring :), (congrArg Ring.ready hring :), rfl, rfl⟩

/-! ### PERSIST and LEAVE_FULL (R342, R343) -/

theorem exec_persist {h : Nat} (hs : stopped s = false) (hh : halfMinBound s r = some h) : exec (.persist r) s =
    if (getRing s r).full = true ∧ (getRing s r).persisted = false ∧ (getRing s r).fullSince + BitVec.ofNat 64 h ≤ ticks s then
      .next (makeReady r (ringGap (getRing s r) r 1) (setRing r { getRing s r with persisted := true } s))
    else .next s := by
  refine (live_running hs _).trans ?_
  rw [hh]
  exact if_congr (by simp [reached, and_assoc]) rfl rfl

theorem exec_persist_idle (hs : stopped s = false) (h : (getRing s r).full = false ∨ (getRing s r).persisted = true) :
    exec (.persist r) s = .next s := by
  cases hh : halfMinBound s r with
  | none =>
    refine (live_running hs _).trans ?_
    rw [hh]
  | some b => rw [exec_persist hs hh, if_neg (by obtain h | h := h <;> simp [h])]

theorem exec_leaveFull (hs : stopped s = false) : exec (.leaveFull r) s =
    if (getRing s r).full && fits s r (leaveNeed (getRing s r)) then .next (setRing r { getRing s r with
      full := false, deferred := [], refusing := []
      front := (getRing s r).front ++ (getRing s r).deferred ++ (getRing s r).refusing.map (fun p => gapRec p.1 p.2) } s)
    else .next s := live_running hs _

/-! ### Consumption (R345) -/

theorem exec_consumerWrite {path : Path} {c : W32} (hs : stopped s = false) (hr : r < 128) :
    exec (.consumerWrite path r c) s = .next (writeCons r c s) := (live_running hs _).trans (if_pos hr)

theorem writeCons_own {c : W32} (hm : ringMode s r ≠ 2) : writeCons r c s =
    if c - (getRing s r).cons ≤ (getRing s r).prod - (getRing s r).cons then setRing r { getRing s r with cons := c } s
    else raise (rngA r + 4) 5 (raise sysFlagsA 0 (bump sysWerrA s)) := if_neg hm

theorem fullRings : FullRings := by
  intro r s hs g
  refine ⟨offers s r, fun k x => refuseAtRing_counts k r x s, fun n => enterFull_marks r n s, fun h hh hf hp => ⟨fun hd => ?_, fun hd => ?_⟩,
    exec_persist_idle hs, ⟨fun hf hfit => ?_, fun h => ?_⟩, fun path c hr => ⟨fun hm hle => ?_, fun hm hlt => ?_, fun hm => ?_⟩⟩
  · rw [exec_persist hs hh, if_pos ⟨hf, hp, hd⟩]
  · rw [exec_persist hs hh, if_neg (fun h => BitVec.not_le.mpr hd h.2.2)]
  · exact (exec_leaveFull hs).trans (if_pos (by rw [hf, Bool.true_and]; exact hfit))
  · refine (exec_leaveFull hs).trans (if_neg ?_)
    obtain h | h := h
    · simp [show (getRing s r).full = false from h]
    · simp [show fits s r (leaveNeed (getRing s r)) = false from h]
  · rw [exec_consumerWrite hs hr, writeCons_own hm, if_pos hle]
  · rw [exec_consumerWrite hs hr, writeCons_own hm, if_neg (BitVec.not_le.mpr hlt)]
  · rw [exec_consumerWrite hs hr, writeCons, if_pos hm]
    rfl

/-! ### An acknowledged index word (R344) -/

theorem confirmOldest_own {f : InFlight} {rest : List InFlight} (h : (getRing s r).inflight = f :: rest) (hs : f.sent = true) (hrel : f.relayed = none) :
    confirmOldest r s = delivered r f.stream f.samples { getRing s r with prod := f.endIdx, inflight := rest } s := by
  simp only [confirmOldest, h, hs, if_true, hrel, noteRelayed]
  rfl

theorem confirmOldest_none (h : (getRing s r).inflight = []) : confirmOldest r s = s := by
  simp only [confirmOldest, h]

theorem exec_dmaAcknowledge (hs : stopped s = false) : exec (.dmaAcknowledge r) s =
    if ringMode s r = 1 then .next (confirmOldest r s) else .next s := live_running hs _

theorem exec_dmaAcknowledge_none (hs : stopped s = false) (h : ringMode s r ≠ 1 ∨ (getRing s r).inflight = []) :
    exec (.dmaAcknowledge r) s = .next s := by
  rw [exec_dmaAcknowledge hs]
  obtain h | h := h
  · exact if_neg h
  · rw [confirmOldest_none h, ite_self]

/-! ### Slots of a host ring (R347) -/

/-- An appended word is the sum of its parts. -/
theorem toNat_append_eq {m n : Nat} (x : BitVec m) (y : BitVec n) : (x ++ y).toNat = x.toNat * 2 ^ n + y.toNat := by
  rw [BitVec.toNat_append, ← Nat.shiftLeft_add_eq_or_of_lt y.isLt, Nat.shiftLeft_eq]

theorem hostSlot_low (i : W32) (w : W48) : ((i.setWidth 8 : BitVec 8) ++ w) = BitVec.ofNat 56 (i.toNat % 256 * 2 ^ 48 + w.toNat) := by
  apply BitVec.eq_of_toNat_eq
  have hw := w.isLt
  rw [toNat_append_eq, BitVec.toNat_setWidth, BitVec.toNat_ofNat]
  omega

theorem hostSlot_toNat (i : W32) (w : W48) : (hostSlot i w).toNat =
    (crc8 (msbBits (BitVec.ofNat 56 (i.toNat % 256 * 2 ^ 48 + w.toNat)))).toNat * 2 ^ 56 + (i.toNat % 256 * 2 ^ 48 + w.toNat) := by
  have hw := w.isLt
  simp only [hostSlot]
  rw [hostSlot_low, toNat_append_eq, BitVec.toNat_ofNat, Nat.mod_eq_of_lt (a := i.toNat % 256 * 2 ^ 48 + w.toNat) (by omega)]

theorem hostSlot_fields (i : W32) (w : W48) : bits (hostSlot i w) 47 0 = w.toNat ∧ bits (hostSlot i w) 55 48 = i.toNat % 256 ∧
    bits (hostSlot i w) 63 56 = (crc8 (msbBits (BitVec.ofNat 56 (i.toNat % 256 * 2 ^ 48 + w.toNat)))).toNat := by
  have hw := w.isLt
  have hc := (crc8 (msbBits (BitVec.ofNat 56 (i.toNat % 256 * 2 ^ 48 + w.toNat)))).isLt
  simp only [bits, hostSlot_toNat, Nat.shiftRight_eq_div_pow]
  generalize (crc8 (msbBits (BitVec.ofNat 56 (i.toNat % 256 * 2 ^ 48 + w.toNat)))).toNat = c at hc
  omega

/-! ### Doorbells (R350) -/

theorem Mem.mem_of_read {α : Type} (d : Nat → α) (m : Mem α) (a : Nat) (h : Mem.read d m a ≠ d a) : (a, Mem.read d m a) ∈ m := by
  induction m with
  | nil => exact absurd rfl h
  | cons e m ih =>
    obtain ⟨k, v⟩ := e
    rw [Mem.read] at h ⊢
    split at h
    · exact absurd rfl h
    · split at h
      · next hlt heq => rw [if_neg hlt, if_pos heq, heq]; exact List.mem_cons_self
      · next hlt hne => rw [if_neg hlt, if_neg hne]; exact List.mem_cons_of_mem _ (ih h)

theorem mem_openStreams {k : Nat} (hr : stRing s k = r) (hb : (getStream s k).batch ≠ none) : k ∈ openStreams s r := by
  have hne : getStream s k ≠ {} := fun h => hb (by rw [h])
  refine List.mem_map.mpr ⟨(k, getStream s k), List.mem_filter.mpr ⟨Mem.mem_of_read _ _ _ hne, ?_⟩, rfl⟩
  simp [Option.isSome_iff_ne_none, hb, hr]

theorem stRing_of_mem_openStreams {k : Nat} (h : k ∈ openStreams s r) : stRing s k = r := by
  obtain ⟨⟨k', st⟩, hmem, rfl⟩ := List.mem_map.mp h
  have hcond := (List.mem_filter.mp hmem).2
  simp only [Bool.and_eq_true, decide_eq_true_eq] at hcond
  exact hcond.2

/-- What closing batches leaves: those of the list are closed, and no other stream has moved. -/
structure Closed (l : List Nat) (s t : State) : Prop where
  frame : { t with streams := s.streams, rings := s.rings } = s
  wf : Mem.wf (fun _ => {}) t.streams = true
  closed : ∀ k ∈ l, (getStream t k).batch = none
  other : ∀ k, k ∉ l → getStream t k = getStream s k

theorem closeBatch_closed {k close : Nat} (hw : Mem.wf (fun _ => {}) s.streams = true) : Closed [k] s (closeBatch k close s) := by
  cases hb : (getStream s k).batch with
  | none =>
    have hsame : closeBatch k close s = s := by simp only [closeBatch, hb]
    rw [hsame]
    exact ⟨rfl, hw, fun j hj => by rw [List.mem_singleton.mp hj, hb], fun _ _ => rfl⟩
  | some b =>
    have hclose : closeBatch k close s =
        makeReady (stRing s k) (batchRec s k close b) (setStream k { getStream s k with batch := none } s) := by simp only [closeBatch, hb]
    rw [hclose]
    refine ⟨rfl, Mem.wf_write _ _ _ _ hw, fun j hj => ?_, fun j hj => ?_⟩
    · rw [List.mem_singleton.mp hj]
      exact congrArg Stream.batch (getStream_setStream _ k _)
    · exact getStream_setStream_other _ _ _ _ (fun h => hj (List.mem_singleton.mpr h)) hw

theorem closeBatches_closed (close : Nat) (l : List Nat) : ∀ s : State, Mem.wf (fun _ => {}) s.streams = true →
    Closed l s (forEach l (fun k => closeBatch k close) s) := by
  induction l with
  | nil => exact fun s hw => ⟨rfl, hw, fun _ h => absurd h List.not_mem_nil, fun _ _ => rfl⟩
  | cons k l ih =>
    intro s hw
    obtain ⟨hframe, hwf, hclosed, hother⟩ := closeBatch_closed (k := k) (close := close) hw
    rw [forEach_cons]
    obtain ⟨hframe', hwf', hclosed', hother'⟩ := ih (closeBatch k close s) hwf
    generalize forEach l (fun k => closeBatch k close) (closeBatch k close s) = t at hframe' hwf' hclosed' hother'
    refine ⟨?_, hwf', fun j hj => ?_, fun j hj => ?_⟩
    · exact (congrArg (fun v : State => { v with streams := s.streams, rings := s.rings }) hframe' :).trans hframe
    · by_cases hjl : j ∈ l
      · exact hclosed' j hjl
      · obtain rfl : j = k := (List.mem_cons.mp hj).resolve_right hjl
        rw [hother' j hjl]
        exact hclosed j (List.mem_singleton.mpr rfl)
    · rw [List.mem_cons, not_or] at hj
      rw [hother' j hj.2, hother j (fun h => hj.1 (List.mem_singleton.mp h))]

/-- A flush closes every open batch of the ring and no other. -/
theorem flush_closes (hw : Mem.wf (fun _ => {}) s.streams = true) (close : Nat) :
    (∀ k, (getStream (closeRingBatches r close s) k).batch ≠ none → stRing s k ≠ r) ∧
    (∀ k, stRing s k ≠ r → getStream (closeRingBatches r close s) k = getStream s k) ∧
    { closeRingBatches r close s with streams := s.streams, rings := s.rings } = s := by
  obtain ⟨hframe, -, hclosed, hother⟩ := closeBatches_closed close (openStreams s r) s hw
  refine ⟨fun k hb hr => ?_, fun k hr => hother k (fun h => hr (stRing_of_mem_openStreams h)), hframe⟩
  by_cases hk : k ∈ openStreams s r
  · exact hb (hclosed k hk)
  · exact hk (mem_openStreams hr (by rw [← hother k hk]; exact hb))

section
variable {path : Path} {w : W32}

theorem exec_doorbell (hs : stopped s = false) : exec (.doorbell path w) s = .next (ringDoorbell w (pathWake path s)) := live_running hs _

theorem exec_doorbellFlush (hs : stopped s = false) : exec (.doorbellFlush path w) s =
    .next (if doorbellOn w (pathWake path s) then doorbellFlush w (pathWake path s) else werr (pathWake path s)) := live_running hs _

theorem exec_doorbellStatus (hs : stopped s = false) : exec (.doorbellStatus path w) s =
    .next (if doorbellOn w (pathWake path s) then doorbellStatus w (pathWake path s) else werr (pathWake path s)) := live_running hs _

/-- A doorbell on a ring that is not ON is counted. -/
theorem doorbells_off (hs : stopped s = false) (hoff : (getRing (pathWake path s) (bits w 6 0)).state ≠ .on) :
    ∀ c ∈ [Instr.doorbell path w, .doorbellFlush path w, .doorbellStatus path w], exec c s = .next (werr (pathWake path s)) := by
  have hno : ¬ doorbellOn w (pathWake path s) = true := by simpa [doorbellOn] using hoff
  intro c hc
  simp only [List.mem_cons, List.not_mem_nil, or_false] at hc
  obtain rfl | rfl | rfl := hc
  · rw [exec_doorbell hs, ringDoorbell, if_pos hoff]
  · rw [exec_doorbellFlush hs, if_neg hno]
  · rw [exec_doorbellStatus hs, if_neg hno]
end

theorem delivery : Delivery := by
  intro r s hs g
  refine ⟨fun f rest hm hi hsent hrel => ?acknowledged, exec_dmaAcknowledge_none hs, hostSlot_fields, fun path v hv => ?doorbell⟩
  case acknowledged =>
    obtain ⟨hring, hstream, hnone, hcnt, hdata, hframe⟩ := delivered_delivers r f.stream f.samples { g with prod := f.endIdx, inflight := rest } s
    refine ⟨_, ?_, hring, hcnt, hstream, hnone, hdata, hframe⟩
    rw [exec_dmaAcknowledge hs, if_pos hm, confirmOldest_own hi hsent hrel]
  case doorbell =>
    intro u
    subst hv
    refine ⟨doorbells_off hs, fun hon hb => ?_, fun hon hb hw => ?_⟩
    · rw [exec_doorbellStatus hs, if_pos (by simpa [doorbellOn] using hon), doorbellStatus, if_pos hb]
    · obtain ⟨hopen, hother, hframe⟩ := flush_closes (r := bits v 6 0) hw 6
      have hflush : doorbellFlush v u = closeRingBatches (bits v 6 0) 6 u := if_pos hb
      have hring : ringDoorbell v u = doorbellStatus v (closeRingBatches (bits v 6 0) 6 u) := by
        rw [ringDoorbell, if_neg (not_not_intro hon), hflush]
      refine ⟨_, ?_, hopen, hother, hframe, fun h30 => ?_, fun h30 => ?_⟩
      · rw [exec_doorbellFlush hs, if_pos (by simpa [doorbellOn] using hon), hflush]
      · rw [exec_doorbell hs, hring]
      · rw [exec_doorbell hs, hring, doorbellStatus, if_neg (by simp [h30])]

/-- Settles O40, from what a refusal, a FULL period and a delivery leave, and from the batches that a flush closes. -/
theorem fullRingsAndDelivery : Obligations.FullRingsAndDelivery := ⟨fullRings, delivery⟩

end Sys2Proof.Machine
end

section
/-! SUPPORT. The host link (R376, R377, R383–R385): what follows a change of the link on a hub without MIRROR rings. -/

namespace Sys2Proof.Machine
open Sys2Proof Sys2Proof.Claims

variable {s t old : State}

/-! ### A hub without MIRROR rings -/

/-- An operation that changes nothing, once for each number of a list. -/
theorem forEach_same {l : List Nat} {f : Nat → State → State} {s : State} (h : ∀ i ∈ l, f i s = s) : forEach l f s = s :=
  forEach_keeps (P := fun t => t = s) (fun i hi t ht => by rw [ht, h i hi]) rfl

theorem loseWrites_idle (h : ∀ r, ringMode s r ≠ 1) : loseWrites s = s := forEach_same fun r _ => if_neg (h r)

theorem dmaPending_other {r : Nat} (h : ringMode s r ≠ 1) : dmaPending r s = s := if_neg (by simp [h])

theorem dmaAll_idle (h : ∀ r, ringMode s r ≠ 1) : dmaAll s = s := forEach_same fun r _ => dmaPending_other (h r)

/-- Without MIRROR rings no stream takes a LINK record. -/
theorem linkRecords_idle (h : ∀ r, ringMode s r ≠ 1) : linkRecords s = s := by
  have hstreams : (enabledStreams s).filter (fun k => admitted s k && (ringMode s (stRing s k) = 1 && (getRing s (stRing s k)).state = .on)) = [] :=
    List.filter_eq_nil_iff.mpr fun k _ => by simp [h (stRing s k)]
  have hrelayed : s.adm.relayed.filter (fun x => ringMode s x.1 = 1 && (getRing s x.1).state = .on) = [] :=
    List.filter_eq_nil_iff.mpr fun x _ => by simp [h x.1]
  simp only [linkRecords, hstreams, hrelayed, forEach_nil, List.foldl_nil]

/-- Nothing but the booking follows a change of the link: no MIRROR ring, no held MSI, and INTA as the summary asks or no link to tell it on. -/
structure Quiet (s : State) : Prop where
  unmirrored : ∀ r, ringMode s r ≠ 1
  msi : s.hl.msiHeld = false
  inta : (!s.hl.msiEn && !s.hl.intDis && decide (s.hl.summary ≠ 0)) = s.hl.inta ∨ s.hl.linkGen = 0

theorem intxFollow_quiet (h : Quiet s) : intxFollow s = s := if_pos (by simpa [intLow] using h.inta)

/-- The first cycle of a failure, without LINK records. -/
def bookingFails (s : State) : State :=
  if linkUp s && s.hl.bme && !s.hl.d3 then bump (hlA + 0x44) (raise hlFlagsA 1 { s with hl := { s.hl with failing := true } })
  else bump (hlA + 0x40) (raise hlFlagsA 0 { s with hl := { s.hl with failing := true } })

/-- The booking after a change of the link. -/
def bookingFollows (old s : State) : State :=
  if s.adm.linkGen = 0 then s
  else if s.hl.failing then (if linkGood s then { s with hl := { s.hl with failing := false } } else s)
  else if linkHappens old s then bookingFails s else s

theorem linkFails_quiet (h : ∀ r, ringMode s r ≠ 1) : linkFails s = bookingFails s := by
  have hrec : linkRecords { s with hl := { s.hl with failing := true } } = { s with hl := { s.hl with failing := true } } := linkRecords_idle h
  simp only [linkFails, hrec]
  rfl

theorem bookingFails_quiet (h : Quiet s) : Quiet (bookingFails s) := by
  obtain ⟨hlocal, hmsi, hinta⟩ := h
  unfold bookingFails
  split <;> exact ⟨hlocal, hmsi, hinta⟩

theorem bookingFollows_quiet (h : Quiet s) : Quiet (bookingFollows old s) := by
  have hset : Quiet { s with hl := { s.hl with failing := false } } := ⟨h.unmirrored, h.msi, h.inta⟩
  unfold bookingFollows
  split
  · exact h
  · split
    · split
      · exact hset
      · exact h
    · split
      · exact bookingFails_quiet h
      · exact h

/-- What follows a change of the link on such a hub. -/
theorem linkFollow_quiet (h : Quiet s) : linkFollow old s = bookingFollows old s := by
  have hrec : linkRecords { s with hl := { s.hl with failing := false } } = { s with hl := { s.hl with failing := false } } :=
    linkRecords_idle (s := { s with hl := { s.hl with failing := false } }) h.unmirrored
  have hbook : (if s.adm.linkGen = 0 then s
      else if s.hl.failing then (if linkGood s then linkRecords { s with hl := { s.hl with failing := false } } else s)
      else if linkHappens old s then linkFails s else s) = bookingFollows old s := by
    rw [hrec, linkFails_quiet h.unmirrored]
    rfl
  have hquiet := bookingFollows_quiet (old := old) h
  have hheld : ((bookingFollows old s).hl.msiHeld && (bookingFollows old s).hl.bme && linkUp (bookingFollows old s)) = false := by
    rw [hquiet.msi, Bool.false_and, Bool.false_and]
  simp only [linkFollow, loseWrites_idle h.unmirrored, ite_self, hbook, hheld, Bool.false_eq_true, if_false]
  rw [intxFollow_quiet hquiet, dmaAll_idle hquiet.unmirrored]

/-! ### A change of the link (R376, R385) -/

theorem setLink_eq (gen w lpm : Nat) (s : State) : setLink gen w lpm s = { s with hl := trained gen w lpm s.hl } := by
  unfold setLink trained
  split <;> rfl

theorem trained_quiet {gen w lpm : Nat} (hlocal : ∀ r, ringMode s r ≠ 1) (hmsi : s.hl.msiHeld = false)
    (hinta : (!s.hl.msiEn && !s.hl.intDis && decide (s.hl.summary ≠ 0)) = s.hl.inta) : Quiet { s with hl := trained gen w lpm s.hl } := by
  unfold trained
  split
  · exact ⟨hlocal, hmsi, Or.inr rfl⟩
  · exact ⟨hlocal, hmsi, Or.inl hinta⟩

/-- What the training keeps of the port. -/
theorem trained_kept (gen w lpm : Nat) (h : Hl) : (trained gen w lpm h).failing = h.failing ∧ (trained gen w lpm h).bme = h.bme ∧
    (trained gen w lpm h).d3 = h.d3 ∧ (trained gen w lpm h).perst = h.perst := by
  unfold trained
  split <;> exact ⟨rfl, rfl, rfl, rfl⟩

theorem linkAsBooked_iff (hp : s.hl.perst = false) : linkAsBooked s = true ↔ booked s s.hl := by
  simp [linkAsBooked, linkUp, booked, hp, and_assoc]

theorem linkUp_trained {gen w lpm : Nat} (hp : s.hl.perst = false) :
    linkUp { s with hl := trained gen w lpm s.hl } = true ↔ ¬ (gen = 0 ∨ 4 ≤ lpm) := by
  unfold trained
  split
  · next h => simp [linkUp, h]
  · next h => simp [linkUp, hp, h]; omega

theorem linkPossible_iff {gen w lpm : Nat} (hrole : s.straps.role ≠ 2) (hp : s.hl.perst = false) : linkPossible gen w lpm s = true ↔
    (gen ≤ 3 ∧ w ≤ 4 ∧ lpm ≤ 4 ∧ (gen = 0 ∨ w ≠ 0) ∧ (lpm < 2 ∨ lpm = 4 ∨ clkReq s = false)) := by
  simp [linkPossible, isSecondary, hrole, hp, and_assoc, or_assoc]

section
variable {gen w lpm : Nat}

theorem exec_linkFailure (hs : stopped s = false) : exec (.linkFailure gen w lpm) s =
    .next (if linkPossible gen w lpm s && (linkBecomes gen w lpm s).hl.failing then linkBecomes gen w lpm s else s) := live_running hs _

theorem exec_linkRecovery (hs : stopped s = false) : exec (.linkRecovery gen w lpm) s =
    .next (if linkPossible gen w lpm s && s.hl.failing && !(linkBecomes gen w lpm s).hl.failing then linkBecomes gen w lpm s else s) :=
  live_running hs _

theorem exec_pcieLinkChange (hs : stopped s = false) : exec (.pcieLinkChange gen w lpm) s =
    .next (if linkPossible gen w lpm s then linkBecomes gen w lpm s else s) := live_running hs _

/-- A change that makes the link fail. -/
theorem link_fails (hs : stopped s = false) (hcan : linkPossible gen w lpm s = true) (h0 : s.hl.failing = false)
    (hl : linkBecomes gen w lpm s = t) (ht : t.hl.failing = true) :
    exec (.linkFailure gen w lpm) s = .next t ∧ exec (.pcieLinkChange gen w lpm) s = .next t ∧ exec (.linkRecovery gen w lpm) s = .next s := by
  rw [exec_linkFailure hs, exec_pcieLinkChange hs, exec_linkRecovery hs, hl, hcan, ht, h0]
  exact ⟨rfl, rfl, rfl⟩

/-- A change after which the link does not fail. -/
theorem link_holds (hs : stopped s = false) (hcan : linkPossible gen w lpm s = true) (hl : linkBecomes gen w lpm s = t) (ht : t.hl.failing = false) :
    exec (.linkFailure gen w lpm) s = .next s ∧ exec (.pcieLinkChange gen w lpm) s = .next t ∧
    (s.hl.failing = true → exec (.linkRecovery gen w lpm) s = .next t) := by
  rw [exec_linkFailure hs, exec_pcieLinkChange hs, exec_linkRecovery hs, hl, hcan, ht]
  exact ⟨rfl, rfl, fun h => by rw [h]; rfl⟩
end

/-! ### ASPM L1 (R383) -/

theorem exec_aspmL1Entry (hs : stopped s = false) : exec .aspmL1Entry s =
    if s.hl.aspm && linkUp s && decide (s.hl.lpm = 0) && reached s (s.hl.busyAt + 25600) then .next { s with hl := { s.hl with lpm := 1 } }
    else .next s := live_running hs _

theorem linkBooking : LinkBooking := by
  intro gen w lpm s hs hrole hperst hlocal hmsi hinta can h
  have hcan : linkPossible gen w lpm s = true ↔ can := linkPossible_iff hrole hperst
  have hquiet : Quiet { s with hl := h } := trained_quiet hlocal hmsi hinta
  have hbecomes : linkBecomes gen w lpm s = bookingFollows s { s with hl := h } := by
    rw [linkBecomes, setLink_eq, linkFollow_quiet hquiet]
  obtain ⟨hfailing, hbme, hd3, hhp⟩ := trained_kept gen w lpm s.hl
  have hbooked : linkAsBooked { s with hl := h } = true ↔ booked s h := linkAsBooked_iff (s := { s with hl := h }) (hhp.trans hperst)
  refine ⟨fun hc ha hf hb hnb hbm hd => ?fails, fun hc ha hf hb hbm hd => ?recovers, fun hc ha hf => ?unbooked, fun hc => ?impossible,
    fun haspm hgen hlpm hbusy => ?enters, fun hno => ?stays⟩
  case fails =>
    intro u t
    have hhappens : linkHappens s { s with hl := h } = true := by
      have hold : linkAsBooked s = true := (linkAsBooked_iff hperst).mpr hb
      have hnew : linkAsBooked { s with hl := h } = false := Bool.eq_false_iff.mpr fun hn => hnb (hbooked.mp hn)
      simp [linkHappens, hold, hnew]
    have hlink : linkBecomes gen w lpm s = t := by
      rw [hbecomes, bookingFollows, if_neg ha, if_neg (by rw [show h.failing = false from hfailing.trans hf]; decide), if_pos hhappens]
      by_cases hdown : gen = 0 ∨ 4 ≤ lpm
      · have hup : linkUp { s with hl := h } = false := Bool.eq_false_iff.mpr fun hu => (linkUp_trained hperst).mp hu hdown
        rw [bookingFails, if_neg (by rw [hup]; simp)]
        exact (if_pos hdown).symm
      · have hup : linkUp { s with hl := h } = true := (linkUp_trained hperst).mpr hdown
        rw [bookingFails, if_pos (by rw [hup, show h.bme = true from hbme.trans hbm, show h.d3 = false from hd3.trans hd]; rfl)]
        exact (if_neg hdown).symm
    have hfail : t.hl.failing = true := by
      simp only [t]
      split <;> rfl
    exact link_fails hs (hcan.mpr hc) hf hlink hfail
  case recovers =>
    intro t
    have hgood : linkGood { s with hl := h } = true := by
      rw [linkGood, hbooked.mpr hb, show h.bme = true from hbme.trans hbm, show h.d3 = false from hd3.trans hd]
      rfl
    have hlink : linkBecomes gen w lpm s = t := by
      rw [hbecomes, bookingFollows, if_neg ha, if_pos (hfailing.trans hf), if_pos hgood]
    obtain ⟨hfailure, hchange, hrecovery⟩ := link_holds hs (hcan.mpr hc) hlink rfl
    exact ⟨hrecovery hf, hchange, hfailure⟩
  case unbooked =>
    have hlink : linkBecomes gen w lpm s = { s with hl := h } := by rw [hbecomes, bookingFollows, if_pos ha]
    obtain ⟨hfailure, hchange, -⟩ := link_holds hs (hcan.mpr hc) hlink (hfailing.trans hf)
    exact ⟨hchange, hfailure⟩
  case impossible =>
    have hno : linkPossible gen w lpm s = false := Bool.eq_false_iff.mpr fun hy => hc (hcan.mp hy)
    rw [exec_linkFailure hs, exec_linkRecovery hs, exec_pcieLinkChange hs, hno]
    exact ⟨rfl, rfl, rfl⟩
  case enters =>
    have hreach : reached s (s.hl.busyAt + 25600) = true := decide_eq_true hbusy
    rw [exec_aspmL1Entry hs, if_pos (by rw [hreach]; simp [haspm, linkUp, hgen, hlpm, hperst])]
  case stays =>
    rw [exec_aspmL1Entry hs, if_neg]
    simp only [linkUp, reached, Bool.and_eq_true, decide_eq_true_eq, Bool.not_eq_true']
    rintro ⟨⟨⟨haspm, ⟨hgen, -⟩, -⟩, hlpm⟩, hbusy⟩
    obtain h | h | h | h := hno
    · exact absurd (haspm.symm.trans h) (by decide)
    · exact hgen h
    · exact h hlpm
    · exact BitVec.not_le.mpr h hbusy

/-! ### PERST_N and a Hot Reset (R377) -/

/-- A port that has been reset has no link. -/
theorem reset_quiet {h : Hl} (hlocal : ∀ r, ringMode s r ≠ 1) (hm : h.msiHeld = false) (hg : h.linkGen = 0) : Quiet { s with hl := h } :=
  ⟨hlocal, hm, Or.inr hg⟩

/-- Without a link the booking that held ends; one that failed, or none, stays. -/
theorem bookingFollows_down {h : Hl} (hg : h.linkGen = 0) (hf : h.failing = s.hl.failing) :
    (s.adm.linkGen = 0 ∨ s.hl.failing = true → bookingFollows s { s with hl := h } = { s with hl := h }) ∧
    (s.adm.linkGen ≠ 0 → s.hl.failing = false → s.hl.perst = false → booked s s.hl → bookingFollows s { s with hl := h } =
      bump (hlA + 0x40) (raise (hlA + 0x08) 0 { s with hl := { h with failing := true } })) := by
  have hup : linkUp { s with hl := h } = false := by simp [linkUp, hg]
  have hbooked : linkAsBooked { s with hl := h } = false := by rw [linkAsBooked, hup, Bool.false_and, Bool.false_and]
  refine ⟨fun hno => ?_, fun ha hfl hp hb => ?_⟩
  · unfold bookingFollows
    by_cases ha : s.adm.linkGen = 0
    · exact if_pos ha
    · rw [if_neg ha, if_pos (hf.trans (hno.resolve_left ha)), if_neg (by rw [linkGood, hbooked]; simp)]
  · have hhappens : linkHappens s { s with hl := h } = true := by simp [linkHappens, (linkAsBooked_iff hp).mpr hb, hbooked]
    rw [bookingFollows, if_neg ha, if_neg (by rw [show h.failing = false from hf.trans hfl]; decide), if_pos hhappens, bookingFails,
      if_neg (by rw [hup]; simp)]
    rfl

theorem exec_perstN (low hot : Bool) (hs : stopped s = false) : exec (.perstN low hot) s =
    if low then .next (linkFollow s { s with hl := { linkReset s.hl with perst := true, hostWake := false } })
    else if hot then .next (linkFollow s { s with hl := linkReset s.hl }) else .next { s with hl := { s.hl with perst := false } } :=
  live_running hs _

theorem portReset : PortReset := by
  intro hot s hs hlocal low soft
  have hlow : exec (.perstN true hot) s = .next (bookingFollows s low) := by
    rw [exec_perstN _ _ hs, if_pos rfl, linkFollow_quiet (reset_quiet hlocal rfl rfl)]
  have hsoft : exec (.perstN false true) s = .next (bookingFollows s soft) := by
    rw [exec_perstN _ _ hs, if_neg (by decide), if_pos rfl, linkFollow_quiet (reset_quiet hlocal rfl rfl)]
  obtain ⟨hkeepLow, hfailLow⟩ := bookingFollows_down (s := s) (h := { linkReset s.hl with perst := true, hostWake := false }) rfl rfl
  obtain ⟨hkeepSoft, hfailSoft⟩ := bookingFollows_down (s := s) (h := linkReset s.hl) rfl rfl
  refine ⟨fun h => ⟨?_, ?_⟩, fun ha hf hp hb => ?_, ?_⟩
  · rw [hlow, hkeepLow h]
  · rw [hsoft, hkeepSoft h]
  · rw [hlow, hsoft, hfailLow ha hf hp hb, hfailSoft ha hf hp hb]
    exact ⟨rfl, rfl⟩
  · rw [exec_perstN _ _ hs, if_neg (by decide), if_neg (by decide)]

/-- Settles O45, from what follows a change of the link where no MIRROR ring stands. -/
theorem hostLink : Obligations.HostLink := ⟨linkBooking, portReset⟩

end Sys2Proof.Machine
end

section
/-! SUPPORT. SYS_SUMMARY carried to the interrupt pin and its mirrors (R382, R384, R400, R407, R410). -/

namespace Sys2Proof.Machine
open Sys2Proof Sys2Proof.Claims

variable {s t u : State}

/-! ### What a change of the summary touches -/

/-- From s to t the port, the ring's frames and counters alone have moved, and the summary stands. -/
def PinOnly (s t : State) : Prop := { t with hl := s.hl, bgt := s.bgt, cnt := s.cnt } = s ∧ t.hl.summary = s.hl.summary

theorem PinOnly.trans (h : PinOnly s t) (h' : PinOnly t u) : PinOnly s u := by
  have hu := congrArg (fun v : State => { v with hl := s.hl, bgt := s.bgt, cnt := s.cnt }) h'.1
  exact ⟨hu.trans h.1, h'.2.trans h.2⟩

theorem linkSend_pin (m : LinkMsg) (s : State) : PinOnly s (linkSend m s) := ⟨rfl, rfl⟩

theorem msiDue_pin (s : State) : PinOnly s (msiDue s) := by
  unfold msiDue
  split
  · exact ⟨rfl, rfl⟩
  · split
    · exact ⟨rfl, rfl⟩
    · exact (linkSend_pin (msiMsg s) s).trans ⟨rfl, rfl⟩

theorem setHl_pin {h : Hl} (hh : h.summary = s.hl.summary) : PinOnly s { s with hl := h } := ⟨rfl, hh⟩

theorem pmeRise_pin (s : State) : PinOnly s (pmeRise s) := by
  have hset : PinOnly s { s with hl := { s.hl with pmeStatus := true } } := ⟨rfl, rfl⟩
  unfold pmeRise
  split
  · simp only
    split
    · exact hset.trans (linkSend_pin _ _)
    · exact ⟨rfl, rfl⟩
  · exact ⟨rfl, rfl⟩

theorem intxFollow_pin (s : State) : PinOnly s (intxFollow s) := by
  have hset : PinOnly s { s with hl := { s.hl with inta := !s.hl.msiEn && !s.hl.intDis && intLow s } } := ⟨rfl, rfl⟩
  unfold intxFollow
  simp only
  split
  · exact ⟨rfl, rfl⟩
  · exact hset.trans (linkSend_pin _ _)

theorem forwardCause_pin (s : State) : PinOnly s (forwardCause s) := by
  unfold forwardCause
  split
  · rw [bgtSend_only]
    exact ⟨rfl, rfl⟩
  · exact ⟨rfl, rfl⟩

theorem alertFollow_pin (low : Bool) (s : State) : PinOnly s (alertFollow low s) := ⟨rfl, rfl⟩

theorem summaryTurned_pin (s : State) : PinOnly s (summaryTurned s) := by
  have halert := (forwardCause_pin s).trans (alertFollow_pin (intLow s) _)
  unfold summaryTurned
  simp only
  split
  · exact ((halert.trans (msiDue_pin _)).trans (pmeRise_pin _)).trans (intxFollow_pin _)
  · exact halert.trans (intxFollow_pin _)

/-! ### The summary turns -/

/-- The summary is carried as a word w. -/
def carryAs (w : W32) (s : State) : State :=
  if decide (w ≠ 0) != intLow s then summaryTurned { s with hl := { s.hl with summary := w } } else { s with hl := { s.hl with summary := w } }

theorem exec_summaryChange (hs : stopped s = false) : exec .summaryChange s = .next (carryAs (sysSummary s) s) := live_running hs _

theorem carryAs_pin (w : W32) (s : State) :
    (carryAs w s).hl.summary = w ∧ { carryAs w s with hl := s.hl, bgt := s.bgt, cnt := s.cnt } = s := by
  obtain ⟨honly, hsum⟩ := summaryTurned_pin { s with hl := { s.hl with summary := w } }
  unfold carryAs
  split
  · exact ⟨hsum, congrArg (fun v : State => { v with hl := s.hl }) honly⟩
  · exact ⟨rfl, rfl⟩

theorem carryAs_same {w : W32} (h : decide (s.hl.summary = 0) = decide (w = 0)) : carryAs w s = { s with hl := { s.hl with summary := w } } := by
  refine if_neg ?_
  have hiff : s.hl.summary = 0 ↔ w = 0 := by simpa using h
  simp only [intLow, ne_eq, bne_iff_ne, not_not, hiff]

/-- The hub with another port. -/
def withHl (h : Hl) (s : State) : State := { s with hl := h }

/-- The port with the summary carried, and TWT_ALERT_N as it follows INT_N. -/
def risenHl (w : W32) (s : State) : Hl := { s.hl with summary := w, alert := bit (cfgR s (hlA + 4)) 3 && bit (cfgR s (hlA + 4)) 2 }
def fallenHl (w : W32) (s : State) : Hl := { s.hl with summary := w, alert := false }

theorem summaryTurned_own {h : Hl} (hrole : s.straps.role ≠ 2) : summaryTurned { s with hl := h } =
    intxFollow (if decide (h.summary ≠ 0) then pmeRise (msiDue { s with hl := { h with
        alert := decide (h.summary ≠ 0) && bit (cfgR s (hlA + 4)) 3 && bit (cfgR s (hlA + 4)) 2 } })
      else { s with hl := { h with alert := decide (h.summary ≠ 0) && bit (cfgR s (hlA + 4)) 3 && bit (cfgR s (hlA + 4)) 2 } }) := by
  have hforward : forwardCause { s with hl := h } = { s with hl := h } := if_neg (by simp [isSecondary, hrole])
  simp only [summaryTurned, hforward]
  rfl

theorem carryAs_rises {w : W32} (hrole : s.straps.role ≠ 2) (h0 : s.hl.summary = 0) (h1 : w ≠ 0) :
    carryAs w s = intxFollow (pmeRise (msiDue (withHl (risenHl w s) s))) := by
  have hturned : (decide (w ≠ 0) != intLow s) = true := by
    rw [decide_eq_true h1, intLow, decide_eq_false (not_not_intro h0)]
    rfl
  rw [carryAs, if_pos hturned, summaryTurned_own hrole]
  simp only [decide_eq_true h1, if_true, Bool.true_and]
  rfl

theorem carryAs_falls {w : W32} (hrole : s.straps.role ≠ 2) (h0 : s.hl.summary ≠ 0) (h1 : w = 0) :
    carryAs w s = intxFollow (withHl (fallenHl w s) s) := by
  have hturned : (decide (w ≠ 0) != intLow s) = true := by
    rw [decide_eq_false (not_not_intro h1), intLow, decide_eq_true h0]
    rfl
  rw [carryAs, if_pos hturned, summaryTurned_own hrole]
  simp only [decide_eq_false (not_not_intro h1), Bool.false_eq_true, if_false, Bool.false_and]
  rfl

/-! ### Its messages -/

section
variable {h : Hl}

theorem linkSend_hl (m : LinkMsg) (h : Hl) (s : State) : linkSend m (withHl h s) = withHl (linkSends m s h) s := rfl

/-- INTx has nothing to tell while the MSI is enabled and INTA is not asserted. -/
theorem intxFollow_msi (s : State) (he : s.hl.msiEn = true) (hi : s.hl.inta = false) : intxFollow s = s := if_pos (by simp [he, hi])

theorem intxFollow_sends {want : Bool} (hw : (!h.msiEn && !h.intDis && decide (h.summary ≠ 0)) = want) (hi : want ≠ h.inta) (hg : h.linkGen ≠ 0) :
    intxFollow (withHl h s) = withHl (linkSends (if want then .assertInta else .deassertInta) s { h with inta := want }) s := by
  subst hw
  rw [← linkSend_hl]
  refine if_neg ?_
  simp only [Bool.or_eq_true, decide_eq_true_eq, not_or]
  exact ⟨hi, hg⟩

theorem pmeRise_d0 (s : State) (hd : s.hl.d3 = false) (hp : s.hl.perst = false) : pmeRise s = s := if_neg (by simp [hd, hp])

theorem pmeRise_message (hd : h.d3 = true) (he : h.pmeEn = true) (hg : h.linkGen ≠ 0) (hl : h.lpm ≤ 3) (hp : h.perst = false) :
    pmeRise (withHl h s) = withHl (linkSends .pmPme s { h with pmeStatus := true }) s :=
  (if_pos (by simp [withHl, hd, he])).trans (if_pos (by simp [withHl, hg, hl, hp]))

theorem pmeRise_pin_low (hd : h.d3 = true) (he : h.pmeEn = true) (hg : h.linkGen = 0) :
    pmeRise (withHl h s) = withHl { h with pmeStatus := true, hostWake := true } s :=
  (if_pos (by simp [withHl, hd, he])).trans (if_neg (by simp [withHl, hg]))

theorem msiDue_none (s : State) (h : s.hl.msiEn = false ∨ s.hl.d3 = true) : msiDue s = s := if_pos (by obtain h | h := h <;> simp [h])

theorem msiDue_holds (he : h.msiEn = true) (hd : h.d3 = false) (hb : h.bme = false) :
    msiDue (withHl h s) = withHl { h with msiHeld := true } s :=
  (if_neg (by simp [withHl, he, hd])).trans (if_pos (by simp [withHl, hb]))

/-- The MSI's address is made of two words of the configuration space. -/
theorem msiMsg_eq (s : State) : msiMsg s = msiOf s := by
  have happend : ∀ x y : W32, (x.setWidth 64 <<< 32 ||| y.setWidth 64) = x ++ y := fun x y => by
    apply BitVec.eq_of_toNat_eq
    have hx := x.isLt
    have hy := y.isLt
    rw [toNat_append_eq, BitVec.toNat_or, BitVec.toNat_shiftLeft, BitVec.toNat_setWidth, BitVec.toNat_setWidth,
      Nat.mod_eq_of_lt (a := x.toNat) (by omega), Nat.mod_eq_of_lt (a := y.toNat) (by omega), Nat.shiftLeft_eq, Nat.mod_eq_of_lt (by omega),
      ← Nat.shiftLeft_eq, ← Nat.shiftLeft_add_eq_or_of_lt hy]
  simp only [msiMsg, happend]
  rfl

theorem msiOf_hl (hh : h.space = s.hl.space) : msiOf (withHl h s) = msiOf s := by
  simp only [msiOf, spaceWord, withHl, hh]

theorem msiDue_sends (he : h.msiEn = true) (hd : h.d3 = false) (hb : h.bme = true) (hg : h.linkGen ≠ 0) (hh : h.space = s.hl.space) :
    msiDue (withHl h s) = bumpWrap (hlA + 0x50) (withHl (linkSends (msiOf s) s h) s) := by
  rw [← linkSend_hl, ← msiOf_hl hh, ← msiMsg_eq]
  exact (if_neg (by simp [withHl, he, hd])).trans (if_neg (by simp [withHl, hb, hg]))
end

/-! ### The states of the port when the summary turns (R382, R384) -/

section
variable {w : W32}

theorem carryAs_msi (hrole : s.straps.role ≠ 2) (hp : s.hl.perst = false) (h0 : s.hl.summary = 0) (h1 : w ≠ 0) (hd : s.hl.d3 = false)
    (he : s.hl.msiEn = true) (hi : s.hl.inta = false) (hb : s.hl.bme = true) (hg : s.hl.linkGen ≠ 0) :
    carryAs w s = bumpWrap (hlA + 0x50) (withHl (linkSends (msiOf s) s (risenHl w s)) s) := by
  rw [carryAs_rises hrole h0 h1, msiDue_sends (h := risenHl w s) he hd hb hg rfl,
    pmeRise_d0 _ (by rw [bumpWrap_hl]; exact hd) (by rw [bumpWrap_hl]; exact hp),
    intxFollow_msi _ (by rw [bumpWrap_hl]; exact he) (by rw [bumpWrap_hl]; exact hi)]

theorem carryAs_held (hrole : s.straps.role ≠ 2) (hp : s.hl.perst = false) (h0 : s.hl.summary = 0) (h1 : w ≠ 0) (hd : s.hl.d3 = false)
    (he : s.hl.msiEn = true) (hi : s.hl.inta = false) (hb : s.hl.bme = false) :
    carryAs w s = withHl { risenHl w s with msiHeld := true } s := by
  rw [carryAs_rises hrole h0 h1, msiDue_holds (h := risenHl w s) he hd hb, pmeRise_d0 _ (by exact hd) (by exact hp), intxFollow_msi _ (by exact he) (by exact hi)]

theorem carryAs_inta (hrole : s.straps.role ≠ 2) (hp : s.hl.perst = false) (h0 : s.hl.summary = 0) (h1 : w ≠ 0) (hd : s.hl.d3 = false)
    (he : s.hl.msiEn = false) (hdis : s.hl.intDis = false) (hi : s.hl.inta = false) (hg : s.hl.linkGen ≠ 0) :
    carryAs w s = withHl (linkSends .assertInta s { risenHl w s with inta := true }) s := by
  have hwant : (!(risenHl w s).msiEn && !(risenHl w s).intDis && decide ((risenHl w s).summary ≠ 0)) = true := by
    rw [show (risenHl w s).msiEn = false from he, show (risenHl w s).intDis = false from hdis, show (risenHl w s).summary = w from rfl,
      decide_eq_true h1]
    rfl
  rw [carryAs_rises hrole h0 h1, msiDue_none (withHl (risenHl w s) s) (Or.inl he), pmeRise_d0 (withHl (risenHl w s) s) hd hp,
    intxFollow_sends hwant (by rw [show (risenHl w s).inta = false from hi]; decide) hg, if_pos rfl]

theorem carryAs_deassert (hrole : s.straps.role ≠ 2) (h0 : s.hl.summary ≠ 0) (h1 : w = 0) (hi : s.hl.inta = true) (hg : s.hl.linkGen ≠ 0) :
    carryAs w s = withHl (linkSends .deassertInta s { fallenHl w s with inta := false }) s := by
  have hwant : (!(fallenHl w s).msiEn && !(fallenHl w s).intDis && decide ((fallenHl w s).summary ≠ 0)) = false := by
    rw [show (fallenHl w s).summary = w from rfl, decide_eq_false (not_not_intro h1), Bool.and_false]
  rw [carryAs_falls hrole h0 h1, intxFollow_sends hwant (by rw [show (fallenHl w s).inta = true from hi]; decide) hg, if_neg (by decide)]

theorem carryAs_pme (hrole : s.straps.role ≠ 2) (hp : s.hl.perst = false) (h0 : s.hl.summary = 0) (h1 : w ≠ 0) (hd : s.hl.d3 = true)
    (hpme : s.hl.pmeEn = true) (he : s.hl.msiEn = true) (hi : s.hl.inta = false) :
    (s.hl.linkGen ≠ 0 → s.hl.lpm ≤ 3 → carryAs w s = withHl (linkSends .pmPme s { risenHl w s with pmeStatus := true }) s) ∧
    (s.hl.linkGen = 0 → carryAs w s = withHl { risenHl w s with pmeStatus := true, hostWake := true } s) := by
  rw [carryAs_rises hrole h0 h1, msiDue_none (withHl (risenHl w s) s) (Or.inr hd)]
  refine ⟨fun hg hl => ?_, fun hg => ?_⟩
  · rw [pmeRise_message (h := risenHl w s) hd hpme hg hl hp, intxFollow_msi _ (by exact he) (by exact hi)]
  · rw [pmeRise_pin_low (h := risenHl w s) hd hpme hg, intxFollow_msi _ (by exact he) (by exact hi)]
end

/-- Settles O46: the summary is carried, and what each state of the port sends or raises when it turns. -/
theorem interrupts : Obligations.Interrupts := by
  intro s hs
  rw [exec_summaryChange hs]
  obtain ⟨hsum, honly⟩ := carryAs_pin (sysSummary s) s
  refine ⟨⟨_, rfl, hsum, honly⟩, fun hsame => congrArg _ (carryAs_same hsame), fun hrole hp => ⟨?msi, ?held, ?inta, ?deassert, ?pme⟩⟩
  case msi => exact fun ⟨h0, h1⟩ hd he hi hb hg => congrArg _ (carryAs_msi hrole hp h0 h1 hd he hi hb hg)
  case held => exact fun ⟨h0, h1⟩ hd he hi hb => congrArg _ (carryAs_held hrole hp h0 h1 hd he hi hb)
  case inta => exact fun ⟨h0, h1⟩ hd he hdis hi hg => congrArg _ (carryAs_inta hrole hp h0 h1 hd he hdis hi hg)
  case deassert => exact fun h0 h1 hi hg => congrArg _ (carryAs_deassert hrole h0 h1 hi hg)
  case pme =>
    intro ⟨h0, h1⟩ hd hpme he hi
    obtain ⟨hmessage, hpin⟩ := carryAs_pme hrole hp h0 h1 hd hpme he hi
    exact ⟨fun hg hl => congrArg _ (hmessage hg hl), fun hg => congrArg _ (hpin hg)⟩

end Sys2Proof.Machine
end

section
/-! SUPPORT. Requests on the host link (R374, R378, R380, R381). -/

namespace Sys2Proof.Machine
open Sys2Proof Sys2Proof.Claims

variable {s t u v : State}

/-! ### The port's link -/

theorem linkUp_of (hg : s.hl.linkGen ≠ 0) (hl : s.hl.lpm ≤ 3) (hp : s.hl.perst = false) : linkUp s = true := by simp [linkUp, hg, hl, hp]

theorem linkUp_none (hg : s.hl.linkGen = 0) : linkUp s = false := by simp [linkUp, hg]

/-- The link back in L0. -/
def inL0 (s : State) : State := { s with hl := { s.hl with lpm := 0 } }

/-! ### Configuration reads (R378, R380) -/

theorem exec_configurationRequest (write : Bool) (off : Nat) (x : W32) (be : BitVec 4) (hs : stopped s = false) :
    exec (.configurationRequest write off x be) s =
      if !linkUp s then .next s
      else if !s.config.firstDone then .next { s with answer := [complRetry] }
      else if write then .next (linkFollow s (spaceWrite (off / 4 * 4 % 4096) (byteMask be) x { inL0 s with answer := [complSuccess] }))
      else .next { inL0 s with answer := [complSuccess, (spaceRead (inL0 s) (off / 4 * 4 % 4096)).setWidth 64] } := live_running hs _

theorem exec_configurationRead (x : Nat) (w : W32) (be : BitVec 4) (hs : stopped s = false) (hu : linkUp s = true) (hf : s.config.firstDone = true) :
    exec (.configurationRequest false x w be) s = .next { inL0 s with answer := [0, (spaceRead (inL0 s) (x / 4 * 4 % 4096)).setWidth 64] } := by
  rw [exec_configurationRequest _ _ _ _ hs, hu, hf]
  rfl

/-- The header of R378. -/
theorem spaceRead_header : ∀ x ∈ [(0x00, (0x4896_1EC7 : W32)), (0x08, 0x1180_00A1), (0x18, 0), (0x1C, 0), (0x20, 0), (0x24, 0),
    (0x2C, cfgR s (hlA + 0x14)), (0x30, 0), (0x34, 0x40)], spaceRead (inL0 s) (x.1 / 4 * 4 % 4096) = x.2 := by
  intro x hx
  simp only [List.mem_cons, List.not_mem_nil, or_false] at hx
  have hsub : spaceRead (inL0 s) 0x2C = cfgR s (hlA + 0x14) := by simp only [spaceRead]; rfl
  obtain rfl | rfl | rfl | rfl | rfl | rfl | rfl | rfl | rfl := hx
  case inr.inr.inr.inr.inr.inr.inl => rw [show 0x2C / 4 * 4 % 4096 = 0x2C by decide, hsub]
  all_goals rfl

/-! ### Requests to BAR0 (R381) -/

theorem requestServed_iff (addr n : Nat) :
    requestServed s addr n = true ↔ (1 ≤ n ∧ n ≤ 16 ∧ addr % 4 = 0 ∧ addr + 4 * n ≤ 0x4000_0000) ∧ s.hl.d3 = false := by
  simp only [requestServed, Bool.and_eq_true, decide_eq_true_eq, Bool.not_eq_true']

theorem requestServed_form {addr n : Nat} (hn : n ≠ 0) (h16 : n ≤ 16) (ha : addr % 4 = 0) (hr : addr + 4 * n ≤ 0x4000_0000)
    (hd : s.hl.d3 = false) : requestServed s addr n = true := (requestServed_iff _ _).mpr ⟨⟨Nat.one_le_iff_ne_zero.mpr hn, h16, ha, hr⟩, hd⟩

theorem requestServed_turnedAway {addr n : Nat} (h : 16 < n ∨ 0x4000_0000 < addr + 4 * n ∨ s.hl.d3 = true) : requestServed s addr n = false := by
  refine Bool.eq_false_iff.mpr fun hserved => ?_
  obtain ⟨⟨-, h16, -, hr⟩, hd⟩ := (requestServed_iff _ _).mp hserved
  obtain h | h | h := h
  · omega
  · omega
  · exact absurd (hd.symm.trans h) (by decide)

/-- The wake source that asserts first begins the wake. -/
theorem requestWake_asleep {i : Nat} (hw : wokenBy i s u) : requestWake i s = u := by
  obtain ⟨hcur, hreq, rfl⟩ := hw
  unfold requestWake
  split
  · next h _ => exact absurd h hcur
  · next h _ => exact absurd h hcur
  · exact if_pos hreq

section
variable {addr : Nat} {enables : List (BitVec 4)} {found : Ecc} {words : List (W32 × BitVec 4)} {bad ecrc : Bool}

theorem exec_memoryRead (hs : stopped s = false) : exec (.memoryRead addr enables found ecrc) s =
    if !linkUp s then .next s
    else if ecrc && ecrcChecked s then .next (ecrcError s)
    else if requestServed s addr enables.length then .next (takeRequest (.read addr enables found) s)
    else .next (unsupported (inL0 s)) := live_running hs _

theorem exec_memoryWrite (hs : stopped s = false) : exec (.memoryWrite addr words bad ecrc) s =
    if !linkUp s then .next s
    else if ecrc && ecrcChecked s then .next (ecrcError s)
    else if !requestServed s addr words.length then .next (unsupported (inL0 s))
    else if bad then .next (poisonedWrite s)
    else .next (takeRequest (.write addr words) s) := live_running hs _

theorem exec_unsupportedRequest (hs : stopped s = false) :
    exec .unsupportedRequest s = .next (if linkUp s then unsupported (inL0 s) else s) := live_running hs _

theorem exec_memoryRead_served (hs : stopped s = false) (hu : linkUp s = true) (hr : requestServed s addr enables.length = true) :
    exec (.memoryRead addr enables found false) s = .next (takeRequest (.read addr enables found) s) := by
  rw [exec_memoryRead hs, hu, hr]
  rfl

theorem exec_memoryRead_turnedAway (hs : stopped s = false) (hu : linkUp s = true) (hr : requestServed s addr enables.length = false) :
    exec (.memoryRead addr enables found false) s = .next (unsupported (inL0 s)) := by
  rw [exec_memoryRead hs, hu, hr]
  rfl

theorem exec_memoryWrite_served (hs : stopped s = false) (hu : linkUp s = true) (hr : requestServed s addr words.length = true) :
    exec (.memoryWrite addr words bad false) s = .next (if bad then poisonedWrite s else takeRequest (.write addr words) s) := by
  rw [exec_memoryWrite hs, hu, hr]
  cases bad <;> rfl

theorem exec_memoryWrite_turnedAway (hs : stopped s = false) (hu : linkUp s = true) (hr : requestServed s addr words.length = false) :
    exec (.memoryWrite addr words bad false) s = .next (unsupported (inL0 s)) := by
  rw [exec_memoryWrite hs, hu, hr]
  rfl

/-- In S0 a request is served at once. -/
theorem takeRequest_awake (q : HeldReq) (ha : awake s) : takeRequest q s = serveHeld q (inL0 s) := by
  obtain ⟨hcur, hphase⟩ := ha
  have hwake : requestWake 7 (inL0 s) = inL0 s := requestWake_awake 7 _ hcur hphase
  have h : takeRequest q s = if (requestWake 7 (inL0 s)).power.cur = .s0 then serveHeld q (requestWake 7 (inL0 s))
      else { requestWake 7 (inL0 s) with hl := { (requestWake 7 (inL0 s)).hl with held := (requestWake 7 (inL0 s)).hl.held ++ [q] } } := rfl
  rw [h, hwake, if_pos (by exact hcur)]

/-- In sleep it waits, and wakes the hub. -/
theorem takeRequest_asleep (q : HeldReq) (hw : wokenBy 7 s v) :
    takeRequest q s = { v with hl := { s.hl with lpm := 0, held := s.hl.held ++ [q] } } := by
  obtain ⟨hcur, hreq, rfl⟩ := hw
  have hwake : requestWake 7 (inL0 s) = { inL0 s with power := { s.power with wakeReq := 1#11 <<< 7, wakeBegan := short (ticks s) } } :=
    requestWake_asleep ⟨hcur, hreq, rfl⟩
  have h : takeRequest q s = if (requestWake 7 (inL0 s)).power.cur = .s0 then serveHeld q (requestWake 7 (inL0 s))
      else { requestWake 7 (inL0 s) with hl := { (requestWake 7 (inL0 s)).hl with held := (requestWake 7 (inL0 s)).hl.held ++ [q] } } := rfl
  rw [h, hwake, if_neg (by exact hcur)]
  rfl
end

/-! ### Accesses of a request -/

theorem busRead_own {p : Path} {a : Nat} (h : a < 0x0800_0000) : busRead p a s = (some (readValue s p a), readEffect p a s) :=
  if_pos (Nat.div_eq_of_lt h)

theorem busWrite_own {p : Path} {a : Nat} {w : W32} (h : a < 0x0800_0000) : busWrite p a w s = write32 p a w s := if_pos (Nat.div_eq_of_lt h)

/-- A read of one DW. -/
theorem serveHeld_read {addr : Nat} (be : BitVec 4) (h : addr < 0x0800_0000) : serveHeld (.read addr [be] .clean) s =
    { readEffect .pcie addr s with answer := [0, (readValue s .pcie addr &&& byteMask be).setWidth 64] } := by
  simp only [serveHeld, memFound, if_true, serveRead, readDws, busRead_own h, List.nil_append]
  rfl

theorem serveHeld_write {addr : Nat} {x : W32} (h : addr < 0x0800_0000) :
    serveHeld (.write addr [(x, 0xF)]) s = write32 .pcie addr x s := by
  simp only [serveHeld, serveWrite, if_true, busWrite_own h]

theorem serveHeld_write_part {addr : Nat} {x y : W32} {be : BitVec 4} (hbe : be ≠ 0xF) (h : addr + 4 < 0x0800_0000) :
    serveHeld (.write addr [(x, be), (y, 0xF)]) s = write32 .pcie (addr + 4) y (werr s) := by
  simp only [serveHeld, serveWrite, if_true, if_neg hbe, busWrite_own h]

theorem cntR_bump_port (a : Nat) (x : List W64) (h : Hl) (s : State) : cntR { bump a s with answer := x, hl := h } a = plusOne (cntR s a) := by
  rw [← satInc_eq_plusOne]
  exact cntR_bump s a

/-- An Unsupported Request is answered, counted and noted. -/
theorem unsupported_turnedAway (s : State) : let t := unsupported (inL0 s)
    t.answer = [1] ∧ cntR t (hlA + 0x4C) = plusOne (cntR s (hlA + 0x4C)) ∧
      t.hl = { s.hl with lpm := 0, space := t.hl.space } ∧ { t with answer := s.answer, cnt := s.cnt, hl := s.hl } = s := by
  exact ⟨rfl, cntR_bump_port _ _ _ _, rfl, rfl⟩

theorem poisonedWrite_counts (ha : awake s) : cntR (poisonedWrite s) (hlA + 0x4C) = plusOne (cntR s (hlA + 0x4C)) ∧
    (poisonedWrite s).hl = { s.hl with lpm := 0, space := (poisonedWrite s).hl.space } ∧ { poisonedWrite s with cnt := s.cnt, hl := s.hl } = s := by
  rw [poisonedWrite, requestWake_awake 7 s ha.1 ha.2]
  exact ⟨cntR_bump_port _ s.answer _ s, rfl, rfl⟩

/-- Settles O47: which requests the port serves, holds, or turns away. -/
theorem hostRequests : Obligations.HostRequests := by
  intro s hs
  refine ⟨fun hg wr off x be addr enables found words bad ecrc => ?down, fun hg hl hp => ?up⟩
  case down =>
    have hup := linkUp_none hg
    rw [exec_configurationRequest _ _ _ _ hs, exec_memoryRead hs, exec_memoryWrite hs, exec_unsupportedRequest hs, hup]
    exact ⟨rfl, rfl, rfl, rfl⟩
  case up =>
    intro u
    have hup := linkUp_of hg hl hp
    refine ⟨fun wr off x be hf => ?retry, fun x be hf y hy => ?header, fun addr x y be ha hd h4 hr => ?access,
      fun addr enables words found bad => ⟨⟨_, ?away, unsupported_turnedAway s⟩, fun h => ⟨_, ?_, unsupported_turnedAway s⟩,
        fun h => ⟨_, ?_, unsupported_turnedAway s⟩⟩,
      fun addr words hne h16 h4 hr hd ha => ⟨_, ?poisoned, poisonedWrite_counts ha⟩,
      fun addr enables found words hd h4 v hw => ⟨fun hne h16 hr => ?heldRead, fun hne h16 hr => ?heldWrite⟩⟩
    case retry =>
      rw [exec_configurationRequest _ _ _ _ hs, hup, hf]
      rfl
    case header => rw [exec_configurationRead _ _ _ hs hup hf, spaceRead_header y hy]; rfl
    case access =>
      have hone : requestServed s addr 1 = true := requestServed_form (by decide) (by decide) h4 (by omega) hd
      have htwo : requestServed s addr 2 = true := requestServed_form (by decide) (by decide) h4 (by omega) hd
      have hall : ∀ w : W32, w &&& byteMask 0xF = w := fun w => by rw [show byteMask 0xF = BitVec.allOnes 32 by decide, BitVec.and_allOnes]
      have hlow : byteMask 0x3 = 0xFFFF := by decide
      refine ⟨?_, ?_, ?_, fun hbe => ?_⟩
      · rw [exec_memoryRead_served hs hup hone, takeRequest_awake _ ha, serveHeld_read _ (by omega), hall]; rfl
      · rw [exec_memoryRead_served hs hup hone, takeRequest_awake _ ha, serveHeld_read _ (by omega), hlow]; rfl
      · rw [exec_memoryWrite_served hs hup hone, if_neg (by decide), takeRequest_awake _ ha, serveHeld_write (by omega)]; rfl
      · rw [exec_memoryWrite_served hs hup htwo, if_neg (by decide), takeRequest_awake _ ha, serveHeld_write_part hbe (by omega)]; rfl
    case away => rw [exec_unsupportedRequest hs, if_pos hup]
    · exact exec_memoryRead_turnedAway hs hup (requestServed_turnedAway h)
    · exact exec_memoryWrite_turnedAway hs hup (requestServed_turnedAway h)
    case poisoned =>
      rw [exec_memoryWrite_served hs hup (requestServed_form (by simpa using hne) h16 h4 hr hd), if_pos rfl]
    case heldRead =>
      rw [exec_memoryRead_served hs hup (requestServed_form (by simpa using hne) h16 h4 hr hd), takeRequest_asleep _ hw]
    case heldWrite =>
      rw [exec_memoryWrite_served hs hup (requestServed_form (by simpa using hne) h16 h4 hr hd), if_neg (by decide), takeRequest_asleep _ hw]

end Sys2Proof.Machine
end

section
/-! SUPPORT. The host serial port (R375, R387–R393). -/

namespace Sys2Proof.Machine
open Sys2Proof Sys2Proof.Claims

variable {s t u : State} {bytes tail : List (BitVec 8)} {extra : Nat}

/-! ### The port, by power state -/

theorem hspStatus_eq (s : State) : hspStatus s = hspState s := by
  unfold hspStatus hspState intLow b2n
  congr 1
  simp only [decide_eq_true_eq, ne_eq]
  split_ifs <;> simp_all

theorem hspSilent_eq (h : bytes ≠ []) (s : State) : hspSilent bytes s = hspState s :: List.replicate (bytes.length - 1) 0 := by
  rw [hspSilent, if_neg (by simpa using h), hspStatus_eq]

/-- The state in which a frame of the S0 hub is served. -/
def hspReply (n : Nat) (s : State) : State := { s with answer := hspState s :: List.replicate (n - 1) 0 }

section
variable (serve : State → State) (hon : bit (cfgR s (hlA + 4)) 1 = true) (ha : awake s)

theorem hspFrame_off (serve : State → State) (h : bit (cfgR s (hlA + 4)) 1 = false) : hspFrame bytes extra serve s = s := by
  have hoff : hspOn s = false := h
  rw [hspFrame, hoff]
  rfl

include hon

theorem hspFrame_on (hwake : requestWake 8 s = u) : hspFrame bytes extra serve s =
    let t := { u with answer := hspSilent bytes u }
    if t.power.cur ≠ .s0 then bump (hlA + 0x68) (hspErr 5 t)
    else if bytes.length < 4 then hspEdges bytes extra t
    else if hspBadAddr bytes t then hspEdges bytes extra (hspErr 4 t)
    else if hspNoCrc bytes t then hspEdges bytes extra (bump (hlA + 0x6C) (hspErr 6 t))
    else hspEdges bytes extra (serve t) := by
  have hon' : hspOn s = true := hon
  rw [hspFrame, hon', hwake, Bool.not_true, if_neg Bool.false_ne_true]

/-- In sleep a frame is discarded whole and counted, and it is a wake source (R387). -/
theorem hspFrame_asleep (hb : bytes ≠ []) (hw : wokenBy 8 s u) : hspFrame bytes extra serve s =
    bump (hlA + 0x68) (hspFlag 5 { u with answer := hspState s :: List.replicate (bytes.length - 1) 0 }) := by
  rw [hspFrame_on serve hon (requestWake_asleep hw), hspSilent_eq hb]
  obtain ⟨hcur, -, rfl⟩ := hw
  exact if_pos hcur

include ha

theorem hspFrame_awake (hb : bytes ≠ []) : hspFrame bytes extra serve s =
    if bytes.length < 4 then hspEdges bytes extra (hspReply bytes.length s)
    else if hspBadAddr bytes (hspReply bytes.length s) then hspEdges bytes extra (hspFlag 4 (hspReply bytes.length s))
    else if hspNoCrc bytes (hspReply bytes.length s) then hspEdges bytes extra (bump (hlA + 0x6C) (hspFlag 6 (hspReply bytes.length s)))
    else hspEdges bytes extra (serve (hspReply bytes.length s)) := by
  obtain ⟨hcur, hphase⟩ := ha
  rw [hspFrame_on serve hon (requestWake_awake 8 s hcur hphase), hspSilent_eq hb]
  exact if_neg fun h => h hcur

theorem hspFrame_short (hb : bytes ≠ []) (h4 : bytes.length < 4) :
    hspFrame bytes extra serve s = bump (hlA + 0x58) (hspFlag 0 (hspReply bytes.length s)) := by
  rw [hspFrame_awake serve hon ha hb, if_pos h4, hspEdges, if_pos h4]
  rfl
end

/-! ### The edges beyond whole bytes (R393) -/

theorem hspEdges_whole (h4 : 4 ≤ bytes.length) (s : State) : hspEdges bytes 0 s = bumpWrap (hlA + 0x54) s :=
  if_neg (Nat.not_lt.mpr h4)

theorem hspEdges_eq (h4 : 4 ≤ bytes.length) (s : State) : hspEdges bytes extra s =
    if extra % 8 = 0 then bumpWrap (hlA + 0x54) s
    else bump (if extra % 8 ≤ 3 then hlA + 0x5C else hlA + 0x58) (hspFlag 0 (bumpWrap (hlA + 0x54) s)) := by
  rw [hspEdges, if_neg (Nat.not_lt.mpr h4)]
  have hlt : extra % 8 < 8 := Nat.mod_lt _ (by decide)
  interval_cases extra % 8 <;> rfl

/-! ### Command and address bytes (R387) -/

section
variable {wr crc hub a : Nat}

theorem length_hspHead : (hspHead wr crc hub a ++ tail).length = tail.length + 4 := by
  rw [List.length_append, Nat.add_comm]
  rfl

theorem hspHead_ne_nil : hspHead wr crc hub a ++ tail ≠ [] := by simp [hspHead]

theorem four_le_length_hspHead : 4 ≤ (hspHead wr crc hub a ++ tail).length := by rw [length_hspHead]; omega

theorem take_hspHead : (hspHead wr crc hub a ++ tail).take 4 = hspHead wr crc hub a := rfl

theorem drop_hspHead : (hspHead wr crc hub a ++ tail).drop 4 = tail := rfl

variable (hwr : wr < 2) (hcrc : crc < 2) (hhub : hub < 8) (ha : a < 2 ^ 27)
include hwr hcrc hhub ha

theorem toNat_hspHead_command : (byteAt (hspHead wr crc hub a ++ tail) 0).toNat = 128 * wr + 64 * crc + 8 * hub + a / 2 ^ 24 := by
  have hcmd : byteAt (hspHead wr crc hub a ++ tail) 0 = BitVec.ofNat 8 (128 * wr + 64 * crc + 8 * hub + a / 2 ^ 24) := rfl
  rw [hcmd, BitVec.toNat_ofNat, Nat.mod_eq_of_lt (by omega)]

theorem hspWrites_head : hspWrites (hspHead wr crc hub a ++ tail) = decide (wr = 1) := by
  rw [hspWrites, bit, ← BitVec.testBit_toNat, Nat.testBit_eq_decide_div_mod_eq, toNat_hspHead_command hwr hcrc hhub ha]
  exact decide_eq_decide.mpr (by omega)

theorem hspCrc_head : hspCrc (hspHead wr crc hub a ++ tail) = decide (crc = 1) := by
  rw [hspCrc, bit, ← BitVec.testBit_toNat, Nat.testBit_eq_decide_div_mod_eq, toNat_hspHead_command hwr hcrc hhub ha]
  exact decide_eq_decide.mpr (by omega)

theorem hspHub_head : hspHub (hspHead wr crc hub a ++ tail) = hub * 0x0800_0000 := by
  rw [hspHub, bits, toNat_hspHead_command hwr hcrc hhub ha, Nat.shiftRight_eq_div_pow]
  omega

theorem hspAddr_head : hspAddr (hspHead wr crc hub a ++ tail) = a := by
  have hlow : beVal (((hspHead wr crc hub a ++ tail).drop 1).take 3) = a % 2 ^ 24 := by
    change ((0 * 256 + (BitVec.ofNat 8 (a / 2 ^ 16)).toNat) * 256 + (BitVec.ofNat 8 (a / 2 ^ 8)).toNat) * 256 + (BitVec.ofNat 8 a).toNat = _
    simp only [BitVec.toNat_ofNat]
    omega
  rw [hspAddr, bits, toNat_hspHead_command hwr hcrc hhub ha, hlow, Nat.shiftRight_eq_div_pow]
  omega

theorem hspBadAddr_head (n : Nat) (s : State) :
    hspBadAddr (hspHead wr crc hub a ++ tail) (hspReply n s) = true ↔ a % 4 ≠ 0 ∨ s.straps.role = 2 ∧ hub ≠ 0 := by
  have hrole : isSecondary (hspReply n s) = decide (s.straps.role = 2) := rfl
  rw [hspBadAddr, hspAddr_head hwr hcrc hhub ha, hspHub_head hwr hcrc hhub ha, hrole]
  simp

theorem hspNoCrc_head (n : Nat) (s : State) :
    hspNoCrc (hspHead wr crc hub a ++ tail) (hspReply n s) = true ↔ bit (cfgR s (hlA + 4)) 4 = true ∧ crc = 0 := by
  have hreq : bit (cfgR (hspReply n s) (hlA + 4)) 4 = bit (cfgR s (hlA + 4)) 4 := rfl
  rw [hspNoCrc, hspCrc_head hwr hcrc hhub ha, hreq]
  simp only [Bool.and_eq_true, Bool.not_eq_true', decide_eq_false_iff_not, and_congr_right_iff]
  omega
end

/-! ### Frames of an S0 hub -/

section
variable {wr crc hub a : Nat} (hwr : wr < 2) (hcrc : crc < 2) (hhub : hub < 8) (ha : a < 2 ^ 27)
  (serve : State → State) (hon : bit (cfgR s (hlA + 4)) 1 = true) (haw : awake s)
include hwr hcrc hhub ha hon haw

theorem hspFrame_badAddr (hbad : a % 4 ≠ 0 ∨ s.straps.role = 2 ∧ hub ≠ 0) : hspFrame (hspHead wr crc hub a ++ tail) 0 serve s =
    bumpWrap (hlA + 0x54) (hspFlag 4 (hspReply (tail.length + 4) s)) := by
  rw [hspFrame_awake serve hon haw hspHead_ne_nil, if_neg (Nat.not_lt.mpr four_le_length_hspHead),
    if_pos ((hspBadAddr_head hwr hcrc hhub ha _ _).mpr hbad), hspEdges_whole four_le_length_hspHead, length_hspHead]

variable (ha4 : a % 4 = 0) (hsec : s.straps.role = 2 → hub = 0)
include ha4 hsec

omit hon haw in
theorem hspBadAddr_none (n : Nat) : ¬ hspBadAddr (hspHead wr crc hub a ++ tail) (hspReply n s) = true := fun h => by
  obtain h | ⟨h2, h⟩ := (hspBadAddr_head hwr hcrc hhub ha _ _).mp h
  · exact h ha4
  · exact h (hsec h2)

theorem hspFrame_noCrc (hreq : bit (cfgR s (hlA + 4)) 4 = true) (hnone : crc = 0) : hspFrame (hspHead wr crc hub a ++ tail) 0 serve s =
    bumpWrap (hlA + 0x54) (bump (hlA + 0x6C) (hspFlag 6 (hspReply (tail.length + 4) s))) := by
  rw [hspFrame_awake serve hon haw hspHead_ne_nil, if_neg (Nat.not_lt.mpr four_le_length_hspHead),
    if_neg (hspBadAddr_none hwr hcrc hhub ha ha4 hsec _), if_pos ((hspNoCrc_head hwr hcrc hhub ha _ _).mpr ⟨hreq, hnone⟩),
    hspEdges_whole four_le_length_hspHead, length_hspHead]

theorem hspFrame_served (hreq : bit (cfgR s (hlA + 4)) 4 = false ∨ crc = 1) : hspFrame (hspHead wr crc hub a ++ tail) extra serve s =
    hspEdges (hspHead wr crc hub a ++ tail) extra (serve (hspReply (tail.length + 4) s)) := by
  have hok : ∀ n, ¬ hspNoCrc (hspHead wr crc hub a ++ tail) (hspReply n s) = true := fun n h => by
    obtain ⟨h4, h0⟩ := (hspNoCrc_head hwr hcrc hhub ha _ _).mp h
    obtain hreq | hreq := hreq
    · exact absurd (hreq.symm.trans h4) (by decide)
    · omega
  rw [hspFrame_awake serve hon haw hspHead_ne_nil, if_neg (Nat.not_lt.mpr four_le_length_hspHead),
    if_neg (hspBadAddr_none hwr hcrc hhub ha ha4 hsec _), if_neg (hok _), length_hspHead]
end

/-! ### The data phase (R390–R392) -/

theorem beVal_msbFirst (v : W32) : beVal (msbFirst v) = v.toNat := by
  change (((0 * 256 + (v.extractLsb' 24 8).toNat) * 256 + (v.extractLsb' 16 8).toNat) * 256 + (v.extractLsb' 8 8).toNat) * 256 +
    (v.extractLsb' 0 8).toNat = _
  simp only [BitVec.extractLsb'_toNat, Nat.shiftRight_eq_div_pow]
  have := v.isLt
  omega

theorem beVal_crc (c : BitVec 16) : beVal [c.extractLsb' 8 8, c.extractLsb' 0 8] = c.toNat := by
  change (0 * 256 + (c.extractLsb' 8 8).toNat) * 256 + (c.extractLsb' 0 8).toNat = _
  simp only [BitVec.extractLsb'_toNat, Nat.shiftRight_eq_div_pow]
  have := c.isLt
  omega

theorem wordBytes_eq (v : W32) : wordBytes v = msbFirst v := by
  have hbyte : ∀ n, BitVec.ofNat 8 (v.toNat / 2 ^ n) = v.extractLsb' n 8 := fun n => by
    apply BitVec.eq_of_toNat_eq
    rw [BitVec.toNat_ofNat, BitVec.extractLsb'_toNat, Nat.shiftRight_eq_div_pow]
  change [BitVec.ofNat 8 (v.toNat / 2 ^ 24), BitVec.ofNat 8 (v.toNat / 2 ^ 16), BitVec.ofNat 8 (v.toNat / 2 ^ 8),
    BitVec.ofNat 8 (v.toNat / 2 ^ 0)] = _
  rw [hbyte, hbyte, hbyte, hbyte]
  rfl

theorem hspCommit_nil (crc : Bool) (hub fuel a : Nat) (sofar : List (BitVec 8)) (s : State) : hspCommit crc hub fuel a sofar [] s = s := by
  cases fuel with
  | zero => rfl
  | succ fuel => cases crc <;> rfl

theorem hspCommit_word (hub fuel a : Nat) (sofar : List (BitVec 8)) (v : W32) (s : State) :
    hspCommit false hub (fuel + 1) a sofar (msbFirst v) s = busWrite .hsp (hub + a) v s := by
  have hstep : hspCommit false hub (fuel + 1) a sofar (msbFirst v) s =
    hspCommit false hub fuel (hspNext a) (sofar ++ msbFirst v) [] (busWrite .hsp (hub + a) (BitVec.ofNat 32 (beVal (msbFirst v))) s) := rfl
  rw [hstep, hspCommit_nil, beVal_msbFirst, BitVec.ofNat_toNat, BitVec.setWidth_eq]

theorem hspCommit_crc (hub fuel a : Nat) (sofar : List (BitVec 8)) (v : W32) (c : BitVec 16) (s : State) :
    hspCommit true hub (fuel + 1) a sofar (msbFirst v ++ [c.extractLsb' 8 8, c.extractLsb' 0 8]) s =
      if c = crc16 (sofar ++ msbFirst v) then busWrite .hsp (hub + a) v s else bump (hlA + 0x60) (hspFlag 3 s) := by
  have hstep : hspCommit true hub (fuel + 1) a sofar (msbFirst v ++ [c.extractLsb' 8 8, c.extractLsb' 0 8]) s =
    if (true && decide ((crc16 (sofar ++ msbFirst v)).toNat ≠ beVal [c.extractLsb' 8 8, c.extractLsb' 0 8])) = true then
      bump (hlA + 0x60) (hspFlag 3 s)
    else hspCommit true hub fuel (hspNext a) (sofar ++ msbFirst v) [] (busWrite .hsp (hub + a) (BitVec.ofNat 32 (beVal (msbFirst v))) s) := rfl
  rw [hstep, hspCommit_nil, beVal_msbFirst, BitVec.ofNat_toNat, BitVec.setWidth_eq, beVal_crc, Bool.true_and]
  by_cases hc : c = crc16 (sofar ++ msbFirst v)
  · rw [if_pos hc, if_neg (by simp [hc])]
  · rw [if_neg hc, if_pos (by rw [decide_eq_true_eq, ne_eq, BitVec.toNat_inj]; exact fun h => hc h.symm)]

/-- One word after `w` busy bytes and the marker. -/
theorem hspRead_word {a w : Nat} (hw : w ≤ 64) (ha : a < 2 ^ 27) (sofar : List (BitVec 8)) (s : State) :
    hspRead false 0 false (w + 6) (w + 5) true a [w] [] sofar [] s =
      (List.replicate w 0x96 ++ [0x69] ++ msbFirst (readValue s .hsp a), readEffect .hsp a s) := by
  have hfetch : hspFetch (0 + a) [] s = (some (readValue s .hsp a), [], readEffect .hsp a s) := by
    have hbus : busRead .hsp a s = (some (readValue s .hsp a), readEffect .hsp a s) := busRead_own (by omega)
    rw [Nat.zero_add]
    simp only [hspFetch, hbus]
  have hlen : (wordBytes (readValue s .hsp a) ++ []).length = 4 := rfl
  rw [hspRead, if_neg (by simp), hfetch]
  simp only [Option.isNone_some, Bool.false_eq_true, if_false, if_true, List.headD_cons, Nat.min_eq_left hw, List.nil_append,
    Nat.min_eq_right (Nat.le_add_right w 5), if_neg (Nat.not_lt.mpr hw), if_neg fun h : 64 < w ∧ w ≤ w + 5 => absurd h.1 (Nat.not_lt.mpr hw)]
  rw [if_neg (by omega), hlen, if_neg (by omega), show w + 5 - w - 1 - 4 = 0 by omega, List.append_nil, wordBytes_eq]
  rfl

/-! ### The commands -/

theorem exec_hspWriteFrame (hs : stopped s = false) : exec (.hspWriteFrame bytes extra) s =
    if !bytes.isEmpty && !hspWrites bytes then .next s
    else .next (hspFrame bytes extra
      (hspCommit (hspCrc bytes) (hspHub bytes) bytes.length (hspAddr bytes) (bytes.take 4) (bytes.drop 4)) s) := live_running hs _

/-- The data phase of a read frame, and its answer. -/
def hspReadServe (bytes : List (BitVec 8)) (extra : Nat) (waits : List Nat) (late : List (Option W32)) (s : State) : State :=
  let r := hspRead (hspCrc bytes) (hspHub bytes) (extra % 8 ≠ 0) (bytes.length - 4 + 1) (bytes.length - 4) true (hspAddr bytes) waits late
    (bytes.take 4) [] s
  { r.2 with answer := [hspStatus s, 0, 0, 0] ++ r.1.map (·.setWidth 64) }

theorem exec_hspReadFrame (waits : List Nat) (late : List (Option W32)) (hs : stopped s = false) :
    exec (.hspReadFrame bytes extra waits late) s =
      if !bytes.isEmpty && hspWrites bytes then .next s else .next (hspFrame bytes extra (hspReadServe bytes extra waits late) s) :=
  live_running hs _

theorem hspWrites_eq_headD (h : bytes ≠ []) : hspWrites bytes = bit (bytes.headD 0) 7 := by
  cases bytes with
  | nil => exact absurd rfl h
  | cons => rfl

theorem exec_hspWriteFrame_write (hs : stopped s = false) (hw : hspWrites bytes = true) : exec (.hspWriteFrame bytes extra) s = .next (hspFrame bytes extra
    (hspCommit (hspCrc bytes) (hspHub bytes) bytes.length (hspAddr bytes) (bytes.take 4) (bytes.drop 4)) s) := by
  rw [exec_hspWriteFrame hs, hw, Bool.not_true, Bool.and_false, if_neg Bool.false_ne_true]

theorem exec_hspReadFrame_read (waits : List Nat) (late : List (Option W32)) (hs : stopped s = false) (hw : hspWrites bytes = false) :
    exec (.hspReadFrame bytes extra waits late) s = .next (hspFrame bytes extra (hspReadServe bytes extra waits late) s) := by
  rw [exec_hspReadFrame _ _ hs, hw, Bool.and_false, if_neg Bool.false_ne_true]

section
variable {crc hub a : Nat} (hs : stopped s = false) (hon : bit (cfgR s (hlA + 4)) 1 = true) (haw : awake s)
  (hcrc : crc < 2) (hhub : hub < 8) (ha : a < 2 ^ 27)
include hs hcrc hhub ha

/-- A write frame and its data phase. -/
theorem exec_hspWriteFrame_head : exec (.hspWriteFrame (hspHead 1 crc hub a ++ tail) extra) s =
    .next (hspFrame (hspHead 1 crc hub a ++ tail) extra
      (hspCommit (decide (crc = 1)) (hub * 0x0800_0000) (tail.length + 4) a (hspHead 1 crc hub a) tail) s) := by
  rw [exec_hspWriteFrame_write hs (hspWrites_head (by decide) hcrc hhub ha), hspCrc_head (by decide) hcrc hhub ha,
    hspHub_head (by decide) hcrc hhub ha, hspAddr_head (by decide) hcrc hhub ha, length_hspHead, take_hspHead, drop_hspHead]

theorem exec_hspReadFrame_head (waits : List Nat) (late : List (Option W32)) :
    exec (.hspReadFrame (hspHead 0 crc hub a ++ tail) extra waits late) s =
      .next (hspFrame (hspHead 0 crc hub a ++ tail) extra (hspReadServe (hspHead 0 crc hub a ++ tail) extra waits late) s) :=
  exec_hspReadFrame_read _ _ hs (hspWrites_head (by decide) hcrc hhub ha)

include hon haw

/-- A write frame of one word without its CRC-16. -/
theorem exec_hspWriteFrame_word (hsec : s.straps.role = 2 → hub = 0) (ha4 : a % 4 = 0) (hreq : bit (cfgR s (hlA + 4)) 4 = false)
    (h0 : crc = 0) (v : W32) : exec (.hspWriteFrame (hspHead 1 crc hub a ++ msbFirst v) 0) s =
      .next (bumpWrap (hlA + 0x54) (busWrite .hsp (hub * 0x0800_0000 + a) v (hspReply 8 s))) := by
  subst h0
  rw [exec_hspWriteFrame_head hs hcrc hhub ha, hspFrame_served (by decide) hcrc hhub ha _ hon haw ha4 hsec (.inl hreq),
    hspEdges_whole four_le_length_hspHead, show (msbFirst v).length + 4 = 7 + 1 from rfl, decide_eq_false (by decide), hspCommit_word]

/-- A write frame of one word with its CRC-16. -/
theorem exec_hspWriteFrame_crc (hsec : s.straps.role = 2 → hub = 0) (ha4 : a % 4 = 0) (h1 : crc = 1) (v : W32) (c : BitVec 16) :
    exec (.hspWriteFrame (hspHead 1 crc hub a ++ (msbFirst v ++ [c.extractLsb' 8 8, c.extractLsb' 0 8])) 0) s =
      .next (bumpWrap (hlA + 0x54) (if c = crc16 (hspHead 1 crc hub a ++ msbFirst v) then busWrite .hsp (hub * 0x0800_0000 + a) v (hspReply 10 s)
        else bump (hlA + 0x60) (hspFlag 3 (hspReply 10 s)))) := by
  subst h1
  rw [exec_hspWriteFrame_head hs hcrc hhub ha, hspFrame_served (by decide) hcrc hhub ha _ hon haw ha4 hsec (.inr rfl),
    hspEdges_whole four_le_length_hspHead, show (msbFirst v ++ [c.extractLsb' 8 8, c.extractLsb' 0 8]).length + 4 = 9 + 1 from rfl,
    decide_eq_true rfl, hspCommit_crc]
end

theorem hspState_hspReply (n : Nat) (s : State) : hspState (hspReply n s) = hspState s := rfl

/-- A read frame of one word, after `w` busy bytes. -/
theorem hspReadServe_word {a w : Nat} (ha : a < 2 ^ 27) (hw : w ≤ 64) (x : BitVec 8) (s : State) :
    hspReadServe (hspHead 0 0 0 a ++ List.replicate (w + 5) x) 0 [w] [] (hspReply (w + 9) s) = {
      readEffect .hsp a (hspReply (w + 9) s) with
      answer := [hspState s, 0, 0, 0] ++ List.replicate w 0x96 ++ [0x69] ++
        (msbFirst (readValue (hspReply (w + 9) s) .hsp a)).map (·.setWidth 64) } := by
  have hlen : (hspHead 0 0 0 a ++ List.replicate (w + 5) x).length - 4 = w + 5 := by rw [length_hspHead, List.length_replicate]; omega
  have hread := hspRead_word hw ha ((hspHead 0 0 0 a ++ List.replicate (w + 5) x).take 4) (hspReply (w + 9) s)
  rw [hspReadServe, hspCrc_head (by decide) (by decide) (by decide) ha, hspHub_head (by decide) (by decide) (by decide) ha,
    hspAddr_head (by decide) (by decide) (by decide) ha, hlen, Nat.zero_mul, decide_eq_false (p := (0 : Nat) = 1) (by decide),
    decide_eq_false (p := 0 % 8 ≠ 0) (by decide), hread, hspStatus_eq, hspState_hspReply]
  simp only [List.map_append, List.map_replicate]
  rfl

/-- Settles the serial port's half of O48. -/
theorem serialPort : SerialPort := by
  intro s hs
  refine ⟨fun hoff bytes extra waits late => ?off, fun hon => ⟨fun bytes extra u hb hwr hw => ?sleepWrite,
    fun bytes extra waits late u hb hrd hw => ?sleepRead, fun haw => ?awake⟩⟩
  case off =>
    rw [exec_hspWriteFrame hs, exec_hspReadFrame _ _ hs, hspFrame_off _ hoff, hspFrame_off _ hoff, ite_self, ite_self]
    exact ⟨rfl, rfl⟩
  case sleepWrite =>
    rw [exec_hspWriteFrame_write hs ((hspWrites_eq_headD hb).trans hwr), hspFrame_asleep _ hon hb hw]
  case sleepRead =>
    rw [exec_hspReadFrame_read _ _ hs ((hspWrites_eq_headD hb).trans hrd), hspFrame_asleep _ hon hb hw]
  case awake =>
    intro u whole
    refine ⟨fun hub a v c hhub hsec ha ha4 => ⟨fun hreq => ?word, fun hc => ?crc, fun hc => ?badCrc⟩,
      fun a w x ha ha4 hw hreq => ?read,
      fun hub a tail waits late hhub ha hbad crc hcrc => ?badAddr,
      fun a tail waits late ha ha4 hreq => ?noCrc,
      fun bytes extra hb h4 hwr => ?short, fun a extra ha ha4 hreq => ?edges⟩
    case word => exact exec_hspWriteFrame_word hs hon haw (by decide) hhub ha hsec ha4 hreq rfl v
    case crc =>
      rw [List.append_assoc, exec_hspWriteFrame_crc hs hon haw (by decide) hhub ha hsec ha4 rfl v c, if_pos hc]
      rfl
    case badCrc =>
      rw [List.append_assoc, exec_hspWriteFrame_crc hs hon haw (by decide) hhub ha hsec ha4 rfl v c, if_neg hc]
      rfl
    case read =>
      rw [exec_hspReadFrame_head hs (by decide) (by decide) ha, hspFrame_served (by decide) (by decide) (by decide) ha _ hon haw ha4
        (fun _ => rfl) (.inl hreq), hspEdges_whole four_le_length_hspHead, List.length_replicate, hspReadServe_word ha hw]
      rfl
    case badAddr =>
      rw [exec_hspWriteFrame_head hs hcrc hhub ha, exec_hspReadFrame_head hs hcrc hhub ha,
        hspFrame_badAddr (by decide) hcrc hhub ha _ hon haw hbad, hspFrame_badAddr (by decide) hcrc hhub ha _ hon haw hbad]
      exact ⟨rfl, rfl⟩
    case noCrc =>
      rw [exec_hspWriteFrame_head hs (by decide) (by decide) ha, exec_hspReadFrame_head hs (by decide) (by decide) ha,
        hspFrame_noCrc (by decide) (by decide) (by decide) ha _ hon haw ha4 (fun _ => rfl) hreq rfl,
        hspFrame_noCrc (by decide) (by decide) (by decide) ha _ hon haw ha4 (fun _ => rfl) hreq rfl]
      exact ⟨rfl, rfl⟩
    case short =>
      rw [exec_hspWriteFrame_write hs ((hspWrites_eq_headD hb).trans hwr), hspFrame_short _ hon haw hb h4]
      rfl
    case edges =>
      rw [← List.append_nil (hspHead 1 0 0 a), exec_hspWriteFrame_head hs (by decide) (by decide) ha,
        hspFrame_served (by decide) (by decide) (by decide) ha _ hon haw ha4 (fun _ => rfl) (.inl hreq), hspCommit_nil,
        hspEdges_eq four_le_length_hspHead]
      rfl

end Sys2Proof.Machine
end

section
/-! SUPPORT. The two-wire target port (R375, R395–R400). -/

namespace Sys2Proof.Machine
open Sys2Proof Sys2Proof.Claims

variable {s t u : State}

/-! ### The words of one transaction -/

/-- The empty value of a transaction's word. -/
abbrev noBytes : Nat → BitVec 4 × W32 := fun _ => (0, 0)

/-- One word of a transaction, `m` its bytes that came and `v` their values. -/
def oneWord (w : Nat) (m : BitVec 4) (v : W32) : Mem (BitVec 4 × W32) := [(w, (m, v))]

theorem read_oneWord (w : Nat) (m : BitVec 4) (v : W32) : Mem.read noBytes (oneWord w m v) w = (m, v) := by simp [oneWord, Mem.read]

theorem write_none (w : Nat) {m : BitVec 4} (v : W32) (hm : m ≠ 0) : Mem.write noBytes [] w (m, v) = oneWord w m v :=
  if_neg fun h => hm (congrArg Prod.fst h)

theorem write_oneWord (w : Nat) {m m' : BitVec 4} (v v' : W32) (hm : m' ≠ 0) :
    Mem.write noBytes (oneWord w m v) w (m', v') = oneWord w m' v' := by
  rw [Mem.write, if_neg fun h => hm (congrArg Prod.fst h)]
  simp [oneWord, Mem.insert]

theorem write_oneWord_empty (w : Nat) (m : BitVec 4) (v : W32) : Mem.write noBytes (oneWord w m v) w (0, 0) = [] := by
  rw [Mem.write, if_pos rfl]
  simp [oneWord, Mem.erase]

/-- Byte `i` of a word replaced. -/
def putByte (i : Nat) (b : BitVec 8) (v : W32) : W32 := (v &&& ~~~(0xFF#32 <<< (8 * i))) ||| ((b.setWidth 32) <<< (8 * i))

theorem putByte_four (b0 b1 b2 b3 : BitVec 8) : putByte 3 b3 (putByte 2 b2 (putByte 1 b1 (putByte 0 b0 0))) = b3 ++ b2 ++ b1 ++ b0 := by
  refine BitVec.eq_of_getLsbD_eq fun i hi => ?_
  simp only [putByte, BitVec.getLsbD_or, BitVec.getLsbD_and, BitVec.getLsbD_not, BitVec.getLsbD_shiftLeft, BitVec.getLsbD_setWidth,
    BitVec.getLsbD_append]
  interval_cases i <;> simp

/-- A byte that does not complete its word. -/
theorem twtBytes_part (b : BitVec 8) (l : List (BitVec 8)) (p : Nat) {got : Mem (BitVec 4 × W32)} {m : BitVec 4} {v : W32} (s : State)
    (hgot : Mem.read noBytes got (p / 4) = (m, v)) (hm : p % 4 = 3 → m ||| 1#4 <<< (p % 4) ≠ 0xF) :
    twtBytes (b :: l) p got s =
      twtBytes l (twtStep p) (Mem.write noBytes got (p / 4) (m ||| 1#4 <<< (p % 4), putByte (p % 4) b v)) s := by
  rw [twtBytes, hgot]
  exact if_neg fun h => hm h.1 h.2

/-- The byte that completes its word commits it. -/
theorem twtBytes_last (b : BitVec 8) (l : List (BitVec 8)) {p : Nat} {got : Mem (BitVec 4 × W32)} {m : BitVec 4} {v : W32} (s : State)
    (hgot : Mem.read noBytes got (p / 4) = (m, v)) (hp : p % 4 = 3) (hm : m ||| 1#4 <<< (p % 4) = 0xF) :
    twtBytes (b :: l) p got s =
      twtBytes l (twtStep p) (Mem.write noBytes got (p / 4) (0, 0)) (twtPut (p / 4) (putByte (p % 4) b v) s) := by
  rw [twtBytes, hgot]
  exact if_pos ⟨hp, hm⟩

/-- The pointer moved. -/
def twtAt (p : Nat) (s : State) : State := { s with hl := { s.hl with twtPtr := p } }

/-- The four bytes of an aligned word. -/
theorem twtBytes_word {o : Nat} (ho : o % 4 = 0) (b0 b1 b2 b3 : BitVec 8) (s : State) :
    twtBytes [b0, b1, b2, b3] o [] s = ([], twtAt (o / 32 * 32 + (o + 4) % 32) (twtPut (o / 4) (b3 ++ b2 ++ b1 ++ b0) s)) := by
  have hdiv : ∀ i < 4, (o + i) / 4 = o / 4 := fun i hi => by omega
  have hmod : ∀ i < 4, (o + i) % 4 = i := fun i hi => by omega
  have hstep : ∀ i < 3, twtStep (o + i) = o + (i + 1) := fun i hi => by rw [twtStep]; omega
  have hlast : twtStep (o + 3) = o / 32 * 32 + (o + 4) % 32 := by rw [twtStep]; omega
  have h0 := twtBytes_part b0 [b1, b2, b3] (o + 0) (got := []) (m := 0) (v := 0) s rfl (by rw [hmod 0 (by decide)]; decide)
  have h1 := twtBytes_part b1 [b2, b3] (o + 1) (got := oneWord (o / 4) 1 (putByte 0 b0 0))
    (m := 1) (v := putByte 0 b0 0) s (by rw [hdiv 1 (by decide)]; exact read_oneWord _ _ _)
    (by rw [hmod 1 (by decide)]; decide)
  have h2 := twtBytes_part b2 [b3] (o + 2) (got := oneWord (o / 4) 3 (putByte 1 b1 (putByte 0 b0 0)))
    (m := 3) (v := putByte 1 b1 (putByte 0 b0 0)) s (by rw [hdiv 2 (by decide)]; exact read_oneWord _ _ _)
    (by rw [hmod 2 (by decide)]; decide)
  have h3 := twtBytes_last b3 [] (p := o + 3) (got := oneWord (o / 4) 7 (putByte 2 b2 (putByte 1 b1 (putByte 0 b0 0))))
    (m := 7) (v := putByte 2 b2 (putByte 1 b1 (putByte 0 b0 0))) s (by rw [hdiv 3 (by decide)]; exact read_oneWord _ _ _) (hmod 3 (by decide))
    (by rw [hmod 3 (by decide)]; decide)
  rw [hdiv 0 (by decide), hmod 0 (by decide), hstep 0 (by decide), show (0 : BitVec 4) ||| 1#4 <<< 0 = 1 by decide,
    write_none _ _ (by decide)] at h0
  rw [hdiv 1 (by decide), hmod 1 (by decide), hstep 1 (by decide), show (1 : BitVec 4) ||| 1#4 <<< 1 = 3 by decide,
    write_oneWord _ _ _ (by decide)] at h1
  rw [hdiv 2 (by decide), hmod 2 (by decide), hstep 2 (by decide), show (3 : BitVec 4) ||| 1#4 <<< 2 = 7 by decide,
    write_oneWord _ _ _ (by decide)] at h2
  rw [hdiv 3 (by decide), hmod 3 (by decide), hlast, write_oneWord_empty, putByte_four] at h3
  exact h0.trans (h1.trans (h2.trans h3))

/-! ### The window (R395) -/

theorem twtMap_row (o : Nat) (s : State) : ∀ x ∈ windowRows s, x.1 ≤ o → o < x.2.1 → twtMap s o = some (x.2.2 + (o - x.1)) := by
  intro x hx h1 h2
  have hhl : hlA = 0x000D_0000 := rfl
  simp only [windowRows, List.mem_cons, List.not_mem_nil, or_false] at hx
  obtain rfl | rfl | rfl | rfl | rfl | rfl | rfl := hx <;> dsimp only at h1 h2 ⊢ <;> grind [twtMap]

theorem twtMap_gap {o : Nat} (s : State) (h : (0x1100 ≤ o ∧ o < 0x2000) ∨ (0x6100 ≤ o ∧ o < 0x7000)) : twtMap s o = none := by
  obtain h | h := h <;> grind [twtMap]

theorem twtPut_mapped {o a : Nat} (ho : o % 4 = 0) (hm : twtMap s o = some a) (v : W32) : twtPut (o / 4) v s = write32 .twt a v s := by
  have hback : 4 * (o / 4) = o := Nat.mul_div_cancel' (Nat.dvd_of_mod_eq_zero ho)
  rw [twtPut, hback, hm]

theorem twtPut_gap {o : Nat} (ho : o % 4 = 0) (hm : twtMap s o = none) (v : W32) : twtPut (o / 4) v s = s := by
  have hback : 4 * (o / 4) = o := Nat.mul_div_cancel' (Nat.dvd_of_mod_eq_zero ho)
  rw [twtPut, hback, hm]

theorem twtWord_mapped {o a : Nat} (ho : o % 4 = 0) (hm : twtMap s o = some a) :
    twtWord (o / 4) s = (readValue s .twt a, readEffect .twt a s) := by
  have hback : 4 * (o / 4) = o := Nat.mul_div_cancel' (Nat.dvd_of_mod_eq_zero ho)
  rw [twtWord, hback, hm]
  rfl

theorem twtWord_gap {o : Nat} (ho : o % 4 = 0) (hm : twtMap s o = none) : twtWord (o / 4) s = (0, s) := by
  have hback : 4 * (o / 4) = o := Nat.mul_div_cancel' (Nat.dvd_of_mod_eq_zero ho)
  rw [twtWord, hback, hm]

/-! ### Reads (R396, R397) -/

/-- A word once sampled gives the transaction's later bytes of it. -/
theorem twtRead_sampled (n p : Nat) (v : W32) (out : List (BitVec 8)) (s : State) :
    twtRead (n + 1) p [(p / 4, some v)] out s =
      twtRead n ((p + 1) % 65536) [(p / 4, some v)] (out ++ [v.extractLsb' (8 * (p % 4)) 8]) s := by
  have hread : Mem.read (fun _ => (none : Option W32)) [(p / 4, some v)] (p / 4) = some v := by simp [Mem.read]
  have hwrite : Mem.write (fun _ => (none : Option W32)) [(p / 4, some v)] (p / 4) (some v) = [(p / 4, some v)] := by
    simp [Mem.write, Mem.insert]
  have hbyte : BitVec.ofNat 8 (v.toNat / 2 ^ (8 * (p % 4))) = v.extractLsb' (8 * (p % 4)) 8 :=
    BitVec.eq_of_toNat_eq (by rw [BitVec.toNat_ofNat, BitVec.extractLsb'_toNat, Nat.shiftRight_eq_div_pow])
  simp only [twtRead, hread, hwrite, hbyte]

/-- The first byte of a word samples it. -/
theorem twtRead_first (n p : Nat) (out : List (BitVec 8)) (s : State) :
    twtRead (n + 1) p [] out s =
      twtRead n ((p + 1) % 65536) [(p / 4, some (twtWord (p / 4) s).1)] (out ++ [(twtWord (p / 4) s).1.extractLsb' (8 * (p % 4)) 8])
        (twtWord (p / 4) s).2 := by
  have hbyte : ∀ v : W32, BitVec.ofNat 8 (v.toNat / 2 ^ (8 * (p % 4))) = v.extractLsb' (8 * (p % 4)) 8 := fun v =>
    BitVec.eq_of_toNat_eq (by rw [BitVec.toNat_ofNat, BitVec.extractLsb'_toNat, Nat.shiftRight_eq_div_pow])
  rw [← hbyte]
  rfl

/-- The four bytes of an aligned word. -/
theorem twtRead_word {o : Nat} (ho : o % 4 = 0) (hlt : o < 65536) (s : State) :
    twtRead 4 o [] [] s = ((msbFirst (twtWord (o / 4) s).1).reverse, twtAt ((o + 4) % 65536) (twtWord (o / 4) s).2) := by
  have hnext : ∀ i < 3, (o + i + 1) % 65536 = o + (i + 1) := fun i hi => by omega
  have hlast : (o + 3 + 1) % 65536 = (o + 4) % 65536 := rfl
  have hdiv : ∀ i < 4, (o + i) / 4 = o / 4 := fun i hi => by omega
  have hmod : ∀ i < 4, (o + i) % 4 = i := fun i hi => by omega
  have h1 := twtRead_sampled 2 (o + 1) (twtWord (o / 4) s).1
  have h2 := twtRead_sampled 1 (o + 2) (twtWord (o / 4) s).1
  have h3 := twtRead_sampled 0 (o + 3) (twtWord (o / 4) s).1
  rw [hdiv 1 (by decide), hmod 1 (by decide), hnext 1 (by decide)] at h1
  rw [hdiv 2 (by decide), hmod 2 (by decide), hnext 2 (by decide)] at h2
  rw [hdiv 3 (by decide), hmod 3 (by decide)] at h3
  rw [twtRead_first, ho, show (o + 1) % 65536 = o + 1 from hnext 0 (by decide), h1, h2, h3]
  rfl

/-! ### The transactions -/

/-- An address match of the S0 hub is served at once (R399). -/
theorem twtTake_awake (x : TwtTx) (hon : bit (cfgR s (hlA + 4)) 2 = true) (hheld : s.hl.twtHeld = none) (ha : awake s) :
    twtTake x s = twtServe x s := by
  obtain ⟨hcur, hphase⟩ := ha
  have hon' : twtOn s = true := hon
  rw [twtTake, hon', hheld, requestWake_awake 9 s hcur hphase]
  exact if_pos hcur

/-- Switched off, or with a transaction held, the port answers nothing. -/
theorem twtTake_off (x : TwtTx) (h : bit (cfgR s (hlA + 4)) 2 = false ∨ s.hl.twtHeld ≠ none) : twtTake x s = s := by
  refine if_pos ?_
  obtain h | h := h
  · have hoff : twtOn s = false := h
    rw [hoff]
    rfl
  · rw [Option.isSome_iff_ne_none.mpr h, Bool.or_true]

/-- In sleep it waits, and wakes the hub. -/
theorem twtTake_asleep (x : TwtTx) (hon : bit (cfgR s (hlA + 4)) 2 = true) (hheld : s.hl.twtHeld = none) (hw : wokenBy 9 s u) :
    twtTake x s = { u with hl := { u.hl with twtHeld := some (x, ticks s) } } := by
  have hon' : twtOn s = true := hon
  rw [twtTake, hon', hheld, requestWake_asleep hw]
  obtain ⟨hcur, -, rfl⟩ := hw
  exact if_neg hcur

section
variable (hs : stopped s = false)
include hs

theorem exec_twtPointerWrite (p : BitVec 16) : exec (.twtPointerWrite p) s = .next (twtTake (.write (some p) [] false) s) := live_running hs _

theorem exec_twtWrite (p : BitVec 16) (bytes : List (BitVec 8)) : exec (.twtWrite p bytes) s = .next (twtTake (.write (some p) bytes false) s) :=
  live_running hs _

theorem exec_twtRead (n : Nat) : exec (.twtRead n) s = .next (twtTake (.read n) s) := live_running hs _

theorem exec_twtRsack (p : Option (BitVec 16)) (bytes : List (BitVec 8)) : exec (.twtRsack p bytes) s = .next (twtTake (.write p bytes true) s) :=
  live_running hs _

theorem exec_alertResponse (won : Bool) : exec (.alertResponse won) s = .next (if s.hl.alert then twtTake (.alert won) s else s) := live_running hs _

theorem exec_twtStretchTimeout : exec .twtStretchTimeout s = match s.hl.twtHeld with
    | some (x, t) =>
      if reached s (t + 800000) then
        let s := bump (hlA + 0x80) (twtErr 3 { s with hl := { s.hl with twtHeld := none } })
        .next (match x with | .read n => { s with answer := List.replicate n 0xFF } | _ => { s with answer := [] })
      else .next s
    | none => .next s := live_running hs _
end

/-! ### The transactions of an S0 hub -/

/-- A write of an aligned word within the window commits it. -/
theorem twtServe_write_word {o : Nat} (ho : o % 4 = 0) (hlt : o < 65536) (b0 b1 b2 b3 : BitVec 8) (s : State) :
    twtServe (.write (some (BitVec.ofNat 16 o)) [b0, b1, b2, b3] false) s =
      twtAt (o / 32 * 32 + (o + 4) % 32) (twtPut (o / 4) (b3 ++ b2 ++ b1 ++ b0) (bump (hlA + 0x70) s)) := by
  have hptr : (BitVec.ofNat 16 o).toNat = o := by rw [BitVec.toNat_ofNat, Nat.mod_eq_of_lt hlt]
  have hserve : twtServe (.write (some (BitVec.ofNat 16 o)) [b0, b1, b2, b3] false) s =
    let r := twtBytes [b0, b1, b2, b3] (BitVec.ofNat 16 o).toNat [] (bump (hlA + 0x70) s)
    twtPartial r.1 r.2 := rfl
  rw [hserve, hptr, twtBytes_word ho]
  rfl

/-- A part of a word is discarded and counted. -/
theorem twtServe_write_byte (p : BitVec 16) (b : BitVec 8) (s : State) : twtServe (.write (some p) [b] false) s =
    bump (hlA + 0x78) (twtFlag 1 (twtAt (p.toNat / 32 * 32 + (p.toNat + 1) % 32) (bump (hlA + 0x70) s))) := by
  have hne : (0 : BitVec 4) ||| 1#4 <<< (p.toNat % 4) ≠ 0 ∧ ((0 : BitVec 4) ||| 1#4 <<< (p.toNat % 4) ≠ 0xF) := by
    have hlt : p.toNat % 4 < 4 := Nat.mod_lt _ (by decide)
    interval_cases p.toNat % 4 <;> decide
  have hserve : twtServe (.write (some p) [b] false) s =
    let r := twtBytes [b] p.toNat [] (bump (hlA + 0x70) s)
    twtPartial r.1 r.2 := rfl
  rw [hserve, twtBytes_part b [] p.toNat (got := []) (m := 0) (v := 0) _ rfl fun _ => hne.2, write_none _ _ hne.1]
  rfl

theorem twtServe_read_word {o : Nat} (ho : o % 4 = 0) (hlt : o < 65536) (hptr : s.hl.twtPtr = o) :
    twtServe (.read 4) s = { twtAt ((o + 4) % 65536) (twtWord (o / 4) (bump (hlA + 0x74) s)).2 with
      answer := (msbFirst (twtWord (o / 4) (bump (hlA + 0x74) s)).1).reverse.map (·.setWidth 64) } := by
  have hserve : twtServe (.read 4) s =
    let r := twtRead 4 s.hl.twtPtr [] [] (bump (hlA + 0x74) s)
    { r.2 with answer := r.1.map (·.setWidth 64) } := rfl
  rw [hserve, hptr, twtRead_word ho hlt]

/-- Every row of the window ends at 65,536 or below. -/
theorem windowRows_end : ∀ x ∈ windowRows s, x.2.1 ≤ 65536 := by simp [windowRows]

theorem twtMap_bump (o a : Nat) (s : State) : twtMap (bump a s) o = twtMap s o := rfl

theorem answer_zero : (msbFirst 0).reverse.map (·.setWidth 64) = [(0 : W64), 0, 0, 0] := by decide

/-- Settles the two-wire port's half of O48. -/
theorem twoWirePort : TwoWirePort := by
  intro s hs
  dsimp only
  refine ⟨fun h p q bytes n won => ?off, fun hon ha => ?awake, fun h won => ?noAlert, fun u hon hw => ?asleep,
    fun x t0 hx => ?stretch, fun hn => ?idle⟩
  case off =>
    simp only [exec_twtPointerWrite hs, exec_twtWrite hs, exec_twtRead hs, exec_twtRsack hs, exec_alertResponse hs, twtTake_off _ h, ite_self,
      and_self]
  case awake =>
    obtain ⟨hon, hheld⟩ := hon
    have hserve : ∀ x, twtTake x s = twtServe x s := fun x => twtTake_awake x hon hheld ha
    refine ⟨fun p => ⟨?pointer, fun b => ?byte, ?rsack, ?rsackNone⟩,
      fun x hx o h1 h2 ho => ⟨fun b0 b1 b2 b3 => ?word, fun hptr a haddr => ?read⟩,
      fun o hgap ho => ⟨fun b0 b1 b2 b3 => ?gapWord, fun hptr => ?gapRead⟩, fun hal => ⟨?won, ?lost⟩⟩
    case pointer => rw [exec_twtPointerWrite hs, hserve]; rfl
    case byte => rw [exec_twtWrite hs, hserve, twtServe_write_byte]; rfl
    case rsack => rw [exec_twtRsack hs, hserve]; rfl
    case rsackNone => rw [exec_twtRsack hs, hserve]; rfl
    case word =>
      have hlt : o < 65536 := Nat.lt_of_lt_of_le h2 (windowRows_end x hx)
      rw [exec_twtWrite hs, hserve, twtServe_write_word ho hlt, twtPut_mapped ho ((twtMap_bump _ _ _).trans (twtMap_row o s x hx h1 h2))]
      rfl
    case read =>
      have hlt : o < 65536 := Nat.lt_of_lt_of_le h2 (windowRows_end x hx)
      rw [exec_twtRead hs, hserve, twtServe_read_word ho hlt hptr, twtWord_mapped ho ((twtMap_bump _ _ _).trans (twtMap_row o s x hx h1 h2)),
        ← haddr]
      rfl
    case gapWord =>
      rw [exec_twtWrite hs, hserve, twtServe_write_word ho (by omega), twtPut_gap ho (twtMap_gap _ hgap)]
      rfl
    case gapRead =>
      rw [exec_twtRead hs, hserve, twtServe_read_word ho (by omega) hptr, twtWord_gap ho (twtMap_gap _ hgap), Nat.mod_eq_of_lt (by omega), answer_zero]
      rfl
    case won => rw [exec_alertResponse hs, hal, if_pos rfl, hserve]; rfl
    case lost => rw [exec_alertResponse hs, hal, if_pos rfl, hserve]; rfl
  case noAlert => rw [exec_alertResponse hs, h, if_neg Bool.false_ne_true]
  case asleep =>
    obtain ⟨hon, hheld⟩ := hon
    simp only [exec_twtPointerWrite hs, exec_twtWrite hs, exec_twtRead hs, twtTake_asleep _ hon hheld hw, implies_true, and_self]
  case stretch =>
    rw [exec_twtStretchTimeout hs, hx]
    refine ⟨fun h => (if_pos (decide_eq_true h)).trans ?_, fun h => if_neg (by simpa [reached] using h)⟩
    cases x <;> rfl
  case idle => rw [exec_twtStretchTimeout hs, hn]

/-- Settles O48: the serial port's frames and the two-wire port's transactions. -/
theorem smallHostPorts : Obligations.SmallHostPorts := ⟨serialPort, twoWirePort⟩

end Sys2Proof.Machine
end

section
/-! SUPPORT. The choice of the power state, preparation, sleep and wake (R418–R428). -/

namespace Sys2Proof.Machine
open Sys2Proof Sys2Proof.Claims

variable {s t u : State} {p : PState}

/-! ### The choice (R418) -/

theorem pcode_pstate {n : Nat} (h : n ≤ 3) : pcode (pstate n) = n := by interval_cases n <;> rfl

theorem pcode_le_three (p : PState) : pcode p ≤ 3 := by cases p <;> decide

theorem pcode_raiseState (wake : Option Rat) (s : State) {n : Nat} (h : n ≤ 3) : pcode (raiseState wake s n) ≤ n := by
  induction n with
  | zero => exact Nat.le_refl 0
  | succ n ih =>
    have hdown : pcode (raiseState wake s n) ≤ n + 1 := Nat.le_succ_of_le (ih (Nat.le_of_succ_le h))
    have hstay : pcode (pstate (n + 1)) ≤ n + 1 := Nat.le_of_eq (pcode_pstate h)
    unfold raiseState
    split
    · split
      · exact hdown
      · exact hstay
    · exact hstay

/-- The state chosen is no deeper than the permitted one. -/
theorem pcode_choice (s : State) : pcode (choice s) ≤ pcode (permitted s) := by
  have hle : ((List.range (pcode (permitted s) + 1)).reverse.find? (fun p => !vetoed s (pstate p))).getD 0 ≤ pcode (permitted s) := by
    cases h : (List.range (pcode (permitted s) + 1)).reverse.find? (fun p => !vetoed s (pstate p)) with
    | none => exact Nat.zero_le _
    | some n => exact Nat.lt_succ_iff.mp (List.mem_range.mp (List.mem_reverse.mp (List.mem_of_find?_eq_some h)))
  exact (pcode_raiseState _ s (hle.trans (pcode_le_three _))).trans hle

theorem pcode_permitted (s : State) : pcode (permitted s) ≤ min (pcode s.adm.deepest) (bits (cfgR s (pwrA + 4)) 1 0) := by
  unfold permitted
  dsimp only
  split
  · exact Nat.le_of_eq (pcode_pstate ((Nat.min_le_left _ _).trans (pcode_le_three _)))
  · exact Nat.zero_le _

theorem choice_disabled (h : bit (cfgR s (pwrA + 4)) 2 = false) : choice s = .s0 := by
  have hp : permitted s = .s0 := if_neg (by simp [h])
  have hle : pcode (choice s) ≤ 0 := (pcode_choice s).trans (by rw [hp]; exact Nat.le_refl 0)
  cases hc : choice s with
  | s0 => rfl
  | _ => rw [hc] at hle; exact absurd hle (by decide)

/-! ### Preparation (R420) -/

theorem exec_sleepPreparation (hs : stopped s = false) : exec .sleepPreparation s = match s.power.cur, s.power.phase with
    | .s0, .preparing p => if newVeto s p then .next (cancelSleep s) else .next s
    | .s0, .awake =>
      let p := choice s
      if p = .s0 then .next s
      else if !idleLong s then .next (watchIdle s)
      else
        let s := { s with power := { s.power with phase := .preparing p, idleSince := none } }
        .next (if p = .s3 then prepareS3 s else s)
    | _, _ => .next s := live_running hs _

theorem exec_sleepEntry (d : Nat) (hs : stopped s = false) : exec (.sleepEntry d) s = match s.power.cur, s.power.phase with
    | .s0, .preparing p => if newVeto s p then .next (cancelSleep s) else if vetoed s p then .next s else .next (enterSleep p d s)
    | _, _ => .next s := live_running hs _

section
variable (hs : stopped s = false)
include hs

theorem exec_sleepPreparation_asleep (h : s.power.cur ≠ .s0) : exec .sleepPreparation s = .next s := by
  rw [exec_sleepPreparation hs]
  split
  · next hc _ => exact absurd hc h
  · next hc _ => exact absurd hc h
  · rfl

theorem exec_sleepEntry_asleep (d : Nat) (h : s.power.cur ≠ .s0) : exec (.sleepEntry d) s = .next s := by
  rw [exec_sleepEntry d hs]
  split
  · next hc _ => exact absurd hc h
  · rfl

theorem exec_sleepPreparation_awake (h : awake s) : exec .sleepPreparation s =
    if choice s = .s0 then .next s
    else if !idleLong s then .next (watchIdle s)
    else .next (if choice s = .s3 then prepareS3 { s with power := { s.power with phase := .preparing (choice s), idleSince := none } }
      else { s with power := { s.power with phase := .preparing (choice s), idleSince := none } }) := by
  rw [exec_sleepPreparation hs, h.1, h.2]

theorem exec_sleepPreparation_preparing (hc : s.power.cur = .s0) (hp : s.power.phase = .preparing p) :
    exec .sleepPreparation s = .next (if newVeto s p then cancelSleep s else s) := by
  rw [exec_sleepPreparation hs, hc, hp]
  exact (apply_ite Host.Outcome.next _ _ _).symm

theorem exec_sleepEntry_awake (d : Nat) (h : awake s) : exec (.sleepEntry d) s = .next s := by
  rw [exec_sleepEntry d hs, h.1, h.2]

theorem exec_sleepEntry_preparing (d : Nat) (hc : s.power.cur = .s0) (hp : s.power.phase = .preparing p) :
    exec (.sleepEntry d) s = .next (if newVeto s p then cancelSleep s else if vetoed s p then s else enterSleep p d s) := by
  rw [exec_sleepEntry d hs, hc, hp]
  dsimp only
  split
  · rfl
  · split <;> rfl
end

theorem newVeto_iff : newVeto s p = true ↔ ∃ i < 12, i ≠ 7 ∧ vetoes s p i = true := by simp [newVeto]

/-- The time since which the choice is deeper than S0 is kept. -/
theorem watchIdle_awake (h : s.power.cur = .s0) (hc : choice s ≠ .s0) : watchIdle s =
    if s.power.idleSince.isSome then s else { s with power := { s.power with idleSince := some (ticks s) } } := by
  rw [watchIdle, if_neg (by simp [h]), if_neg hc]

/-! ### Entry (R39, R40, R420, R424) -/

/-- The power controller of a hub that has entered a state. -/
def sleepingIn (p : PState) (s : State) : Power :=
  { s.power with cur := p, last := p, phase := .awake, idleSince := none, wakeReq := 0, entered := ticks s }

/-- Device time with the accumulator at an instant, and T_ent (R40). -/
def latchedAt (e : BitVec 96) (now : W64) (b : TimeBase) : TimeBase := { b with acc := e, edge := e, tEnt := now, handed := false, woscN := 0 }

theorem latchedAt_kept (e : BitVec 96) (now : W64) (b : TimeBase) : (latchedAt e now b).tEnt = now ∧ (latchedAt e now b).fast = b.fast := ⟨rfl, rfl⟩

/-- Device time at entry: the accumulator at the last crystal edge, `d` eighths of a tick ago. -/
def latched (d : Nat) (now : W64) (s : State) : TimeBase :=
  latchedAt ((s.tb.fast >>> 29) <<< 29 - BitVec.ofNat 96 (d * 2 ^ 29)) now s.tb

theorem latchTime_eq (d : Nat) (s : State) : latchTime d s = setTb (latched d (ticks s) s) s := rfl

theorem latched_kept (d : Nat) (now : W64) (s : State) : (latched d now s).tEnt = now ∧ (latched d now s).fast = s.tb.fast := latchedAt_kept _ _ _

theorem latched_bump (a d : Nat) (now : W64) (s : State) : latched d now (bump a s) = latched d now s := rfl

/-- The power controller enters a state at an instant. -/
def powerEnters (p : PState) (now : W64) (v : State) : State :=
  { v with power := { v.power with cur := p, last := p, phase := .awake, idleSince := none, wakeReq := 0, entered := now } }

/-- The entry is counted, and device time is latched below S1. -/
def entryLatched (p : PState) (d : Nat) (s : State) : State :=
  if p = .s1 then bump (pwrEntA (pcode p)) s else latchTime d (bump (pwrEntA (pcode p)) s)

/-- The hub that has entered a state, before S3 takes batch SRAM away. -/
def asleepIn (p : PState) (d : Nat) (s : State) : State := powerEnters p (ticks s) (entryLatched p d s)

theorem enterSleep_eq (p : PState) (d : Nat) (s : State) :
    enterSleep p d s = if p = .s3 then loseSram (asleepIn p d s) else asleepIn p d s := rfl

/-- An entry counts, and moves device time; nothing else. -/
theorem entryLatched_eq (p : PState) (d : Nat) (s : State) :
    entryLatched p d s = setTb (if p = .s1 then s.tb else latched d (ticks s) s) (bump (pwrEntA (pcode p)) s) := by
  unfold entryLatched
  rw [latchTime_eq, latched_bump, ticks_bump]
  split <;> rfl

theorem asleepIn_power (p : PState) (d : Nat) (s : State) : (asleepIn p d s).power = sleepingIn p s := by
  rw [asleepIn, entryLatched_eq]
  rfl

theorem asleepIn_tb (p : PState) (d : Nat) (s : State) : (asleepIn p d s).tb = if p = .s1 then s.tb else latched d (ticks s) s := by
  rw [asleepIn, entryLatched_eq]
  rfl

theorem asleepIn_cnt (p : PState) (d : Nat) (s : State) : (asleepIn p d s).cnt = (bump (pwrEntA (pcode p)) s).cnt := by
  rw [asleepIn, entryLatched_eq]
  rfl

theorem asleepIn_frame (p : PState) (d : Nat) (s : State) : { asleepIn p d s with power := s.power, tb := s.tb, cnt := s.cnt } = s := by
  rw [asleepIn, entryLatched_eq]
  rfl

/-- Device time never goes back at an entry (R40). -/
theorem ticks_asleepIn (d : Nat) (hc : s.power.cur = .s0) (hp : p ≠ .s0) : ticks s ≤ ticks (asleepIn p d s) := by
  have hnow : ticks s = (s.tb.fast >>> 32).setWidth 64 := if_pos (by simp [fastRuns, hc])
  by_cases h1 : p = .s1
  · subst h1
    have hrun : fastRuns (asleepIn .s1 d s) = true := by simp [fastRuns, asleepIn_power, sleepingIn]
    rw [hnow, ticks, hrun, asleepIn_tb]
    exact BitVec.le_refl _
  · have hstop : fastRuns (asleepIn p d s) = false := by simp [fastRuns, asleepIn_power, asleepIn_tb, sleepingIn, latched, latchedAt, hp, h1]
    rw [ticks.eq_def (asleepIn p d s), hstop, asleepIn_tb, if_neg h1, if_neg Bool.false_ne_true]
    dsimp only
    split
    · exact BitVec.le_refl _
    · next h => exact BitVec.not_lt.mp h

/-- What S3 takes away is batch SRAM's own (R424). -/
def SramOnly (s t : State) : Prop :=
  { t with fresh := s.fresh, sram := s.sram, sramLost := s.sramLost, poisoned := s.poisoned } = s

theorem loseSram_only (s : State) : SramOnly s (loseSram s) := rfl

theorem SramOnly.power (h : SramOnly s t) : t.power = s.power := (congrArg State.power h :)
theorem SramOnly.tb (h : SramOnly s t) : t.tb = s.tb := (congrArg State.tb h :)
theorem SramOnly.cnt (h : SramOnly s t) : t.cnt = s.cnt := (congrArg State.cnt h :)

theorem SramOnly.ticks (h : SramOnly s t) : ticks t = ticks s := by
  unfold Machine.ticks fastRuns
  rw [h.power, h.tb]

/-- Only the default of the key itself plays a part in reading it. -/
theorem Mem.read_default {α : Type} {d e : Nat → α} {a : Nat} {m : Mem α} (h : d a = e a) : Mem.read d m a = Mem.read e m a := by
  induction m with
  | nil => exact h
  | cons kv m ih => rw [Mem.read, Mem.read, ih, h]

/-- A retained block of batch SRAM is kept. -/
theorem sramR_loseSram {x : Nat} (hw : Mem.wf (sramD s) s.sram = true) (hl : Mem.wf (fun _ => 0) s.sramLost = true)
    (hr : bit (s.power.retain.getD (x / 32768 / 32) 0) (x / 32768 % 32) = true) : sramR (loseSram s) x = sramR s x := by
  have hkeep : x / 32768 ∉ (List.range 128).filter (fun i => !bit (s.power.retain.getD (i / 32) 0) (i % 32)) := by
    rw [List.mem_filter, hr]
    exact fun h => absurd h.2 (by decide)
  have hlost : Mem.read (fun _ => 0) (loseSram s).sramLost (x / 32768) = Mem.read (fun _ => 0) s.sramLost (x / 32768) :=
    read_foldl_lost _ (s.fresh + 1) s.sramLost _ hl hkeep
  have hdef : sramD (loseSram s) x = sramD s x := by rw [sramD, sramD, hlost]
  have hread : sramR (loseSram s) x = Mem.read (sramD (loseSram s)) (s.sram.filter (fun kv =>
    !((List.range 128).filter (fun i => !bit (s.power.retain.getD (i / 32) 0) (i % 32))).contains (kv.1 / 32768))) x := rfl
  rw [hread, Mem.read_default hdef, Mem.read_filter (sramD s) (fun k =>
    !((List.range 128).filter (fun i => !bit (s.power.retain.getD (i / 32) 0) (i % 32))).contains (k / 32768)) x 0 s.sram hw,
    if_pos (by rw [List.contains_eq_mem, decide_eq_false hkeep]; rfl)]
  rfl

theorem sramR_congr {x : Nat} (hm : t.sram = s.sram) (hl : t.sramLost = s.sramLost) : sramR t x = sramR s x := by
  unfold sramR sramD
  rw [hm, hl]

theorem sramD_congr (hl : t.sramLost = s.sramLost) : sramD t = sramD s := by
  unfold sramD
  rw [hl]

theorem sramR_enterS3 {x : Nat} (d : Nat) (hw : Mem.wf (sramD s) s.sram = true) (hl : Mem.wf (fun _ => 0) s.sramLost = true)
    (hr : bit (s.power.retain.getD (x / 32768 / 32) 0) (x / 32768 % 32) = true) : sramR (loseSram (asleepIn p d s)) x = sramR s x := by
  have hsram : (asleepIn p d s).sram = s.sram := (congrArg State.sram (asleepIn_frame p d s) :)
  have hlost : (asleepIn p d s).sramLost = s.sramLost := (congrArg State.sramLost (asleepIn_frame p d s) :)
  have hretain : (asleepIn p d s).power.retain = s.power.retain := by rw [asleepIn_power]; rfl
  rw [sramR_loseSram (by rw [sramD_congr hlost, hsram]; exact hw) (by rw [hlost]; exact hl) (by rw [hretain]; exact hr),
    sramR_congr hsram hlost]

/-- What an entry does. -/
theorem enterSleep_entered (d : Nat) (hc : s.power.cur = .s0) (hp : p ≠ .s0) :
    (enterSleep p d s).power = sleepingIn p s ∧
    cntR (enterSleep p d s) (pwrA + 0x5C + 4 * pcode p) = plusOne (cntR s (pwrA + 0x5C + 4 * pcode p)) ∧ ticks s ≤ ticks (enterSleep p d s) ∧
    (p = .s1 → (enterSleep p d s).tb = s.tb) ∧ (p ≠ .s1 → (enterSleep p d s).tb.tEnt = ticks s ∧ (enterSleep p d s).tb.fast = s.tb.fast) ∧
    (p ≠ .s3 → { enterSleep p d s with power := s.power, tb := s.tb, cnt := s.cnt } = s) ∧
    (p = .s3 → Mem.wf (sramD s) s.sram = true → Mem.wf (fun _ => 0) s.sramLost = true → ∀ x < 4194304,
      bit (s.power.retain.getD (x / 32768 / 32) 0) (x / 32768 % 32) = true → sramR (enterSleep p d s) x = sramR s x) := by
  have hsame : (enterSleep p d s).power = (asleepIn p d s).power ∧ (enterSleep p d s).tb = (asleepIn p d s).tb ∧
      (enterSleep p d s).cnt = (asleepIn p d s).cnt ∧ ticks (enterSleep p d s) = ticks (asleepIn p d s) := by
    rw [enterSleep_eq]
    split
    · have h := loseSram_only (asleepIn p d s)
      exact ⟨h.power, h.tb, h.cnt, h.ticks⟩
    · exact ⟨rfl, rfl, rfl, rfl⟩
  obtain ⟨hpower, htb, hcnt, hticks⟩ := hsame
  rw [hpower, htb, hticks, asleepIn_power, asleepIn_tb]
  refine ⟨rfl, ?_, ticks_asleepIn d hc hp, fun h => if_pos h, fun h => by rw [if_neg h]; exact latched_kept d (ticks s) s, fun h => ?_, fun h hw hl x _ hr => ?_⟩
  · rw [cntR, hcnt, asleepIn_cnt, ← satInc_eq_plusOne]
    exact cntR_bump s _
  · rw [enterSleep_eq, if_neg h]
    exact asleepIn_frame p d s
  · rw [enterSleep_eq, if_pos h]
    exact sramR_enterS3 d hw hl hr

/-! ### The wake (R422, R423, R428) -/

/-- What a wake does to the power controller and to device time. -/
def wakeBegun (dur : Nat) (s : State) : State :=
  let v := countResidency s
  let v := { v with power :=
    { v.power with
      cur := .s0, wakeSrc := v.power.wakeReq, wakeT := v.power.wakeBegan, wakeReq := 0, wakeDur := BitVec.ofNat 32 dur,
      idleSince := none, phase := .awake } }
  setTb
    { v.tb with
      handed := false, expect := none, hostRef := ticks v, stepInInterval := false
      step := v.tb.step.map (fun p => { p with tApply := ticks v + 4096 }) } v

/-- A wake that lasted longer than W of its state is counted, flagged and journalled (R423). -/
def lateWake (dur : Nat) (s : State) : State := journalPower 0 dur (bump (pwrA + 0x70) (raise pwrFlagsA 0 s))

theorem wakeUp_eq (dur : Nat) (image : Bool) (s : State) : wakeUp dur image s =
    let v := wakeRing (wakeBegun dur s)
    let v := match v.tb.epochDue with | some t => recordEpoch t v | none => v
    let v := if decide (wakeTicks (pcode s.power.cur) < dur) then lateWake dur v else v
    let v :=
      if !decide (s.power.cur = .s3) then v
      else if image then reportUnread (afterS3 v)
      else reportUnread (restartBlocks (journalPower 1 dur (bump (pwrA + 0x74) (raise pwrFlagsA 1 v))))
    seeAlerts v := rfl

theorem seeAlerts_none (h : s.sbps = []) : seeAlerts s = s := forEach_same fun p _ => if_neg (by
  have hg : getSbp s p = {} := by rw [getSbp, h]; rfl
  rw [hg]
  simp)

theorem countResidency_kept (s : State) : { countResidency s with cnt := s.cnt, power := s.power } = s := rfl

theorem wakeBegun_kept (dur : Nat) (s : State) : { wakeBegun dur s with cnt := s.cnt, power := s.power, tb := s.tb } = s := rfl

theorem wakeBegun_power (dur : Nat) (s : State) : (wakeBegun dur s).power.cur = .s0 ∧ (wakeBegun dur s).power.phase = .awake ∧
    (wakeBegun dur s).power.wakeSrc = s.power.wakeReq ∧ (wakeBegun dur s).power.wakeT = s.power.wakeBegan ∧
    (wakeBegun dur s).power.wakeDur = BitVec.ofNat 32 dur ∧ (wakeBegun dur s).power.wakeReq = 0 := ⟨rfl, rfl, rfl, rfl, rfl, rfl⟩

theorem wakeBegun_tb (dur : Nat) (s : State) : (wakeBegun dur s).tb.fast = s.tb.fast ∧ (wakeBegun dur s).tb.epochDue = s.tb.epochDue := ⟨rfl, rfl⟩

theorem wakeRing_alone (h : onRing s = false) : wakeRing s = s := if_neg (by simp [h])

theorem lateWake_kept (dur : Nat) (s : State) : (lateWake dur s).power = s.power ∧ (lateWake dur s).tb = s.tb ∧ (lateWake dur s).sbps = s.sbps ∧
    (lateWake dur s).hl = s.hl ∧ (lateWake dur s).config = s.config := by
  refine ⟨?_, ?_, ?_, ?_, ?_⟩ <;> simp [lateWake, journalPower]

/-- The queue's own count apart, a journal entry counts nothing. -/
theorem cntR_journal (k : Nat) (x : Sample) (ws : List W48) {a : Nat} (h : a ≠ jqLostA) (hw : Mem.wf (fun _ => 0) s.cnt = true) :
    cntR (journal k x ws s) a = cntR s a := by
  unfold journal
  split
  · rfl
  · exact Mem.read_write_other _ _ _ _ _ h hw

theorem lateWake_counts (dur : Nat) (hw : Mem.wf (fun _ => 0) s.cnt = true) :
    cntR (lateWake dur s) (pwrA + 0x70) = plusOne (cntR s (pwrA + 0x70)) ∧ bit (flagR (lateWake dur s) (pwrA + 0x20)) 0 = true := by
  refine ⟨?_, ?_⟩
  · rw [lateWake, journalPower, cntR_journal _ _ _ (by decide) (Mem.wf_write _ _ _ _ hw), cntR_bump, satInc_eq_plusOne]
    rfl
  · have hflag : ∀ v : State, flagR (bump (pwrA + 0x70) v) (pwrA + 0x20) = flagR v (pwrA + 0x20) := fun _ => rfl
    rw [lateWake, journalPower, flagR_journal _ _ _ (by decide), hflag, show pwrFlagsA = pwrA + 0x20 from rfl, flagR_raise]
    exact bit_raised (by decide) _

/-- The time spent asleep counts under its own state only. -/
theorem wakeBegun_cnt (dur : Nat) (hw : Mem.wf (fun _ => 0) s.cnt = true) :
    cntR (wakeBegun dur s) (pwrA + 0x70) = cntR s (pwrA + 0x70) ∧ Mem.wf (fun _ => 0) (wakeBegun dur s).cnt = true := by
  have hother : pwrA + 0x70 ≠ pwrResA (pcode s.power.cur) := by unfold pwrResA; omega
  exact ⟨Mem.read_write_other _ _ _ _ _ hother hw, Mem.wf_write _ _ _ _ hw⟩

theorem serveWaiting_idle (hheld : s.hl.held = []) (htwt : s.hl.twtHeld = none) (hr : s.config.reloadDue = false) : serveWaiting s = s := by
  have hhl : ({ s.hl with held := [] } : Hl) = s.hl := by rw [← hheld]
  unfold serveWaiting
  rw [hheld, hhl]
  dsimp only [List.foldl_nil]
  rw [htwt]
  exact reloadWhenReady_idle hr

theorem exec_wake (dur : Nat) (image : Bool) (hs : stopped s = false) :
    exec (.wake dur image) s = .next (if wakeReady s then serveWaiting (wakeUp dur image s) else s) := live_running hs _

section
variable (hrole : s.straps.role = 0) (hepoch : s.tb.epochDue = none) (hsbps : s.sbps = []) (h3 : s.power.cur ≠ .s3)
include hrole hepoch hsbps h3

/-- A wake from S1 or S2 of a hub that stands alone. -/
theorem wakeUp_alone (dur : Nat) (image : Bool) : wakeUp dur image s =
    if wakeTicks (pcode s.power.cur) < dur then lateWake dur (wakeBegun dur s) else wakeBegun dur s := by
  have hstraps : (wakeBegun dur s).straps = s.straps := (congrArg State.straps (wakeBegun_kept dur s) :)
  have hring : onRing (wakeBegun dur s) = false := by simp [onRing, isPrimary, isSecondary, hstraps, hrole]
  have hdue : (wakeBegun dur s).tb.epochDue = none := (wakeBegun_tb dur s).2.trans hepoch
  have hports : (wakeBegun dur s).sbps = [] := (congrArg State.sbps (wakeBegun_kept dur s) :).trans hsbps
  rw [wakeUp_eq, wakeRing_alone hring]
  dsimp only
  rw [hdue, decide_eq_false h3]
  rw [if_pos Bool.not_false]
  split
  · next h => rw [if_pos (of_decide_eq_true h), seeAlerts_none ((lateWake_kept _ _).2.2.1.trans hports)]
  · next h => rw [if_neg (fun h' => h (decide_eq_true h')), seeAlerts_none hports]
/-- What it leaves of the power controller, of device time, and of what waits. -/
theorem wakeUp_alone_kept (dur : Nat) (image : Bool) : (wakeUp dur image s).power = (wakeBegun dur s).power ∧
    (wakeUp dur image s).tb = (wakeBegun dur s).tb ∧ (wakeUp dur image s).hl = s.hl ∧ (wakeUp dur image s).config = s.config := by
  rw [wakeUp_alone hrole hepoch hsbps h3]
  split
  · obtain ⟨hpower, htb, -, hhl, hconfig⟩ := lateWake_kept dur (wakeBegun dur s)
    exact ⟨hpower, htb, hhl, hconfig⟩
  · exact ⟨rfl, rfl, rfl, rfl⟩

theorem ticks_wakeUp_alone (dur : Nat) (image : Bool) (hf : fastRuns s = true) : ticks (wakeUp dur image s) = ticks s := by
  obtain ⟨hpower, htb, -, -⟩ := wakeUp_alone_kept hrole hepoch hsbps h3 dur image
  have hcur : (wakeUp dur image s).power.cur = .s0 := by rw [hpower]; rfl
  have hfast : (wakeUp dur image s).tb.fast = s.tb.fast := by rw [htb]; rfl
  have hrun : fastRuns (wakeUp dur image s) = true := by simp [fastRuns, hcur]
  rw [ticks, ticks, hf, hrun, if_pos rfl, if_pos rfl, hfast]

theorem exec_wake_alone (dur : Nat) (image : Bool) (hs : stopped s = false) (hready : wakeReady s = true) (hheld : s.hl.held = [])
    (htwt : s.hl.twtHeld = none) (hr : s.config.reloadDue = false) : exec (.wake dur image) s = .next (wakeUp dur image s) := by
  obtain ⟨-, -, hhl, hconfig⟩ := wakeUp_alone_kept hrole hepoch hsbps h3 dur image
  rw [exec_wake dur image hs, if_pos hready, serveWaiting_idle (by rw [hhl]; exact hheld) (by rw [hhl]; exact htwt) (by rw [hconfig]; exact hr)]
end

/-! ### The statement -/

/-- Settles O49: the choice, the preparation, the entry and the wake. -/
theorem sleepAndWake : Obligations.SleepAndWake := by
  intro s hs
  refine ⟨(pcode_choice s).trans (pcode_permitted s), choice_disabled,
    fun h => ⟨exec_sleepPreparation_asleep hs h, fun d => exec_sleepEntry_asleep hs d h⟩, fun ha => ?awake,
    fun p hc hp => ?preparing, fun dur image => ⟨fun h => ?noWake, fun hcur hreq hrole hepoch hsbps hheld htwt hr => ?wake⟩⟩
  case awake =>
    refine ⟨fun d => exec_sleepEntry_awake hs d ha, fun hc => ?shallow, fun hc hn => ?first, fun t0 ht0 hc => ⟨fun hlt => ?early, fun hle h3 => ?begin⟩⟩
    case shallow => rw [exec_sleepPreparation_awake hs ha, if_pos hc]
    case first =>
      have hlong : idleLong s = false := by rw [idleLong, hn]
      rw [exec_sleepPreparation_awake hs ha, if_neg hc, hlong, if_pos Bool.not_false, watchIdle_awake ha.1 hc, hn]
      rfl
    case early =>
      have hlong : idleLong s = false := by
        rw [idleLong, ht0]
        exact decide_eq_false (BitVec.not_le.mpr hlt)
      rw [exec_sleepPreparation_awake hs ha, if_neg hc, hlong, if_pos Bool.not_false, watchIdle_awake ha.1 hc, ht0]
      rfl
    case begin =>
      have hlong : idleLong s = true := by
        rw [idleLong, ht0]
        exact decide_eq_true hle
      rw [exec_sleepPreparation_awake hs ha, if_neg hc, hlong, if_neg (by decide), if_neg h3]
  case preparing =>
    intro fresh cancelled
    refine ⟨fun hf => ?fresh, fun hf => ?kept, fun d hf hp0 hring => ?held, fun d hp0 hnone => ?enter⟩
    case fresh =>
      have hv : newVeto s p = true := newVeto_iff.mpr hf
      refine ⟨?_, fun d => ?_⟩
      · rw [exec_sleepPreparation_preparing hs hc hp, if_pos hv]
        rfl
      · rw [exec_sleepEntry_preparing hs d hc hp, if_pos hv]
        rfl
    case kept => rw [exec_sleepPreparation_preparing hs hc hp, if_neg fun h => hf (newVeto_iff.mp h)]
    case held =>
      have hv : vetoed s p = true := by simpa [vetoed, hp0] using ⟨7, by decide, hring⟩
      rw [exec_sleepEntry_preparing hs d hc hp, if_neg fun h => hf (newVeto_iff.mp h), if_pos hv]
    case enter =>
      have hnew : ¬ newVeto s p = true := fun h => by
        obtain ⟨i, hi, -, hv⟩ := newVeto_iff.mp h
        exact absurd ((hnone i hi).symm.trans hv) (by decide)
      have hveto : ¬ vetoed s p = true := by simpa [vetoed, hp0] using hnone
      refine ⟨enterSleep p d s, ?_, ?_⟩
      · rw [exec_sleepEntry_preparing hs d hc hp, if_neg hnew, if_neg hveto]
      · exact enterSleep_entered d hc hp0
  case noWake =>
    have hready : ¬ wakeReady s = true := fun h => by
      simp only [wakeReady, Bool.and_eq_true, decide_eq_true_eq] at h
      obtain ⟨⟨h1, h2⟩, h3⟩ := h
      obtain h | h | h := h
      · exact h1 h
      · exact h2 h
      · exact absurd (h.symm.trans h3) (by decide)
    rw [exec_wake dur image hs, if_neg hready]
  case wake =>
    have h3 : s.power.cur ≠ .s3 := fun h => by
      obtain h1 | ⟨h2, -⟩ := hcur
      · exact absurd (h.symm.trans h1) (by decide)
      · exact absurd (h.symm.trans h2) (by decide)
    have h0 : s.power.cur ≠ .s0 := fun h => by
      obtain h1 | ⟨h2, -⟩ := hcur
      · exact absurd (h.symm.trans h1) (by decide)
      · exact absurd (h.symm.trans h2) (by decide)
    have hf : fastRuns s = true := by
      obtain h1 | ⟨-, h2⟩ := hcur
      · simp [fastRuns, h1]
      · simp [fastRuns, h2]
    have hready : wakeReady s = true := by rw [wakeReady, decide_eq_true h0, decide_eq_true hreq, hf]; rfl
    have hticks : wakeTicks (pcode s.power.cur) = if s.power.cur = .s1 then 200 else 10000 := by
      obtain h1 | ⟨h2, -⟩ := hcur
      · rw [h1]; rfl
      · rw [h2]; rfl
    obtain ⟨hpower, -, -, -⟩ := wakeUp_alone_kept hrole hepoch hsbps h3 dur image
    obtain ⟨hcur', hphase, hsrc, ht, hdur, hreq'⟩ := wakeBegun_power dur s
    refine ⟨_, exec_wake_alone hrole hepoch hsbps h3 dur image hs hready hheld htwt hr, hpower ▸ hcur', hpower ▸ hphase, hpower ▸ hsrc,
      hpower ▸ ht, hpower ▸ hdur, hpower ▸ hreq', ticks_wakeUp_alone hrole hepoch hsbps h3 dur image hf, fun hlate hw => ?_⟩
    obtain ⟨hcnt, hw'⟩ := wakeBegun_cnt dur hw
    rw [wakeUp_alone hrole hepoch hsbps h3, if_pos (hticks ▸ hlate), ← hcnt]
    exact lateWake_counts dur hw'

end Sys2Proof.Machine
end

section
/-! SUPPORT. Ranger's own instructions (R453). -/

namespace Sys2Proof.Machine
open Sys2Proof Sys2Proof.Claims

variable {s t : State} {p next n : Nat} {a v : W48} {rest : List W48}

/-! ### What an instruction's entry leaves of the management block -/

/-- A part of the management block that is neither the processor's record nor the prefetch lines. -/
theorem mgt_entered {α : Type} (F : Mgt → α) (hproc : ∀ x m, F { m with proc := x } = F m) (hlines : ∀ l m, F { m with lines := l } = F m) :
    F (entered p next n s).mgt = F s.mgt := by
  refine entered_keeps (fun u => F u.mgt) (fun x u => ?_) fun b u => ?_
  · unfold setProc
    split
    · exact hproc _ _
    · rfl
  · unfold touchLine
    dsimp only
    split
    · exact hlines _ _
    · rfl

theorem idleEnds_entered : idleEnds (entered rangerP next n s) = true ↔ icuView s rangerP ≠ 0 ∨ s.mgt.mbxBusy = true := by
  have hbusy : (entered rangerP next n s).mgt.mbxBusy = s.mgt.mbxBusy := mgt_entered Mgt.mbxBusy (fun _ _ => rfl) fun _ _ => rfl
  rw [idleEnds, icuView_entered, hbusy, Bool.or_eq_true, decide_eq_true_eq]

theorem otpWord_entered (i : Nat) : otpWord (entered rangerP next n s) i = otpWord s i := by
  have hotp : (entered rangerP next n s).mgt.otp = s.mgt.otp := mgt_entered Mgt.otp (fun _ _ => rfl) fun _ _ => rfl
  have hroll : (entered rangerP next n s).mgt.rollbackOtp = s.mgt.rollbackOtp := mgt_entered Mgt.rollbackOtp (fun _ _ => rfl) fun _ _ => rfl
  rw [otpWord, otpWord, hotp, hroll]

theorem stampNow_entered : stampNow (entered p next n s) = stampNow s := by
  rw [entered_only]
  rfl

/-! ### Addresses (R453) -/

theorem addrOk32_of (h4 : a.toNat % 4 = 0) (hlt : a.toNat < 0x0800_0000) : addrOk32 a = true := decide_eq_true ⟨h4, by omega⟩

theorem addrOk32_bad (h : a.toNat % 4 ≠ 0 ∨ 0x4000_0000 ≤ a.toNat) : addrOk32 a = false := decide_eq_false (by omega)

theorem addrOk48_of (h8 : a.toNat % 8 = 0) (hlt : a.toNat < 0x0800_0000) : addrOk48 a = true := decide_eq_true ⟨h8, by omega⟩

theorem addrOk48_bad (h : a.toNat % 8 ≠ 0) : addrOk48 a = false := decide_eq_false fun h' => h h'.1

/-! ### The rows -/

/-- Ranger has no budget (R452). -/
theorem affords_ranger (n : Nat) (s : State) : Affords rangerP n s := .inl rfl

/-- The state in which an instruction's own effect begins. -/
def begun (s : State) : State := entered rangerP (pcOf s rangerP + 1) 1 s

section
variable (hl : (procOf s rangerP).stack.length ≤ 32)
include hl

theorem exec_idle (h : At rangerP 0xE00 s) :
    exec .idle s = .next (if idleEnds (begun s) then begun s else { begun s with mgt := { (begun s).mgt with idle := true } }) :=
  Shaped.goes (ops := []) (op := opIdle) (ins := 0) (outs := 0) (.of_eq rfl) h rfl (operandOf_none rfl rfl) (affords_ranger _ _)
    (Nat.zero_le _) hl rfl

theorem exec_wdog (h : At rangerP 0xE06 s) :
    exec .wdog s = .next { begun s with mgt := { (begun s).mgt with wdogAt := ticks (begun s) } } :=
  Shaped.goes (ops := []) (op := opWdog) (ins := 0) (outs := 0) (.of_eq rfl) h rfl (operandOf_none rfl rfl) (affords_ranger _ _)
    (Nat.zero_le _) hl rfl
end

section
variable (hst : (procOf s rangerP).stack = a :: rest) (hl : rest.length < 32)
include hst hl

/-- A row that takes an address from the stack. -/
theorem ranger_goes {op : EOp} {i : Instr} {outs code : Nat} (hi : exec i s = runRow [] op rangerP s) (hop : Shaped op 1 outs 1)
    (hout : outs ≤ 1) (h : At rangerP code s) (his : op.is rangerP code s = true) (hopnd : operandOf op rangerP (pcOf s rangerP) s = .ok (0, pcOf s rangerP + 1))
    (hrun : op.run { p := rangerP, addr := pcOf s rangerP, k := code - op.lo, opnd := 0, next := pcOf s rangerP + 1 } (begun s) = .go t) :
    exec i s = .next t := by
  have hd : (procOf s rangerP).stack.length = rest.length + 1 := by rw [hst]; rfl
  exact hi.trans (hop.goes h his hopnd (affords_ranger _ _) (by omega) (by omega) hrun)

theorem ranger_faults {op : EOp} {i : Instr} {outs code c : Nat} (hi : exec i s = runRow [] op rangerP s) (hop : Shaped op 1 outs 1)
    (hout : outs ≤ 1) (h : At rangerP code s) (his : op.is rangerP code s = true) (hopnd : operandOf op rangerP (pcOf s rangerP) s = .ok (0, pcOf s rangerP + 1))
    (hrun : op.run { p := rangerP, addr := pcOf s rangerP, k := code - op.lo, opnd := 0, next := pcOf s rangerP + 1 } (begun s) =
      .fault c (pcOf s rangerP) (begun s)) :
    exec i s = .next (procFault rangerP c (pcOf s rangerP) (withoutEffect rangerP (pcOf s rangerP + 1) 1 s)) := by
  have hd : (procOf s rangerP).stack.length = rest.length + 1 := by rw [hst]; rfl
  exact hi.trans (hop.faults h his hopnd (affords_ranger _ _) (by omega) (by omega) hrun)

omit hl in
theorem topOf_begun : topOf (begun s) rangerP 0 = a := by rw [begun, topOf_entered, hst]; rfl

theorem exec_rd32 (h : At rangerP 0xE01 s) (h4 : a.toNat % 4 = 0) (hlt : a.toNat < 0x0800_0000) :
    exec .rd32 s = .next (leaves rangerP 1 [(readValue (begun s) .ranger a.toNat).setWidth 48] (readEffect .ranger a.toNat (begun s))) := by
  refine ranger_goes hst hl (op := opRd32) (outs := 1) rfl (.of_eq rfl) (by decide) h rfl (operandOf_none rfl rfl) ?_
  simp only [opRd32, topOf_begun hst, addrOk32_of h4 hlt, busRead_own hlt, Bool.not_true, Bool.false_eq_true, if_false, replaceTop_eq_leaves]

theorem exec_rd48 (h : At rangerP 0xE03 s) (h8 : a.toNat % 8 = 0) (hlt : a.toNat < 0x0800_0000) :
    exec .rd48 s = .next (leaves rangerP 1 [slotRead a.toNat (begun s)] (countParity a.toNat (begun s))) := by
  refine ranger_goes hst hl (op := opRd48) (outs := 1) rfl (.of_eq rfl) (by decide) h rfl (operandOf_none rfl rfl) ?_
  simp only [opRd48, topOf_begun hst, addrOk48_of h8 hlt, if_pos hlt, Bool.not_true, Bool.false_eq_true, if_false, replaceTop_eq_leaves]

theorem exec_otprd (h : At rangerP 0xE07 s) (h15 : a.toNat ≤ 15) :
    exec .otprd s = .next (leaves rangerP 1 [otpWord s a.toNat] (begun s)) := by
  refine ranger_goes hst hl (op := opOtprd) (outs := 1) rfl (.of_eq rfl) (by decide) h rfl (operandOf_none rfl rfl) ?_
  simp only [opOtprd, topOf_begun hst, if_neg (Nat.not_lt.mpr h15), replaceTop_eq_leaves]
  rw [begun, otpWord_entered]

theorem exec_rollup (h : At rangerP 0xE08 s) (h64 : a.toNat ≤ 64) : exec .rollup s = .next (leaves rangerP 1 [] (rollUp a.toNat (begun s))) := by
  refine ranger_goes hst hl (op := opRollup) (outs := 0) rfl (.of_eq rfl) (by decide) h rfl (operandOf_none rfl rfl) ?_
  simp only [opRollup, topOf_begun hst, if_neg (Nat.not_lt.mpr h64), popN_eq_leaves]

theorem exec_rd32_badAddr (h : At rangerP 0xE01 s) (ha : a.toNat % 4 ≠ 0 ∨ 0x4000_0000 ≤ a.toNat) :
    exec .rd32 s = .next (procFault rangerP 7 (pcOf s rangerP) (withoutEffect rangerP (pcOf s rangerP + 1) 1 s)) := by
  refine ranger_faults hst hl (op := opRd32) (outs := 1) rfl (.of_eq rfl) (by decide) h rfl (operandOf_none rfl rfl) ?_
  simp only [opRd32, topOf_begun hst, addrOk32_bad ha, Bool.not_false, if_true]

theorem exec_rd48_badAddr (h : At rangerP 0xE03 s) (ha : a.toNat % 8 ≠ 0) :
    exec .rd48 s = .next (procFault rangerP 7 (pcOf s rangerP) (withoutEffect rangerP (pcOf s rangerP + 1) 1 s)) := by
  refine ranger_faults hst hl (op := opRd48) (outs := 1) rfl (.of_eq rfl) (by decide) h rfl (operandOf_none rfl rfl) ?_
  simp only [opRd48, topOf_begun hst, addrOk48_bad ha, Bool.not_false, if_true]
end

section
variable (hst : (procOf s rangerP).stack = a :: v :: rest) (hl : rest.length < 32) (hlt : a.toNat < 0x0800_0000)
include hst hl hlt

theorem exec_wr32 (h : At rangerP 0xE02 s) (h4 : a.toNat % 4 = 0) :
    exec .wr32 s = .next (write32 .ranger a.toNat (v.setWidth 32) (leaves rangerP 2 [] (begun s))) := by
  have hd : (procOf s rangerP).stack.length = rest.length + 2 := by rw [hst]; rfl
  refine Shaped.goes (ops := []) (op := opWr32) (ins := 2) (outs := 0) (.of_eq rfl) h rfl (operandOf_none rfl rfl) (affords_ranger 1 _)
    (by omega) (by omega) ?_
  simp only [opWr32, topOf_entered, hst, List.getD_cons_zero, List.getD_cons_succ, addrOk32_of h4 hlt, busWrite_own hlt, Bool.not_true,
    Bool.false_eq_true, if_false, popN_eq_leaves]
  rfl

theorem exec_wr48 (h : At rangerP 0xE04 s) (h8 : a.toNat % 8 = 0) (hlo : isLo a.toNat = true)
    (hw : mayWriteWord (leaves rangerP 2 [] (begun s)) .ranger a.toNat = true) :
    exec .wr48 s = .next (commitWord a.toNat (v.setWidth 64) (leaves rangerP 2 [] (begun s))) := by
  have hd : (procOf s rangerP).stack.length = rest.length + 2 := by rw [hst]; rfl
  have hwrite : slotWrite a.toNat v (leaves rangerP 2 [] (begun s)) = commitWord a.toNat (v.setWidth 64) (leaves rangerP 2 [] (begun s)) := by
    rw [slotWrite, if_pos hlo, if_pos hw]
  refine Shaped.goes (ops := []) (op := opWr48) (ins := 2) (outs := 0) (.of_eq rfl) h rfl (operandOf_none rfl rfl) (affords_ranger 1 _)
    (by omega) (by omega) ?_
  rw [← hwrite]
  simp only [opWr48, topOf_entered, hst, List.getD_cons_zero, List.getD_cons_succ, addrOk48_of h8 hlt, if_pos hlt, Bool.not_true,
    Bool.false_eq_true, if_false, popN_eq_leaves]
  rfl
end

section
variable {n m : W48} {ws : List W48} (hst : (procOf s rangerP).stack = m :: n :: (ws.reverse ++ rest)) (hm : m.toNat < 256)
  (h2 : 2 ≤ n.toNat) (h7 : n.toNat ≤ 7)
include hst hm h2 h7

theorem jnlN_of {x : Proc} (hx : x.stack = (procOf s rangerP).stack) : jnlN x = some n.toNat := by
  rw [jnlN, hx, hst]
  exact if_pos ⟨hm, h2, h7⟩

theorem exec_jnl (hws : ws.length = n.toNat - 1) (hl : rest.length ≤ 32) (h : At rangerP 0xE05 s) :
    exec .jnl s = .next (leaves rangerP (n.toNat + 1) [] (journal m.toNat (stampNow s) ws (begun s))) := by
  have hpops : ∀ x, opJnl.pops x (procOf s rangerP) = n.toNat + 1 := fun _ => by simp only [opJnl, jnlN_of hst hm h2 h7 rfl]
  have hd : (procOf s rangerP).stack.length = n.toNat + 1 + rest.length := by
    rw [hst, List.length_cons, List.length_cons, List.length_append, List.length_reverse, hws]
    omega
  have hwords : (((m :: n :: (ws.reverse ++ rest)).drop 2).take (n.toNat - 1)).reverse = ws := by
    rw [← hws, ← List.length_reverse, List.drop_succ_cons, List.drop_succ_cons, List.drop_zero, List.take_left, List.reverse_reverse]
  have hstack : (procOf (begun s) rangerP).stack = (procOf s rangerP).stack := by rw [begun, procOf_entered]
  refine runRow_go (ops := []) (op := opJnl) h rfl rfl (operandOf_none rfl rfl)
    (checks_none (affords_ranger _ _) (by rw [hpops, hd]; omega) (by rw [hpops, hd, show n.toNat + 1 + rest.length - (n.toNat + 1) = rest.length by omega]; exact hl)
      fun hc => absurd hc (by decide)) ?_
  have hrun : ∀ x : Ctx, x.p = rangerP → opJnl.run x (begun s) =
      .go (leaves rangerP (n.toNat + 1) [] (journal m.toNat (stampNow (begun s)) ws (begun s))) := by
    intro x hx
    simp only [opJnl, hx, jnlN_of hst hm h2 h7 hstack, hstack, hst, hwords, List.getD_cons_zero, popN_eq_leaves]
  rw [← stampNow_entered (p := rangerP) (next := pcOf s rangerP + 1) (n := 1)]
  exact hrun _ rfl
end

/-- Settles O13, row by row of R453. -/
theorem rangerInstructions : Obligations.RangerInstructions := by
  intro s
  refine ⟨fun h hl => ?idle, fun h hl => ?wdog,
    fun a rest hst hl => ⟨exec_rd32 hst hl, exec_rd48 hst hl, exec_otprd hst hl, fun h h64 => ?rollup, exec_rd32_badAddr hst hl,
      exec_rd48_badAddr hst hl⟩,
    fun a v rest hst hl hlt => ⟨exec_wr32 hst hl hlt, exec_wr48 hst hl hlt⟩,
    fun m n ws rest hst hm h2 h7 hws hl h => exec_jnl hst hm h2 h7 hws hl h⟩
  case idle =>
    rw [exec_idle hl h]
    exact congrArg Host.Outcome.next (if_congr idleEnds_entered rfl rfl)
  case wdog =>
    rw [exec_wdog hl h, begun, ticks_entered]
  case rollup =>
    have hroll : (begun s).mgt.rollbackOtp = s.mgt.rollbackOtp := mgt_entered Mgt.rollbackOtp (fun _ _ => rfl) fun _ _ => rfl
    rw [exec_rollup hst hl h h64, rollUp, hroll]
    rfl

end Sys2Proof.Machine
end

section
/-! SUPPORT. The Bight ring: what its ports hold, where a hub stands on it, its triggers and its sleep (R470, R475, R479, R480, R483). -/

namespace Sys2Proof.Machine
open Sys2Proof Sys2Proof.Claims

variable {s t u : State} {n p h : Nat} {f : BFrame} {down : Bool}

/-! ### The ports -/

theorem sendOut_eq_queued (down : Bool) (f : BFrame) (s : State) : sendOut down f s = queued down f s := by
  cases down <;> rfl

/-- A state with another's ports. -/
def withPorts (s v : State) : State := { v with bgt := { v.bgt with replayD := s.bgt.replayD, replayU := s.bgt.replayU } }

theorem onlyPorts_refl (s : State) : onlyPorts s s := rfl

theorem onlyPorts_trans (h : onlyPorts s t) (h' : onlyPorts t u) : onlyPorts s u := (congrArg (withPorts s) h' :).trans h

theorem sendOut_onlyPorts (down : Bool) (f : BFrame) (s : State) : onlyPorts s (sendOut down f s) := by
  unfold sendOut
  split
  · split <;> rfl
  · split <;> rfl

theorem queued_onlyPorts (down : Bool) (f : BFrame) (s : State) : onlyPorts s (queued down f s) :=
  sendOut_eq_queued down f s ▸ sendOut_onlyPorts down f s

theorem bgtSend_onlyPorts (f : BFrame) (s : State) : onlyPorts s (bgtSend f s) := by
  unfold bgtSend
  split
  · exact onlyPorts_refl s
  · split
    · exact sendOut_onlyPorts _ f s
    · exact onlyPorts_refl s

theorem bgtSendAll_onlyPorts (f : BFrame) (s : State) : onlyPorts s (bgtSendAll f s) := by
  unfold bgtSendAll
  split
  · exact onlyPorts_trans (sendOut_onlyPorts false f s) (sendOut_onlyPorts true f _)
  · exact onlyPorts_refl s

/-- What a state that differs in its ports alone leaves of the rest of the hub. -/
theorem keeps_of_onlyPorts {α : Type} (h : onlyPorts s t) (F : State → α)
    (hF : ∀ (v : State) (d e : List BFrame), F { v with bgt := { v.bgt with replayD := d, replayU := e } } = F v) : F t = F s :=
  (hF t _ _).symm.trans (congrArg F h)

/-! ### The hub's place -/

theorem onRing_of_role (h : s.straps.role = 1 ∨ s.straps.role = 2) : onRing s = true := by
  obtain h | h := h <;> simp [onRing, isPrimary, isSecondary, h]

theorem onRing_none (h : s.straps.role = 0) : onRing s = false := by simp [onRing, isPrimary, isSecondary, h]

theorem isPrimary_of (h : s.straps.role = 1) : isPrimary s = true := decide_eq_true h

theorem isPrimary_none (h : s.straps.role = 2) : isPrimary s = false := decide_eq_false (by omega)

theorem isSecondary_of (h : s.straps.role = 2) : isSecondary s = true := decide_eq_true h

theorem isSecondary_none (h : s.straps.role = 1) : isSecondary s = false := decide_eq_false (by omega)

/-! ### Broadcast triggers (R479, R480) -/

section
variable {b : BTrig}

/-- The trigger is logged and counted. -/
def trigLogged (b : BTrig) (s : State) : State := bump (bgtCnt 7) { s with bgt := { s.bgt with trigLog := b, seen := b :: s.bgt.seen } }

theorem takeTrigger_unmasked (hm : bit (cfgR s (bgtA + 4)) b.chan = false) : takeTrigger b s = trigLogged b s := if_neg (by
  change ¬ bit (cfgR s (bgtA + 4)) b.chan = true
  rw [hm]
  decide)

theorem timerEdge_stopped (fuel : Nat) (h : (getTimer s n).running = false) : timerEdge fuel n s = s := by
  cases fuel with
  | zero => rfl
  | succ fuel => exact if_pos (by simp [h])

/-- An edge for timers that do not run is lost (R61). -/
theorem countSource_stopped (src : Nat) (idx : Option Nat) (h : ∀ m < 32, (getTimer s m).running = false) : countSource src idx s = s :=
  forEach_same fun m hm => timerEdge_stopped _ (h m (List.mem_range.mp (List.mem_filter.mp hm).1))

theorem takeTrigger_masked (hm : bit (cfgR s (bgtA + 4)) b.chan = true) (ht : ∀ m < 32, (getTimer s m).running = false) :
    takeTrigger b s = icuLatch 122 (trigLogged b s) := by
  have hset : takeTrigger b s = countSource 13 none (icuLatch 122 (trigLogged b s)) := if_pos hm
  rw [hset, countSource_stopped 13 none (by exact ht)]

theorem exec_triggerOrigin (hs : stopped s = false) : exec .triggerOrigin s = match s.bgt.trigDue with
    | b :: rest =>
      if s.power.cur = .s2 ∨ s.power.cur = .s3 then .next { s with bgt := { s.bgt with trigDue := rest } }
      else .next (bump (bgtCnt 6) (takeTrigger b { s with bgt := { s.bgt with trigDue := rest, trigTx := [b, b, b] } }))
    | [] => .next s := live_running hs _

theorem exec_broadcastTrigger (good : Bool) (hs : stopped s = false) : exec (.broadcastTrigger b good) s =
    if !hasRing s ∨ !good ∨ s.bgt.seen.contains b then .next s
    else .next (takeTrigger b { s with bgt := { s.bgt with trigTx := [b, b, b] } }) := live_running hs _

theorem icuLatch_latches (n : Nat) (s : State) : (getIcu (icuLatch n s) n).latch = true := by rw [icuLatch, getIcu_setIcu]

/-- The originating hub in S0 or S1 sends its trigger and takes it. -/
theorem exec_triggerOrigin_sent {rest : List BTrig} (hs : stopped s = false) (hd : s.bgt.trigDue = b :: rest)
    (hc : s.power.cur = .s0 ∨ s.power.cur = .s1) : exec .triggerOrigin s =
      .next (bump (bgtCnt 6) (takeTrigger b { s with bgt := { s.bgt with trigDue := rest, trigTx := [b, b, b] } })) := by
  have hawake : ¬ (s.power.cur = .s2 ∨ s.power.cur = .s3) := by obtain h | h := hc <;> rw [h] <;> decide
  rw [exec_triggerOrigin hs, hd]
  exact if_neg hawake

theorem triggers : Triggers := by
  intro s hs
  dsimp only
  refine ⟨fun h => ?none, fun b rest hd => ⟨fun hc => ?asleep, fun hc hm => ?unmasked, fun hc hm ht => ?masked⟩,
    fun b => ⟨fun h => ?dropped, ?bad, fun hseen hrole => ⟨fun hm => ?passed, fun hm ht => ?taken⟩⟩⟩
  case none => rw [exec_triggerOrigin hs, h]
  case asleep =>
    rw [exec_triggerOrigin hs, hd]
    exact if_pos hc
  case unmasked =>
    rw [exec_triggerOrigin_sent hs hd hc, takeTrigger_unmasked (by exact hm)]
    rfl
  case masked =>
    refine ⟨_, exec_triggerOrigin_sent hs hd hc, ?_, ?_⟩
    · rw [takeTrigger_masked (by exact hm) (by exact ht)]
      exact icuLatch_latches 122 _
    · rw [takeTrigger_masked (by exact hm) (by exact ht)]
      rfl
  case dropped =>
    rw [exec_broadcastTrigger true hs, if_pos]
    obtain h | h := h
    · exact .inr (.inr (by simpa using h))
    · exact .inl (by simp [hasRing, onRing_none h])
  case bad => rw [exec_broadcastTrigger false hs, if_pos (.inr (.inl rfl))]
  case passed =>
    rw [exec_broadcastTrigger true hs, if_neg (by simp [hasRing, onRing_of_role hrole, hseen]), takeTrigger_unmasked (by exact hm)]
    rfl
  case taken =>
    rw [exec_broadcastTrigger true hs, if_neg (by simp [hasRing, onRing_of_role hrole, hseen]), takeTrigger_masked (by exact hm) (by exact ht)]
    exact ⟨_, rfl, icuLatch_latches 122 _, rfl⟩
end

/-! ### The ring in sleep (R483) -/

theorem exec_ringRelease (hs : stopped s = false) : exec .ringRelease s =
    if isPrimary s ∧ s.bgt.sleep = 0 ∧ allChoose s then .next (releaseRing (bgtSendAll (ctrlFrame s 7 ctrlRelease 0 []) s))
    else .next (reportChoice s) := live_running hs _

theorem exec_ringWake (hs : stopped s = false) : exec .ringWake s =
    if !hasRing s ∨ s.bgt.sleep ≠ 1 then .next s
    else if s.power.cur = .s0 then .next (wakeRing s)
    else .next (requestWake 10 { s with bgt := { s.bgt with sleep := 2, dport := 1, uport := 1 } }) := live_running hs _

theorem allChoose_iff : allChoose s = true ↔ 2 ≤ pcode (choiceForRing s) ∧ ∀ q < ringHubs s, q = 0 ∨ bit s.bgt.reach q = false ∨
    bit s.bgt.reachExcl q = true ∨ 2 ≤ Mem.read (fun _ => 0) s.bgt.choices q := by
  simp only [allChoose, Bool.and_eq_true, decide_eq_true_eq, List.all_eq_true, List.mem_range, Bool.or_eq_true, Bool.not_eq_true', or_assoc]

theorem reportChoice_primary (h : s.straps.role = 1) : reportChoice s = s := if_pos (.inl (by rw [isSecondary_none h]; rfl))

/-- The choice that a secondary told the primary. -/
theorem reportChoice_told (hr : s.straps.role = 2) (hsl : s.bgt.sleep ≠ 1)
    (hc : Mem.read (fun _ => 0) s.bgt.choices s.straps.pos ≠ pcode (choiceForRing s)) :
    Mem.read (fun _ => 0) (reportChoice s).bgt.choices s.straps.pos = pcode (choiceForRing s) := by
  have hsend : reportChoice s = bgtSend (ctrlFrame s 0 ctrlChoice (pcode (choiceForRing s)) [])
      { s with bgt := { s.bgt with choices := Mem.write (fun _ => 0) s.bgt.choices (myPos s) (pcode (choiceForRing s)) } } := by
    refine if_neg ?_
    rintro (h | h | h)
    · rw [isSecondary_of hr] at h; exact absurd h (by decide)
    · exact hsl h
    · exact hc h
  rw [hsend, keeps_of_onlyPorts (bgtSend_onlyPorts _ _) (fun v => v.bgt.choices) (fun _ _ _ => rfl)]
  exact Mem.read_write_same _ _ _ _

theorem releaseRing_onlyPorts (h : onlyPorts s t) : onlyPorts (releaseRing s) (releaseRing t) := congrArg releaseRing h

theorem ringSleep : RingSleep := by
  intro s hs
  dsimp only
  refine ⟨fun hr hsl hall => ?release, fun hr h => ?keep, fun hr hsl hc => ⟨_, ?report, reportChoice_told hr hsl hc⟩, fun h => ?noWake,
    fun hrole hsl => ⟨fun hcur => ?up, fun u hw => ?wake⟩⟩
  case release =>
    refine ⟨_, ?_, releaseRing_onlyPorts (bgtSendAll_onlyPorts (ctrlFrame s 7 ctrlRelease 0 []) s)⟩
    rw [exec_ringRelease hs, if_pos ⟨isPrimary_of hr, hsl, allChoose_iff.mpr hall⟩]
  case keep =>
    rw [exec_ringRelease hs, if_neg, reportChoice_primary hr]
    rintro ⟨-, hsl, hall⟩
    obtain h | h := h
    · exact h hsl
    · exact h (allChoose_iff.mp hall)
  case report => rw [exec_ringRelease hs, if_neg (by simp [isPrimary_none hr])]
  case noWake =>
    rw [exec_ringWake hs, if_pos]
    obtain h | h := h
    · exact .inl (by simp [hasRing, onRing_none h])
    · exact .inr h
  case up =>
    have hring : onRing s = true := onRing_of_role hrole
    rw [exec_ringWake hs, if_neg (by simp [hasRing, hring, hsl]), if_pos hcur, wakeRing, if_pos ⟨hring, by omega⟩]
    obtain hr | hr := hrole
    · rw [isSecondary_none hr, hr, decide_eq_true (by decide), Bool.and_true]; rfl
    · rw [isSecondary_of hr, hr, decide_eq_false (by decide), Bool.and_false]; rfl
  case wake =>
    have hring : onRing s = true := onRing_of_role hrole
    rw [exec_ringWake hs, if_neg (by simp [hasRing, hring, hsl])]
    obtain ⟨hcur, hreq, rfl⟩ := hw
    rw [if_neg hcur]
    exact congrArg Host.Outcome.next (requestWake_asleep ⟨hcur, hreq, rfl⟩)

/-- Settles O57: the broadcast triggers, and the ring's release and wake. -/
theorem triggersAndRingSleep : Obligations.TriggersAndRingSleep := ⟨triggers, ringSleep⟩

end Sys2Proof.Machine
end

section
/-! SUPPORT. The hub's way round the ring, and the time it takes from the primary (R471, R477, R478). -/

namespace Sys2Proof.Machine
open Sys2Proof Sys2Proof.Claims

variable {s t u v : State} {n p h : Nat} {f : BFrame} {down : Bool}

/-! ### Where a hub stands -/

section
variable (hr : ringAt n p s)
include hr

theorem ringHubs_of : ringHubs s = n := by
  obtain ⟨hn, h2, -⟩ := hr
  have hne : s.bgt.hubs ≠ 0 := by omega
  rw [ringHubs, if_neg hne, hn]
  omega

theorem myPos_of : myPos s = p := hr.2.2.2.1

theorem ringAt_lt : p < n := hr.2.2.2.2.1

theorem two_le_of : 2 ≤ n := hr.2.1

theorem ringAt_role : s.straps.role = 1 ∨ s.straps.role = 2 := by
  obtain ⟨-, -, -, -, -, hrole⟩ := hr
  obtain ⟨h, -⟩ | ⟨h, -⟩ := hrole
  · exact .inl h
  · exact .inr h

theorem onRing_of : onRing s = true := onRing_of_role (ringAt_role hr)

theorem pos_of_secondary (h2 : s.straps.role = 2) : 1 ≤ p := by
  obtain ⟨-, -, -, -, -, hrole⟩ := hr
  omega

theorem pos_of_primary (h1 : s.straps.role = 1) : p = 0 := by
  obtain ⟨-, -, -, -, -, hrole⟩ := hr
  omega

/-- The hops downstream from the primary. -/
theorem downHops_from_primary : downHops s 0 p = List.range p := by
  have hlt := ringAt_lt hr
  rw [downHops, ringHubs_of hr, Nat.sub_zero, Nat.add_mod_right, Nat.mod_eq_of_lt hlt]
  refine (List.map_congr_left fun i hi => ?_).trans (List.map_id _)
  rw [Nat.zero_add, Nat.mod_eq_of_lt (by have := List.mem_range.mp hi; omega)]
  rfl

/-- The hops upstream from the primary. -/
theorem upHops_from_primary (hp : 1 ≤ p) : upHops s 0 p = (List.range (n - p)).map (p + ·) := by
  have hlt := ringAt_lt hr
  rw [upHops, downHops, ringHubs_of hr, Nat.zero_add, Nat.mod_eq_of_lt (by omega)]
  exact List.map_congr_left fun i hi => Nat.mod_eq_of_lt (by have := List.mem_range.mp hi; omega)

/-- With every hop whole, the shorter way counts. -/
theorem takesDown_from_primary (hp : 1 ≤ p) (hb : s.bgt.broken = []) : takesDown s 0 p = some (decide (p < n - p)) := by
  have hd : (downHops s 0 p).length = p := by rw [downHops_from_primary hr, List.length_range]
  have hu : (upHops s 0 p).length = n - p := by rw [upHops_from_primary hr hp, List.length_map, List.length_range]
  have hwhole : ∀ l : List Nat, l.all (fun h => !([] : List Nat).contains h) = true := fun l => by simp
  unfold takesDown routeAround
  rw [hb]
  simp only [hwhole, hd, hu]
end

/-- The positions from p on, and those below it, among n. -/
theorem range_filter_le (h : p ≤ n) : (List.range n).filter (fun i => decide (p ≤ i)) = (List.range (n - p)).map (p + ·) := by
  obtain ⟨k, rfl⟩ := Nat.exists_eq_add_of_le h
  have hlow : (List.range p).filter (fun i => decide (p ≤ i)) = [] := by simp [List.filter_eq_nil_iff]
  have hhigh : ((List.range k).map (p + ·)).filter (fun i => decide (p ≤ i)) = (List.range k).map (p + ·) := by simp [List.filter_eq_self]
  rw [List.range_add, List.filter_append, hlow, hhigh, List.nil_append, Nat.add_sub_cancel_left]

theorem range_filter_lt (h : p ≤ n) : (List.range n).filter (fun i => decide (i < p)) = List.range p := by
  obtain ⟨k, rfl⟩ := Nat.exists_eq_add_of_le h
  have hlow : (List.range p).filter (fun i => decide (i < p)) = List.range p := by simp [List.filter_eq_self]
  have hhigh : ((List.range k).map (p + ·)).filter (fun i => decide (i < p)) = [] := by simp [List.filter_eq_nil_iff]
  rw [List.range_add, List.filter_append, hlow, hhigh, List.append_nil]

/-- The calibrated delay of the way that a TIME frame has come. -/
theorem pathDelay_eq (hr : ringAt n p s) (hp : 1 ≤ p) (atD : Bool) : pathDelay s (!atD) =
    (((List.range n).filter (fun h => if atD then decide (p ≤ h) else decide (h < p))).map
      (fun h => (Mem.read (fun _ => 0) s.bgt.hopDly h).toNat)).sum := by
  have hlt := ringAt_lt hr
  rw [pathDelay, myPos_of hr]
  cases atD
  · exact congrArg (fun l : List Nat => (l.map _).sum) ((downHops_from_primary hr).trans (range_filter_lt (by omega)).symm)
  · exact congrArg (fun l : List Nat => (l.map _).sum) ((upHops_from_primary hr hp).trans (range_filter_le (by omega)).symm)

/-! ### Taking no part (R478) -/

theorem excludeSelf_onlyPorts (s : State) : onlyPorts { s with bgt := { s.bgt with excl := true } } (excludeSelf s) := by
  unfold excludeSelf
  split
  · next h =>
    have hs : { s with bgt := { s.bgt with excl := true } } = s := by rw [← h]
    rw [hs]
    exact onlyPorts_refl s
  · exact bgtSend_onlyPorts _ _

/-! ### The loop leaves the ring alone (R50, R51) -/

/-- t has the ring, the phase and the alignment of s. -/
def SameRing (s t : State) : Prop := t.bgt = s.bgt ∧ t.tb.err = s.tb.err ∧ t.tb.aligned = s.tb.aligned

theorem SameRing.trans (h : SameRing s t) (h' : SameRing t u) : SameRing s u :=
  ⟨h'.1.trans h.1, h'.2.1.trans h.2.1, h'.2.2.trans h.2.2⟩

theorem sameRing_refl (s : State) : SameRing s s := ⟨rfl, rfl, rfl⟩

theorem roundNear_kept (q : Rat) (s : State) : { (roundNear q s).2 with fresh := s.fresh } = s := by
  unfold roundNear
  dsimp only
  split <;> rfl

theorem steerTo_sameRing (q : Rat) (s : State) : SameRing s (steerTo q s) := by
  have hnear := roundNear_kept ((clampSteer q).1 * 2 ^ 32) s
  have hbgt : (roundNear ((clampSteer q).1 * 2 ^ 32) s).2.bgt = s.bgt := (congrArg State.bgt hnear :)
  have htb : (roundNear ((clampSteer q).1 * 2 ^ 32) s).2.tb = s.tb := (congrArg State.tb hnear :)
  refine ⟨hbgt, ?_, ?_⟩
  · exact (congrArg TimeBase.err htb :)
  · exact (congrArg TimeBase.aligned htb :)

theorem journal_sameRing (k : Nat) (x : Sample) (ws : List W48) (s : State) : SameRing s (journal k x ws s) :=
  ⟨journal_bgt s k x ws, congrArg TimeBase.err (journal_tb s k x ws), congrArg TimeBase.aligned (journal_tb s k x ws)⟩

/-- The loop in a new state, before HOLDOVER drops the phase term. -/
def loopMoved (new : Loop) (s : State) : State :=
  setTb { s.tb with
    loop := new, heldOver := if new = .holdover then true else if new = .locked then false else s.tb.heldOver, good := 0 } s

theorem setLoop_sameRing (new : Loop) (s : State) : SameRing s (setLoop new s) := by
  by_cases h : s.tb.loop = new
  · rw [setLoop, if_pos h]
    exact sameRing_refl s
  · have hmove : setLoop new s =
      let v := if new = .holdover then bump tbHoldCntA (steerTo (loopMoved new s).tb.f (loopMoved new s)) else loopMoved new s
      journal 0x20 (stampNow (icuLatch 124 (raise tbLeafA 0 v))) [pack [(loopCode s.tb.loop, 2), (loopCode new, 0)]] (icuLatch 124 (raise tbLeafA 0 v)) :=
        if_neg h
    have hv : SameRing s (if new = .holdover then bump tbHoldCntA (steerTo (loopMoved new s).tb.f (loopMoved new s)) else loopMoved new s) := by
      split
      · exact (steerTo_sameRing (loopMoved new s).tb.f (loopMoved new s) : SameRing _ _)
      · exact sameRing_refl s
    rw [hmove]
    exact SameRing.trans hv (journal_sameRing _ _ _ _)

theorem setTb_sameRing {b : TimeBase} (he : b.err = s.tb.err) (ha : b.aligned = s.tb.aligned) : SameRing s (setTb b s) := ⟨rfl, he, ha⟩

theorem steerBy_sameRing (e : Int) (dt : Rat) (y0 : Option Rat) (s : State) : SameRing s (steerBy e dt y0 s) :=
  SameRing.trans (setTb_sameRing rfl rfl) (steerTo_sameRing _ _)

theorem loopMeasured_sameRing (inside : Nat → Bool) (s : State) : SameRing s (loopMeasured inside s) := by
  have h0 : SameRing s (setTb { s.tb with misses := 0 } s) := setTb_sameRing rfl rfl
  unfold loopMeasured
  dsimp only
  split
  · split
    · split
      · exact h0.trans (setLoop_sameRing _ _)
      · exact h0.trans (setTb_sameRing rfl rfl)
    · exact h0.trans (setTb_sameRing rfl rfl)
  · split
    · exact h0
    · exact h0.trans (setLoop_sameRing _ _)
  · split
    · exact h0.trans (setLoop_sameRing _ _)
    · exact h0.trans (setTb_sameRing rfl rfl)
  · exact h0

/-! ### A measurement (R50, R477) -/

theorem ringMeasured_spec (e : Int) (s : State) : (ringMeasured e s).bgt = s.bgt ∧ (ringMeasured e s).tb.aligned = s.tb.aligned ∧
    (s.tb.stepInInterval = false → (ringMeasured e s).tb.err = satErr e) := by
  unfold ringMeasured
  split
  · next h => exact ⟨rfl, rfl, fun h' => absurd (h'.symm.trans h) (by decide)⟩
  · obtain ⟨hbgt, herr, hal⟩ := loopMeasured_sameRing (fun n => decide (e.natAbs ≤ 2 ^ n))
      (setTb { (steerBy e (1 / 1000) none s).tb with err := satErr e, lastMeas := some (ticks (steerBy e (1 / 1000) none s)) } (steerBy e (1 / 1000) none s))
    obtain ⟨hbgt', -, hal'⟩ := steerBy_sameRing e (1 / 1000) none s
    exact ⟨hbgt.trans hbgt', hal.trans hal', fun _ => herr⟩

theorem setAligned_spec (x : Bool) (s : State) : (setAligned x s).bgt = s.bgt ∧ (setAligned x s).tb.err = s.tb.err ∧ (setAligned x s).tb.aligned = x := by
  unfold setAligned
  split
  · next h => exact ⟨rfl, rfl, h⟩
  · exact ⟨rfl, rfl, rfl⟩

theorem alignMeasured_inside {e : Int} (he : e.natAbs ≤ 2) (s : State) :
    (alignMeasured e s).bgt = { s.bgt with alignGood := min 8 (s.bgt.alignGood + 1) } ∧ (alignMeasured e s).tb.err = s.tb.err ∧
      (alignMeasured e s).tb.aligned = (s.tb.aligned || decide (7 ≤ s.bgt.alignGood)) := by
  have h : alignMeasured e s =
    let v : State := { s with bgt := { s.bgt with alignGood := min 8 (s.bgt.alignGood + 1) } }
    if min 8 (s.bgt.alignGood + 1) = 8 then setAligned true v else v := if_pos he
  rw [h]
  by_cases h8 : min 8 (s.bgt.alignGood + 1) = 8
  · obtain ⟨hbgt, herr, hal⟩ := setAligned_spec true { s with bgt := { s.bgt with alignGood := min 8 (s.bgt.alignGood + 1) } }
    dsimp only
    rw [if_pos h8, decide_eq_true (show 7 ≤ s.bgt.alignGood by omega), Bool.or_true]
    exact ⟨hbgt, herr, hal⟩
  · dsimp only
    rw [if_neg h8, decide_eq_false (show ¬ 7 ≤ s.bgt.alignGood by omega), Bool.or_false]
    exact ⟨rfl, rfl, rfl⟩

theorem alignMeasured_outside {e : Int} (he : ¬ e.natAbs ≤ 2) (s : State) :
    (alignMeasured e s).bgt = { s.bgt with alignGood := 0 } ∧ (alignMeasured e s).tb.err = s.tb.err ∧ (alignMeasured e s).tb.aligned = false := by
  have h : alignMeasured e s = setAligned false { s with bgt := { s.bgt with alignGood := 0 } } := if_neg he
  rw [h]
  exact setAligned_spec false _

/-- The count of good measurements in a row, after one of phase e. -/
def goodAfter (e : Int) (g : Nat) : Nat := if e.natAbs ≤ 2 then min 8 (g + 1) else 0

theorem alignMeasured_spec (e : Int) (s : State) : (alignMeasured e s).bgt = { s.bgt with alignGood := goodAfter e s.bgt.alignGood } ∧
    (alignMeasured e s).tb.err = s.tb.err ∧
      (alignMeasured e s).tb.aligned = (decide (e.natAbs ≤ 2) && (s.tb.aligned || decide (7 ≤ s.bgt.alignGood))) := by
  by_cases he : e.natAbs ≤ 2
  · rw [goodAfter, if_pos he, decide_eq_true he, Bool.true_and]
    exact alignMeasured_inside he s
  · rw [goodAfter, if_neg he, decide_eq_false he, Bool.false_and]
    exact alignMeasured_outside he s

/-- TB_ERR and BGT_OFS hold a phase that fits them. -/
theorem toInt_satErr {e : Int} (h1 : -(2 ^ 31) < e) (h2 : e < 2 ^ 31) : (satErr e).toInt = e := by
  have hsat : max (-(2 ^ 31 - 1)) (min (2 ^ 31 - 1) e) = e := by omega
  rw [satErr, hsat, BitVec.toInt_ofInt_eq_self (by decide) (by omega) (by omega)]

/-- What a secondary keeps of a TIME frame that it has measured. -/
def timeKept (down : Bool) (f : BFrame) (e : Int) (s : State) : State :=
  { s with bgt := { s.bgt with
    measured := true, lastTime := some (ticks s), ofs := satErr e, dirDown := down, primaryHold := decide (bits f.info 3 2 = 3) } }

/-- The same, once a first phase beyond 400,000 has excluded the hub. -/
def timeJudged (down : Bool) (f : BFrame) (e : Int) (s : State) : State :=
  if !s.bgt.measured ∧ 400000 < e.natAbs then excludeSelf (timeKept down f e s) else timeKept down f e s

theorem timeArrived_eq {e : Int}
    (h : 8 * ((ticks s - fullOf (ticks s) (f.payload.getD 0 0)).toInt - e) = (f.info.toNat / 16 + pathDelay s down : Nat)) :
    timeArrived down f s =
      let v := alignMeasured e (ringMeasured e (timeJudged down f e s))
      if v.bgt.primaryHold then setLoop .holdover v else v := by
  have hq : ((ticks s - fullOf (ticks s) (f.payload.getD 0 0)).toInt : Rat) - ((f.info.toNat / 16 + pathDelay s down : Nat) : Rat) / 8 = (e : Rat) := by
    have hk : ((f.info.toNat / 16 + pathDelay s down : Nat) : Rat) = 8 * (((ticks s - fullOf (ticks s) (f.payload.getD 0 0)).toInt : Rat) - e) := by
      rw [← Int.cast_natCast (R := Rat), ← h, Int.cast_mul, Int.cast_sub]
      rfl
    rw [hk]
    ring
  have hround := roundFree_whole e s
  rw [← hq] at hround
  rw [timeArrived, hround]
  rfl

/-- The time base is as it was, and of the ring only what a measurement keeps is new. -/
theorem timeJudged_spec (down : Bool) (f : BFrame) (e : Int) (s : State) :
    onlyPorts { timeKept down f e s with bgt := { (timeKept down f e s).bgt with
      excl := s.bgt.excl || (!s.bgt.measured && decide (400000 < e.natAbs)) } } (timeJudged down f e s) := by
  unfold timeJudged
  by_cases h : !s.bgt.measured ∧ 400000 < e.natAbs
  · rw [if_pos h, h.1, decide_eq_true h.2, Bool.and_true, Bool.or_true]
    exact excludeSelf_onlyPorts _
  · have hno : (!s.bgt.measured && decide (400000 < e.natAbs)) = false := by
      rw [← Bool.not_eq_true, Bool.and_eq_true, decide_eq_true_eq]
      exact h
    rw [if_neg h, hno, Bool.or_false]
    rfl

/-- What a measurement of phase e leaves of the ring and of the time base. -/
theorem timeArrived_kept {e : Int}
    (hm : 8 * ((ticks s - fullOf (ticks s) (f.payload.getD 0 0)).toInt - e) = (f.info.toNat / 16 + pathDelay s down : Nat)) :
    (timeArrived down f s).bgt = { (timeJudged down f e s).bgt with alignGood := goodAfter e s.bgt.alignGood } ∧
      (s.tb.stepInInterval = false → (timeArrived down f s).tb.err = satErr e) ∧
      (timeArrived down f s).tb.aligned = (decide (e.natAbs ≤ 2) && (s.tb.aligned || decide (7 ≤ s.bgt.alignGood))) := by
  have hgood : (timeJudged down f e s).bgt.alignGood = s.bgt.alignGood :=
    keeps_of_onlyPorts (timeJudged_spec down f e s) (fun v => v.bgt.alignGood) fun _ _ _ => rfl
  have htb : (timeJudged down f e s).tb = s.tb := keeps_of_onlyPorts (timeJudged_spec down f e s) State.tb fun _ _ _ => rfl
  obtain ⟨hrb, hral, hrerr⟩ := ringMeasured_spec e (timeJudged down f e s)
  obtain ⟨hab, haerr, haal⟩ := alignMeasured_spec e (ringMeasured e (timeJudged down f e s))
  obtain ⟨hbgt, herr, hal⟩ : SameRing (alignMeasured e (ringMeasured e (timeJudged down f e s))) (timeArrived down f s) := by
    rw [timeArrived_eq hm]
    dsimp only
    split
    · exact setLoop_sameRing _ _
    · exact sameRing_refl _
  refine ⟨?_, fun h => ?_, ?_⟩
  · rw [hbgt, hab, hrb, hgood]
  · rw [herr, haerr, hrerr (by rw [htb]; exact h)]
  · rw [hal, haal, hrb, hral, hgood, htb]

theorem timeArrived_spec {e : Int}
    (hm : 8 * ((ticks s - fullOf (ticks s) (f.payload.getD 0 0)).toInt - e) = (f.info.toNat / 16 + pathDelay s down : Nat))
    (h1 : -(2 ^ 31) < e) (h2 : e < 2 ^ 31) : let t := timeArrived down f s
    t.bgt.ofs.toInt = e ∧ t.bgt.measured = true ∧ t.bgt.primaryHold = decide (bits f.info 3 2 = 3) ∧
      (s.tb.stepInInterval = false → t.tb.err.toInt = e) ∧
      (-2 ≤ e → e ≤ 2 → t.bgt.alignGood = min 8 (s.bgt.alignGood + 1) ∧ t.tb.aligned = (s.tb.aligned || decide (7 ≤ s.bgt.alignGood))) ∧
      (e < -2 ∨ 2 < e → t.bgt.alignGood = 0 ∧ t.tb.aligned = false) ∧
      t.bgt.excl = (s.bgt.excl || (!s.bgt.measured && decide (e < -400000 ∨ 400000 < e))) := by
  have hfar : decide (400000 < e.natAbs) = decide (e < -400000 ∨ 400000 < e) := decide_eq_decide.mpr (by omega)
  obtain ⟨hbgt, herr, hal⟩ := timeArrived_kept hm
  have hjudged := timeJudged_spec down f e s
  dsimp only
  rw [hbgt, hal, ← hfar]
  refine ⟨?_, ?_, ?_, fun h => ?_, fun hlo hhi => ?_, fun hout => ?_, ?_⟩
  · rw [show (timeJudged down f e s).bgt.ofs = satErr e from keeps_of_onlyPorts hjudged (fun v => v.bgt.ofs) fun _ _ _ => rfl]
    exact toInt_satErr h1 h2
  · exact keeps_of_onlyPorts hjudged (fun v => v.bgt.measured) fun _ _ _ => rfl
  · exact keeps_of_onlyPorts hjudged (fun v => v.bgt.primaryHold) fun _ _ _ => rfl
  · rw [herr h, toInt_satErr h1 h2]
  · have he : e.natAbs ≤ 2 := by omega
    exact ⟨if_pos he, by rw [decide_eq_true he, Bool.true_and]⟩
  · have he : ¬ e.natAbs ≤ 2 := by omega
    exact ⟨if_neg he, by rw [decide_eq_false he, Bool.false_and]⟩
  · exact keeps_of_onlyPorts hjudged (fun v => v.bgt.excl) fun _ _ _ => rfl

/-- A frame that has been passed on is measured as it came. -/
theorem timeArrived_passed {e : Int} (hv : onlyPorts s v)
    (hm : 8 * ((ticks s - fullOf (ticks s) (f.payload.getD 0 0)).toInt - e) = (f.info.toNat / 16 + pathDelay s down : Nat))
    (h1 : -(2 ^ 31) < e) (h2 : e < 2 ^ 31) : let t := timeArrived down f v
    t.bgt.ofs.toInt = e ∧ t.bgt.measured = true ∧ t.bgt.primaryHold = decide (bits f.info 3 2 = 3) ∧
      (s.tb.stepInInterval = false → t.tb.err.toInt = e) ∧
      (-2 ≤ e → e ≤ 2 → t.bgt.alignGood = min 8 (s.bgt.alignGood + 1) ∧ t.tb.aligned = (s.tb.aligned || decide (7 ≤ s.bgt.alignGood))) ∧
      (e < -2 ∨ 2 < e → t.bgt.alignGood = 0 ∧ t.tb.aligned = false) ∧
      t.bgt.excl = (s.bgt.excl || (!s.bgt.measured && decide (e < -400000 ∨ 400000 < e))) := by
  have hticks : ticks v = ticks s := keeps_of_onlyPorts hv ticks fun _ _ _ => rfl
  have hpath : pathDelay v down = pathDelay s down := keeps_of_onlyPorts hv (pathDelay · down) fun _ _ _ => rfl
  have htb : v.tb = s.tb := keeps_of_onlyPorts hv State.tb fun _ _ _ => rfl
  have hgood : v.bgt.alignGood = s.bgt.alignGood := keeps_of_onlyPorts hv (fun u => u.bgt.alignGood) fun _ _ _ => rfl
  have hmeas : v.bgt.measured = s.bgt.measured := keeps_of_onlyPorts hv (fun u => u.bgt.measured) fun _ _ _ => rfl
  have hexcl : v.bgt.excl = s.bgt.excl := keeps_of_onlyPorts hv (fun u => u.bgt.excl) fun _ _ _ => rfl
  have hspec := timeArrived_spec (s := v) (by rw [hticks, hpath]; exact hm) h1 h2
  rw [htb, hgood, hmeas, hexcl] at hspec
  exact hspec

/-! ### TIME_FRAME (R477) -/

theorem exec_timeFrame (atD : Bool) (f : BFrame) (res : Nat) (hs : stopped s = false) : exec (.timeFrame atD f res) s =
    if !hasRing s ∨ s.bgt.sleep = 1 ∨ !fastRuns s then .next s
    else if isPrimary s then .next (bgtSendAll (timeFrame s) s)
    else
      let s' := passOn atD { f with info := f.info + BitVec.ofNat 32 (16 * res) } s
      .next (if takesDown s 0 (myPos s) = some (!atD) then timeArrived (!atD) f s' else s') := live_running hs _

theorem timeFrame_eq (s : State) : timeFrame s = {
    kind := 1, info := BitVec.ofNat 32 (4 * loopCode s.tb.loop + qcode (qualNow s)), payload := [BitVec.ofNat 48 (ticks s).toNat] } := by
  have hinfo : tbNowQ s = BitVec.ofNat 32 (4 * loopCode s.tb.loop + qcode (qualNow s)) := by
    rw [tbNowQ, reg, List.foldl_cons, List.foldl_cons, List.foldl_nil]
    congr 1
    dsimp only
    omega
  have htime : short (ticks s) = BitVec.ofNat 48 (ticks s).toNat := rfl
  rw [timeFrame, hinfo, htime]

/-- Settles O54: the primary's frames, and a secondary's measurement of the one that came the shorter way. -/
theorem ringTime : Obligations.RingTime := by
  intro n p atD f res s hs hr hc
  have hring : onRing s = true := onRing_of hr
  have hfast : fastRuns s = true := by simp [fastRuns, hc]
  have hlive : s.bgt.sleep ≠ 1 → ¬ (!hasRing s ∨ s.bgt.sleep = 1 ∨ !fastRuns s) := fun hsl => by simp [hasRing, hring, hfast, hsl]
  refine ⟨fun hsl => ?sleep, fun hsl h1 => ?primary, fun hsl h2 => ?secondary⟩
  case sleep => rw [exec_timeFrame _ _ _ hs, if_pos (.inr (.inl hsl))]
  case primary =>
    intro time
    rw [exec_timeFrame _ _ _ hs, if_neg (hlive hsl), if_pos (isPrimary_of h1), timeFrame_eq, bgtSendAll, if_pos hring,
      sendOut_eq_queued, sendOut_eq_queued]
  case secondary =>
    intro on hops path
    have hp : 1 ≤ p := pos_of_secondary hr h2
    have hexec : exec (.timeFrame atD f res) s =
        .next (if takesDown s 0 p = some (!atD) then timeArrived (!atD) f on else on) := by
      rw [exec_timeFrame _ _ _ hs, if_neg (hlive hsl), if_neg (by simp [isPrimary_none h2]), myPos_of hr, passOn, sendOut_eq_queued]
    refine ⟨fun hb hway => ?longer, fun e hb hway hm h1 h2 => ⟨timeArrived (!atD) f on, ?shorter, ?_⟩⟩
    case longer =>
      have hlong : ¬ takesDown s 0 p = some (!atD) := by
        rw [takesDown_from_primary hr hp hb]
        cases atD <;> simp at hway ⊢ <;> omega
      rw [hexec, if_neg hlong]
    case shorter =>
      have hshort : takesDown s 0 p = some (!atD) := by
        rw [takesDown_from_primary hr hp hb]
        cases atD <;> simp at hway ⊢ <;> omega
      rw [hexec, if_pos hshort]
    · have hon : onlyPorts s on := queued_onlyPorts _ _ s
      exact timeArrived_passed hon (by rw [pathDelay_eq hr hp atD]; exact hm) h1 h2

end Sys2Proof.Machine
end

section
/-! SUPPORT. The hops of the ring: their breaks, their repairs and the retries before them (R475, R485, R486). -/

namespace Sys2Proof.Machine
open Sys2Proof Sys2Proof.Claims

variable {s t u v : State} {n p h : Nat} {f : BFrame} {down : Bool}

/-! ### A hub's own hops (R471) -/

section
variable (hr : ringAt n p s)
include hr

theorem downHop_of : downHop s = p := myPos_of hr

theorem upHop_of : upHop s = (p + n - 1) % n := by rw [upHop, myPos_of hr, ringHubs_of hr]

theorem ownHop_iff : ownHop s h = true ↔ h = p ∨ h = (p + n - 1) % n := by
  rw [ownHop, hasRing, onRing_of hr, downHop_of hr, upHop_of hr, Bool.true_and, Bool.or_eq_true, decide_eq_true_eq, decide_eq_true_eq]

/-- The two hops are not the same. -/
theorem upHop_ne : (p + n - 1) % n ≠ p := by
  have h2 := two_le_of hr
  have hlt := ringAt_lt hr
  obtain rfl | hp := Nat.eq_zero_or_pos p
  · rw [Nat.zero_add, Nat.mod_eq_of_lt (by omega)]
    omega
  · rw [show p + n - 1 = (p - 1) + n by omega, Nat.add_mod_right, Nat.mod_eq_of_lt (by omega)]
    omega
end

theorem hopUp_iff : hopUp s h = true ↔ h ∉ s.bgt.broken := by simp [hopUp]

/-! ### Counting and journalling -/

theorem cntR_journal_other (k : Nat) (x : Sample) (ws : List W48) {a : Nat} (hne : a ≠ jqLostA) (s : State) :
    cntR (journal k x ws s) a = cntR s a := by
  unfold journal
  split
  · rfl
  · exact cntR_bump_other hne _

theorem journalOpen_eq (s : State) : ∃ k x ws, journalOpen s = journal k x ws { s with fresh := s.fresh + 1 + 1 } := ⟨_, _, _, rfl⟩

theorem journalOpen_bgt (s : State) : (journalOpen s).bgt = s.bgt := by
  obtain ⟨k, x, ws, hj⟩ := journalOpen_eq s
  rw [hj, journal_bgt]

theorem journalOpen_straps (s : State) : (journalOpen s).straps = s.straps := by
  obtain ⟨k, x, ws, hj⟩ := journalOpen_eq s
  rw [hj, journal_straps]

theorem cntR_journalOpen {a : Nat} (hne : a ≠ jqLostA) (s : State) : cntR (journalOpen s) a = cntR s a := by
  obtain ⟨k, x, ws, hj⟩ := journalOpen_eq s
  rw [hj, cntR_journal_other k x ws hne]
  rfl

theorem flagR_journalOpen {a : Nat} (hne : a ≠ mgtFlagsA) (s : State) : flagR (journalOpen s) a = flagR s a := by
  obtain ⟨k, x, ws, hj⟩ := journalOpen_eq s
  rw [hj, flagR_journal k x ws hne]
  rfl

theorem journalOpen_length (hq : s.journalQ.length < 256) : (journalOpen s).journalQ.length = s.journalQ.length + 1 := by
  obtain ⟨k, x, ws, hj⟩ := journalOpen_eq s
  rw [hj, journal_kept _ _ _ _ (by exact hq)]
  exact List.length_append

/-! ### What a break or a repair may touch besides its own hop -/

/-- t has the hops, the ports' states, the counters, the journal queue, the straps and the configuration of s. -/
structure SameHops (s t : State) : Prop where
  broken : t.bgt.broken = s.bgt.broken
  rstate : t.bgt.rstate = s.bgt.rstate
  dport : t.bgt.dport = s.bgt.dport
  uport : t.bgt.uport = s.bgt.uport
  cnt : t.cnt = s.cnt
  journalQ : t.journalQ = s.journalQ
  straps : t.straps = s.straps
  cfg : t.cfg = s.cfg

theorem SameHops.trans (h : SameHops s t) (h' : SameHops t u) : SameHops s u :=
  ⟨h'.broken.trans h.broken, h'.rstate.trans h.rstate, h'.dport.trans h.dport, h'.uport.trans h.uport, h'.cnt.trans h.cnt,
    h'.journalQ.trans h.journalQ, h'.straps.trans h.straps, h'.cfg.trans h.cfg⟩

theorem sameHops_refl (s : State) : SameHops s s := ⟨rfl, rfl, rfl, rfl, rfl, rfl, rfl, rfl⟩

theorem sameHops_of_onlyPorts (h : onlyPorts s t) : SameHops s t where
  broken := keeps_of_onlyPorts h (fun v => v.bgt.broken) fun _ _ _ => rfl
  rstate := keeps_of_onlyPorts h (fun v => v.bgt.rstate) fun _ _ _ => rfl
  dport := keeps_of_onlyPorts h (fun v => v.bgt.dport) fun _ _ _ => rfl
  uport := keeps_of_onlyPorts h (fun v => v.bgt.uport) fun _ _ _ => rfl
  cnt := keeps_of_onlyPorts h State.cnt fun _ _ _ => rfl
  journalQ := keeps_of_onlyPorts h State.journalQ fun _ _ _ => rfl
  straps := keeps_of_onlyPorts h State.straps fun _ _ _ => rfl
  cfg := keeps_of_onlyPorts h State.cfg fun _ _ _ => rfl

theorem setAligned_sameHops (x : Bool) (s : State) : SameHops s (setAligned x s) := by
  unfold setAligned
  split
  · exact sameHops_refl s
  · exact ⟨rfl, rfl, rfl, rfl, rfl, rfl, rfl, rfl⟩

theorem checkDirection_sameHops (old s : State) : SameHops s (checkDirection old s) := by
  unfold checkDirection
  split
  · have h0 : SameHops s { s with bgt := { s.bgt with alignGood := 0 } } := ⟨rfl, rfl, rfl, rfl, rfl, rfl, rfl, rfl⟩
    exact h0.trans (setAligned_sameHops false _)
  · exact sameHops_refl s

/-- Without RELAY rings no stream is relayed. -/
theorem relayedStreams_none (hrel : ∀ r, ringMode s r ≠ 2) : relayedStreams s = [] := by
  simp [relayedStreams, hrel]

theorem ringMode_congr (h : t.cfg = s.cfg) (r : Nat) : ringMode t r = ringMode s r := by
  unfold ringMode cfgR
  rw [h]

theorem recordBreak_sameHops (h : Nat) (hrel : ∀ r, ringMode s r ≠ 2) : SameHops s (recordBreak h s) := by
  have hnone : (if isSecondary s then relayedStreams s else []) = [] := by rw [relayedStreams_none hrel, ite_self]
  rw [recordBreak, hnone]
  exact ⟨rfl, rfl, rfl, rfl, rfl, rfl, rfl, rfl⟩

theorem relayAll_none (hrel : ∀ r, ringMode s r ≠ 2) : relayAll s = s := forEach_same fun r _ => relayPending_other (hrel r)

/-! ### A break of a hub's own hop (R485) -/

/-- The hop is broken. -/
def hopBroken (h : Nat) (s : State) : State := { s with bgt := { s.bgt with broken := h :: s.bgt.broken, rstate := 3 } }

/-- The port of a broken hop trains on, and the break counts. -/
def portDown (down : Bool) (s : State) : State := bump (bgtCnt 4) { s with bgt :=
  if down then { s.bgt with dport := 1, replayD := [], failsD := 0 } else { s.bgt with uport := 1, replayU := [], failsU := 0 } }

theorem foldl_onlyPorts {α : Type} {g : State → α → State} (hg : ∀ v x, onlyPorts v (g v x)) (l : List α) (s : State) : onlyPorts s (l.foldl g s) := by
  induction l generalizing s with
  | nil => exact onlyPorts_refl s
  | cons x l ih => exact onlyPorts_trans (hg s x) (ih _)

/-- A frame that waited at the port goes the other way. -/
def sendAround (down : Bool) (s : State) (f : BFrame) : State := if f.kind = 8 ∧ f.dst = 7 then sendOut (!down) f s else bgtSend f s

theorem sendAround_onlyPorts (down : Bool) (s : State) (f : BFrame) : onlyPorts s (sendAround down s f) := by
  unfold sendAround
  split
  · exact sendOut_onlyPorts _ _ _
  · exact bgtSend_onlyPorts _ _

theorem dropPort_eq (h : Nat) (s : State) : ∃ fs, dropPort h s = List.foldl (sendAround (decide (h = downHop s)))
    (sendOut (!decide (h = downHop s)) (ctrlFrame (portDown (decide (h = downHop s)) s) 7 ctrlBreak h []) (portDown (decide (h = downHop s)) s)) fs :=
  ⟨_, rfl⟩

theorem dropPort_onlyPorts (h : Nat) (s : State) : onlyPorts (portDown (decide (h = downHop s)) s) (dropPort h s) := by
  obtain ⟨fs, hdrop⟩ := dropPort_eq h s
  rw [hdrop]
  exact onlyPorts_trans (sendOut_onlyPorts _ _ _) (foldl_onlyPorts (sendAround_onlyPorts _) _ _)

/-- What the break does at every hub. -/
def breakNoted (own : Bool) (h : Nat) (s : State) : State :=
  recordBreak h (checkDirection s (if own then dropPort h (hopBroken h s) else hopBroken h s))

/-- What the primary adds. -/
def primaryBreak (old s : State) : State :=
  let v := journalOpen (raise bgtFlagsA 0 { s with bgt := { s.bgt with reach := reachNow s } })
  if reachNow s ≠ reachNow old then raise bgtFlagsA 2 v else v

theorem breakHop_eq (own : Bool) (h : Nat) (s : State) : breakHop own h s =
    if !hopUp s h then s else if isPrimary (breakNoted own h s) then primaryBreak s (breakNoted own h s) else breakNoted own h s := rfl

/-- A break of a hub's own hop, before the primary's part of it. -/
theorem breakNoted_sameHops (h : Nat) (hrel : ∀ r, ringMode s r ≠ 2) :
    SameHops (portDown (decide (h = downHop s)) (hopBroken h s)) (breakNoted true h s) := by
  have hport : SameHops (portDown (decide (h = downHop s)) (hopBroken h s)) (dropPort h (hopBroken h s)) :=
    sameHops_of_onlyPorts (dropPort_onlyPorts h (hopBroken h s))
  have hturn := hport.trans (checkDirection_sameHops s (dropPort h (hopBroken h s)))
  have hcfg : (portDown (decide (h = downHop s)) (hopBroken h s)).cfg = s.cfg := rfl
  exact hturn.trans (recordBreak_sameHops h fun r => by rw [ringMode_congr (hturn.cfg.trans hcfg)]; exact hrel r)

theorem portDown_spec (down : Bool) (s : State) : (portDown down s).bgt.broken = s.bgt.broken ∧ (portDown down s).bgt.rstate = s.bgt.rstate ∧
    (portDown down s).bgt.dport = (if down then 1 else s.bgt.dport) ∧ (portDown down s).bgt.uport = (if down then s.bgt.uport else 1) ∧
    cntR (portDown down s) (ringCount 4) = plusOne (cntR s (ringCount 4)) ∧ (portDown down s).journalQ = s.journalQ ∧
    (portDown down s).straps = s.straps := by
  have hcnt : cntR (portDown down s) (ringCount 4) = plusOne (cntR s (ringCount 4)) := by
    rw [← satInc_eq_plusOne]
    exact cntR_bump _ (bgtCnt 4)
  cases down <;> exact ⟨rfl, rfl, rfl, rfl, hcnt, rfl, rfl⟩

theorem ringCount_ne (i : Nat) : ringCount i ≠ jqLostA := by
  have h1 : ringCount i = bgtA + 0x40 + 4 * i := rfl
  have h2 : bgtA = 0x0011_0000 := rfl
  have h3 : jqLostA = 0x0010_0020 := rfl
  omega

/-- What the primary's flag of lost reach leaves. -/
theorem raise_kept (a i : Nat) (s : State) : (raise a i s).bgt = s.bgt ∧ (raise a i s).cnt = s.cnt ∧ (raise a i s).journalQ = s.journalQ ∧
    (raise a i s).straps = s.straps := ⟨rfl, rfl, rfl, rfl⟩

theorem bit_raise_kept {a i j : Nat} (h : bit (flagR s a) i = true) : bit (flagR (raise a j s) a) i = true := by
  rw [flagR_raise, bit, BitVec.getLsbD_or]
  exact Bool.or_eq_true_iff.mpr (.inl h)

/-- The break is noted by the primary: BREAKF and a journal entry. -/
def breakFlagged (s : State) : State := journalOpen (raise bgtFlagsA 0 { s with bgt := { s.bgt with reach := reachNow s } })

theorem breakFlagged_spec (s : State) : (breakFlagged s).bgt = { s.bgt with reach := reachNow s } ∧
    (∀ i, cntR (breakFlagged s) (ringCount i) = cntR s (ringCount i)) ∧ bit (flagR (breakFlagged s) (bgtA + 8)) 0 = true ∧
    (s.journalQ.length < 256 → (breakFlagged s).journalQ.length = s.journalQ.length + 1) ∧ (breakFlagged s).straps = s.straps := by
  refine ⟨journalOpen_bgt _, fun i => cntR_journalOpen (ringCount_ne i) _, ?_, fun hq => journalOpen_length (by exact hq), journalOpen_straps _⟩
  rw [breakFlagged, flagR_journalOpen (by decide), show bgtFlagsA = bgtA + 8 from rfl, flagR_raise]
  exact bit_raised (by decide) _

theorem primaryBreak_spec (old s : State) : (primaryBreak old s).bgt = { s.bgt with reach := reachNow s } ∧
    (∀ i, cntR (primaryBreak old s) (ringCount i) = cntR s (ringCount i)) ∧ bit (flagR (primaryBreak old s) (bgtA + 8)) 0 = true ∧
    (s.journalQ.length < 256 → (primaryBreak old s).journalQ.length = s.journalQ.length + 1) ∧ (primaryBreak old s).straps = s.straps := by
  obtain ⟨hbgt, hcnt, hflag, hq, hstraps⟩ := breakFlagged_spec s
  have heq : primaryBreak old s = if reachNow s ≠ reachNow old then raise bgtFlagsA 2 (breakFlagged s) else breakFlagged s := rfl
  rw [heq]
  split
  · exact ⟨hbgt, hcnt, bit_raise_kept hflag, hq, hstraps⟩
  · exact ⟨hbgt, hcnt, hflag, hq, hstraps⟩

/-- What a break of a hub's own hop leaves. -/
theorem breakHop_own (hrel : ∀ r, ringMode s r ≠ 2) (hh : h ∉ s.bgt.broken) : let t := breakHop true h s
    t.bgt.broken = h :: s.bgt.broken ∧ t.bgt.rstate = 3 ∧ t.bgt.dport = (if h = downHop s then 1 else s.bgt.dport) ∧
      t.bgt.uport = (if h = downHop s then s.bgt.uport else 1) ∧ cntR t (ringCount 4) = plusOne (cntR s (ringCount 4)) ∧
      (s.straps.role = 1 → s.journalQ.length < 256 → bit (flagR t (bgtA + 8)) 0 = true ∧ t.journalQ.length = s.journalQ.length + 1) := by
  have hsame := breakNoted_sameHops h hrel
  obtain ⟨hbroken, hrstate, hdport, huport, hcnt, hq, hstraps⟩ := portDown_spec (decide (h = downHop s)) (hopBroken h s)
  have hcount : cntR (breakNoted true h s) (ringCount 4) = plusOne (cntR s (ringCount 4)) := by
    rw [cntR, hsame.cnt]
    exact hcnt
  have hrole : (breakNoted true h s).straps = s.straps := hsame.straps.trans hstraps
  have hdport' : (breakNoted true h s).bgt.dport = if h = downHop s then 1 else s.bgt.dport := by
    rw [hsame.dport, hdport]
    simp only [decide_eq_true_eq]
    rfl
  have huport' : (breakNoted true h s).bgt.uport = if h = downHop s then s.bgt.uport else 1 := by
    rw [hsame.uport, huport]
    simp only [decide_eq_true_eq]
    rfl
  have hjq : (breakNoted true h s).journalQ = s.journalQ := hsame.journalQ.trans hq
  dsimp only
  rw [breakHop_eq, if_neg (by simpa [hopUp] using hh)]
  split
  · obtain ⟨hbgt, hcnt', hflag, hlen, -⟩ := primaryBreak_spec s (breakNoted true h s)
    rw [hbgt, hcnt' 4]
    exact ⟨hsame.broken.trans hbroken, hsame.rstate.trans hrstate, hdport', huport', hcount, fun _ hlt =>
      ⟨hflag, by rw [hlen (by rw [hjq]; exact hlt), hjq]⟩⟩
  · next hprim =>
    refine ⟨hsame.broken.trans hbroken, hsame.rstate.trans hrstate, hdport', huport', hcount, fun h1 => absurd ?_ hprim⟩
    rw [isPrimary, hrole]
    exact decide_eq_true h1

/-! ### A repair (R486) -/

/-- The hop is whole again, and its port is up. -/
def hopWhole (h : Nat) (s : State) : State :=
  let v : State := { s with bgt := { s.bgt with
    broken := s.bgt.broken.filter (· ≠ h), rstate := if s.bgt.broken.filter (· ≠ h) = [] then 2 else 3 } }
  { v with bgt := if h = downHop s then { v.bgt with dport := 2 } else { v.bgt with uport := 2 } }

/-- What the repair of a hub's own hop does before the primary's part and the RELAY rings'. -/
def repairNoted (h : Nat) (s : State) : State :=
  let v := checkDirection s (bgtSendAll (ctrlFrame (hopWhole h s) 7 ctrlRepair h []) (hopWhole h s))
  let v := bump (bgtCnt 5) (raise bgtFlagsA 1 v)
  bightRecords h ((v.bgt.reported.filter (fun x => x.1 = h)).flatMap Prod.snd)
    { v with bgt := { v.bgt with reported := v.bgt.reported.filter (fun x => x.1 ≠ h) } }

theorem repairHop_eq (h : Nat) (s : State) : repairHop true h s = if hopUp s h then s
    else relayAll (if isPrimary (repairNoted h s) then { repairNoted h s with bgt := { (repairNoted h s).bgt with reach := reachNow (repairNoted h s) } }
      else repairNoted h s) := rfl

theorem hopWhole_spec (h : Nat) (s : State) : (hopWhole h s).bgt.broken = s.bgt.broken.filter (· ≠ h) ∧
    (hopWhole h s).bgt.rstate = (if s.bgt.broken.filter (· ≠ h) = [] then 2 else 3) ∧
    (if h = downHop s then (hopWhole h s).bgt.dport else (hopWhole h s).bgt.uport) = 2 ∧ (hopWhole h s).cnt = s.cnt ∧
    (hopWhole h s).bgt.reported = s.bgt.reported ∧ (hopWhole h s).cfg = s.cfg := by
  unfold hopWhole
  dsimp only
  by_cases hd : h = downHop s
  · rw [if_pos hd, if_pos hd]
    exact ⟨rfl, rfl, rfl, rfl, rfl, rfl⟩
  · rw [if_neg hd, if_neg hd]
    exact ⟨rfl, rfl, rfl, rfl, rfl, rfl⟩

theorem checkDirection_reported (old s : State) : (checkDirection old s).bgt.reported = s.bgt.reported := by
  unfold checkDirection
  split
  · exact (congrArg Bgt.reported (setAligned_spec false _).1 :)
  · rfl

/-- The repair is counted and flagged; `w` is the hub whose hop is whole again. -/
def repairFlagged (w : State) : State :=
  let v := bump (bgtCnt 5) (raise bgtFlagsA 1 w)
  { v with bgt := { v.bgt with reported := [] } }

theorem repairFlagged_spec (w : State) : (repairFlagged w).bgt = { w.bgt with reported := [] } ∧
    cntR (repairFlagged w) (ringCount 5) = plusOne (cntR w (ringCount 5)) ∧ bit (flagR (repairFlagged w) (bgtA + 8)) 1 = true ∧
    (repairFlagged w).cfg = w.cfg := by
  refine ⟨rfl, ?_, ?_, rfl⟩
  · rw [← satInc_eq_plusOne]
    exact cntR_bump _ (bgtCnt 5)
  · have hflag : flagR (repairFlagged w) (bgtA + 8) = flagR (raise bgtFlagsA 1 w) (bgtA + 8) := rfl
    rw [hflag, show bgtFlagsA = bgtA + 8 from rfl, flagR_raise]
    exact bit_raised (by decide) _

/-- The hub whose own hop is whole again, before it is counted. -/
def repairTurned (h : Nat) (s : State) : State := checkDirection s (bgtSendAll (ctrlFrame (hopWhole h s) 7 ctrlRepair h []) (hopWhole h s))

theorem repairTurned_sameHops (h : Nat) (s : State) : SameHops (hopWhole h s) (repairTurned h s) :=
  (sameHops_of_onlyPorts (bgtSendAll_onlyPorts _ _)).trans (checkDirection_sameHops _ _)

/-- With no stream that the break was reported on, the repair adds no record. -/
theorem repairNoted_eq (h : Nat) (hrep : s.bgt.reported = []) : repairNoted h s = repairFlagged (repairTurned h s) := by
  have hnone : (repairTurned h s).bgt.reported = [] := by
    rw [repairTurned, checkDirection_reported, keeps_of_onlyPorts (bgtSendAll_onlyPorts _ _) (fun v => v.bgt.reported) fun _ _ _ => rfl]
    exact (hopWhole_spec h s).2.2.2.2.1.trans hrep
  have hrec : ∀ v : State, v.bgt.reported = [] → bightRecords h ((v.bgt.reported.filter (fun x => x.1 = h)).flatMap Prod.snd)
      { v with bgt := { v.bgt with reported := v.bgt.reported.filter (fun x => x.1 ≠ h) } } = { v with bgt := { v.bgt with reported := [] } } :=
    fun v hv => by rw [hv]; rfl
  exact hrec (bump (bgtCnt 5) (raise bgtFlagsA 1 (repairTurned h s))) hnone

/-- What a repair of a hub's own hop leaves. -/
theorem repairHop_own (hrel : ∀ r, ringMode s r ≠ 2) (hh : h ∈ s.bgt.broken) (hrep : s.bgt.reported = []) : let t := repairHop true h s
    t.bgt.broken = s.bgt.broken.filter (· ≠ h) ∧ t.bgt.rstate = (if s.bgt.broken.filter (· ≠ h) = [] then 2 else 3) ∧
      (if h = downHop s then t.bgt.dport else t.bgt.uport) = 2 ∧ cntR t (ringCount 5) = plusOne (cntR s (ringCount 5)) ∧
      bit (flagR t (bgtA + 8)) 1 = true := by
  obtain ⟨hbroken, hrstate, hport, hcnt, -, hcfg⟩ := hopWhole_spec h s
  have hsame := repairTurned_sameHops h s
  obtain ⟨hbgt, hcount, hflag, hcfg'⟩ := repairFlagged_spec (repairTurned h s)
  have hmode : ∀ r, ringMode (repairFlagged (repairTurned h s)) r ≠ 2 := fun r => by
    rw [ringMode_congr (hcfg'.trans (hsame.cfg.trans hcfg))]
    exact hrel r
  have hcount' : cntR (repairFlagged (repairTurned h s)) (ringCount 5) = plusOne (cntR s (ringCount 5)) := by
    rw [hcount, cntR, cntR, hsame.cnt, hcnt]
  have hport' : (if h = downHop s then (repairFlagged (repairTurned h s)).bgt.dport else (repairFlagged (repairTurned h s)).bgt.uport) = 2 := by
    rw [hbgt]
    dsimp only
    rw [hsame.dport, hsame.uport]
    exact hport
  have hbroken' : (repairFlagged (repairTurned h s)).bgt.broken = s.bgt.broken.filter (· ≠ h) := by
    rw [hbgt]
    exact hsame.broken.trans hbroken
  have hrstate' : (repairFlagged (repairTurned h s)).bgt.rstate = if s.bgt.broken.filter (· ≠ h) = [] then 2 else 3 := by
    rw [hbgt]
    exact hsame.rstate.trans hrstate
  dsimp only
  rw [repairHop_eq, if_neg (by simpa [hopUp] using hh), repairNoted_eq h hrep]
  split
  · rw [relayAll_none (by exact hmode)]
    exact ⟨hbroken', hrstate', hport', hcount', hflag⟩
  · rw [relayAll_none hmode]
    exact ⟨hbroken', hrstate', hport', hcount', hflag⟩

/-! ### The commands -/

theorem exec_hopBreak (h : Nat) (hs : stopped s = false) : exec (.hopBreak h) s = if ownHop s h then .next (breakHop true h s) else .next s :=
  live_running hs _

theorem exec_hopRetrain (h : Nat) (trips : List Nat) (skew : Rat) (hs : stopped s = false) : exec (.hopRetrain h trips skew) s =
    if !ownHop s h ∨ hopUp s h then .next s
    else match hopDelay trips skew s with
    | some (d, s) => .next (repairHop true h (setHopDelay h d s))
    | none => .next s := live_running hs _

theorem exec_frameRetry (down received : Bool) (acked : Nat) (hs : stopped s = false) : exec (.frameRetry down received acked) s =
    if !hasRing s then .next s
    else if received then .next (bump (bgtCnt (if down then 2 else 0)) s)
    else if acked < (if down then s.bgt.replayD else s.bgt.replayU).length then .next (retryFrame down acked s)
    else .next s := live_running hs _

theorem hopDelay_none {trips : List Nat} {skew : Rat} (h : trips.length ≠ 64 ∨ 4 / 5 < skew) : hopDelay trips skew s = none := if_pos h

theorem hopDelay_some {trips : List Nat} {skew : Rat} (hl : trips.length = 64) (hk : skew ≤ 4 / 5) :
    hopDelay trips skew s = some ((roundFree ((trips.sum : Nat) / 128 : Rat) s).1.toNat % 65536, (roundFree ((trips.sum : Nat) / 128 : Rat) s).2) :=
  if_neg (by rintro (h | h); exacts [h hl, not_lt.mpr hk h])

end Sys2Proof.Machine
end

section
/-! SUPPORT. The ring's breaks, repairs and retries as stated (R475, R485, R486), and its start (R472, R473, R476, R478). -/

namespace Sys2Proof.Machine
open Sys2Proof Sys2Proof.Claims

variable {s t u v : State} {n p h : Nat} {f : BFrame} {down : Bool}

/-! ### Retries (R475) -/

/-- How often the frame at the front of the port's buffer has failed now. -/
def failsNow (down : Bool) (acked : Nat) (s : State) : Nat := (if acked = 0 then (if down then s.bgt.failsD else s.bgt.failsU) else 0) + 1

/-- The frame goes out again, and the retry is counted. -/
def retried (down : Bool) (acked : Nat) (s : State) : State := bump (bgtCnt (if down then 3 else 1)) { s with bgt :=
  if down then { s.bgt with replayD := s.bgt.replayD.drop acked, failsD := failsNow down acked s }
  else { s.bgt with replayU := s.bgt.replayU.drop acked, failsU := failsNow down acked s } }

/-- A further retry of the same frame sets RETRYF. -/
def retryFlagged (down : Bool) (acked : Nat) (s : State) : State :=
  if 2 ≤ failsNow down acked s then raise bgtFlagsA 4 (retried down acked s) else retried down acked s

theorem retryFrame_eq (down : Bool) (acked : Nat) (s : State) : retryFrame down acked s =
    if bits (cfgR (retryFlagged down acked s) (bgtA + 4)) 15 12 ≤ failsNow down acked s then
      breakHop true (if down then downHop (retryFlagged down acked s) else upHop (retryFlagged down acked s)) (retryFlagged down acked s)
    else retryFlagged down acked s := rfl

theorem retried_kept (down : Bool) (acked : Nat) (s : State) : (retried down acked s).cfg = s.cfg ∧ (retried down acked s).straps = s.straps ∧
    (retried down acked s).frz = s.frz ∧ (retried down acked s).phase = s.phase ∧ (retried down acked s).bgt.hubs = s.bgt.hubs := by
  cases down <;> exact ⟨rfl, rfl, rfl, rfl, rfl⟩

theorem retryFlagged_kept (down : Bool) (acked : Nat) (s : State) : (retryFlagged down acked s).cfg = s.cfg ∧
    (retryFlagged down acked s).straps = s.straps ∧ (retryFlagged down acked s).frz = s.frz ∧ (retryFlagged down acked s).phase = s.phase ∧
    (retryFlagged down acked s).bgt.hubs = s.bgt.hubs := by
  unfold retryFlagged
  split
  · exact retried_kept down acked s
  · exact retried_kept down acked s

theorem ringAt_retryFlagged (hr : ringAt n p s) (down : Bool) (acked : Nat) : ringAt n p (retryFlagged down acked s) := by
  obtain ⟨-, hstraps, -, -, hhubs⟩ := retryFlagged_kept down acked s
  unfold ringAt
  rw [hstraps, hhubs]
  exact hr

theorem stopped_retryFlagged (hs : stopped s = false) (down : Bool) (acked : Nat) : stopped (retryFlagged down acked s) = false := by
  obtain ⟨-, -, hfrz, hphase, -⟩ := retryFlagged_kept down acked s
  rw [stopped, hfrz, hphase]
  exact hs

/-- The state after a retry as the statement writes it. -/
theorem retryFlagged_stated (down : Bool) (acked : Nat) (s : State) : retryFlagged down acked s =
    if failsNow down acked s = 1 then bump (ringCount (if down then 3 else 1)) { s with bgt := if down
        then { s.bgt with replayD := (if down then s.bgt.replayD else s.bgt.replayU).drop acked, failsD := failsNow down acked s }
        else { s.bgt with replayU := (if down then s.bgt.replayD else s.bgt.replayU).drop acked, failsU := failsNow down acked s } }
    else raise (bgtA + 8) 4 (bump (ringCount (if down then 3 else 1)) { s with bgt := if down
        then { s.bgt with replayD := (if down then s.bgt.replayD else s.bgt.replayU).drop acked, failsD := failsNow down acked s }
        else { s.bgt with replayU := (if down then s.bgt.replayD else s.bgt.replayU).drop acked, failsU := failsNow down acked s } }) := by
  have hpos : 1 ≤ failsNow down acked s := Nat.succ_le_succ (Nat.zero_le _)
  unfold retryFlagged
  by_cases h1 : failsNow down acked s = 1
  · rw [if_pos h1, if_neg (by omega)]
    cases down <;> rfl
  · rw [if_neg h1, if_pos (by omega)]
    cases down <;> rfl

/-- A broken hop breaks once. -/
theorem breakHop_again (own : Bool) (hh : h ∈ s.bgt.broken) : breakHop own h s = s := by
  rw [breakHop_eq, if_pos (by simpa [hopUp] using hh)]

/-! ### Calibration (R476) -/

/-- The hub with a delay drawn for hop h from its round trips. -/
def calibrated (h : Nat) (trips : List Nat) (s : State) : State :=
  setHopDelay h ((roundFree ((trips.sum : Nat) / 128 : Rat) s).1.toNat % 65536) (roundFree ((trips.sum : Nat) / 128 : Rat) s).2

theorem calibrated_frame (h : Nat) (trips : List Nat) (s : State) :
    { calibrated h trips s with bgt := { (calibrated h trips s).bgt with hopDly := s.bgt.hopDly }, fresh := s.fresh } = s := by
  obtain ⟨-, hframe⟩ := roundFree_near ((trips.sum : Nat) / 128 : Rat) s
  exact (congrArg (fun v : State => { v with bgt := { v.bgt with hopDly := s.bgt.hopDly } }) hframe :)

/-- What a calibration leaves as it was. -/
theorem calibrated_kept (h : Nat) (trips : List Nat) (s : State) : (calibrated h trips s).bgt.broken = s.bgt.broken ∧
    (calibrated h trips s).bgt.reported = s.bgt.reported ∧ (calibrated h trips s).cnt = s.cnt ∧ (calibrated h trips s).cfg = s.cfg ∧
    (calibrated h trips s).straps = s.straps := by
  have hframe := calibrated_frame h trips s
  exact ⟨(congrArg (fun v : State => v.bgt.broken) hframe :), (congrArg (fun v : State => v.bgt.reported) hframe :), (congrArg State.cnt hframe :),
    (congrArg State.cfg hframe :), (congrArg State.straps hframe :)⟩

/-! ### The statement on breaks -/

theorem exec_hopBreak_own (hs : stopped s = false) (ho : ownHop s h = true) : exec (.hopBreak h) s = .next (breakHop true h s) := by
  rw [exec_hopBreak h hs, if_pos ho]

theorem filter_eq_nil_iff_all (l : List Nat) : l.filter (· ≠ h) = [] ↔ ∀ x ∈ l, x = h := by simp [List.filter_eq_nil_iff]

theorem ringBreaks : RingBreaks := by
  intro n p s hs hr hrel
  dsimp only
  have hown : ∀ {v h}, ringAt n p v → (ownHop v h = true ↔ h = p ∨ h = (p + n - 1) % n) := fun hv => ownHop_iff hv
  refine ⟨fun h hno => ?noBreak, fun h ho hh => ⟨_, exec_hopBreak_own hs ((hown hr).mpr ho), ?broken⟩, fun h trips skew hno => ?noRepair,
    fun h trips skew ho hh hl hk hrep => ?repair, fun down acked => ⟨?received, fun hle => ?none, fun hlt => ⟨fun hfew => ?again, fun hmany => ?breaks⟩⟩⟩
  case noBreak =>
    rw [exec_hopBreak h hs]
    obtain hno | hno := hno
    · rw [if_neg fun h' => hno ((hown hr).mp h')]
    · rw [breakHop_again true hno, ite_self]
  case broken =>
    obtain ⟨hbroken, hrstate, hdport, huport, hcnt, hprim⟩ := breakHop_own hrel hh
    rw [downHop_of hr] at hdport huport
    refine ⟨hbroken, hrstate, ?_, ?_, hcnt, hprim⟩
    · by_cases hd : h = p
      · rw [if_pos hd, hdport, if_pos hd]
      · rw [if_neg hd, huport, if_neg hd]
    · by_cases hd : h = p
      · rw [if_pos hd, huport, if_pos hd]
      · rw [if_neg hd, hdport, if_neg hd]
  case noRepair =>
    rw [exec_hopRetrain h _ _ hs]
    obtain hno | hno | hno := hno
    · rw [if_pos (.inl (by simpa using fun h' => hno ((hown hr).mp h')))]
    · rw [if_pos (.inr (hopUp_iff.mpr hno))]
    · rw [hopDelay_none hno, ite_self]
  case repair =>
    obtain ⟨hbroken, hreported, hcnt, hcfg, hstraps⟩ := calibrated_kept h trips s
    obtain ⟨hbroken', hrstate, hport, hcount, hflag⟩ := repairHop_own (s := calibrated h trips s) (h := h)
      (fun r => by rw [ringMode_congr hcfg]; exact hrel r) (by rw [hbroken]; exact hh) (hreported.trans hrep)
    have hdown : downHop (calibrated h trips s) = p := by rw [downHop, myPos, hstraps]; exact myPos_of hr
    have hcount' : cntR (repairHop true h (calibrated h trips s)) (ringCount 5) = plusOne (cntR s (ringCount 5)) := by
      rw [hcount, cntR, cntR, hcnt]
    rw [hbroken] at hbroken' hrstate
    rw [hdown] at hport
    refine ⟨_, ?_, hbroken', hrstate.trans (if_congr (filter_eq_nil_iff_all _) rfl rfl), hport, hcount', hflag⟩
    rw [exec_hopRetrain h _ _ hs, if_neg (by rw [(hown hr).mpr ho]; simpa [hopUp] using hh), hopDelay_some hl hk]
    rfl
  case received => rw [exec_frameRetry _ _ _ hs, hasRing, onRing_of hr]; rfl
  case none => rw [exec_frameRetry _ _ _ hs, hasRing, onRing_of hr]; exact if_neg (Nat.not_lt.mpr hle)
  case again =>
    have hcfg : cfgR (retryFlagged down acked s) (bgtA + 4) = cfgR s (bgtA + 4) := by rw [cfgR, cfgR, (retryFlagged_kept down acked s).1]
    rw [exec_frameRetry _ _ _ hs, hasRing, onRing_of hr, retryFrame_eq, hcfg, if_neg (show ¬ _ ≤ failsNow down acked s from Nat.not_le.mpr hfew)]
    exact (if_pos hlt).trans (congrArg Host.Outcome.next (retryFlagged_stated down acked s))
  case breaks =>
    have hcfg : cfgR (retryFlagged down acked s) (bgtA + 4) = cfgR s (bgtA + 4) := by rw [cfgR, cfgR, (retryFlagged_kept down acked s).1]
    have hr' := ringAt_retryFlagged hr down acked
    have hhop : (if down then downHop (retryFlagged down acked s) else upHop (retryFlagged down acked s)) = if down then p else (p + n - 1) % n := by
      rw [downHop_of hr', upHop_of hr']
    have hmine : ownHop (retryFlagged down acked s) (if down then p else (p + n - 1) % n) = true := by
      rw [hown hr']
      cases down
      · exact .inr rfl
      · exact .inl rfl
    rw [exec_frameRetry _ _ _ hs, hasRing, onRing_of hr, retryFrame_eq, hcfg, if_pos (show _ ≤ failsNow down acked s from hmany), hhop]
    exact (if_pos hlt).trans ((exec_hopBreak_own (stopped_retryFlagged hs down acked) hmine).symm.trans
      (congrArg (exec (.hopBreak (if down then p else (p + n - 1) % n))) (retryFlagged_stated down acked s)))

end Sys2Proof.Machine
end

section
/-! SUPPORT. The ring's start (R472, R473, R476, R478). -/

namespace Sys2Proof.Machine
open Sys2Proof Sys2Proof.Claims

variable {s t u v : State} {n p h : Nat} {f : BFrame} {down : Bool}

/-! ### A break leaves the straps -/

theorem keepRec_straps (r : Nat) (x : Record) (s : State) : (keepRec r x s).straps = s.straps := by
  unfold keepRec
  dsimp only
  split
  · rfl
  · split
    · rfl
    · split <;> rfl

theorem formFault_straps (k origin unit code : Nat) (w : W48) (s : State) : (formFault k origin unit code w s).straps = s.straps := by
  unfold formFault
  split
  · exact keepRec_straps _ _ s
  · rfl

theorem bightRecords_straps (h : Nat) (ks : List Nat) (s : State) : (bightRecords h ks s).straps = s.straps :=
  forEach_keeps (P := fun v => v.straps = s.straps) (fun k _ v hv => (formFault_straps k 3 h 0 _ v).trans hv) rfl

theorem breakNoted_straps (own : Bool) (h : Nat) (s : State) : (breakNoted own h s).straps = s.straps := by
  have hport : (if own then dropPort h (hopBroken h s) else hopBroken h s).straps = s.straps := by
    split
    · exact (sameHops_of_onlyPorts (dropPort_onlyPorts h (hopBroken h s))).straps
    · rfl
  exact (bightRecords_straps _ _ _).trans ((checkDirection_sameHops s _).straps.trans hport)

theorem breakHop_straps (own : Bool) (h : Nat) (s : State) : (breakHop own h s).straps = s.straps := by
  rw [breakHop_eq]
  split
  · rfl
  · split
    · exact (primaryBreak_spec _ _).2.2.2.2.trans (breakNoted_straps own h s)
    · exact breakNoted_straps own h s

/-! ### The ports train (R472, R473) -/

/-- Both ports are up, and the ring starts. -/
def portsUp (s : State) : State := { s with bgt := { s.bgt with state := .starting, rstate := 1, dport := 2, uport := 2, sleep := 0 } }

/-- The primary's ENUM goes out. -/
def enumSent (s : State) : State :=
  if isPrimary s then (if s.bgt.broken = [] then sendOut true { kind := 9 } s else sendOut true { kind := 9 } (sendOut false { kind := 9 } s)) else s

theorem exec_linkTraining (dUp uUp rejoin : Bool) (hs : stopped s = false) : exec (.linkTraining dUp uUp rejoin) s =
    if !hasRing s ∨ s.phase ≠ .loaded then .next s
    else
      let v := if dUp then portsUp s else breakHop true (downHop (portsUp s)) (portsUp s)
      let v := if uUp then v else breakHop true (upHop v) v
      .next (enumSent (if rejoin && isSecondary v then excludeSelf v else v)) := live_running hs _

theorem enumSent_secondary (h : s.straps.role = 2) : enumSent s = s := if_neg (by simp [isPrimary_none h])

/-- A secondary that does not rejoin sends nothing of its own. -/
theorem enumSent_unchanged (h : v.straps.role = 2) : enumSent (if (false && isSecondary v) = true then excludeSelf v else v) = v := by
  rw [Bool.false_and, if_neg Bool.false_ne_true, enumSent_secondary h]

/-! ### ENUM (R472, R473) -/

theorem exec_enum (atD : Bool) (f : Option BFrame) (reached : List Nat) (hs : stopped s = false) : exec (.enum atD f reached) s =
    if !hasRing s ∨ s.phase ≠ .loaded then .next s
    else match f with
    | some f =>
      if isPrimary s then
        (if s.bgt.broken = [] ∧ !atD then .next (ringCounted (f.info.toNat % 8 + 1) false (BitVec.ofNat 8 (2 ^ (f.info.toNat % 8 + 1) - 1)) s)
        else .next s)
      else if enumFits s atD (f.info.toNat % 8) then
        .next (passOn atD { f with info := BitVec.ofNat 32 (myPos s) } { s with bgt := { s.bgt with state := .on } })
      else .next (excludeSelf s)
    | none =>
      if isPrimary s then
        let m := (0 :: reached).foldl (fun (v : BitVec 8) p => v ||| (1#8 <<< p)) 0
        .next (ringCounted s.config.hubs true m s)
      else .next s := live_running hs _

/-- What the count leaves, but for the frame that tells the other hubs. -/
theorem ringCounted_onlyPorts (n : Nat) (chain : Bool) (reach : BitVec 8) (s : State) :
    onlyPorts { s with bgt := { s.bgt with state := .on, hubs := n, rstate := if chain then 3 else 2, reach := reach } } (ringCounted n chain reach s) :=
  bgtSendAll_onlyPorts _ _

/-- The positions reached, as a map. -/
theorem bit_foldl_shift (l : List Nat) (m : BitVec 8) {q : Nat} (hq : q < 8) :
    bit (l.foldl (fun (v : BitVec 8) p => v ||| (1#8 <<< p)) m) q = true ↔ bit m q = true ∨ q ∈ l := by
  induction l generalizing m with
  | nil => simp
  | cons i l ih =>
    have hshift : (1#8 <<< i).getLsbD q = decide (q = i) := by
      rw [BitVec.getLsbD_shiftLeft, BitVec.getLsbD_one]
      by_cases h : q = i
      · subst h; simp [hq]
      · simp only [h, decide_false]
        by_cases hlt : q < i
        · simp [hlt]
        · simp [hlt]
          omega
    rw [List.foldl_cons, ih, bit, BitVec.getLsbD_or, hshift, List.mem_cons]
    simp [bit, or_assoc]

theorem bit_reached (l : List Nat) {q : Nat} (hq : q < 8) :
    bit ((0 :: l).foldl (fun (v : BitVec 8) p => v ||| (1#8 <<< p)) 0) q = true ↔ q = 0 ∨ q ∈ l := by
  rw [bit_foldl_shift _ _ hq, List.mem_cons]
  simp [bit]

/-! ### Exclusion (R478) -/

theorem exec_alignmentTimeout (late : List Nat) (hs : stopped s = false) : exec (.alignmentTimeout late) s =
    if !hasRing s ∨ s.phase ≠ .loaded then .next s
    else if isPrimary s then .next (forEach late noteExcluded s)
    else if s.tb.aligned then .next s
    else .next (excludeSelf s) := live_running hs _

/-- The primary notes a position that it did not know excluded. -/
theorem noteExcluded_new {q : Nat} (h0 : 0 < q) (h8 : q < 8) (hb : bit s.bgt.reachExcl q = false) : noteExcluded q s =
    journalOpen (raise bgtFlagsA 3 { s with bgt := { s.bgt with reachExcl := s.bgt.reachExcl ||| (1#8 <<< q) } }) :=
  if_neg (by simp [hb]; omega)

theorem noteExcluded_spec {q : Nat} (h0 : 0 < q) (h8 : q < 8) (hb : bit s.bgt.reachExcl q = false) (hq : s.journalQ.length < 256) :
    (noteExcluded q s).bgt = { s.bgt with reachExcl := s.bgt.reachExcl ||| (1#8 <<< q) } ∧
      flagR (noteExcluded q s) (bgtA + 8) = flagR s (bgtA + 8) ||| 8 ∧ (noteExcluded q s).journalQ.length = s.journalQ.length + 1 := by
  rw [noteExcluded_new h0 h8 hb]
  refine ⟨journalOpen_bgt _, ?_, journalOpen_length (by exact hq)⟩
  rw [flagR_journalOpen (by decide), show bgtFlagsA = bgtA + 8 from rfl, flagR_raise]
  rfl

/-! ### Calibration (R476) -/

theorem exec_hopCalibration (h : Nat) (trips : List Nat) (skew : Rat) (hs : stopped s = false) : exec (.hopCalibration h trips skew) s =
    if !hasRing s ∨ ringHubs s ≤ h ∨ trips.length ≠ 64 ∨ !hopUp s h then .next s
    else match hopDelay trips skew s with
    | some (d, s) => .next (setHopDelay h d s)
    | none => .next (breakHop (ownHop s h) h s) := live_running hs _

/-- The mean of the round trips, rounded to a neighbour. -/
theorem roundFree_mean (m : Nat) (s : State) :
    (roundFree ((m : Nat) / 128 : Rat) s).1.toNat = m / 128 ∨ (m % 128 ≠ 0 ∧ (roundFree ((m : Nat) / 128 : Rat) s).1.toNat = m / 128 + 1) := by
  obtain ⟨hv, -⟩ := roundFree_near ((m : Nat) / 128 : Rat) s
  have hfloor : ((m : Nat) / 128 : Rat).floor = ((m / 128 : Nat) : Int) := by
    have h := Rat.floor_natCast_div_natCast m 128
    rw [Nat.cast_ofNat] at h
    exact h.trans (Int.natCast_ediv m 128).symm
  obtain hv | ⟨hne, hv⟩ := hv
  · exact .inl (by rw [hv, hfloor]; rfl)
  · refine .inr ⟨fun h0 => hne ?_, by rw [hv, hfloor]; rfl⟩
    have hmul : ((m / 128 : Nat) : Rat) * 128 = (m : Rat) := by
      rw [← Nat.cast_ofNat (R := Rat), ← Nat.cast_mul, Nat.div_mul_cancel (Nat.dvd_of_mod_eq_zero h0)]
    rw [hfloor, Int.cast_natCast, eq_div_iff (by norm_num), hmul]

theorem enumFits_down (hr : ringAt n p s) (pred : Nat) : enumFits s false pred = decide (p = pred + 1) := by
  rw [enumFits, myPos_of hr]
  rfl

section
variable {l : List Nat} (hs : stopped s = false) (hr : ringAt n p s) (hph : s.phase = .loaded)
include hs hr hph

omit hs in
theorem ring_starts : ¬ (!hasRing s ∨ s.phase ≠ .loaded) := by
  have hring : hasRing s = true := onRing_of hr
  rw [hring, hph]
  simp

/-- The two ports of a secondary that does not rejoin train, or break their hops. -/
theorem exec_linkTraining_secondary (dUp uUp : Bool) (h2 : s.straps.role = 2) (hone : dUp = true ∨ uUp = true) :
    exec (.linkTraining dUp uUp false) s = .next (
      if dUp then (if uUp then portsUp s else breakHop true ((p + n - 1) % n) (portsUp s)) else breakHop true p (portsUp s)) := by
  have hup : ringAt n p (portsUp s) := hr
  have hsec : ∀ own h, (breakHop own h (portsUp s)).straps.role = 2 := fun own h => by rw [breakHop_straps]; exact h2
  rw [exec_linkTraining _ _ _ hs, if_neg (ring_starts hr hph), downHop_of hup]
  dsimp only
  cases dUp with
  | false =>
    obtain rfl : uUp = true := hone.resolve_left (by decide)
    rw [if_neg Bool.false_ne_true, if_pos rfl, if_neg Bool.false_ne_true, enumSent_unchanged (hsec true p)]
  | true =>
    rw [if_pos rfl, if_pos rfl]
    cases uUp with
    | false => rw [if_neg Bool.false_ne_true, if_neg Bool.false_ne_true, upHop_of hup, enumSent_unchanged (hsec true _)]
    | true => rw [if_pos rfl, if_pos rfl, enumSent_unchanged (v := portsUp s) h2]

theorem exec_linkTraining_primary (h1 : s.straps.role = 1) (hb : s.bgt.broken = []) :
    exec (.linkTraining true true false) s = .next (queued true { kind := 9 } (portsUp s)) := by
  have hsent : enumSent (portsUp s) = sendOut true { kind := 9 } (portsUp s) := by
    rw [enumSent, if_pos (isPrimary_of (s := portsUp s) h1)]
    exact if_pos hb
  rw [exec_linkTraining _ _ _ hs, if_neg (ring_starts hr hph), ← sendOut_eq_queued, ← hsent]
  rfl

theorem exec_enum_secondary (f : BFrame) (h2 : s.straps.role = 2) : exec (.enum false (some f) l) s =
    if p = f.info.toNat % 8 + 1 then .next (queued true { f with info := BitVec.ofNat 32 p } { s with bgt := { s.bgt with state := .on } })
    else .next (excludeSelf s) := by
  rw [exec_enum _ _ _ hs, if_neg (ring_starts hr hph)]
  dsimp only
  rw [if_neg (by simp [isPrimary_none h2]), enumFits_down hr, passOn, sendOut_eq_queued, myPos_of hr]
  simp only [decide_eq_true_eq]
  rfl

theorem exec_enum_primary (f : Option BFrame) (h1 : s.straps.role = 1) : exec (.enum false f l) s = match f with
    | some f => if s.bgt.broken = [] then
          .next (ringCounted (f.info.toNat % 8 + 1) false (BitVec.ofNat 8 (2 ^ (f.info.toNat % 8 + 1) - 1)) s)
        else .next s
    | none => .next (ringCounted s.config.hubs true ((0 :: l).foldl (fun (v : BitVec 8) p => v ||| (1#8 <<< p)) 0) s) := by
  rw [exec_enum _ _ _ hs, if_neg (ring_starts hr hph)]
  cases f with
  | some f =>
    dsimp only
    rw [if_pos (isPrimary_of h1)]
    exact if_congr (by simp) rfl rfl
  | none => exact if_pos (isPrimary_of h1)

theorem exec_alignmentTimeout_secondary (late : List Nat) (h2 : s.straps.role = 2) : exec (.alignmentTimeout late) s =
    if s.tb.aligned then .next s else .next (excludeSelf s) := by
  rw [exec_alignmentTimeout _ hs, if_neg (ring_starts hr hph), if_neg (by simp [isPrimary_none h2])]

theorem exec_alignmentTimeout_primary (late : List Nat) (h1 : s.straps.role = 1) :
    exec (.alignmentTimeout late) s = .next (forEach late noteExcluded s) := by
  rw [exec_alignmentTimeout _ hs, if_neg (ring_starts hr hph), if_pos (isPrimary_of h1)]
end

/-- Once the count is known without a return of ENUM, the ring is a chain. -/
theorem ringCounted_chain (n : Nat) (reach : BitVec 8) (s : State) : (ringCounted n true reach s).bgt.state = .on ∧
    (ringCounted n true reach s).bgt.rstate = 3 ∧ (ringCounted n true reach s).bgt.hubs = n ∧ (ringCounted n true reach s).bgt.reach = reach := by
  have h := ringCounted_onlyPorts n true reach s
  exact ⟨keeps_of_onlyPorts h (fun v => v.bgt.state) fun _ _ _ => rfl, keeps_of_onlyPorts h (fun v => v.bgt.rstate) fun _ _ _ => rfl,
    keeps_of_onlyPorts h (fun v => v.bgt.hubs) fun _ _ _ => rfl, keeps_of_onlyPorts h (fun v => v.bgt.reach) fun _ _ _ => rfl⟩

theorem ringStart : RingStart := by
  intro n p s hs hr
  have hring : hasRing s = true := onRing_of hr
  refine ⟨fun hph a b c atD f l late => ?off, fun hph => ?loaded, fun h trips skew hlt hl hh => ⟨fun hk => ?measured, fun hk ho => ?skewed⟩,
    fun h trips skew hno => ?idle⟩
  case off =>
    rw [exec_linkTraining _ _ _ hs, exec_enum _ _ _ hs, exec_alignmentTimeout _ hs, if_pos (.inr hph), if_pos (.inr hph), if_pos (.inr hph)]
    exact ⟨rfl, rfl, rfl⟩
  case loaded =>
    intro up
    have hrup : ringAt n p up := hr
    have hsup : stopped up = false := hs
    refine ⟨fun h2 => ⟨?bothUp, ?downLost, ?upLost⟩, fun h1 hb => exec_linkTraining_primary hs hr hph h1 hb,
      fun f l h2 => ⟨fun hfit => ?fits, fun hfit hex => ⟨_, ?misfit, ?_, excludeSelf_onlyPorts s⟩, ?silent⟩,
      fun f l h1 => ⟨fun hb => ⟨_, ?counted, ringCounted_onlyPorts _ false _ s⟩, fun hb => ?broken, ?chain⟩,
      fun h2 late => ⟨fun hal => ?aligned, fun hal hex => ⟨_, ?late, excludeSelf_onlyPorts s⟩⟩,
      fun h1 hq q h0 h8 hbit => ⟨_, exec_alignmentTimeout_primary hs hr hph [q] h1, noteExcluded_spec h0 h8 hbit hq⟩⟩
    case bothUp => exact exec_linkTraining_secondary hs hr hph true true h2 (.inl rfl)
    case downLost =>
      rw [exec_linkTraining_secondary hs hr hph false true h2 (.inr rfl), exec_hopBreak_own hsup ((ownHop_iff hrup).mpr (.inl rfl))]
      rfl
    case upLost =>
      rw [exec_linkTraining_secondary hs hr hph true false h2 (.inl rfl), exec_hopBreak_own hsup ((ownHop_iff hrup).mpr (.inr rfl))]
      rfl
    case fits => rw [exec_enum_secondary hs hr hph f h2, if_pos hfit.symm]
    case misfit => rw [exec_enum_secondary hs hr hph f h2, if_neg (Ne.symm hfit)]
    · exact keeps_of_onlyPorts (excludeSelf_onlyPorts s) (fun v => v.bgt.excl) fun _ _ _ => rfl
    case silent =>
      rw [exec_enum _ _ _ hs, if_neg (ring_starts hr hph)]
      exact if_neg (by simp [isPrimary_none h2])
    case counted => exact (exec_enum_primary hs hr hph (some f) h1).trans (if_pos hb)
    case broken => exact (exec_enum_primary hs hr hph (some f) h1).trans (if_neg hb)
    case chain =>
      obtain ⟨hstate, hrstate, hhubs, hreach⟩ := ringCounted_chain s.config.hubs ((0 :: l).foldl (fun (v : BitVec 8) p => v ||| (1#8 <<< p)) 0) s
      exact ⟨_, exec_enum_primary hs hr hph none h1, hstate, hrstate, hhubs, fun q hq => by rw [hreach]; exact bit_reached l hq⟩
    case aligned => rw [exec_alignmentTimeout_secondary hs hr hph late h2, if_pos hal]
    case late => rw [exec_alignmentTimeout_secondary hs hr hph late h2, if_neg (by simp [hal])]
  case measured =>
    have hmean := roundFree_mean trips.sum s
    refine ⟨(roundFree ((trips.sum : Nat) / 128 : Rat) s).1.toNat, calibrated h trips s, ?_, hmean, ?_, calibrated_frame h trips s⟩
    · rw [exec_hopCalibration _ _ _ hs, if_neg (by rw [hring, ringHubs_of hr]; simp [hopUp, hh, hl, hlt]), hopDelay_some hl hk]
      rfl
    · refine (Mem.read_write_same _ _ _ _).trans (BitVec.eq_of_toNat_eq ?_)
      rw [BitVec.toNat_ofNat, BitVec.toNat_ofNat]
      exact Nat.mod_mod _ _
  case skewed =>
    have hown : ownHop s h = true := (ownHop_iff hr).mpr ho
    rw [exec_hopCalibration _ _ _ hs, if_neg (by rw [hring, ringHubs_of hr]; simp [hopUp, hh, hl, hlt]), hopDelay_none (.inr hk),
      exec_hopBreak_own hs hown, hown]
  case idle =>
    rw [exec_hopCalibration _ _ _ hs, if_pos]
    rw [ringHubs_of hr]
    obtain hno | hno | hno := hno
    · exact .inr (.inl hno)
    · exact .inr (.inr (.inl hno))
    · exact .inr (.inr (.inr (by simp [hopUp, hno])))

/-- Settles O56: the ring's start, and its breaks and repairs. -/
theorem ringStartAndBreaks : Obligations.RingStartAndBreaks := ⟨ringStart, ringBreaks⟩

end Sys2Proof.Machine
end
